-- ==== Sys2Proof/Word.lean ====
section
/-!
DEFINITION. The words of the block and the fixed sets of names the spec uses everywhere: copies, engines, planes,
masters, split modes, run states.
-/
namespace Sys2Proof

/-- A 32-bit register value (R7). -/
abbrev Word := BitVec 32
/-- One byte of a memory. -/
abbrev Byte := BitVec 8
/-- A 64-bit counter or time value. -/
abbrev DWord := BitVec 64
/-- A sparse table: strictly rising keys, no entry equal to what an unlisted key reads as. -/
abbrev Tbl (α : Type) := List (Nat × α)

/-- The three safety copies (00_scope.md, "Names"). -/
inductive Copy where
  | a | b | c
  deriving DecidableEq, Repr

/-- The three Benmi engines (00_scope.md, "Names"). -/
inductive Engine where
  | e0 | e1 | e2
  deriving DecidableEq, Repr

/-- The two comparators of tussock reports (R92). -/
inductive Comparator where
  | x | y
  deriving DecidableEq, Repr

/-- The split modes of the safety cluster (R123). -/
inductive SplitMode where
  | triplex | duplexPlusOne | simplexThree
  deriving DecidableEq, Repr

/-- The run states of a unit (R39). -/
inductive RunState where
  | off | starting | on | stopping | faulted
  deriving DecidableEq, Repr

/-- The states of a long operation (R50). -/
inductive OpPhase where
  | idle | queued | running | done | failed | aborted | suspended
  deriving DecidableEq, Repr

/-- The writing planes of register pages (R19) and the planes of reports (R21). -/
inductive Plane where
  | control | data | management
  deriving DecidableEq, Repr

/-- Whoever makes an access (R18, R31, R487): the safety cluster, an application core, an independent core
(copy B or C outside the participants, R127), the debug port through a hart, a stacked module, data-plane DMA,
the Benmi transfer port, the VME inbound path, the persistent-state engine. -/
inductive Master where
  | cluster
  | app (n : Fin 4)
  | core (cp : Copy)
  | debug (hart : Fin 5)
  | remote (id : Fin 8)
  | dma
  | benmi
  | vmeIn
  | pse
  deriving DecidableEq, Repr

end Sys2Proof
end

