-- ==== Sys2Proof/Syntax.lean ====
section
/-!
DEFINITION. The commands the block takes: one constructor of `Instr` per row of spec/opcode_table.json, with the
row's operands, and the types of those operands.

An operand is either what the row's originator supplies (a register value, a frame, an address), or what the outside
world does in the row's event (a pin level, a measured frequency, what another bus master answers). Where a row names
the elapse of an interval, the command IS that elapse.
-/
namespace Sys2Proof

/-! ## Operands of the safety cluster's commands (chapters 03 and 04) -/

/-- The kinds of distributed read (R71): a load, an LR, a CSR read, the result of an SC or AMO, the wake-up of WFI. -/
inductive ReadKind where
  | load
  | lr
  | csr (num : BitVec 12)
  | result
  | wfi
  deriving DecidableEq, Repr

/-- The kinds of voted write (R77). -/
inductive WriteKind where
  | store
  | sc
  | amo (funct5 : BitVec 5)
  deriving DecidableEq, Repr

/-- The load, store or AMO record of a retired instruction (R89); SIZE is the log2 of the bytes. -/
inductive MemRec where
  | load (size : Fin 4) (addr : BitVec 40)
  | store (size : Fin 4) (addr : BitVec 40) (data : DWord)
  | amo (size : Fin 4) (funct5 : BitVec 5) (addr : BitVec 40) (src : DWord)
  deriving DecidableEq, Repr

/-- The register-write record of a retired instruction (R89). -/
inductive RegRec where
  | int (n : Fin 32) (v : DWord)
  | fp (n : Fin 32) (v : DWord)
  deriving DecidableEq, Repr

/-- A word that an instruction read and that its SECDED cannot correct (R67): in the TCM or in an L1 cache. -/
inductive BadRead where
  | tcm
  | l1
  deriving DecidableEq, Repr

/-- A core's retirement of one instruction, as R89 and R457 record it: the privilege it ran at (0 U, 1 S, 2 M), its
address and that of the next one, the instruction word, the CSR changes of a trap entry taken before it (R32 item 3),
its own records, whether it was an MRET, whether a trigger or ebreak
enters debug mode after it (R130), a word it read that ECC could not correct, the facts that R457 samples
(latency, flags, whether the sampler's write buffer was full) and the core events of R453 it brought. -/
structure Retirement where
  priv : Fin 3
  pc : DWord
  nextPc : DWord
  insn : Word
  entry : List (BitVec 12 × DWord)
  mem : Option MemRec
  csrs : List (BitVec 12 × DWord)
  reg : Option RegRec
  mret : Bool
  halts : Bool
  bad : Option BadRead
  latency : BitVec 16
  flags : BitVec 16
  bufferFull : Bool
  events : List (Fin 16 × Nat)
  deriving DecidableEq, Repr

/-- The core that retires an instruction: a copy, or an application core (whose retirements only the sampler and the
programmable counters see, R455, R457). -/
inductive RetiringCore where
  | copy (cp : Copy)
  | app (n : Fin 4)
  deriving DecidableEq, Repr

/-- A register of a copy that the debugger can write (R130): integer, floating-point, CSR (triggers included), pc. -/
inductive DebugReg where
  | x (n : Fin 32)
  | f (n : Fin 32)
  | csr (n : BitVec 12)
  | dpc
  deriving DecidableEq, Repr

/-- An upset of a memory word found by a scrub: the index of the word, and whether two of its bits flipped (then it is
uncorrectable) or one (R67, R68, R140). -/
structure Upset where
  word : Nat
  double : Bool
  deriving DecidableEq, Repr

/-- Why a reseed failed (R116). -/
inductive ReseedFailure where
  | late | uncorrectable | overdue
  deriving DecidableEq, Repr

/-- Who asks for a FORCED tussock (R90, R96): a schedule slot, or the output commit of a Benmi program. -/
inductive ForcedBy where
  | slot (n : Fin 64)
  | program (p : Fin 8)
  deriving DecidableEq, Repr

/-- A page access by a stacked module (R47): a read, or a write with the plane of its originator. -/
inductive RemoteReq where
  | read
  | write (plane : Plane) (v : Word)
  deriving DecidableEq, Repr

/-! ## Operands of the scan and of the timebase (chapters 05 to 07) -/

/-- A write from outside the engines (R138): a voted cluster write through view 0 or 1, or a delivery of the transfer
port into data memory. -/
inductive Insertion where
  | view0 (off : Nat) (data : List Byte)
  | view1 (off : Nat) (data : List Byte)
  | delivery (off : Nat) (data : List Byte)
  deriving DecidableEq, Repr

/-- How ENGINE_RESEED_FAILED comes about (R165). -/
inductive EngineReseedFailure where
  | overdue | uncorrectable | differ
  deriving DecidableEq, Repr

/-- The result of a run of the engines' self-test (R166). -/
inductive CleSelftest where
  | pass | wrong | overdue
  deriving DecidableEq, Repr

/-! ## Operands of the switch, the safe data and the fieldbuses (chapters 08 and 09) -/

/-- A slave frame as an MVB line carried it: its data bytes and whether its check sequence is valid; none where the
line carried nothing. -/
abbrev LineFrame := Option (List Byte × Bool)

/-- A CAN or CAN FD frame (R296, R299). -/
structure CanFrame where
  id : BitVec 29
  ide : Bool
  rtr : Bool
  dlc : BitVec 4
  fdf : Bool
  brs : Bool
  esi : Bool
  data : List Byte
  deriving DecidableEq, Repr

/-- How an attempt to send a CAN frame ended (R300). -/
inductive CanResult where
  | sent | arbitrationLost | error
  deriving DecidableEq, Repr
/-! ## Operands of the supervisor and the stack (chapters 14 and 16) -/

/-- One sample of the straps (R125, R341, R441, R449, R460): MODE, STACK_ID, UNIT_SIDE,
TEST_EN_N low, VME_SYSCON_N low. -/
structure Straps where
  mode : BitVec 2
  stackId : BitVec 3
  side : Bool
  testEnLow : Bool
  sysconLow : Bool
  deriving DecidableEq, Repr

/-- A Vaoskad heartbeat (R449): STACK_ID, NT, MASTER, CLAIMING, ACTIVE_OUTPUTS, WITHDRAW_REQ with its target. -/
structure Heartbeat where
  id : Fin 8
  nt : DWord
  master : Fin 8
  claiming : Bool
  activeOutputs : Bool
  withdraw : Option (Fin 8)
  deriving DecidableEq, Repr

/-! ## Operands of the debug port (chapter 15) -/

/-- A DMI operation (R459): none, a read, a write. -/
inductive DmiOp where
  | nop | read | write
  deriving DecidableEq, Repr

/-! ## Operands of the VME bridge (chapter 11) -/

/-- What the bus answers to a read of the bridge: the bytes in ascending VME address, or a failure (BERR). -/
abbrev VmeAnswer := Option (List Byte)

/-- The bridge's cycle that runs out of time: the posted write at the head of the FIFO, a read-buffer fetch, or a cycle of
another bus master. -/
inductive VmeCycle where
  | posted
  | read (m : Master) (addr : BitVec 40) (size : Nat)
  | other
  deriving DecidableEq, Repr

/-- A cycle that another bus master addresses to the module (R340, R354): address modifier, address, bytes. -/
structure InboundCycle where
  am : BitVec 6
  addr : Word
  bytes : Nat
  deriving DecidableEq, Repr


/-- The commands of the block: one constructor per row of spec/opcode_table.json. -/
inductive Instr where
  -- chapters 01 and 02: register pages, run states, long operations, audits, ledger
  | nonAlignedPageAccess (m : Master) (addr : BitVec 40) (size : Nat) (write : Bool)
  | accessViolation (m : Master) (addr : BitVec 40) (size : Nat) (write : Bool)
  | misalignedAccess (m : Master) (addr : BitVec 40) (size : Nat) (write : Bool)
  | registerWrite (m : Master) (page off : Nat) (v : Word)
  | eventCtrLoRead (m : Master) (page : Nat) (n : Fin 16)
  | loRegisterRead (m : Master) (page off : Nat)
  | ckMeasUpdate (khz : List Word)
  | pllUnlock (pll : Fin 8)
  | faultRecordValid (fifo : Plane)
  | enableWrite (m : Master) (page : Nat) (b : Bool)
  | freezeWrite (m : Master) (page : Nat) (b : Bool)
  | localReset (m : Master) (page : Nat)
  | lock (m : Master) (page : Nat)
  | startCompletes (page : Nat)
  | drainCompletes (page : Nat)
  | opStart (m : Master) (page : Nat) (opcode : Fin 16)
  | opAbort (m : Master) (page : Nat)
  | opSuspend (m : Master) (page : Nat)
  | opResume (m : Master) (page : Nat)
  | opRunBegin (page : Nat)
  | opItemComplete (page : Nat) (result : Bool) (error : Word) (last : Bool)
  | opSelfSuspend (page : Nat)
  | opSelfResume (page : Nat)
  | auditSnap (m : Master) (page : Nat)
  | auditCaptureComplete (page : Nat)
  | ledgerSnap (m : Master)
  | remoteAccessTimeout (m : Master) (stack : Fin 8) (page off : Nat) (write : Bool)
  -- chapter 03: distributor, voter, interrupts, tussocks
  | distributedRead (cp : Copy) (kind : ReadKind) (addr : BitVec 40) (size : Nat) (ext : DWord)
  | distributedReadResume (cp : Copy) (ext : DWord)
  | loadReserved (cp : Copy) (addr : BitVec 40) (size : Nat) (ext : DWord)
  | storeConditional (cp : Copy) (addr : BitVec 40) (size : Nat) (data : DWord)
  | amo (cp : Copy) (addr : BitVec 40) (size : Nat) (funct5 : BitVec 5) (src : DWord)
  | wfi (cp : Copy)
  | votedWritePresent (cp : Copy) (addr : BitVec 40) (size : Nat) (data : DWord)
  | votedWritePerformed (r : VmeAnswer)
  | voteLate (ord : DWord)
  | commitClassRelease (ord : DWord)
  | voterStallResume (cp : Copy)
  | interruptChange (lines : DWord)
  | messageInterrupt (vector : BitVec 16)
  | msgClaim (m : Master)
  | instructionRetire (core : RetiringCore) (r : Retirement)
  | tussockReportArrival (cmp : Comparator) (cp : Copy) (retries : Nat) (linkOk : Bool)
  | ckptTimeout (cmp : Comparator)
  | ckptGap
  | ckptStall
  | ckptRequest (cp : Copy) (data : DWord)
  | forcedTussockRequest (by_ : ForcedBy)
  | ckptIntervalWrite (m : Master) (v : Word)
  | tcmScrub (cp : Copy) (upset : Option Upset)
  | sharedScrub (upset : Option Upset)
  | configEchoMismatch (interval timeout gap vote : Word)
  -- chapter 04: verdicts, reseeding, retirement, debug replay
  | verdictPair (k : DWord)
  | verdictMissing (k : DWord)
  | reseedResetDone
  | reseedPassEnd
  | reseedRelease
  | reseedFailed (why : ReseedFailure)
  | retirementRecordCommit
  | duckboardExpired
  | duckboardGraceEnd
  | comparatorSelftest (x y : BitVec 6)
  | coreStart (m : Master) (v : Word)
  | debugHaltRequest
  | debugRegisterWrite (r : DebugReg) (v : DWord)
  | debugTcmWrite (addr : BitVec 40) (size : Nat) (data : DWord)
  | debugDeviceWrite (addr : BitVec 40) (size : Nat) (data : DWord)
  | debugDeviceRead (addr : BitVec 40) (size : Nat) (ext : DWord)
  | debugStep
  | debugResume
  | reseedReport
  -- chapter 05: Benmi instructions, as the words at PC spell them (SPACE, ADDR, the second word where one follows)
  | benmiNop (space : BitVec 4) (addr : BitVec 20)
  | ldb (space : BitVec 4) (addr : BitVec 20)
  | ldbn (space : BitVec 4) (addr : BitVec 20)
  | andb (space : BitVec 4) (addr : BitVec 20)
  | andbn (space : BitVec 4) (addr : BitVec 20)
  | orb (space : BitVec 4) (addr : BitVec 20)
  | orbn (space : BitVec 4) (addr : BitVec 20)
  | xorb (space : BitVec 4) (addr : BitVec 20)
  | xorbn (space : BitVec 4) (addr : BitVec 20)
  | bra (space : BitVec 4) (addr : BitVec 20)
  | bro (space : BitVec 4) (addr : BitVec 20)
  | brc (space : BitVec 4) (addr : BitVec 20)
  | stb (space : BitVec 4) (addr : BitVec 20)
  | stbn (space : BitVec 4) (addr : BitVec 20)
  | setb (space : BitVec 4) (addr : BitVec 20)
  | clrb (space : BitVec 4) (addr : BitVec 20)
  | edgr (space : BitVec 4) (addr : BitVec 20)
  | edgf (space : BitVec 4) (addr : BitVec 20)
  | ton (space : BitVec 4) (addr : BitVec 20)
  | tof (space : BitVec 4) (addr : BitVec 20)
  | tp (space : BitVec 4) (addr : BitVec 20)
  | ctu (space : BitVec 4) (addr : BitVec 20)
  | ctd (space : BitVec 4) (addr : BitVec 20)
  | ldw (space : BitVec 4) (addr : BitVec 20) (second : Word)
  | stw (space : BitVec 4) (addr : BitVec 20)
  | movw (space : BitVec 4) (addr : BitVec 20) (second : Word)
  | benmiAdd (space : BitVec 4) (addr : BitVec 20) (second : Word)
  | benmiSub (space : BitVec 4) (addr : BitVec 20) (second : Word)
  | benmiMul (space : BitVec 4) (addr : BitVec 20) (second : Word)
  | ceq (space : BitVec 4) (addr : BitVec 20) (second : Word)
  | cne (space : BitVec 4) (addr : BitVec 20) (second : Word)
  | cgt (space : BitVec 4) (addr : BitVec 20) (second : Word)
  | cge (space : BitVec 4) (addr : BitVec 20) (second : Word)
  | clt (space : BitVec 4) (addr : BitVec 20) (second : Word)
  | cle (space : BitVec 4) (addr : BitVec 20) (second : Word)
  | benmiShl (space : BitVec 4) (addr : BitVec 20)
  | benmiShr (space : BitVec 4) (addr : BitVec 20)
  | benmiSar (space : BitVec 4) (addr : BitVec 20)
  | jmp (space : BitVec 4) (addr : BitVec 20)
  | jbt (space : BitVec 4) (addr : BitVec 20)
  | jbf (space : BitVec 4) (addr : BitVec 20)
  | benmiCall (space : BitVec 4) (addr : BitVec 20)
  | benmiRet (space : BitVec 4) (addr : BitVec 20)
  | dch (space : BitVec 4) (addr : BitVec 20)
  | benmiEnd (space : BitVec 4) (addr : BitVec 20)
  | externalWriteInsertion (w : Insertion)
  | viewRead (view : Fin 4) (off : Nat)
  | benmiScrub (engine : Engine) (prog data : Option Upset)
  | engineReseed
  | engineReseedFailed (why : EngineReseedFailure)
  | cleSelftest (r : CleSelftest)
  | imageCheck
  -- chapter 06: the scan
  | cyclicTrigger (p : Fin 8)
  | inputFreeze (p : Fin 8)
  | executeResume (p : Fin 8)
  | outputStaging (p : Fin 8)
  | outputRelease (p : Fin 8)
  | outputWriteOut (p : Fin 8)
  | housekeeping (p : Fin 8)
  | overrun (p : Fin 8)
  | startWarm (m : Master) (p : Fin 8)
  | startCold (m : Master) (p : Fin 8)
  | stop (m : Master) (p : Fin 8)
  | exchange (m : Master) (p : Fin 8)
  | pairTick
  -- chapter 07: the timebase
  | syncMessage (time : DWord)
  | ntHoldover
  | ntLost
  | mpUpdate (phase : Word) (freq : Word)
  | mpHoldover
  | mpHoldoverClear
  | tachoEdge (axle : Fin 4) (a b : Bool)
  | speedUpdate
  | slotCtrlWrite (m : Master) (slot : Fin 64) (v : Word)
  | slotFire (slot : Fin 64)
  | slotNone (slot : Fin 64)
  | cleTrigger (slot : Fin 64)
  | measSnapshot (slot : Fin 64)
  | commitInstant (slot : Fin 64)
  | forcedCheckpoint (slot : Fin 64)
  | gateSwap (slot : Fin 64)
  | coreInterrupt (slot : Fin 64)
  | bankSwap (slot : Fin 64)
  | stackSync (slot : Fin 64)
  | syncCmd (m : Master) (v : Word)
  | syncInEdge
  | syncTargetReceived (target : DWord) (masterNoNt : Bool)
  | syncApply
  | measSync
  -- chapter 08: the switch
  | frameReceive (port : Fin 8) (frame : List Byte) (fcsOk : Bool)
  | frameTransmit (port : Fin 8)
  | txAgeLimit (port : Fin 8) (cls : Fin 8)
  | gateCycleStart (port : Fin 8)
  | gateEntryChange (port : Fin 8)
  | fdbAgeOut (mac : BitVec 48) (vid : BitVec 12)
  | linkLost (port : Fin 8)
  | gptpSyncSend
  | peerDelayExchange (port : Fin 8) (delay : Option Word)
  | cbReset (stream : Fin 256)
  | nodeForget (mac : BitVec 48)
  | lifeCheck
  | fdbLookup (m : Master)
  | fdbAdd (m : Master)
  | fdbDelete (m : Master)
  | vlanRead (m : Master)
  | vlanWrite (m : Master)
  | streamRead (m : Master)
  | streamWrite (m : Master)
  | meterRead (m : Master)
  | meterWrite (m : Master)
  | entryRead (m : Master) (page : Fin 2)
  | entryWrite (m : Master) (page : Fin 2)
  | qPostedWrite (m : Master) (q : Fin 64) (v : Word)
  | descriptorFetch (q : Fin 64)
  | descriptorWriteBack (q : Fin 64)
  | queueIrqTimer (q : Fin 64)
  | heldDeliveryWrite (entry : Fin 2048)
  | trdpTimeout (entry : Fin 2048)
  -- chapter 09: safe data, MVB, CAN FD
  | twinWindow (slot : Fin 256)
  | twinLingerEnd (slot : Fin 256)
  | chanRead (m : Master)
  | chanWrite (m : Master)
  | basicPeriod (ctl : Fin 2)
  | mvbReplyTimeout (ctl : Fin 2)
  | mvbMasterFrame (ctl : Fin 2) (fcode : BitVec 4) (addr : BitVec 12)
  | mvbSlaveFrame (ctl : Fin 2) (a b : LineFrame)
  | portRead (m : Master) (ctl : Fin 2)
  | portWrite (m : Master) (ctl : Fin 2)
  | pollRead (m : Master) (ctl : Fin 2)
  | pollWrite (m : Master) (ctl : Fin 2)
  | canFrameReceive (ctl : Fin 4) (f : CanFrame)
  | canFrameTransmit (ctl : Fin 4) (r : CanResult)
  | busOff (ctl : Fin 4)
  | canRecover (m : Master) (ctl : Fin 4)
  | busOffRecoveryDone (ctl : Fin 4)
  | canPostedWrite (m : Master) (ctl : Fin 4) (tx : Bool) (v : Word)
  | canIrqTimer (ctl : Fin 4)
  -- chapters 14 and 16: supervisor, causeway, stack
  | vddSupUp (s0 s1 s2 : Straps) (resetReqHigh : Bool)
  | supervisorReset (latchCut : Bool)
  | pllRestart (locked : Bool)
  | powerGood
  | railTrip (rail : Fin 8)
  | clockTrip (domain : Fin 11)
  | oscTrip
  | railDropAfterWarning (rail : Fin 8)
  | monitorTest (tripped : Bool)
  | summaryTake
  | lockoutReportRetry
  | safeRequest (m : Master) (v : Word)
  | safeEnSense (staticDiffers dynDiffers : Bool)
  | resetPressStart
  | resetPressRelease (us : Nat)
  | resetStuck
  | restartCmd (m : Master) (v : Word)
  | moduleReset
  | noVerdict
  | claimCtrlWrite (m : Master) (v : Word)
  | claimStart
  | claimActive
  | peerClaimStopped
  | claimLineRelease
  | cwayDisagree
  | frozenClear
  | peerNoWithdraw
  | heartbeatSend
  | heartbeatReceived (hb : Heartbeat)
  | memberLost (id : Fin 8)
  | mastershipTakeover
  | ringOpen (port : Fin 2)
  | cwayClaimInEdge (ns : Nat)
  | linkUp (port : Fin 8) (partner : Fin 4)
  | portUp (port : Fin 2)
  | railWindowBeforePowerGood (rails : BitVec 8) (pfwHigh : Bool)
  -- chapter 15: counters, windows, sampling, debug port, workshop access, perturbation
  | pmcSelWrite (m : Master) (k : Fin 112) (v : Word)
  | bwWindowEnd
  | bwWindowWrite (m : Master) (v : Word)
  | smpCtrlWrite (m : Master) (n : Fin 5) (v : Word)
  | extest (scan : DWord)
  | idcode
  | samplePreload (scan : DWord)
  | dtmcs (v : Word)
  | dmi (op : DmiOp) (addr : Nat) (data : Word)
  | workshop (v : Word)
  | bypass (ir : BitVec 5) (scan : DWord)
  | wsUnlock (m : Master) (v : Word)
  | unlockGap
  | wsClose (m : Master) (v : Word)
  | testEnHigh
  | faultInjectWrite (m : Master) (page : Nat) (v : Word)
  | ptCkpt (m : Master) (v : Word)
  | ptSig (m : Master) (v : Word)
  | ptVote (m : Master) (v : Word)
  | ptEgress (m : Master) (v : Word)
  | ptDrop (m : Master) (v : Word)
  | ptDtack (m : Master) (v : Word)
  | ptMp (m : Master) (v : Word)
  | ptCle (m : Master) (v : Word)
  | ptMem (m : Master) (v : Word)
  | ptDelayedReportRelease (cp : Copy)
  -- chapter 12: the persistent-state engine, retention, the recorder
  | startDone
  | recordMark
  | commit (m : Master) (mgmt : Bool)
  | journal (m : Master) (mgmt : Bool)
  | commitRequestDone (mgmt : Bool)
  | retentionCharge (milliC : Int)
  | offTimeCharge
  | offWait
  | retentionTableCommit
  | refresh
  | mramScrub (upset : Option Upset) (again : Bool)
  | powerFailRecordPeriodic
  | powerFailWarning
  | pfDone
  | pfwRelease
  | recorderSecond (milliC : Int) (railsMv : List Nat)
  | epochClose
  | runningRecord
  | exportEpochs
  | exportLifetime
  -- chapter 13: bundles, update, settings, commissioning
  | beginHusk
  | huskWrite
  | abandon
  | verify
  | verifyDone
  | arm
  | disarm
  | confirm
  | fallback
  | writeGen
  | pcvConfirm (m : Master) (v : Word)
  | pcvConfirmDeferred
  -- chapter 10: the measurement chain
  | modStuck (ch : Fin 32)
  | modStuckClear (ch : Fin 32)
  | chainOutput (ch : Fin 32) (bits : List Bool)
  | resamplerOutput (ch : Fin 32) (at_ : DWord)
  | bankLoad (ch : Fin 32)
  | swap (m : Master) (ch : Fin 32)
  | swapOnSync (m : Master) (ch : Fin 32)
  | cancel (m : Master) (ch : Fin 32)
  | bankSwapApply (ch : Fin 32)
  | zeroCrossing
  | trackerUpdate
  | lockLost
  | detectionWindow
  | outputInputSample (out : Fin 8)
  | outPostedWrite (m : Master) (out : Fin 8) (v : Word)
  | coefLoad (out : Fin 8)
  | channelStartCheck (unit : Fin 40)
  | measTripLine (line : Fin 8)
  -- chapters 11 and 16: the VME bridge
  | vmeOutboundRead (m : Master) (addr : BitVec 40) (size : Nat)
  | vmeReadReissue (m : Master) (addr : BitVec 40) (size : Nat)
  | vmeReadFetchDone (m : Master) (addr : BitVec 40) (size : Nat) (r : VmeAnswer)
  | vmePostedWrite (m : Master) (addr : BitVec 40) (size : Nat) (data : DWord)
  | vmeWriteResult (dtack : Bool)
  | busTimer (c : VmeCycle)
  | masterTimeout (c : VmeCycle)
  | bridgeFence (m : Master)
  | vmeAmo (m : Master) (addr : BitVec 40) (size : Nat) (funct5 : BitVec 5) (src : DWord) (r : VmeAnswer)
  | vmeLr (m : Master) (addr : BitVec 40) (size : Nat)
  | vmeSc (m : Master) (addr : BitVec 40) (size : Nat) (data : DWord) (dtack : Bool)
  | lrSemaphoreTimeout (m : Master)
  | vmeInboundWrite (c : InboundCycle) (data : List Byte)
  | vmeInboundRead (c : InboundCycle)
  | vmeInboundRmw (c : InboundCycle) (data : Option (List Byte))
  | lockBroken
  | irqPoll (asserted : BitVec 8) (acks : List (Option Word))
  | irqEnableWrite (m : Master) (v : Word)
  | vmeBusGrant
  | vmeBusRequest (level : Fin 4)
  | vmeDaisyChainInput (iackIn : Bool) (bgIn : BitVec 4)
  -- chapter 02: the stack
  | remotePageRequest (id : Fin 8) (page off : Nat) (req : RemoteReq)
  deriving DecidableEq, Repr

end Sys2Proof
end

