-- ==== Sys2Proof/Decode.lean ====
section
/-!
DEFINITION. The command that a word spells by the table's bits.
-/
namespace Sys2Proof

/-- Every row of spec/opcode_table.json has an empty list of fields: the spec gives its commands no bits, so that no word
spells a command. -/
def decodeTableWord (_nbits _w : Nat) : Option Instr := none

end Sys2Proof
end

