-- ==== Sys2Proof/Machine/Bits.lean ====
section
/-!
DEFINITION. Bit fields, byte order, saturating counters, and the sparse tables that hold registers and memories.
-/
namespace Sys2Proof

/-- Bits [hi:lo] of a word as a number (R6: bit 0 is the least significant). -/
def fieldOf (w : Word) (hi lo : Nat) : Nat := (w.toNat / 2 ^ lo) % 2 ^ (hi + 1 - lo)

/-- Bit `n` of a word. -/
def bitOf (w : Word) (n : Nat) : Bool := w.getLsbD n

/-- The word with ones in bits [hi:lo]. -/
def maskOf (hi lo : Nat) : Word := BitVec.ofNat 32 ((2 ^ (hi + 1 - lo) - 1) * 2 ^ lo)

/-- `w` with bits [hi:lo] replaced by the low bits of `v`. -/
def setField (w : Word) (hi lo v : Nat) : Word :=
  (w &&& ~~~(maskOf hi lo)) ||| (BitVec.ofNat 32 ((v % 2 ^ (hi + 1 - lo)) * 2 ^ lo))

/-- `w` with bit `n` set to `b`. -/
def setBit (w : Word) (n : Nat) (b : Bool) : Word :=
  if b then w ||| (1#32 <<< n) else w &&& ~~~(1#32 <<< n)

/-- A number placed at bit `lo` of a word. -/
def at' (v lo : Nat) : Word := BitVec.ofNat 32 (v * 2 ^ lo)

/-- A Boolean placed at bit `lo` of a word. -/
def flag (b : Bool) (lo : Nat) : Word := if b then BitVec.ofNat 32 (2 ^ lo) else 0#32

/-- The low and the high word of a 64-bit value (the _LO and _HI registers of R100). -/
def loWord (v : DWord) : Word := v.truncate 32
def hiWord (v : DWord) : Word := (v >>> 32).truncate 32
/-- The 64-bit value of a _LO and _HI pair. -/
def dword (hi lo : Word) : DWord := hi ++ lo

/-- A counter that stops at `top` (the "saturating" counters of the register tables). -/
def satAdd (top n k : Nat) : Nat := if top ≤ n + k then top else n + k
/-- A 32-bit register value counted up, saturating at 0xFFFF_FFFF. -/
def satWord (w : Word) (k : Nat) : Word := BitVec.ofNat 32 (satAdd (2 ^ 32 - 1) w.toNat k)
/-- Field [hi:lo] counted up, saturating at the field's largest value. -/
def satField (w : Word) (hi lo k : Nat) : Word :=
  setField w hi lo (satAdd (2 ^ (hi + 1 - lo) - 1) (fieldOf w hi lo) k)

/-- The signed value of the low `n` bits of a number, two's complement. -/
def signedOf (n v : Nat) : Int :=
  if v % 2 ^ n < 2 ^ (n - 1) then ((v % 2 ^ n : Nat) : Int) else ((v % 2 ^ n : Nat) : Int) - ((2 ^ n : Nat) : Int)
/-- A signed number as a 32-bit two's complement word. -/
def wordOfInt (i : Int) : Word := BitVec.ofInt 32 i

/-- The `n` bytes of a value, least significant first (R6: little-endian). -/
def leBytes : Nat → Nat → List Byte
  | 0, _ => []
  | n + 1, v => BitVec.ofNat 8 (v % 256) :: leBytes n (v / 256)
/-- The value of bytes, least significant first. -/
def ofLeBytes : List Byte → Nat
  | [] => 0
  | b :: t => b.toNat + 256 * ofLeBytes t
/-- The `n` bytes of a value, most significant first (network order). -/
def beBytes (n v : Nat) : List Byte := (leBytes n v).reverse
/-- The value of bytes, most significant first. -/
def ofBeBytes (l : List Byte) : Nat := ofLeBytes l.reverse
/-- `n` bytes of zero. -/
def zeros (n : Nat) : List Byte := List.replicate n 0#8
/-- A list cut or padded with zero bytes to `n` bytes. -/
def padTo (n : Nat) (l : List Byte) : List Byte := l.take n ++ zeros (n - l.length)

/-- Distance from `a` forward to `b` modulo 2^32 (the sequence arithmetic of R250). -/
def seqDist (a b : Word) : Nat := (b - a).toNat

/-! ## Sparse tables -/

/-- What key `k` reads as: its entry, or the value `d k` of an unlisted key. -/
def tblRead {α : Type} (d : Nat → α) : Tbl α → Nat → α
  | [], k => d k
  | (k', v) :: t, k => if k' = k then v else tblRead d t k

/-- The table without an entry for `k`. -/
def tblErase {α : Type} : Tbl α → Nat → Tbl α
  | [], _ => []
  | (k', v) :: t, k => if k' = k then tblErase t k else (k', v) :: tblErase t k

/-- The table with `v` listed at `k`, keys kept rising. -/
def tblPut {α : Type} : Tbl α → Nat → α → Tbl α
  | [], k, v => [(k, v)]
  | (k', v') :: t, k, v =>
    if k' = k then (k, v) :: t else if k < k' then (k, v) :: (k', v') :: t else (k', v') :: tblPut t k v

/-- Writing `v` at `k`: the entry goes where `v` is what an unlisted `k` reads as, so that equal tables are equal
data. -/
def tblWrite {α : Type} [DecidableEq α] (d : Nat → α) (t : Tbl α) (k : Nat) (v : α) : Tbl α :=
  if v = d k then tblErase t k else tblPut t k v

/-- The canonical form: keys strictly rising from `lo`, no entry equal to what its key reads as unlisted. -/
def tblWfFrom {α : Type} [DecidableEq α] (d : Nat → α) : Nat → Tbl α → Bool
  | _, [] => true
  | lo, (k, v) :: t => decide (lo ≤ k) && decide (v ≠ d k) && tblWfFrom d (k + 1) t

/-- The canonical form of a whole table. -/
def tblWf {α : Type} [DecidableEq α] (d : Nat → α) (t : Tbl α) : Bool := tblWfFrom d 0 t

/-- Every entry whose key satisfies `p` removed (it then reads as unlisted). -/
def tblDrop {α : Type} (p : Nat → Bool) : Tbl α → Tbl α
  | [] => []
  | (k, v) :: t => if p k then tblDrop p t else (k, v) :: tblDrop p t

/-! ## Byte memories: an unlisted byte reads 0 -/

/-- What an unlisted byte of a memory reads as (DESIGN CHOICE, log entry 2). -/
def byteDefault (_ : Nat) : Byte := 0#8

/-- One byte of a memory. -/
def memByte (m : Tbl Byte) (a : Nat) : Byte := tblRead byteDefault m a
/-- A memory with one byte written. -/
def memSet (m : Tbl Byte) (a : Nat) (b : Byte) : Tbl Byte := tblWrite byteDefault m a b
/-- `n` bytes from address `a` up. -/
def memBytes (m : Tbl Byte) (a : Nat) : Nat → List Byte
  | 0 => []
  | n + 1 => memByte m a :: memBytes m (a + 1) n
/-- A memory with the bytes of a list written from address `a` up. -/
def memStore (m : Tbl Byte) (a : Nat) : List Byte → Tbl Byte
  | [] => m
  | b :: t => memStore (memSet m a b) (a + 1) t
/-- A little-endian value of `n` bytes at `a`. -/
def memLe (m : Tbl Byte) (a n : Nat) : Nat := ofLeBytes (memBytes m a n)

end Sys2Proof
end

