-- ==== Sys2Proof/Machine/Crc.lean ====
section
/-!
DEFINITION. The cyclic codes of the spec: CRC-64 of ECMA-182 (R88), CRC-32 of IEEE 802.3 (R57, R60, R170), and the
CRC-16 of the signature link (R91).
-/
namespace Sys2Proof

/-- One bit of a CRC that shifts left with polynomial `poly`, the message bit entering at the top. -/
def crcStepMsb (w : Nat) (poly : BitVec w) (c : BitVec w) (bit : Bool) : BitVec w :=
  if c.getMsbD 0 ^^ bit then (c <<< 1) ^^^ poly else c <<< 1

/-- A byte, most significant bit first. -/
def crcByteMsb (w : Nat) (poly : BitVec w) (c : BitVec w) (b : Byte) : BitVec w :=
  [7, 6, 5, 4, 3, 2, 1, 0].foldl (fun c i => crcStepMsb w poly c (b.getLsbD i)) c

/-- CRC-64 of ECMA-182: no reflection, no final XOR, bytes most significant bit first (R88), run on from `c`. -/
def crc64 (c : DWord) (bs : List Byte) : DWord := bs.foldl (crcByteMsb 64 0x42f0e1eba9ea3693#64) c

/-- CRC-16 with polynomial 0x1021 (R91), run on from `c`. -/
def crc16 (c : BitVec 16) (bs : List Byte) : BitVec 16 := bs.foldl (crcByteMsb 16 0x1021#16) c

/-- One bit of the reflected CRC-32. -/
def crc32Bit (c : Word) : Word := if c.getLsbD 0 then (c >>> 1) ^^^ 0xedb88320#32 else c >>> 1
/-- A byte of the reflected CRC-32. -/
def crc32Byte (c : Word) (b : Byte) : Word :=
  [0, 1, 2, 3, 4, 5, 6, 7].foldl (fun c _ => crc32Bit c) (c ^^^ b.zeroExtend 32)
/-- CRC-32 of IEEE 802.3 over bytes: initial value and final XOR 0xFFFF_FFFF. -/
def crc32 (bs : List Byte) : Word := bs.foldl crc32Byte 0xffffffff#32 ^^^ 0xffffffff#32

end Sys2Proof
end

