-- ==== Sys2Proof/Machine/Catalog.lean ====
section
/-!
DEFINITION. The register pages: which unit owns a page (R54 and each chapter's page list), its place in the tree
(R43 to R45), its capability bits, and the register tables of every unit with offsets, reset values and writable
fields.
-/
namespace Sys2Proof.Machine

/-- The kinds of unit that own a register page. -/
inductive UnitKind where
  | root | ident | clock | reset | faultMgr | workLedger
  | cluster | copy | cmp | redundancy | debugReplay
  | cle | engine | cleImage | program | dual | stations
  | switch | port | bridge | trdp | prp | gptp | streams | queues | queue
  | meas | chGroup | outputs | tracker | ch | out
  | timebase | time | axles | sched
  | vme
  | pstate | commitPorts | recorder | update | settings | commissioning
  | supervisor | causeway | stackLink | stackGroup
  | observe | pmc | bandwidth | sampler | workshop | perturb
  | safeData | fieldbus | mvb | can
  deriving DecidableEq, Repr

/-- How a writable field takes a write (R9); every field without an entry in a register's list is read-only or
has a rule of its own. -/
inductive FieldAccess where
  | rw | rwl
  deriving DecidableEq, Repr

/-- A writable field [hi:lo]; `ranges` lists the values it takes (none listed: every value). -/
structure FieldDesc where
  hi : Nat
  lo : Nat
  acc : FieldAccess
  ranges : List (Nat × Nat)
  deriving DecidableEq, Repr

/-- A row of a register table: offset of the first copy, how many copies, their stride, reset value, fields. -/
structure RegDesc where
  off : Nat
  count : Nat
  stride : Nat
  reset : Word
  fields : List FieldDesc
  deriving DecidableEq, Repr

/-- The unit that owns a page and its instance number (R27, R46, R54, R99, R132, R171, R207, R227, R274, R302, R337,
R359, R395, R422, R451, R464, R489). Every other page is unmapped (R54). -/
def pageUnit (p : Nat) : Option (UnitKind × Nat) :=
  if p < 0x040 then
    if p = 0x000 then some (.root, 0) else if p = 0x001 then some (.ident, 0)
    else if p = 0x002 then some (.clock, 0) else if p = 0x003 then some (.reset, 0)
    else if p = 0x004 then some (.faultMgr, 0) else if p = 0x005 then some (.workLedger, 0)
    else if p = 0x010 then some (.cluster, 0)
    else if 0x011 ≤ p ∧ p ≤ 0x013 then some (.copy, p - 0x011)
    else if 0x014 ≤ p ∧ p ≤ 0x015 then some (.cmp, p - 0x014)
    else if p = 0x016 then some (.redundancy, 0) else if p = 0x017 then some (.debugReplay, 0) else none
  else if p < 0x080 then
    if p = 0x040 then some (.cle, 0)
    else if 0x041 ≤ p ∧ p ≤ 0x043 then some (.engine, p - 0x041)
    else if p = 0x044 then some (.cleImage, 0)
    else if 0x048 ≤ p ∧ p ≤ 0x04f then some (.program, p - 0x048)
    else if p = 0x050 then some (.dual, 0) else if p = 0x051 then some (.stations, 0) else none
  else if p < 0x100 then
    if p = 0x080 then some (.switch, 0)
    else if 0x081 ≤ p ∧ p ≤ 0x088 then some (.port, p - 0x081)
    else if p = 0x089 then some (.bridge, 0)
    else if 0x08a ≤ p ∧ p ≤ 0x08b then some (.trdp, p - 0x08a)
    else if p = 0x08c then some (.prp, 0) else if p = 0x08d then some (.gptp, 0)
    else if p = 0x08e then some (.streams, 0) else if p = 0x08f then some (.queues, 0)
    else if 0x0c0 ≤ p then some (.queue, p - 0x0c0) else none
  else if p < 0x140 then
    if p = 0x100 then some (.meas, 0)
    else if 0x101 ≤ p ∧ p ≤ 0x104 then some (.chGroup, p - 0x101)
    else if p = 0x105 then some (.outputs, 0) else if p = 0x106 then some (.tracker, 0)
    else if 0x108 ≤ p ∧ p ≤ 0x127 then some (.ch, p - 0x108)
    else if 0x128 ≤ p ∧ p ≤ 0x12f then some (.out, p - 0x128) else none
  else if p < 0x180 then
    if p = 0x140 then some (.timebase, 0) else if p = 0x141 then some (.time, 0)
    else if p = 0x142 then some (.axles, 0)
    else if 0x143 ≤ p ∧ p ≤ 0x146 then some (.sched, p - 0x143)
    else if p = 0x150 then some (.vme, 0)
    else if p = 0x160 then some (.pstate, 0) else if p = 0x161 then some (.commitPorts, 0)
    else if p = 0x162 then some (.recorder, 0) else if p = 0x170 then some (.update, 0)
    else if p = 0x171 then some (.settings, 0) else if p = 0x172 then some (.commissioning, 0) else none
  else
    if p = 0x180 then some (.supervisor, 0) else if p = 0x181 then some (.causeway, 0)
    else if p = 0x190 then some (.observe, 0) else if p = 0x191 then some (.pmc, 0)
    else if p = 0x192 then some (.bandwidth, 0) else if p = 0x193 then some (.sampler, 0)
    else if p = 0x19f then some (.workshop, 0) else if p = 0x1a0 then some (.perturb, 0)
    else if p = 0x1b0 then some (.safeData, 0) else if p = 0x1b1 then some (.fieldbus, 0)
    else if 0x1b2 ≤ p ∧ p ≤ 0x1b3 then some (.mvb, p - 0x1b2)
    else if 0x1b4 ≤ p ∧ p ≤ 0x1b7 then some (.can, p - 0x1b4)
    else if p = 0x1c0 then some (.stackLink, 0) else if p = 0x1c7 then some (.stackGroup, 0) else none

/-- Every allocated page, in ascending order (R54). -/
def allPages : List Nat := (List.range 0x200).filter fun p => (pageUnit p).isSome

/-- UNIT_TYPE of a unit (R34, R27 and the chapters' page lists). -/
def unitType : UnitKind → Nat
  | .root => 0x01 | .stackGroup => 0x02 | .faultMgr => 0x03 | .workLedger => 0x04 | .clock => 0x05
  | .cluster => 0x10 | .copy => 0x11 | .cmp => 0x12 | .redundancy => 0x13 | .debugReplay => 0x14
  | .cle => 0x20 | .engine => 0x21 | .cleImage => 0x22 | .program => 0x23 | .dual => 0x24 | .stations => 0x25
  | .timebase => 0x30 | .time => 0x31 | .axles => 0x32 | .sched => 0x33
  | .switch => 0x40 | .port => 0x41 | .bridge => 0x42 | .trdp => 0x43 | .prp => 0x44 | .gptp => 0x45
  | .streams => 0x46 | .queues => 0x47 | .queue => 0x48
  | .safeData => 0x50 | .fieldbus => 0x51 | .mvb => 0x52 | .can => 0x53
  | .meas => 0x60 | .chGroup => 0x61 | .ch => 0x62 | .outputs => 0x63 | .out => 0x64 | .tracker => 0x65
  | .vme => 0x70
  | .pstate => 0x80 | .commitPorts => 0x81 | .recorder => 0x82
  | .ident => 0x88 | .update => 0x89 | .settings => 0x8a | .commissioning => 0x8b
  | .reset => 0x90 | .supervisor => 0x91 | .causeway => 0x93 | .stackLink => 0x94
  | .observe => 0xa0 | .pmc => 0xa1 | .bandwidth => 0xa2 | .sampler => 0xa3 | .workshop => 0xa6 | .perturb => 0xa8

/-- The parent page of an allocated page; the root has none (R45 and the chapters' page lists). -/
def pageParent (p : Nat) : Option Nat :=
  match pageUnit p with
  | none => none
  | some (.root, _) => none
  | some (.copy, _) | some (.cmp, _) => some 0x010
  | some (.engine, _) | some (.cleImage, _) | some (.program, _) | some (.dual, _) | some (.stations, _) => some 0x040
  | some (.port, _) | some (.bridge, _) | some (.trdp, _) | some (.prp, _) | some (.gptp, _) | some (.streams, _)
  | some (.queues, _) => some 0x080
  | some (.queue, _) => some 0x08f
  | some (.chGroup, _) | some (.outputs, _) | some (.tracker, _) => some 0x100
  | some (.ch, n) => some (0x101 + n / 8)
  | some (.out, _) => some 0x105
  | some (.time, _) | some (.axles, _) | some (.sched, _) => some 0x140
  | some (.pmc, _) | some (.bandwidth, _) | some (.sampler, _) | some (.workshop, _) => some 0x190
  | some (.mvb, _) | some (.can, _) => some 0x1b1
  | some _ => some 0x000

/-- The direct local children of a page, in ascending page order (R45). -/
def pageChildren (p : Nat) : List Nat := allPages.filter fun q => pageParent q == some p

/-- GROUP of PAGE_CAPS: the unit is a group. -/
def isGroup : UnitKind → Bool
  | .root | .cluster | .cle | .timebase | .switch | .queues | .meas | .chGroup | .outputs | .observe | .fieldbus
  | .stackGroup => true
  | _ => false

/-- HAS_BOOKS of PAGE_CAPS (R99, R273, R302, R359, R395, R451): the unit keeps conserved quantities of its own. -/
def hasBooks : UnitKind → Bool
  | .cluster | .switch | .port | .queue | .safeData | .vme | .pstate | .causeway => true
  | _ => false

/-- HAS_OPS of PAGE_CAPS (R132, R171, R337, R395, R422): the unit runs long operations. -/
def hasOps : UnitKind → Bool
  | .redundancy | .cleImage | .ch | .out | .recorder | .update | .settings => true
  | _ => false

/-- The units that follow the run states of R39 to R42 (R274, R302, R337, R358); on every other page RUN_STATE reads
ON from module reset and never changes. -/
def followsRunStates : UnitKind → Bool
  | .switch | .port | .bridge | .trdp | .prp | .gptp | .streams | .queues | .queue
  | .fieldbus | .mvb | .can
  | .meas | .chGroup | .outputs | .tracker | .ch | .out | .vme => true
  | _ => false

/-! ## Offsets of the named registers: `Reg.<unit>.<register>` is the offset of the register (of its first
instance, where the unit has several) in the unit's page, as its chapter's register table gives it. -/

abbrev Reg.root.treeGen : Nat := 0x100
abbrev Reg.ident.hwType : Nat := 0x100
abbrev Reg.ident.unitIdLo : Nat := 0x104
abbrev Reg.ident.unitIdHi : Nat := 0x108
abbrev Reg.ident.secCounter : Nat := 0x10c
abbrev Reg.ident.keyStatus : Nat := 0x110
abbrev Reg.ident.startStatus : Nat := 0x114
abbrev Reg.ident.activeIdLo : Nat := 0x118
abbrev Reg.ident.activeIdHi : Nat := 0x11c
abbrev Reg.ident.activeSecVer : Nat := 0x120
abbrev Reg.ident.startTimeUs : Nat := 0x124
abbrev Reg.clock.ckScOffset : Nat := 0x100
abbrev Reg.clock.clkStatus : Nat := 0x104
abbrev Reg.clock.ckMeas : Nat := 0x110
abbrev Reg.reset.resetCause : Nat := 0x100
abbrev Reg.reset.restartCmd : Nat := 0x104
abbrev Reg.reset.resetInput : Nat := 0x108
abbrev Reg.reset.lastPressMs : Nat := 0x10c
abbrev Reg.reset.presses : Nat := 0x110
abbrev Reg.faultMgr.classSummary : Nat := 0x100
abbrev Reg.faultMgr.fifoLevel : Nat := 0x104
abbrev Reg.faultMgr.overflowCtrl : Nat := 0x108
abbrev Reg.faultMgr.overflowData : Nat := 0x10c
abbrev Reg.faultMgr.overflowMgmt : Nat := 0x110
abbrev Reg.faultMgr.lastRecordSeq : Nat := 0x114
abbrev Reg.faultMgr.recordsPending : Nat := 0x118
abbrev Reg.workLedger.ledgerSnap : Nat := 0x100
abbrev Reg.workLedger.ledgerSnapSeq : Nat := 0x104
abbrev Reg.workLedger.ledgerImage : Nat := 0x200
abbrev Reg.cluster.clusterStatus : Nat := 0x100
abbrev Reg.cluster.ckptInterval : Nat := 0x104
abbrev Reg.cluster.ckptTimeout : Nat := 0x108
abbrev Reg.cluster.ckptGap : Nat := 0x10c
abbrev Reg.cluster.voteTimeout : Nat := 0x110
abbrev Reg.cluster.ckptRequest : Nat := 0x114
abbrev Reg.cluster.irqStatus : Nat := 0x118
abbrev Reg.cluster.lastTargetLo : Nat := 0x120
abbrev Reg.cluster.lastTargetHi : Nat := 0x124
abbrev Reg.cluster.leadMax : Nat := 0x128
abbrev Reg.cluster.voterLevel : Nat := 0x12c
abbrev Reg.cluster.performedLo : Nat := 0x130
abbrev Reg.cluster.performedHi : Nat := 0x134
abbrev Reg.cluster.snapPerformedLo : Nat := 0x140
abbrev Reg.cluster.snapPerformedHi : Nat := 0x144
abbrev Reg.cluster.snapConsumed : Nat := 0x148
abbrev Reg.cluster.snapLevels : Nat := 0x160
abbrev Reg.cluster.snapVoter : Nat := 0x164
abbrev Reg.cluster.snapParticipants : Nat := 0x168
abbrev Reg.cluster.msgClaim : Nat := 0x16c
abbrev Reg.cluster.msgStatus : Nat := 0x170
abbrev Reg.copy.copyStatus : Nat := 0x100
abbrev Reg.copy.instretLo : Nat := 0x108
abbrev Reg.copy.instretHi : Nat := 0x10c
abbrev Reg.copy.ckptNumLo : Nat := 0x110
abbrev Reg.copy.ckptNumHi : Nat := 0x114
abbrev Reg.copy.ckptPcLo : Nat := 0x118
abbrev Reg.copy.ckptPcHi : Nat := 0x11c
abbrev Reg.copy.ckptSigLo : Nat := 0x120
abbrev Reg.copy.ckptSigHi : Nat := 0x124
abbrev Reg.copy.replayLevel : Nat := 0x128
abbrev Reg.copy.replayHwm : Nat := 0x12c
abbrev Reg.copy.lead : Nat := 0x130
abbrev Reg.copy.eccCorrTcm : Nat := 0x134
abbrev Reg.copy.eccCorrL1 : Nat := 0x138
abbrev Reg.cmp.verdict : Nat := 0x100
abbrev Reg.cmp.verdictCkptLo : Nat := 0x104
abbrev Reg.cmp.verdictCkptHi : Nat := 0x108
abbrev Reg.cmp.verdictLatency : Nat := 0x10c
abbrev Reg.cmp.verdictLatencyMax : Nat := 0x110
abbrev Reg.cmp.echoInterval : Nat := 0x120
abbrev Reg.cmp.echoTimeout : Nat := 0x124
abbrev Reg.cmp.echoGap : Nat := 0x128
abbrev Reg.cmp.echoVoteTimeout : Nat := 0x12c
abbrev Reg.cmp.linkRetries : Nat := 0x130
abbrev Reg.redundancy.redStatus : Nat := 0x100
abbrev Reg.redundancy.reseedLimit : Nat := 0x104
abbrev Reg.redundancy.duckboardLimit : Nat := 0x108
abbrev Reg.redundancy.duckboardElapsed : Nat := 0x10c
abbrev Reg.redundancy.duckboardGrace : Nat := 0x110
abbrev Reg.redundancy.reseedsHour : Nat := 0x114
abbrev Reg.redundancy.reseedsTotal : Nat := 0x118
abbrev Reg.redundancy.lastReseed : Nat := 0x124
abbrev Reg.redundancy.lastReseedTime : Nat := 0x128
abbrev Reg.redundancy.lastFinalStall : Nat := 0x12c
abbrev Reg.redundancy.maxFinalStall : Nat := 0x130
abbrev Reg.redundancy.selftestRuns : Nat := 0x134
abbrev Reg.redundancy.coreEntryLo : Nat := 0x138
abbrev Reg.redundancy.coreEntryHi : Nat := 0x13c
abbrev Reg.redundancy.coreStart : Nat := 0x140
abbrev Reg.redundancy.strapMode : Nat := 0x144
abbrev Reg.redundancy.report : Nat := 0x400
abbrev Reg.debugReplay.dbgStatus : Nat := 0x100
abbrev Reg.debugReplay.dbgActions : Nat := 0x104
abbrev Reg.debugReplay.haltCountLo : Nat := 0x108
abbrev Reg.debugReplay.haltCountHi : Nat := 0x10c
abbrev Reg.debugReplay.logLevel : Nat := 0x110
abbrev Reg.cle.cleStatus : Nat := 0x100
abbrev Reg.cle.cleReseedLimit : Nat := 0x104
abbrev Reg.cle.reseedsHour : Nat := 0x108
abbrev Reg.cle.reseedsTotal : Nat := 0x10c
abbrev Reg.cle.lastReseedCycles : Nat := 0x110
abbrev Reg.cle.maxReseedCycles : Nat := 0x114
abbrev Reg.cle.votedWritesLo : Nat := 0x118
abbrev Reg.cle.votedWritesHi : Nat := 0x11c
abbrev Reg.cle.extWritesLo : Nat := 0x120
abbrev Reg.cle.extWritesHi : Nat := 0x124
abbrev Reg.cle.selftestRuns : Nat := 0x128
abbrev Reg.engine.engineStatus : Nat := 0x100
abbrev Reg.engine.enginePc : Nat := 0x104
abbrev Reg.engine.engineAcc : Nat := 0x108
abbrev Reg.engine.engineFlags : Nat := 0x10c
abbrev Reg.engine.cyclesLo : Nat := 0x110
abbrev Reg.engine.cyclesHi : Nat := 0x114
abbrev Reg.engine.eccCorrProg : Nat := 0x118
abbrev Reg.engine.eccCorrData : Nat := 0x11c
abbrev Reg.cleImage.checkCrc : Nat := 0x100
abbrev Reg.cleImage.checkIndex : Nat := 0x104
abbrev Reg.cleImage.checkWords : Nat := 0x108
abbrev Reg.program.progStatus : Nat := 0x100
abbrev Reg.program.progConfig : Nat := 0x104
abbrev Reg.program.cycleTime : Nat := 0x108
abbrev Reg.program.watchdogTime : Nat := 0x10c
abbrev Reg.program.activeImage : Nat := 0x110
abbrev Reg.program.activeCheck : Nat := 0x114
abbrev Reg.program.exchImage : Nat := 0x118
abbrev Reg.program.exchCheck : Nat := 0x11c
abbrev Reg.program.progCmd : Nat := 0x120
abbrev Reg.program.outputPermit : Nat := 0x124
abbrev Reg.program.exchStatus : Nat := 0x128
abbrev Reg.program.retainRangeM : Nat := 0x12c
abbrev Reg.program.retainRangeT : Nat := 0x130
abbrev Reg.program.retainRangeC : Nat := 0x134
abbrev Reg.program.retainRangeD : Nat := 0x138
abbrev Reg.program.scanNumLo : Nat := 0x140
abbrev Reg.program.scanNumHi : Nat := 0x144
abbrev Reg.program.commitNumLo : Nat := 0x148
abbrev Reg.program.commitNumHi : Nat := 0x14c
abbrev Reg.program.retainSeqLo : Nat := 0x150
abbrev Reg.program.retainSeqHi : Nat := 0x154
abbrev Reg.program.lastScanUs : Nat := 0x158
abbrev Reg.program.maxScanUs : Nat := 0x15c
abbrev Reg.program.triggersMissed : Nat := 0x160
abbrev Reg.program.preemptions : Nat := 0x164
abbrev Reg.dual.pairDisarmed : Nat := 0x100
abbrev Reg.dual.pairDisagree : Nat := 0x140
abbrev Reg.dual.pairValue : Nat := 0x180
abbrev Reg.dual.discEvents : Nat := 0x1c0
abbrev Reg.dual.pairsConfigured : Nat := 0x1c4
abbrev Reg.stations.stationOnline : Nat := 0x100
abbrev Reg.stations.stationLost : Nat := 0x120
abbrev Reg.stations.undelivered : Nat := 0x140
abbrev Reg.stations.lossEvents : Nat := 0x160
abbrev Reg.timebase.tbStatus : Nat := 0x100
abbrev Reg.timebase.syncCmd : Nat := 0x104
abbrev Reg.timebase.syncLead : Nat := 0x108
abbrev Reg.timebase.syncCount : Nat := 0x10c
abbrev Reg.timebase.syncTargetLo : Nat := 0x110
abbrev Reg.timebase.syncTargetHi : Nat := 0x114
abbrev Reg.time.ltLo : Nat := 0x100
abbrev Reg.time.ltHi : Nat := 0x104
abbrev Reg.time.ltTrim : Nat := 0x108
abbrev Reg.time.ntLo : Nat := 0x110
abbrev Reg.time.ntHi : Nat := 0x114
abbrev Reg.time.ntOffset : Nat := 0x118
abbrev Reg.time.ntRate : Nat := 0x11c
abbrev Reg.time.ntLockNs : Nat := 0x120
abbrev Reg.time.ntStepNs : Nat := 0x124
abbrev Reg.time.ntHoldoverS : Nat := 0x128
abbrev Reg.time.ntSteps : Nat := 0x12c
abbrev Reg.time.mpLo : Nat := 0x130
abbrev Reg.time.mpHi : Nat := 0x134
abbrev Reg.time.mpFreq : Nat := 0x138
abbrev Reg.time.mpNominal : Nat := 0x13c
abbrev Reg.axles.axConfig : Nat := 0x100
abbrev Reg.axles.axleCfg : Nat := 0x104
abbrev Reg.axles.wheelDia : Nat := 0x114
abbrev Reg.axles.standstillSpeed : Nat := 0x124
abbrev Reg.axles.ax : Nat := 0x130
abbrev Reg.axles.distLo : Nat := 0x150
abbrev Reg.axles.distHi : Nat := 0x154
abbrev Reg.axles.speed : Nat := 0x158
abbrev Reg.axles.tachoErrors : Nat := 0x168
abbrev Reg.axles.standstillLtLo : Nat := 0x16c
abbrev Reg.axles.standstillLtHi : Nat := 0x170
abbrev Reg.sched.slotCtrl : Nat := 0x100
abbrev Reg.sched.slotArg : Nat := 0x104
abbrev Reg.sched.periodLo : Nat := 0x108
abbrev Reg.sched.periodHi : Nat := 0x10c
abbrev Reg.sched.phaseLo : Nat := 0x110
abbrev Reg.sched.phaseHi : Nat := 0x114
abbrev Reg.sched.nextLo : Nat := 0x118
abbrev Reg.sched.nextHi : Nat := 0x11c
abbrev Reg.sched.slotPin : Nat := 0x300
abbrev Reg.sched.slotMissed : Nat := 0x340
abbrev Reg.switch.poolCfg : Nat := 0x100
abbrev Reg.switch.freeCells : Nat := 0x104
abbrev Reg.switch.allocatedCells : Nat := 0x108
abbrev Reg.switch.inTransitCells : Nat := 0x10c
abbrev Reg.switch.handlesUsed : Nat := 0x110
abbrev Reg.switch.snapFree : Nat := 0x120
abbrev Reg.switch.snapAllocated : Nat := 0x124
abbrev Reg.switch.snapInTransit : Nat := 0x128
abbrev Reg.switch.snapHandlesFree : Nat := 0x12c
abbrev Reg.switch.snapHandlesUsed : Nat := 0x130
abbrev Reg.port.portConfig : Nat := 0x100
abbrev Reg.port.portStatus : Nat := 0x104
abbrev Reg.port.portVlan : Nat := 0x108
abbrev Reg.port.txAgeLimit : Nat := 0x10c
abbrev Reg.port.cbs : Nat := 0x110
abbrev Reg.port.gclCtrl : Nat := 0x120
abbrev Reg.port.gclCycle : Nat := 0x124
abbrev Reg.port.gclBaseLo : Nat := 0x128
abbrev Reg.port.gclBaseHi : Nat := 0x12c
abbrev Reg.port.gclAdminLen : Nat := 0x130
abbrev Reg.port.gclStatus : Nat := 0x134
abbrev Reg.port.creditLimit : Nat := 0x140
abbrev Reg.port.creditHeld : Nat := 0x160
abbrev Reg.port.snapCreditFree : Nat := 0x180
abbrev Reg.port.snapCreditHeld : Nat := 0x1a0
abbrev Reg.port.gclBank0 : Nat := 0x200
abbrev Reg.port.gclBank1 : Nat := 0x300
abbrev Reg.bridge.bridgeCtrl : Nat := 0x100
abbrev Reg.bridge.pcpMap : Nat := 0x104
abbrev Reg.bridge.hostMacLo : Nat := 0x108
abbrev Reg.bridge.hostMacHi : Nat := 0x10c
abbrev Reg.bridge.hostIp : Nat := 0x110
abbrev Reg.bridge.fdbKeyLo : Nat := 0x114
abbrev Reg.bridge.fdbKeyHi : Nat := 0x118
abbrev Reg.bridge.fdbData : Nat := 0x11c
abbrev Reg.bridge.fdbCmd : Nat := 0x120
abbrev Reg.bridge.fdbResult : Nat := 0x124
abbrev Reg.bridge.vlanSel : Nat := 0x128
abbrev Reg.bridge.vlanData : Nat := 0x12c
abbrev Reg.bridge.vlanCmd : Nat := 0x130
abbrev Reg.bridge.fdbCount : Nat := 0x134
abbrev Reg.trdp.trdpRange : Nat := 0x100
abbrev Reg.trdp.etbTopocnt : Nat := 0x104
abbrev Reg.trdp.opTrnTopocnt : Nat := 0x108
abbrev Reg.trdp.entrySel : Nat := 0x110
abbrev Reg.trdp.entryCmd : Nat := 0x114
abbrev Reg.trdp.entryResult : Nat := 0x118
abbrev Reg.trdp.entryW : Nat := 0x120
abbrev Reg.trdp.entryState : Nat := 0x140
abbrev Reg.trdp.entrySeq : Nat := 0x144
abbrev Reg.trdp.entryLastLo : Nat := 0x148
abbrev Reg.trdp.entryLastHi : Nat := 0x14c
abbrev Reg.prp.prpCtrl : Nat := 0x100
abbrev Reg.prp.prpForget : Nat := 0x104
abbrev Reg.prp.lifeCheck : Nat := 0x108
abbrev Reg.prp.prpNodes : Nat := 0x10c
abbrev Reg.prp.seqTx : Nat := 0x110
abbrev Reg.gptp.asConfig : Nat := 0x100
abbrev Reg.gptp.asStatus : Nat := 0x104
abbrev Reg.gptp.nbrDelay : Nat := 0x108
abbrev Reg.streams.streamSel : Nat := 0x100
abbrev Reg.streams.streamW0 : Nat := 0x104
abbrev Reg.streams.streamW1 : Nat := 0x108
abbrev Reg.streams.streamW2 : Nat := 0x10c
abbrev Reg.streams.streamCmd : Nat := 0x110
abbrev Reg.streams.meterSel : Nat := 0x114
abbrev Reg.streams.meterCir : Nat := 0x118
abbrev Reg.streams.meterCbs : Nat := 0x11c
abbrev Reg.streams.meterCmd : Nat := 0x120
abbrev Reg.streams.cbResetMs : Nat := 0x124
abbrev Reg.streams.cbStreams : Nat := 0x128
abbrev Reg.streams.cmdResult : Nat := 0x12c
abbrev Reg.queue.qConfig : Nat := 0x100
abbrev Reg.queue.qBaseLo : Nat := 0x104
abbrev Reg.queue.qBaseHi : Nat := 0x108
abbrev Reg.queue.qRule : Nat := 0x10c
abbrev Reg.queue.qComidLo : Nat := 0x110
abbrev Reg.queue.qComidHi : Nat := 0x114
abbrev Reg.queue.qPorts : Nat := 0x118
abbrev Reg.queue.qPosted : Nat := 0x11c
abbrev Reg.queue.qSeq : Nat := 0x120
abbrev Reg.queue.qIrq : Nat := 0x124
abbrev Reg.queue.qIrqTime : Nat := 0x128
abbrev Reg.queue.qDrops : Nat := 0x12c
abbrev Reg.queue.snapPosted : Nat := 0x130
abbrev Reg.queue.snapDone : Nat := 0x134
abbrev Reg.queue.snapActive : Nat := 0x138
abbrev Reg.queue.snapWaiting : Nat := 0x13c
abbrev Reg.safeData.twinConfig : Nat := 0x100
abbrev Reg.safeData.twinStatus : Nat := 0x104
abbrev Reg.safeData.spCount : Nat := 0x108
abbrev Reg.safeData.loopCtrl : Nat := 0x10c
abbrev Reg.safeData.chanSel : Nat := 0x110
abbrev Reg.safeData.chanCmd : Nat := 0x114
abbrev Reg.safeData.chanResult : Nat := 0x118
abbrev Reg.safeData.twinMismatches : Nat := 0x11c
abbrev Reg.safeData.chanW0 : Nat := 0x120
abbrev Reg.safeData.chanW1 : Nat := 0x124
abbrev Reg.safeData.chanW2 : Nat := 0x128
abbrev Reg.safeData.chanState : Nat := 0x12c
abbrev Reg.safeData.chanTxSsc : Nat := 0x130
abbrev Reg.safeData.chanRxSsc : Nat := 0x134
abbrev Reg.safeData.snapTwin : Nat := 0x138
abbrev Reg.mvb.mvbConfig : Nat := 0x100
abbrev Reg.mvb.mvbStatus : Nat := 0x104
abbrev Reg.mvb.replyTimeout : Nat := 0x108
abbrev Reg.mvb.deviceStatus : Nat := 0x10c
abbrev Reg.mvb.portSel : Nat := 0x110
abbrev Reg.mvb.portW0 : Nat := 0x114
abbrev Reg.mvb.portW1 : Nat := 0x118
abbrev Reg.mvb.portCmd : Nat := 0x11c
abbrev Reg.mvb.pollSel : Nat := 0x120
abbrev Reg.mvb.pollW0 : Nat := 0x124
abbrev Reg.mvb.pollCmd : Nat := 0x128
abbrev Reg.mvb.cmdResult : Nat := 0x12c
abbrev Reg.mvb.lineErrors : Nat := 0x130
abbrev Reg.mvb.noReply : Nat := 0x134
abbrev Reg.mvb.bpOverrun : Nat := 0x138
abbrev Reg.can.canConfig : Nat := 0x100
abbrev Reg.can.nbt : Nat := 0x104
abbrev Reg.can.dbt : Nat := 0x108
abbrev Reg.can.tdcOffset : Nat := 0x10c
abbrev Reg.can.canStatus : Nat := 0x110
abbrev Reg.can.canCmd : Nat := 0x114
abbrev Reg.can.ringCfg : Nat := 0x118
abbrev Reg.can.rxBaseLo : Nat := 0x120
abbrev Reg.can.rxBaseHi : Nat := 0x124
abbrev Reg.can.txBaseLo : Nat := 0x128
abbrev Reg.can.txBaseHi : Nat := 0x12c
abbrev Reg.can.rxPosted : Nat := 0x130
abbrev Reg.can.rxSeq : Nat := 0x134
abbrev Reg.can.txPosted : Nat := 0x138
abbrev Reg.can.txSeq : Nat := 0x13c
abbrev Reg.can.rxDrops : Nat := 0x140
abbrev Reg.can.canIrq : Nat := 0x144
abbrev Reg.can.canIrqTime : Nat := 0x148
abbrev Reg.can.filterId : Nat := 0x200
abbrev Reg.can.filterMask : Nat := 0x280
abbrev Reg.meas.measStatus : Nat := 0x100
abbrev Reg.meas.lastSyncLtLo : Nat := 0x104
abbrev Reg.meas.lastSyncLtHi : Nat := 0x108
abbrev Reg.meas.snapshots : Nat := 0x10c
abbrev Reg.chGroup.grpClk : Nat := 0x100
abbrev Reg.chGroup.fMod : Nat := 0x104
abbrev Reg.chGroup.grpStatus : Nat := 0x108
abbrev Reg.chGroup.syncApplied : Nat := 0x10c
abbrev Reg.ch.chConfig : Nat := 0x100
abbrev Reg.ch.rsRate : Nat := 0x104
abbrev Reg.ch.brmsCfg : Nat := 0x108
abbrev Reg.ch.winCfg : Nat := 0x10c
abbrev Reg.ch.envCfg : Nat := 0x110
abbrev Reg.ch.streamBase : Nat := 0x114
abbrev Reg.ch.streamCfg : Nat := 0x118
abbrev Reg.ch.bankCmd : Nat := 0x120
abbrev Reg.ch.bankStatus : Nat := 0x124
abbrev Reg.ch.groupDelay : Nat := 0x128
abbrev Reg.ch.outRate : Nat := 0x12c
abbrev Reg.ch.chStatus : Nat := 0x130
abbrev Reg.ch.streamSeq : Nat := 0x134
abbrev Reg.ch.satCount : Nat := 0x138
abbrev Reg.ch.winCount : Nat := 0x13c
abbrev Reg.ch.peakMin : Nat := 0x140
abbrev Reg.ch.peakMax : Nat := 0x144
abbrev Reg.ch.rms : Nat := 0x148
abbrev Reg.ch.env : Nat := 0x14c
abbrev Reg.ch.brms : Nat := 0x150
abbrev Reg.ch.actThreshold : Nat := 0x154
abbrev Reg.ch.actRelease : Nat := 0x158
abbrev Reg.ch.actTripTime : Nat := 0x15c
abbrev Reg.ch.actBrmsWin : Nat := 0x160
abbrev Reg.ch.actCrc : Nat := 0x164
abbrev Reg.ch.inactCrc : Nat := 0x168
abbrev Reg.ch.trips : Nat := 0x16c
abbrev Reg.ch.snapSample : Nat := 0x170
abbrev Reg.ch.snapLtLo : Nat := 0x174
abbrev Reg.ch.snapLtHi : Nat := 0x178
abbrev Reg.ch.snapDet : Nat := 0x17c
abbrev Reg.ch.snapSeq : Nat := 0x190
abbrev Reg.ch.actCoef : Nat := 0x400
abbrev Reg.ch.inactCoef : Nat := 0x800
abbrev Reg.tracker.trkConfig : Nat := 0x100
abbrev Reg.tracker.detectWindow : Nat := 0x104
abbrev Reg.tracker.trackMin : Nat := 0x108
abbrev Reg.tracker.trkPhaseOffset : Nat := 0x10c
abbrev Reg.tracker.trkStatus : Nat := 0x110
abbrev Reg.tracker.trkFreq : Nat := 0x114
abbrev Reg.tracker.trkAcRms : Nat := 0x118
abbrev Reg.tracker.trkMean : Nat := 0x11c
abbrev Reg.tracker.sysChanges : Nat := 0x120
abbrev Reg.tracker.sysCfg : Nat := 0x140
abbrev Reg.tracker.sysLo : Nat := 0x144
abbrev Reg.tracker.sysHi : Nat := 0x148
abbrev Reg.out.outConfig : Nat := 0x100
abbrev Reg.out.outRingBase : Nat := 0x104
abbrev Reg.out.outRingCfg : Nat := 0x108
abbrev Reg.out.outPosted : Nat := 0x10c
abbrev Reg.out.outSeq : Nat := 0x110
abbrev Reg.out.outConst : Nat := 0x114
abbrev Reg.out.outTaps : Nat := 0x118
abbrev Reg.out.outUnderruns : Nat := 0x11c
abbrev Reg.out.outClips : Nat := 0x120
abbrev Reg.out.outInRate : Nat := 0x124
abbrev Reg.out.outCoef : Nat := 0x400
abbrev Reg.vme.vmeCtrl : Nat := 0x100
abbrev Reg.vme.vmeTimeouts : Nat := 0x104
abbrev Reg.vme.vmeStatus : Nat := 0x108
abbrev Reg.vme.acceptedSeq : Nat := 0x10c
abbrev Reg.vme.bridgeFence : Nat := 0x110
abbrev Reg.vme.completedSeq : Nat := 0x114
abbrev Reg.vme.failedTotal : Nat := 0x118
abbrev Reg.vme.logIndex : Nat := 0x11c
abbrev Reg.vme.abandonedFirst : Nat := 0x120
abbrev Reg.vme.abandonedLast : Nat := 0x124
abbrev Reg.vme.readFails : Nat := 0x128
abbrev Reg.vme.snapAccepted : Nat := 0x12c
abbrev Reg.vme.snapCompleted : Nat := 0x130
abbrev Reg.vme.snapLevel : Nat := 0x134
abbrev Reg.vme.irqPoll : Nat := 0x138
abbrev Reg.vme.irqEnable : Nat := 0x13c
abbrev Reg.vme.irqState : Nat := 0x140
abbrev Reg.vme.irqCfg : Nat := 0x144
abbrev Reg.vme.owinCtrl : Nat := 0x200
abbrev Reg.vme.owinLocal : Nat := 0x204
abbrev Reg.vme.owinSize : Nat := 0x208
abbrev Reg.vme.owinVme : Nat := 0x20c
abbrev Reg.vme.iwinCtrl : Nat := 0x300
abbrev Reg.vme.iwinVme : Nat := 0x304
abbrev Reg.vme.iwinSize : Nat := 0x308
abbrev Reg.vme.iwinLocal : Nat := 0x30c
abbrev Reg.vme.failLog : Nat := 0x400
abbrev Reg.pstate.psStatus : Nat := 0x100
abbrev Reg.pstate.offCfg : Nat := 0x104
abbrev Reg.pstate.offTimeAssumed : Nat := 0x108
abbrev Reg.pstate.scrubHours : Nat := 0x10c
abbrev Reg.pstate.offInterval : Nat := 0x110
abbrev Reg.pstate.maxBudget : Nat := 0x114
abbrev Reg.pstate.maxBudgetBlock : Nat := 0x118
abbrev Reg.pstate.refreshes : Nat := 0x11c
abbrev Reg.pstate.corrected : Nat := 0x120
abbrev Reg.pstate.uncorrectable : Nat := 0x124
abbrev Reg.pstate.spareFree : Nat := 0x128
abbrev Reg.pstate.freeSlots : Nat := 0x138
abbrev Reg.pstate.journalSeqLo : Nat := 0x13c
abbrev Reg.pstate.journalSeqHi : Nat := 0x140
abbrev Reg.pstate.snapFreeSlots : Nat := 0x144
abbrev Reg.pstate.snapAllocSlots : Nat := 0x148
abbrev Reg.pstate.snapIssuedLo : Nat := 0x14c
abbrev Reg.pstate.snapIssuedHi : Nat := 0x150
abbrev Reg.pstate.snapMarkedLo : Nat := 0x154
abbrev Reg.pstate.snapMarkedHi : Nat := 0x158
abbrev Reg.pstate.blockBudget : Nat := 0x400
abbrev Reg.commitPorts.cpSrc : Nat := 0x100
abbrev Reg.commitPorts.cpDst : Nat := 0x104
abbrev Reg.commitPorts.cpLines : Nat := 0x108
abbrev Reg.commitPorts.cpCmd : Nat := 0x10c
abbrev Reg.commitPorts.cpIssued : Nat := 0x110
abbrev Reg.commitPorts.cpDone : Nat := 0x114
abbrev Reg.commitPorts.cpLastJseqLo : Nat := 0x118
abbrev Reg.commitPorts.cpLastJseqHi : Nat := 0x11c
abbrev Reg.commitPorts.cpError : Nat := 0x120
abbrev Reg.commitPorts.cpRefused : Nat := 0x124
abbrev Reg.recorder.curEpoch : Nat := 0x100
abbrev Reg.recorder.epochSeconds : Nat := 0x104
abbrev Reg.recorder.peatCount : Nat := 0x108
abbrev Reg.recorder.mossOldest : Nat := 0x10c
abbrev Reg.recorder.lifePos : Nat := 0x110
abbrev Reg.recorder.runPos : Nat := 0x114
abbrev Reg.update.huskStatus : Nat := 0x100
abbrev Reg.update.huskLen : Nat := 0x104
abbrev Reg.update.huskReceived : Nat := 0x108
abbrev Reg.update.huskIdLo : Nat := 0x10c
abbrev Reg.update.huskIdHi : Nat := 0x110
abbrev Reg.update.prevIdLo : Nat := 0x114
abbrev Reg.update.prevIdHi : Nat := 0x118
abbrev Reg.update.lastFallback : Nat := 0x11c
abbrev Reg.settings.genStatus : Nat := 0x100
abbrev Reg.settings.workSeqLo : Nat := 0x104
abbrev Reg.settings.workSeqHi : Nat := 0x108
abbrev Reg.settings.workSchema : Nat := 0x10c
abbrev Reg.settings.workWriterLo : Nat := 0x110
abbrev Reg.settings.workWriterHi : Nat := 0x114
abbrev Reg.commissioning.pcvComputed : Nat := 0x100
abbrev Reg.commissioning.pcvConfirm : Nat := 0x104
abbrev Reg.commissioning.commStatus : Nat := 0x108
abbrev Reg.commissioning.pcvStored : Nat := 0x10c
abbrev Reg.commissioning.pcvMismatches : Nat := 0x110
abbrev Reg.commissioning.psetEntries : Nat := 0x114
abbrev Reg.supervisor.supStatus : Nat := 0x100
abbrev Reg.supervisor.safeRequest : Nat := 0x104
abbrev Reg.supervisor.tripClass : Nat := 0x108
abbrev Reg.supervisor.announceEntry : Nat := 0x10c
abbrev Reg.supervisor.lockoutSeq : Nat := 0x110
abbrev Reg.supervisor.lockoutOrigin : Nat := 0x114
abbrev Reg.supervisor.railTripped : Nat := 0x118
abbrev Reg.supervisor.clkTripped : Nat := 0x11c
abbrev Reg.supervisor.railMv : Nat := 0x120
abbrev Reg.causeway.cwayConfig : Nat := 0x100
abbrev Reg.causeway.claimCtrl : Nat := 0x104
abbrev Reg.causeway.cwayStatus : Nat := 0x108
abbrev Reg.causeway.outcmpStations : Nat := 0x10c
abbrev Reg.causeway.outcmpMask : Nat := 0x110
abbrev Reg.causeway.outcmpCounts : Nat := 0x114
abbrev Reg.causeway.claimStarts : Nat := 0x118
abbrev Reg.causeway.claimEnds : Nat := 0x11c
abbrev Reg.causeway.snapClaimStarts : Nat := 0x120
abbrev Reg.causeway.snapClaimEnds : Nat := 0x124
abbrev Reg.causeway.snapState : Nat := 0x128
abbrev Reg.stackLink.linkStatus : Nat := 0x100
abbrev Reg.stackLink.hbMissed : Nat := 0x104
abbrev Reg.stackLink.masterChanges : Nat := 0x108
abbrev Reg.stackGroup.treeGen : Nat := 0x100
abbrev Reg.stackGroup.members : Nat := 0x104
abbrev Reg.pmc.pmcSel : Nat := 0x100
abbrev Reg.pmc.pmc : Nat := 0x400
abbrev Reg.bandwidth.bwWindow : Nat := 0x100
abbrev Reg.bandwidth.bwSeq : Nat := 0x104
abbrev Reg.bandwidth.bw : Nat := 0x200
abbrev Reg.sampler.smpCtrl : Nat := 0x100
abbrev Reg.sampler.smpBase : Nat := 0x104
abbrev Reg.sampler.smpSeq : Nat := 0x108
abbrev Reg.sampler.smpDrops : Nat := 0x10c
abbrev Reg.workshop.wsStatus : Nat := 0x100
abbrev Reg.workshop.wsUnlock : Nat := 0x104
abbrev Reg.workshop.wsClose : Nat := 0x108
abbrev Reg.perturb.ptCkpt : Nat := 0x100
abbrev Reg.perturb.ptSig : Nat := 0x104
abbrev Reg.perturb.ptVote : Nat := 0x108
abbrev Reg.perturb.ptEgress : Nat := 0x10c
abbrev Reg.perturb.ptDrop : Nat := 0x110
abbrev Reg.perturb.ptDtack : Nat := 0x114
abbrev Reg.perturb.ptMp : Nat := 0x118
abbrev Reg.perturb.ptCle : Nat := 0x11c
abbrev Reg.perturb.ptMem : Nat := 0x120
abbrev Reg.perturb.ptApplied : Nat := 0x124

/-! ## The register tables: offset, copies, stride, reset value and writable fields with their ranges. -/

/-- The block-specific registers of a root page, as its chapter's register table lists them. -/
def Catalog.root : List RegDesc :=
  [⟨0x100, 1, 0x4, 0x00000000#32, []⟩]

/-- The block-specific registers of a ident page, as its chapter's register table lists them. -/
def Catalog.ident : List RegDesc :=
  [⟨0x100, 1, 0x4, 0x00003860#32, []⟩,
   ⟨0x104, 1, 0x4, 0x00000000#32, []⟩,
   ⟨0x108, 1, 0x4, 0x00000000#32, []⟩,
   ⟨0x10c, 1, 0x4, 0x00000000#32, []⟩,
   ⟨0x110, 1, 0x4, 0x00000000#32, []⟩,
   ⟨0x114, 1, 0x4, 0x00000000#32, []⟩,
   ⟨0x118, 1, 0x4, 0x00000000#32, []⟩,
   ⟨0x11c, 1, 0x4, 0x00000000#32, []⟩,
   ⟨0x120, 1, 0x4, 0x00000000#32, []⟩,
   ⟨0x124, 1, 0x4, 0x00000000#32, []⟩]

/-- The block-specific registers of a clock page, as its chapter's register table lists them. -/
def Catalog.clock : List RegDesc :=
  [⟨0x100, 1, 0x4, 0xfffff448#32, []⟩,
   ⟨0x104, 1, 0x4, 0x000000ff#32, []⟩,
   ⟨0x110, 12, 0x4, 0x00000000#32, []⟩]

/-- The block-specific registers of a reset page, as its chapter's register table lists them. -/
def Catalog.reset : List RegDesc :=
  [⟨0x100, 1, 0x4, 0x00000000#32, []⟩,
   ⟨0x104, 1, 0x4, 0x00000000#32, []⟩,
   ⟨0x108, 1, 0x4, 0x00000000#32, []⟩,
   ⟨0x10c, 1, 0x4, 0x00000000#32, []⟩,
   ⟨0x110, 1, 0x4, 0x00000000#32, []⟩]

/-- The block-specific registers of a faultMgr page, as its chapter's register table lists them. -/
def Catalog.faultMgr : List RegDesc :=
  [⟨0x100, 1, 0x4, 0x00000000#32, []⟩,
   ⟨0x104, 1, 0x4, 0x00000000#32, []⟩,
   ⟨0x108, 1, 0x4, 0x00000000#32, []⟩,
   ⟨0x10c, 1, 0x4, 0x00000000#32, []⟩,
   ⟨0x110, 1, 0x4, 0x00000000#32, []⟩,
   ⟨0x114, 1, 0x4, 0x00000000#32, []⟩,
   ⟨0x118, 1, 0x4, 0x00000000#32, []⟩]

/-- The block-specific registers of a workLedger page, as its chapter's register table lists them. -/
def Catalog.workLedger : List RegDesc :=
  [⟨0x100, 1, 0x4, 0x00000000#32, []⟩,
   ⟨0x104, 1, 0x4, 0x00000000#32, []⟩,
   ⟨0x200, 128, 0x4, 0x00000000#32, []⟩]

/-- The block-specific registers of a cluster page, as its chapter's register table lists them. -/
def Catalog.cluster : List RegDesc :=
  [⟨0x100, 1, 0x4, 0x00000000#32, []⟩,
   ⟨0x104, 1, 0x4, 0x0000000e#32, [⟨4, 0, .rwl, [(10, 20)]⟩]⟩,
   ⟨0x108, 1, 0x4, 0x00000014#32, [⟨9, 0, .rwl, [(2, 1000)]⟩]⟩,
   ⟨0x10c, 1, 0x4, 0x000000c4#32, [⟨13, 0, .rwl, [(20, 10000)]⟩]⟩,
   ⟨0x110, 1, 0x4, 0x0000000a#32, [⟨9, 0, .rwl, [(1, 1000)]⟩]⟩,
   ⟨0x114, 1, 0x4, 0x00000000#32, []⟩,
   ⟨0x118, 1, 0x4, 0x00000000#32, []⟩,
   ⟨0x120, 1, 0x4, 0x00000000#32, []⟩,
   ⟨0x124, 1, 0x4, 0x00000000#32, []⟩,
   ⟨0x128, 1, 0x4, 0x00000000#32, []⟩,
   ⟨0x12c, 1, 0x4, 0x00000040#32, []⟩,
   ⟨0x130, 1, 0x4, 0x00000000#32, []⟩] ++
  [⟨0x134, 1, 0x4, 0x00000000#32, []⟩,
   ⟨0x140, 1, 0x4, 0x00000000#32, []⟩,
   ⟨0x144, 1, 0x4, 0x00000000#32, []⟩,
   ⟨0x148, 6, 0x4, 0x00000000#32, []⟩,
   ⟨0x160, 1, 0x4, 0x00000000#32, []⟩,
   ⟨0x164, 1, 0x4, 0x00000000#32, []⟩,
   ⟨0x168, 1, 0x4, 0x00000000#32, []⟩,
   ⟨0x16c, 1, 0x4, 0x00000000#32, []⟩,
   ⟨0x170, 1, 0x4, 0x00000000#32, []⟩]

/-- The block-specific registers of a copy page, as its chapter's register table lists them. -/
def Catalog.copy : List RegDesc :=
  [⟨0x100, 1, 0x4, 0x00000000#32, []⟩,
   ⟨0x108, 1, 0x4, 0x00000000#32, []⟩,
   ⟨0x10c, 1, 0x4, 0x00000000#32, []⟩,
   ⟨0x110, 1, 0x4, 0x00000000#32, []⟩,
   ⟨0x114, 1, 0x4, 0x00000000#32, []⟩,
   ⟨0x118, 1, 0x4, 0x00000000#32, []⟩,
   ⟨0x11c, 1, 0x4, 0x00000000#32, []⟩,
   ⟨0x120, 1, 0x4, 0x00000000#32, []⟩,
   ⟨0x124, 1, 0x4, 0x00000000#32, []⟩,
   ⟨0x128, 1, 0x4, 0x00000000#32, []⟩,
   ⟨0x12c, 1, 0x4, 0x00000000#32, []⟩,
   ⟨0x130, 1, 0x4, 0x00000000#32, []⟩] ++
  [⟨0x134, 1, 0x4, 0x00000000#32, []⟩,
   ⟨0x138, 1, 0x4, 0x00000000#32, []⟩]

/-- The block-specific registers of a cmp page, as its chapter's register table lists them. -/
def Catalog.cmp : List RegDesc :=
  [⟨0x100, 1, 0x4, 0x00000000#32, []⟩,
   ⟨0x104, 1, 0x4, 0x00000000#32, []⟩,
   ⟨0x108, 1, 0x4, 0x00000000#32, []⟩,
   ⟨0x10c, 1, 0x4, 0x00000000#32, []⟩,
   ⟨0x110, 1, 0x4, 0x00000000#32, []⟩,
   ⟨0x120, 1, 0x4, 0x00000000#32, []⟩,
   ⟨0x124, 1, 0x4, 0x00000000#32, []⟩,
   ⟨0x128, 1, 0x4, 0x00000000#32, []⟩,
   ⟨0x12c, 1, 0x4, 0x00000000#32, []⟩,
   ⟨0x130, 1, 0x4, 0x00000000#32, []⟩]

/-- The block-specific registers of a redundancy page, as its chapter's register table lists them. -/
def Catalog.redundancy : List RegDesc :=
  [⟨0x100, 1, 0x4, 0x00000000#32, []⟩,
   ⟨0x104, 1, 0x4, 0x00000003#32, [⟨3, 0, .rwl, [(1, 15)]⟩]⟩,
   ⟨0x108, 1, 0x4, 0x000005a0#32, [⟨13, 0, .rwl, [(1, 10080)]⟩]⟩,
   ⟨0x10c, 1, 0x4, 0x00000000#32, []⟩,
   ⟨0x110, 1, 0x4, 0x00000000#32, []⟩,
   ⟨0x114, 1, 0x4, 0x00000000#32, []⟩,
   ⟨0x118, 3, 0x4, 0x00000000#32, []⟩,
   ⟨0x124, 1, 0x4, 0x00000000#32, []⟩,
   ⟨0x128, 1, 0x4, 0x00000000#32, []⟩,
   ⟨0x12c, 1, 0x4, 0x00000000#32, []⟩,
   ⟨0x130, 1, 0x4, 0x00000000#32, []⟩,
   ⟨0x134, 1, 0x4, 0x00000000#32, []⟩] ++
  [⟨0x138, 1, 0x4, 0x00000000#32, [⟨31, 0, .rwl, []⟩]⟩,
   ⟨0x13c, 1, 0x4, 0x00000000#32, [⟨7, 0, .rwl, []⟩]⟩,
   ⟨0x140, 1, 0x4, 0x00000000#32, []⟩,
   ⟨0x144, 1, 0x4, 0x00000000#32, []⟩,
   ⟨0x400, 256, 0x4, 0x00000000#32, []⟩]

/-- The block-specific registers of a debugReplay page, as its chapter's register table lists them. -/
def Catalog.debugReplay : List RegDesc :=
  [⟨0x100, 1, 0x4, 0x00000000#32, []⟩,
   ⟨0x104, 1, 0x4, 0x00000000#32, []⟩,
   ⟨0x108, 1, 0x4, 0x00000000#32, []⟩,
   ⟨0x10c, 1, 0x4, 0x00000000#32, []⟩,
   ⟨0x110, 1, 0x4, 0x00000000#32, []⟩]

/-- The block-specific registers of a cle page, as its chapter's register table lists them. -/
def Catalog.cle : List RegDesc :=
  [⟨0x100, 1, 0x4, 0x00f10007#32, []⟩,
   ⟨0x104, 1, 0x4, 0x00000003#32, [⟨3, 0, .rwl, [(1, 15)]⟩]⟩,
   ⟨0x108, 1, 0x4, 0x00000000#32, []⟩,
   ⟨0x10c, 1, 0x4, 0x00000000#32, []⟩,
   ⟨0x110, 1, 0x4, 0x00000000#32, []⟩,
   ⟨0x114, 1, 0x4, 0x00000000#32, []⟩,
   ⟨0x118, 1, 0x4, 0x00000000#32, []⟩,
   ⟨0x11c, 1, 0x4, 0x00000000#32, []⟩,
   ⟨0x120, 1, 0x4, 0x00000000#32, []⟩,
   ⟨0x124, 1, 0x4, 0x00000000#32, []⟩,
   ⟨0x128, 1, 0x4, 0x00000000#32, []⟩]

/-- The block-specific registers of a engine page, as its chapter's register table lists them. -/
def Catalog.engine : List RegDesc :=
  [⟨0x100, 1, 0x4, 0x00000001#32, []⟩,
   ⟨0x104, 1, 0x4, 0x00000000#32, []⟩,
   ⟨0x108, 1, 0x4, 0x00000000#32, []⟩,
   ⟨0x10c, 1, 0x4, 0x00000000#32, []⟩,
   ⟨0x110, 1, 0x4, 0x00000000#32, []⟩,
   ⟨0x114, 1, 0x4, 0x00000000#32, []⟩,
   ⟨0x118, 1, 0x4, 0x00000000#32, []⟩,
   ⟨0x11c, 1, 0x4, 0x00000000#32, []⟩]

/-- The block-specific registers of a cleImage page, as its chapter's register table lists them. -/
def Catalog.cleImage : List RegDesc :=
  [⟨0x100, 1, 0x4, 0x00000000#32, []⟩,
   ⟨0x104, 1, 0x4, 0xffffffff#32, []⟩,
   ⟨0x108, 1, 0x4, 0x00000000#32, []⟩]

/-- The block-specific registers of a program page, as its chapter's register table lists them. -/
def Catalog.program : List RegDesc :=
  [⟨0x100, 1, 0x4, 0x00000000#32, []⟩,
   ⟨0x104, 1, 0x4, 0x00000000#32, [⟨2, 0, .rwl, []⟩]⟩,
   ⟨0x108, 1, 0x4, 0x00002710#32, [⟨19, 0, .rwl, [(250, 1000000)]⟩]⟩,
   ⟨0x10c, 1, 0x4, 0x00000000#32, [⟨19, 0, .rwl, [(0, 0), (250, 1000000)]⟩]⟩,
   ⟨0x110, 1, 0x4, 0x00000000#32, [⟨31, 31, .rwl, []⟩, ⟨17, 0, .rwl, []⟩]⟩,
   ⟨0x114, 1, 0x4, 0x00000000#32, [⟨31, 0, .rwl, []⟩]⟩,
   ⟨0x118, 1, 0x4, 0x00000000#32, [⟨17, 0, .rw, []⟩]⟩,
   ⟨0x11c, 1, 0x4, 0x00000000#32, [⟨31, 0, .rw, []⟩]⟩,
   ⟨0x120, 1, 0x4, 0x00000000#32, []⟩,
   ⟨0x124, 1, 0x4, 0x00000000#32, [⟨0, 0, .rw, []⟩]⟩,
   ⟨0x128, 1, 0x4, 0x00000000#32, []⟩,
   ⟨0x12c, 1, 0x4, 0x00000000#32, [⟨31, 0, .rwl, []⟩]⟩] ++
  [⟨0x130, 1, 0x4, 0x00000000#32, [⟨31, 0, .rwl, []⟩]⟩,
   ⟨0x134, 1, 0x4, 0x00000000#32, [⟨31, 0, .rwl, []⟩]⟩,
   ⟨0x138, 1, 0x4, 0x00000000#32, [⟨31, 0, .rwl, []⟩]⟩,
   ⟨0x140, 1, 0x4, 0x00000000#32, []⟩,
   ⟨0x144, 1, 0x4, 0x00000000#32, []⟩,
   ⟨0x148, 1, 0x4, 0x00000000#32, []⟩,
   ⟨0x14c, 1, 0x4, 0x00000000#32, []⟩,
   ⟨0x150, 1, 0x4, 0x00000000#32, []⟩,
   ⟨0x154, 1, 0x4, 0x00000000#32, []⟩,
   ⟨0x158, 1, 0x4, 0x00000000#32, []⟩,
   ⟨0x15c, 1, 0x4, 0x00000000#32, []⟩,
   ⟨0x160, 1, 0x4, 0x00000000#32, []⟩] ++
  [⟨0x164, 1, 0x4, 0x00000000#32, []⟩]

/-- The block-specific registers of a dual page, as its chapter's register table lists them. -/
def Catalog.dual : List RegDesc :=
  [⟨0x100, 16, 0x4, 0x00000000#32, []⟩,
   ⟨0x140, 16, 0x4, 0x00000000#32, []⟩,
   ⟨0x180, 16, 0x4, 0x00000000#32, []⟩,
   ⟨0x1c0, 1, 0x4, 0x00000000#32, []⟩,
   ⟨0x1c4, 1, 0x4, 0x00000000#32, []⟩]

/-- The block-specific registers of a stations page, as its chapter's register table lists them. -/
def Catalog.stations : List RegDesc :=
  [⟨0x100, 8, 0x4, 0x00000000#32, []⟩,
   ⟨0x120, 8, 0x4, 0x00000000#32, []⟩,
   ⟨0x140, 8, 0x4, 0x00000000#32, []⟩,
   ⟨0x160, 1, 0x4, 0x00000000#32, []⟩]

/-- The block-specific registers of a timebase page, as its chapter's register table lists them. -/
def Catalog.timebase : List RegDesc :=
  [⟨0x100, 1, 0x4, 0x00000008#32, []⟩,
   ⟨0x104, 1, 0x4, 0x00000000#32, []⟩,
   ⟨0x108, 1, 0x4, 0x00000032#32, [⟨13, 0, .rwl, [(10, 10000)]⟩]⟩,
   ⟨0x10c, 1, 0x4, 0x00000000#32, []⟩,
   ⟨0x110, 1, 0x4, 0x00000000#32, []⟩,
   ⟨0x114, 1, 0x4, 0x00000000#32, []⟩]

/-- The block-specific registers of a time page, as its chapter's register table lists them. -/
def Catalog.time : List RegDesc :=
  [⟨0x100, 1, 0x4, 0x00000000#32, []⟩,
   ⟨0x104, 1, 0x4, 0x00000000#32, []⟩,
   ⟨0x108, 1, 0x4, 0x00000000#32, [⟨31, 0, .rwl, [(0, 1000000), (4293967296, 4294967295)]⟩]⟩,
   ⟨0x110, 1, 0x4, 0x00000000#32, []⟩,
   ⟨0x114, 1, 0x4, 0x00000000#32, []⟩,
   ⟨0x118, 1, 0x4, 0x00000000#32, []⟩,
   ⟨0x11c, 1, 0x4, 0x00000000#32, []⟩,
   ⟨0x120, 1, 0x4, 0x000003e8#32, [⟨31, 0, .rwl, [(50, 100000)]⟩]⟩,
   ⟨0x124, 1, 0x4, 0x000f4240#32, [⟨31, 0, .rwl, [(10000, 100000000)]⟩]⟩,
   ⟨0x128, 1, 0x4, 0x0000000a#32, [⟨11, 0, .rwl, [(1, 3600)]⟩]⟩,
   ⟨0x12c, 1, 0x4, 0x00000000#32, []⟩,
   ⟨0x130, 1, 0x4, 0x00000000#32, []⟩] ++
  [⟨0x134, 1, 0x4, 0x00000000#32, []⟩,
   ⟨0x138, 1, 0x4, 0x0000c350#32, []⟩,
   ⟨0x13c, 1, 0x4, 0x0000c350#32, []⟩]

/-- The block-specific registers of a axles page, as its chapter's register table lists them. -/
def Catalog.axles : List RegDesc :=
  [⟨0x100, 1, 0x4, 0x00000000#32, [⟨5, 0, .rwl, []⟩]⟩,
   ⟨0x104, 4, 0x4, 0x00000064#32, [⟨12, 0, .rwl, [(1, 4096)]⟩, ⟨16, 16, .rwl, []⟩, ⟨23, 20, .rwl, [(0, 10)]⟩]⟩,
   ⟨0x114, 4, 0x4, 0x000023f0#32, [⟨13, 0, .rwl, [(3000, 15000)]⟩]⟩,
   ⟨0x124, 1, 0x4, 0x0000012c#32, [⟨10, 0, .rwl, [(1, 2000)]⟩]⟩,
   ⟨0x130, 8, 0x4, 0x00000000#32, []⟩,
   ⟨0x150, 1, 0x4, 0x00000000#32, []⟩,
   ⟨0x154, 1, 0x4, 0x00000000#32, []⟩,
   ⟨0x158, 4, 0x4, 0x00000000#32, []⟩,
   ⟨0x168, 1, 0x4, 0x00000000#32, []⟩,
   ⟨0x16c, 1, 0x4, 0x00000000#32, []⟩,
   ⟨0x170, 1, 0x4, 0x00000000#32, []⟩]

/-- The block-specific registers of a sched page, as its chapter's register table lists them. -/
def Catalog.sched : List RegDesc :=
  [⟨0x100, 16, 0x20, 0x00000000#32, [⟨31, 31, .rw, []⟩, ⟨27, 24, .rw, []⟩, ⟨19, 16, .rw, []⟩]⟩,
   ⟨0x104, 16, 0x20, 0x00000000#32, [⟨31, 0, .rw, []⟩]⟩,
   ⟨0x108, 16, 0x20, 0x00000000#32, [⟨31, 0, .rw, []⟩]⟩,
   ⟨0x10c, 16, 0x20, 0x00000000#32, [⟨31, 0, .rw, []⟩]⟩,
   ⟨0x110, 16, 0x20, 0x00000000#32, [⟨31, 0, .rw, []⟩]⟩,
   ⟨0x114, 16, 0x20, 0x00000000#32, [⟨31, 0, .rw, []⟩]⟩,
   ⟨0x118, 16, 0x20, 0x00000000#32, []⟩,
   ⟨0x11c, 16, 0x20, 0x00000000#32, []⟩,
   ⟨0x300, 1, 0x4, 0x00000000#32, [⟨15, 0, .rwl, []⟩]⟩,
   ⟨0x340, 16, 0x4, 0x00000000#32, []⟩]

/-- The block-specific registers of a switch page, as its chapter's register table lists them. -/
def Catalog.switch : List RegDesc :=
  [⟨0x100, 1, 0x4, 0x00060400#32, [⟨15, 0, .rwl, [(0, 16384)]⟩, ⟨18, 16, .rwl, []⟩]⟩,
   ⟨0x104, 1, 0x4, 0x00008000#32, []⟩,
   ⟨0x108, 1, 0x4, 0x00000000#32, []⟩,
   ⟨0x10c, 1, 0x4, 0x00000000#32, []⟩,
   ⟨0x110, 1, 0x4, 0x00000000#32, []⟩,
   ⟨0x120, 1, 0x4, 0x00000000#32, []⟩,
   ⟨0x124, 1, 0x4, 0x00000000#32, []⟩,
   ⟨0x128, 1, 0x4, 0x00000000#32, []⟩,
   ⟨0x12c, 1, 0x4, 0x00000000#32, []⟩,
   ⟨0x130, 1, 0x4, 0x00000000#32, []⟩]

/-- The block-specific registers of a port page, as its chapter's register table lists them. -/
def Catalog.port : List RegDesc :=
  [⟨0x100, 1, 0x4, 0x06000000#32, [⟨3, 0, .rwl, []⟩, ⟨8, 8, .rwl, []⟩, ⟨27, 16, .rwl, [(64, 2048)]⟩]⟩,
   ⟨0x104, 1, 0x4, 0x00000000#32, []⟩,
   ⟨0x108, 1, 0x4, 0x00000001#32, [⟨11, 0, .rwl, [(1, 4094)]⟩, ⟨14, 12, .rwl, []⟩]⟩,
   ⟨0x10c, 1, 0x4, 0x00002710#32, [⟨19, 0, .rwl, [(1, 1000000)]⟩]⟩,
   ⟨0x110, 4, 0x4, 0x00000000#32, [⟨31, 31, .rwl, []⟩, ⟨30, 28, .rwl, []⟩, ⟨27, 0, .rwl, []⟩]⟩,
   ⟨0x120, 1, 0x4, 0x00000000#32, [⟨0, 0, .rwl, []⟩]⟩,
   ⟨0x124, 1, 0x4, 0x000f4240#32, [⟨31, 0, .rwl, [(1000, 1000000000)]⟩]⟩,
   ⟨0x128, 1, 0x4, 0x00000000#32, [⟨31, 0, .rwl, []⟩]⟩,
   ⟨0x12c, 1, 0x4, 0x00000000#32, [⟨31, 0, .rwl, []⟩]⟩,
   ⟨0x130, 1, 0x4, 0x00000001#32, [⟨6, 0, .rw, [(1, 64)]⟩]⟩,
   ⟨0x134, 1, 0x4, 0x00000001#32, []⟩,
   ⟨0x140, 8, 0x4, 0x00000800#32, [⟨15, 0, .rwl, [(0, 32768)]⟩]⟩] ++
  [⟨0x160, 8, 0x4, 0x00000000#32, []⟩,
   ⟨0x180, 8, 0x4, 0x00000000#32, []⟩,
   ⟨0x1a0, 8, 0x4, 0x00000000#32, []⟩,
   ⟨0x200, 64, 0x4, 0x00000000#32, [⟨31, 0, .rw, []⟩]⟩,
   ⟨0x300, 64, 0x4, 0x00000000#32, [⟨31, 0, .rw, []⟩]⟩]

/-- The block-specific registers of a bridge page, as its chapter's register table lists them. -/
def Catalog.bridge : List RegDesc :=
  [⟨0x100, 1, 0x4, 0x00012c00#32, [⟨0, 0, .rwl, []⟩, ⟨31, 8, .rwl, [(10, 1000000)]⟩]⟩,
   ⟨0x104, 1, 0x4, 0x00fac688#32, [⟨23, 0, .rwl, []⟩]⟩,
   ⟨0x108, 1, 0x4, 0x00000000#32, [⟨31, 0, .rwl, []⟩]⟩,
   ⟨0x10c, 1, 0x4, 0x00000000#32, [⟨15, 0, .rwl, []⟩]⟩,
   ⟨0x110, 1, 0x4, 0x00000000#32, [⟨31, 0, .rwl, []⟩]⟩,
   ⟨0x114, 1, 0x4, 0x00000000#32, [⟨31, 0, .rw, []⟩]⟩,
   ⟨0x118, 1, 0x4, 0x00000000#32, [⟨15, 0, .rw, []⟩, ⟨27, 16, .rw, []⟩]⟩,
   ⟨0x11c, 1, 0x4, 0x00000000#32, [⟨8, 0, .rw, []⟩]⟩,
   ⟨0x120, 1, 0x4, 0x00000000#32, []⟩,
   ⟨0x124, 1, 0x4, 0x00000000#32, []⟩,
   ⟨0x128, 1, 0x4, 0x00000001#32, [⟨11, 0, .rw, [(1, 4094)]⟩]⟩,
   ⟨0x12c, 1, 0x4, 0x00000000#32, [⟨15, 0, .rw, []⟩]⟩] ++
  [⟨0x130, 1, 0x4, 0x00000000#32, []⟩,
   ⟨0x134, 1, 0x4, 0x00000000#32, []⟩]

/-- The block-specific registers of a trdp page, as its chapter's register table lists them. -/
def Catalog.trdp : List RegDesc :=
  [⟨0x100, 1, 0x4, 0x00000000#32, []⟩,
   ⟨0x104, 1, 0x4, 0x00000000#32, [⟨31, 0, .rw, []⟩]⟩,
   ⟨0x108, 1, 0x4, 0x00000000#32, [⟨31, 0, .rw, []⟩]⟩,
   ⟨0x110, 1, 0x4, 0x00000000#32, [⟨10, 0, .rw, []⟩]⟩,
   ⟨0x114, 1, 0x4, 0x00000000#32, []⟩,
   ⟨0x118, 1, 0x4, 0x00000000#32, []⟩,
   ⟨0x120, 8, 0x4, 0x00000000#32, [⟨31, 0, .rw, []⟩]⟩,
   ⟨0x140, 1, 0x4, 0x00000000#32, []⟩,
   ⟨0x144, 1, 0x4, 0x00000000#32, []⟩,
   ⟨0x148, 1, 0x4, 0x00000000#32, []⟩,
   ⟨0x14c, 1, 0x4, 0x00000000#32, []⟩]

/-- The block-specific registers of a prp page, as its chapter's register table lists them. -/
def Catalog.prp : List RegDesc :=
  [⟨0x100, 1, 0x4, 0x00000000#32, [⟨2, 0, .rwl, []⟩]⟩,
   ⟨0x104, 1, 0x4, 0x003c0190#32, [⟨15, 0, .rwl, [(10, 10000)]⟩, ⟨31, 16, .rwl, [(1, 3600)]⟩]⟩,
   ⟨0x108, 1, 0x4, 0x000007d0#32, [⟨15, 0, .rwl, [(100, 10000)]⟩]⟩,
   ⟨0x10c, 1, 0x4, 0x00000000#32, []⟩,
   ⟨0x110, 1, 0x4, 0x00000000#32, []⟩]

/-- The block-specific registers of a gptp page, as its chapter's register table lists them. -/
def Catalog.gptp : List RegDesc :=
  [⟨0x100, 1, 0x4, 0x000d0000#32, [⟨2, 0, .rwl, [(0, 5)]⟩, ⟨13, 8, .rwl, []⟩, ⟨19, 16, .rwl, [(0, 0), (13, 15)]⟩, ⟨23, 20, .rwl, [(0, 3)]⟩]⟩,
   ⟨0x104, 1, 0x4, 0x00000000#32, []⟩,
   ⟨0x108, 6, 0x4, 0x00000000#32, []⟩]

/-- The block-specific registers of a streams page, as its chapter's register table lists them. -/
def Catalog.streams : List RegDesc :=
  [⟨0x100, 1, 0x4, 0x00000000#32, [⟨7, 0, .rw, []⟩]⟩,
   ⟨0x104, 1, 0x4, 0x00000000#32, [⟨31, 29, .rw, []⟩, ⟨27, 0, .rw, []⟩]⟩,
   ⟨0x108, 1, 0x4, 0x00000000#32, [⟨31, 0, .rw, []⟩]⟩,
   ⟨0x10c, 1, 0x4, 0x00000000#32, [⟨10, 0, .rw, []⟩, ⟨22, 16, .rw, []⟩, ⟨23, 23, .rw, []⟩]⟩,
   ⟨0x110, 1, 0x4, 0x00000000#32, []⟩,
   ⟨0x114, 1, 0x4, 0x00000000#32, [⟨6, 0, .rw, []⟩]⟩,
   ⟨0x118, 1, 0x4, 0x00000000#32, [⟨23, 0, .rw, [(0, 10000000)]⟩]⟩,
   ⟨0x11c, 1, 0x4, 0x00000000#32, [⟨19, 0, .rw, []⟩]⟩,
   ⟨0x120, 1, 0x4, 0x00000000#32, []⟩,
   ⟨0x124, 1, 0x4, 0x00000064#32, [⟨9, 0, .rwl, [(1, 1000)]⟩]⟩,
   ⟨0x128, 1, 0x4, 0x00000000#32, []⟩,
   ⟨0x12c, 1, 0x4, 0x00000000#32, []⟩]

/-- The block-specific registers of a queue page, as its chapter's register table lists them. -/
def Catalog.queue : List RegDesc :=
  [⟨0x100, 1, 0x4, 0x00000400#32, [⟨12, 8, .rwl, [(4, 12)]⟩, ⟨6, 4, .rwl, []⟩, ⟨1, 1, .rwl, []⟩]⟩,
   ⟨0x104, 1, 0x4, 0x00000000#32, [⟨31, 5, .rwl, []⟩]⟩,
   ⟨0x108, 1, 0x4, 0x00000000#32, [⟨7, 0, .rwl, []⟩]⟩,
   ⟨0x10c, 1, 0x4, 0x00ff0000#32, [⟨31, 30, .rwl, []⟩, ⟨23, 16, .rwl, []⟩, ⟨11, 0, .rwl, []⟩]⟩,
   ⟨0x110, 1, 0x4, 0x00000000#32, [⟨31, 0, .rwl, []⟩]⟩,
   ⟨0x114, 1, 0x4, 0x00000000#32, [⟨31, 0, .rwl, []⟩]⟩,
   ⟨0x118, 1, 0x4, 0x00000000#32, [⟨5, 0, .rwl, []⟩]⟩,
   ⟨0x11c, 1, 0x4, 0x00000000#32, []⟩,
   ⟨0x120, 1, 0x4, 0x00000000#32, []⟩,
   ⟨0x124, 1, 0x4, 0x00000000#32, [⟨31, 16, .rw, []⟩, ⟨10, 8, .rw, []⟩, ⟨7, 0, .rw, []⟩]⟩,
   ⟨0x128, 1, 0x4, 0x00000000#32, [⟨15, 0, .rw, []⟩]⟩,
   ⟨0x12c, 1, 0x4, 0x00000000#32, []⟩] ++
  [⟨0x130, 1, 0x4, 0x00000000#32, []⟩,
   ⟨0x134, 1, 0x4, 0x00000000#32, []⟩,
   ⟨0x138, 1, 0x4, 0x00000000#32, []⟩,
   ⟨0x13c, 1, 0x4, 0x00000000#32, []⟩]

/-- The block-specific registers of a safeData page, as its chapter's register table lists them. -/
def Catalog.safeData : List RegDesc :=
  [⟨0x100, 1, 0x4, 0x000800c8#32, [⟨15, 0, .rwl, [(10, 5000)]⟩, ⟨23, 16, .rwl, [(1, 255)]⟩]⟩,
   ⟨0x104, 1, 0x4, 0x00000000#32, []⟩,
   ⟨0x108, 1, 0x4, 0x00000000#32, []⟩,
   ⟨0x10c, 1, 0x4, 0x00000000#32, [⟨0, 0, .rw, []⟩]⟩,
   ⟨0x110, 1, 0x4, 0x00000000#32, [⟨8, 0, .rw, []⟩]⟩,
   ⟨0x114, 1, 0x4, 0x00000000#32, []⟩,
   ⟨0x118, 1, 0x4, 0x00000000#32, []⟩,
   ⟨0x11c, 1, 0x4, 0x00000000#32, []⟩,
   ⟨0x120, 1, 0x4, 0x00000000#32, [⟨31, 31, .rw, []⟩, ⟨23, 16, .rw, []⟩, ⟨15, 0, .rw, []⟩]⟩,
   ⟨0x124, 1, 0x4, 0x00000000#32, [⟨31, 0, .rw, []⟩]⟩,
   ⟨0x128, 1, 0x4, 0x00000000#32, [⟨31, 0, .rw, []⟩]⟩,
   ⟨0x12c, 1, 0x4, 0x00000000#32, []⟩] ++
  [⟨0x130, 1, 0x4, 0x00000000#32, []⟩,
   ⟨0x134, 1, 0x4, 0x00000000#32, []⟩,
   ⟨0x138, 1, 0x4, 0x00000000#32, []⟩]

/-- The block-specific registers of a mvb page, as its chapter's register table lists them. -/
def Catalog.mvb : List RegDesc :=
  [⟨0x100, 1, 0x4, 0x0000000c#32, [⟨1, 0, .rwl, []⟩, ⟨3, 2, .rwl, [(1, 3)]⟩, ⟨4, 4, .rwl, []⟩, ⟨11, 8, .rwl, [(0, 10)]⟩, ⟨27, 16, .rwl, []⟩]⟩,
   ⟨0x104, 1, 0x4, 0x00000003#32, []⟩,
   ⟨0x108, 1, 0x4, 0x0000002b#32, [⟨5, 0, .rwl, [(2, 63)]⟩]⟩,
   ⟨0x10c, 1, 0x4, 0x00000000#32, [⟨15, 0, .rw, []⟩]⟩,
   ⟨0x110, 1, 0x4, 0x00000000#32, [⟨7, 0, .rw, []⟩]⟩,
   ⟨0x114, 1, 0x4, 0x00000000#32, [⟨31, 30, .rw, []⟩, ⟨18, 16, .rw, []⟩, ⟨11, 0, .rw, []⟩]⟩,
   ⟨0x118, 1, 0x4, 0x00000000#32, [⟨31, 0, .rw, []⟩]⟩,
   ⟨0x11c, 1, 0x4, 0x00000000#32, []⟩,
   ⟨0x120, 1, 0x4, 0x00000000#32, [⟨9, 0, .rw, []⟩]⟩,
   ⟨0x124, 1, 0x4, 0x00000000#32, [⟨31, 31, .rw, []⟩, ⟨29, 0, .rw, []⟩]⟩,
   ⟨0x128, 1, 0x4, 0x00000000#32, []⟩,
   ⟨0x12c, 1, 0x4, 0x00000000#32, []⟩] ++
  [⟨0x130, 1, 0x4, 0x00000000#32, []⟩,
   ⟨0x134, 1, 0x4, 0x00000000#32, []⟩,
   ⟨0x138, 1, 0x4, 0x00000000#32, []⟩]

/-- The block-specific registers of a can page, as its chapter's register table lists them. -/
def Catalog.can : List RegDesc :=
  [⟨0x100, 1, 0x4, 0x00000000#32, [⟨4, 0, .rwl, []⟩]⟩,
   ⟨0x104, 1, 0x4, 0x0113134e#32, [⟨7, 0, .rwl, [(1, 255)]⟩, ⟨14, 8, .rwl, []⟩, ⟨22, 16, .rwl, []⟩, ⟨28, 24, .rwl, []⟩]⟩,
   ⟨0x108, 1, 0x4, 0x01040412#32, [⟨4, 0, .rwl, []⟩, ⟨11, 8, .rwl, []⟩, ⟨19, 16, .rwl, []⟩, ⟨28, 24, .rwl, []⟩]⟩,
   ⟨0x10c, 1, 0x4, 0x00000000#32, [⟨6, 0, .rwl, []⟩]⟩,
   ⟨0x110, 1, 0x4, 0x00000000#32, []⟩,
   ⟨0x114, 1, 0x4, 0x00000000#32, []⟩,
   ⟨0x118, 1, 0x4, 0x00000044#32, [⟨3, 0, .rwl, [(4, 10)]⟩, ⟨7, 4, .rwl, [(4, 10)]⟩]⟩,
   ⟨0x120, 1, 0x4, 0x00000000#32, [⟨31, 5, .rwl, []⟩]⟩,
   ⟨0x124, 1, 0x4, 0x00000000#32, [⟨7, 0, .rwl, []⟩]⟩,
   ⟨0x128, 1, 0x4, 0x00000000#32, [⟨31, 5, .rwl, []⟩]⟩,
   ⟨0x12c, 1, 0x4, 0x00000000#32, [⟨7, 0, .rwl, []⟩]⟩,
   ⟨0x130, 1, 0x4, 0x00000000#32, []⟩] ++
  [⟨0x134, 1, 0x4, 0x00000000#32, []⟩,
   ⟨0x138, 1, 0x4, 0x00000000#32, []⟩,
   ⟨0x13c, 1, 0x4, 0x00000000#32, []⟩,
   ⟨0x140, 1, 0x4, 0x00000000#32, []⟩,
   ⟨0x144, 1, 0x4, 0x00000000#32, [⟨31, 16, .rw, []⟩, ⟨10, 8, .rw, []⟩, ⟨7, 0, .rw, []⟩]⟩,
   ⟨0x148, 1, 0x4, 0x00000000#32, [⟨15, 0, .rw, []⟩]⟩,
   ⟨0x200, 32, 0x4, 0x00000000#32, [⟨31, 31, .rwl, []⟩, ⟨29, 29, .rwl, []⟩, ⟨28, 0, .rwl, []⟩]⟩,
   ⟨0x280, 32, 0x4, 0x00000000#32, [⟨28, 0, .rwl, []⟩]⟩]

/-- The block-specific registers of a meas page, as its chapter's register table lists them. -/
def Catalog.meas : List RegDesc :=
  [⟨0x100, 1, 0x4, 0x00000000#32, []⟩,
   ⟨0x104, 1, 0x4, 0x00000000#32, []⟩,
   ⟨0x108, 1, 0x4, 0x00000000#32, []⟩,
   ⟨0x10c, 1, 0x4, 0x00000000#32, []⟩]

/-- The block-specific registers of a chGroup page, as its chapter's register table lists them. -/
def Catalog.chGroup : List RegDesc :=
  [⟨0x100, 1, 0x4, 0x00040014#32, [⟨10, 0, .rwl, [(16, 1024)]⟩, ⟨26, 16, .rwl, []⟩]⟩,
   ⟨0x104, 1, 0x4, 0x01312d00#32, []⟩,
   ⟨0x108, 1, 0x4, 0x00000000#32, []⟩,
   ⟨0x10c, 1, 0x4, 0x00000000#32, []⟩]

/-- The block-specific registers of a ch page, as its chapter's register table lists them. -/
def Catalog.ch : List RegDesc :=
  [⟨0x100, 1, 0x4, 0x02080163#32, [⟨25, 24, .rwl, []⟩, ⟨19, 16, .rwl, [(4, 10)]⟩, ⟨15, 12, .rwl, []⟩, ⟨11, 8, .rwl, []⟩, ⟨6, 4, .rwl, [(4, 8)]⟩, ⟨2, 0, .rwl, [(3, 5)]⟩]⟩,
   ⟨0x104, 1, 0x4, 0x00002710#32, [⟨15, 0, .rwl, [(1, 50000)]⟩]⟩,
   ⟨0x108, 1, 0x4, 0x00000000#32, [⟨1, 0, .rwl, []⟩, ⟨6, 4, .rwl, []⟩]⟩,
   ⟨0x10c, 1, 0x4, 0x000003e8#32, [⟨31, 31, .rwl, []⟩, ⟨15, 0, .rwl, []⟩]⟩,
   ⟨0x110, 1, 0x4, 0x00000a04#32, [⟨4, 0, .rwl, [(0, 20)]⟩, ⟨12, 8, .rwl, [(0, 20)]⟩]⟩,
   ⟨0x114, 1, 0x4, 0x00000000#32, [⟨24, 4, .rwl, []⟩]⟩,
   ⟨0x118, 1, 0x4, 0x00000a00#32, [⟨0, 0, .rwl, []⟩, ⟨12, 8, .rwl, [(4, 16)]⟩]⟩,
   ⟨0x120, 1, 0x4, 0x00000000#32, []⟩,
   ⟨0x124, 1, 0x4, 0x00000000#32, []⟩,
   ⟨0x128, 1, 0x4, 0x00000000#32, []⟩,
   ⟨0x12c, 1, 0x4, 0x00000000#32, []⟩,
   ⟨0x130, 1, 0x4, 0x00000000#32, []⟩] ++
  [⟨0x134, 1, 0x4, 0x00000000#32, []⟩,
   ⟨0x138, 1, 0x4, 0x00000000#32, []⟩,
   ⟨0x13c, 1, 0x4, 0x00000000#32, []⟩,
   ⟨0x140, 1, 0x4, 0x00000000#32, []⟩,
   ⟨0x144, 1, 0x4, 0x00000000#32, []⟩,
   ⟨0x148, 1, 0x4, 0x00000000#32, []⟩,
   ⟨0x14c, 1, 0x4, 0x00000000#32, []⟩,
   ⟨0x150, 1, 0x4, 0x00000000#32, []⟩,
   ⟨0x154, 1, 0x4, 0x00000000#32, []⟩,
   ⟨0x158, 1, 0x4, 0x00000000#32, []⟩,
   ⟨0x15c, 1, 0x4, 0x00000000#32, []⟩,
   ⟨0x160, 1, 0x4, 0x00000000#32, []⟩] ++
  [⟨0x164, 1, 0x4, 0x00000000#32, []⟩,
   ⟨0x168, 1, 0x4, 0x00000000#32, []⟩,
   ⟨0x16c, 1, 0x4, 0x00000000#32, []⟩,
   ⟨0x170, 1, 0x4, 0x00000000#32, []⟩,
   ⟨0x174, 1, 0x4, 0x00000000#32, []⟩,
   ⟨0x178, 1, 0x4, 0x00000000#32, []⟩,
   ⟨0x17c, 5, 0x4, 0x00000000#32, []⟩,
   ⟨0x190, 1, 0x4, 0x00000000#32, []⟩,
   ⟨0x400, 256, 0x4, 0x00000000#32, []⟩,
   ⟨0x800, 256, 0x4, 0x00000000#32, []⟩]

/-- The block-specific registers of a tracker page, as its chapter's register table lists them. -/
def Catalog.tracker : List RegDesc :=
  [⟨0x100, 1, 0x4, 0x00050000#32, [⟨4, 0, .rwl, []⟩, ⟨8, 8, .rwl, []⟩, ⟨23, 16, .rwl, [(1, 255)]⟩]⟩,
   ⟨0x104, 1, 0x4, 0x00000064#32, [⟨9, 0, .rwl, [(20, 1000)]⟩]⟩,
   ⟨0x108, 1, 0x4, 0x00080000#32, [⟨23, 0, .rwl, []⟩]⟩,
   ⟨0x10c, 1, 0x4, 0x00000000#32, [⟨31, 0, .rwl, []⟩]⟩,
   ⟨0x110, 1, 0x4, 0x000f0f00#32, []⟩,
   ⟨0x114, 1, 0x4, 0x00000000#32, []⟩,
   ⟨0x118, 1, 0x4, 0x00000000#32, []⟩,
   ⟨0x11c, 1, 0x4, 0x00000000#32, []⟩,
   ⟨0x120, 1, 0x4, 0x00000000#32, []⟩,
   ⟨0x140, 8, 0xc, 0x00000000#32, [⟨31, 30, .rwl, []⟩, ⟨19, 0, .rwl, []⟩]⟩,
   ⟨0x144, 8, 0xc, 0x00000000#32, [⟨23, 0, .rwl, []⟩]⟩,
   ⟨0x148, 8, 0xc, 0x00000000#32, [⟨23, 0, .rwl, []⟩]⟩]

/-- The block-specific registers of a out page, as its chapter's register table lists them. -/
def Catalog.out : List RegDesc :=
  [⟨0x100, 1, 0x4, 0x00000163#32, [⟨2, 0, .rwl, [(3, 5)]⟩, ⟨6, 4, .rwl, [(4, 8)]⟩, ⟨10, 8, .rwl, []⟩, ⟨13, 12, .rwl, [(0, 2)]⟩, ⟨20, 16, .rwl, []⟩]⟩,
   ⟨0x104, 1, 0x4, 0x00000000#32, [⟨24, 2, .rwl, []⟩]⟩,
   ⟨0x108, 1, 0x4, 0x0000000a#32, [⟨4, 0, .rwl, [(4, 16)]⟩]⟩,
   ⟨0x10c, 1, 0x4, 0x00000000#32, []⟩,
   ⟨0x110, 1, 0x4, 0x00000000#32, []⟩,
   ⟨0x114, 1, 0x4, 0x00000000#32, [⟨23, 0, .rw, []⟩]⟩,
   ⟨0x118, 1, 0x4, 0x00000000#32, []⟩,
   ⟨0x11c, 1, 0x4, 0x00000000#32, []⟩,
   ⟨0x120, 1, 0x4, 0x00000000#32, []⟩,
   ⟨0x124, 1, 0x4, 0x00000000#32, []⟩,
   ⟨0x400, 128, 0x4, 0x00000000#32, []⟩]

/-- The block-specific registers of a vme page, as its chapter's register table lists them. -/
def Catalog.vme : List RegDesc :=
  [⟨0x100, 1, 0x4, 0x00000003#32, [⟨3, 0, .rwl, []⟩]⟩,
   ⟨0x104, 1, 0x4, 0x00100040#32, [⟨9, 0, .rwl, [(8, 1000)]⟩, ⟨25, 16, .rwl, [(8, 1000)]⟩]⟩,
   ⟨0x108, 1, 0x4, 0x00000000#32, []⟩,
   ⟨0x10c, 1, 0x4, 0x00000000#32, []⟩,
   ⟨0x110, 1, 0x4, 0x00000000#32, []⟩,
   ⟨0x114, 1, 0x4, 0x00000000#32, []⟩,
   ⟨0x118, 1, 0x4, 0x00000000#32, []⟩,
   ⟨0x11c, 1, 0x4, 0x00000000#32, []⟩,
   ⟨0x120, 1, 0x4, 0x00000000#32, []⟩,
   ⟨0x124, 1, 0x4, 0x00000000#32, []⟩,
   ⟨0x128, 1, 0x4, 0x00000000#32, []⟩,
   ⟨0x12c, 1, 0x4, 0x00000000#32, []⟩] ++
  [⟨0x130, 1, 0x4, 0x00000000#32, []⟩,
   ⟨0x134, 1, 0x4, 0x00000000#32, []⟩,
   ⟨0x138, 1, 0x4, 0x0000000a#32, [⟨9, 0, .rw, [(1, 1000)]⟩]⟩,
   ⟨0x13c, 1, 0x4, 0x00000000#32, [⟨7, 1, .rw, []⟩]⟩,
   ⟨0x140, 1, 0x4, 0x00000000#32, []⟩,
   ⟨0x144, 7, 0x4, 0x00000000#32, [⟨31, 16, .rw, []⟩, ⟨13, 12, .rw, [(0, 2)]⟩, ⟨10, 8, .rw, []⟩]⟩,
   ⟨0x200, 8, 0x20, 0x00000000#32, [⟨2, 0, .rwl, []⟩, ⟨5, 4, .rwl, [(0, 2)]⟩, ⟨10, 8, .rwl, []⟩]⟩,
   ⟨0x204, 8, 0x20, 0x00000000#32, [⟨13, 0, .rwl, []⟩]⟩,
   ⟨0x208, 8, 0x20, 0x00000010#32, [⟨4, 0, .rwl, [(16, 30)]⟩]⟩,
   ⟨0x20c, 8, 0x20, 0x00000000#32, [⟨31, 0, .rwl, []⟩]⟩,
   ⟨0x300, 4, 0x10, 0x00000000#32, [⟨4, 0, .rwl, []⟩, ⟨9, 8, .rwl, []⟩]⟩,
   ⟨0x304, 4, 0x10, 0x00000000#32, [⟨31, 0, .rwl, []⟩]⟩] ++
  [⟨0x308, 4, 0x10, 0x0000000c#32, [⟨4, 0, .rwl, [(12, 25)]⟩]⟩,
   ⟨0x30c, 4, 0x10, 0x00000000#32, [⟨12, 0, .rwl, []⟩]⟩,
   ⟨0x400, 64, 0x4, 0x00000000#32, []⟩]

/-- The block-specific registers of a pstate page, as its chapter's register table lists them. -/
def Catalog.pstate : List RegDesc :=
  [⟨0x100, 1, 0x4, 0x00000000#32, []⟩,
   ⟨0x104, 1, 0x4, 0x005507d0#32, [⟨13, 0, .rwl, [(0, 10000)]⟩, ⟨23, 16, .rwl, [(25, 150)]⟩]⟩,
   ⟨0x108, 1, 0x4, 0xffffffff#32, [⟨31, 0, .rwl, []⟩]⟩,
   ⟨0x10c, 1, 0x4, 0x00000018#32, [⟨7, 0, .rwl, [(1, 168)]⟩]⟩,
   ⟨0x110, 1, 0x4, 0x00000000#32, []⟩,
   ⟨0x114, 1, 0x4, 0x00000000#32, []⟩,
   ⟨0x118, 1, 0x4, 0x00000000#32, []⟩,
   ⟨0x11c, 1, 0x4, 0x00000000#32, []⟩,
   ⟨0x120, 1, 0x4, 0x00000000#32, []⟩,
   ⟨0x124, 1, 0x4, 0x00000000#32, []⟩,
   ⟨0x128, 4, 0x4, 0x00000000#32, []⟩,
   ⟨0x138, 1, 0x4, 0x00000000#32, []⟩] ++
  [⟨0x13c, 1, 0x4, 0x00000000#32, []⟩,
   ⟨0x140, 1, 0x4, 0x00000000#32, []⟩,
   ⟨0x144, 1, 0x4, 0x00000000#32, []⟩,
   ⟨0x148, 1, 0x4, 0x00000000#32, []⟩,
   ⟨0x14c, 1, 0x4, 0x00000000#32, []⟩,
   ⟨0x150, 1, 0x4, 0x00000000#32, []⟩,
   ⟨0x154, 1, 0x4, 0x00000000#32, []⟩,
   ⟨0x158, 1, 0x4, 0x00000000#32, []⟩,
   ⟨0x400, 496, 0x4, 0x00000000#32, []⟩]

/-- The block-specific registers of a commitPorts page, as its chapter's register table lists them. -/
def Catalog.commitPorts : List RegDesc :=
  [⟨0x100, 2, 0x40, 0x00000000#32, [⟨24, 6, .rw, []⟩]⟩,
   ⟨0x104, 2, 0x40, 0x00000000#32, [⟨21, 0, .rw, []⟩]⟩,
   ⟨0x108, 2, 0x40, 0x00000001#32, [⟨10, 0, .rw, []⟩]⟩,
   ⟨0x10c, 2, 0x40, 0x00000000#32, []⟩,
   ⟨0x110, 2, 0x40, 0x00000000#32, []⟩,
   ⟨0x114, 2, 0x40, 0x00000000#32, []⟩,
   ⟨0x118, 2, 0x40, 0x00000000#32, []⟩,
   ⟨0x11c, 2, 0x40, 0x00000000#32, []⟩,
   ⟨0x120, 2, 0x40, 0x00000000#32, []⟩,
   ⟨0x124, 2, 0x40, 0x00000000#32, []⟩]

/-- The block-specific registers of a recorder page, as its chapter's register table lists them. -/
def Catalog.recorder : List RegDesc :=
  [⟨0x100, 1, 0x4, 0x00000000#32, []⟩,
   ⟨0x104, 1, 0x4, 0x00000000#32, []⟩,
   ⟨0x108, 1, 0x4, 0x00000000#32, []⟩,
   ⟨0x10c, 1, 0x4, 0x00000000#32, []⟩,
   ⟨0x110, 1, 0x4, 0x00000000#32, []⟩,
   ⟨0x114, 1, 0x4, 0x00000000#32, []⟩]

/-- The block-specific registers of a update page, as its chapter's register table lists them. -/
def Catalog.update : List RegDesc :=
  [⟨0x100, 1, 0x4, 0x00000000#32, []⟩,
   ⟨0x104, 1, 0x4, 0x00000000#32, []⟩,
   ⟨0x108, 1, 0x4, 0x00000000#32, []⟩,
   ⟨0x10c, 1, 0x4, 0x00000000#32, []⟩,
   ⟨0x110, 1, 0x4, 0x00000000#32, []⟩,
   ⟨0x114, 1, 0x4, 0x00000000#32, []⟩,
   ⟨0x118, 1, 0x4, 0x00000000#32, []⟩,
   ⟨0x11c, 1, 0x4, 0x00000000#32, []⟩]

/-- The block-specific registers of a settings page, as its chapter's register table lists them. -/
def Catalog.settings : List RegDesc :=
  [⟨0x100, 1, 0x4, 0x00000000#32, []⟩,
   ⟨0x104, 1, 0x4, 0x00000000#32, []⟩,
   ⟨0x108, 1, 0x4, 0x00000000#32, []⟩,
   ⟨0x10c, 1, 0x4, 0x00000000#32, []⟩,
   ⟨0x110, 1, 0x4, 0x00000000#32, []⟩,
   ⟨0x114, 1, 0x4, 0x00000000#32, []⟩]

/-- The block-specific registers of a commissioning page, as its chapter's register table lists them. -/
def Catalog.commissioning : List RegDesc :=
  [⟨0x100, 1, 0x4, 0x00000000#32, []⟩,
   ⟨0x104, 1, 0x4, 0x00000000#32, []⟩,
   ⟨0x108, 1, 0x4, 0x00000000#32, []⟩,
   ⟨0x10c, 1, 0x4, 0x00000000#32, []⟩,
   ⟨0x110, 1, 0x4, 0x00000000#32, []⟩,
   ⟨0x114, 1, 0x4, 0x00000000#32, []⟩]

/-- The block-specific registers of a supervisor page, as its chapter's register table lists them. -/
def Catalog.supervisor : List RegDesc :=
  [⟨0x100, 1, 0x4, 0x00000000#32, []⟩,
   ⟨0x104, 1, 0x4, 0x00000000#32, [⟨0, 0, .rw, []⟩]⟩,
   ⟨0x108, 1, 0x4, 0x00000000#32, [⟨15, 0, .rwl, []⟩]⟩,
   ⟨0x10c, 1, 0x4, 0x00000000#32, [⟨31, 31, .rwl, []⟩, ⟨10, 0, .rwl, []⟩]⟩,
   ⟨0x110, 1, 0x4, 0x00000000#32, []⟩,
   ⟨0x114, 1, 0x4, 0x00000000#32, []⟩,
   ⟨0x118, 1, 0x4, 0x00000000#32, []⟩,
   ⟨0x11c, 1, 0x4, 0x00000000#32, []⟩,
   ⟨0x120, 8, 0x4, 0x00000000#32, []⟩]

/-- The block-specific registers of a causeway page, as its chapter's register table lists them. -/
def Catalog.causeway : List RegDesc :=
  [⟨0x100, 1, 0x4, 0x00030000#32, [⟨0, 0, .rwl, []⟩, ⟨10, 8, .rwl, []⟩, ⟨23, 16, .rwl, [(1, 255)]⟩, ⟨26, 24, .rwl, []⟩]⟩,
   ⟨0x104, 1, 0x4, 0x00000000#32, [⟨0, 0, .rw, []⟩]⟩,
   ⟨0x108, 1, 0x4, 0x00000000#32, []⟩,
   ⟨0x10c, 1, 0x4, 0x00010000#32, [⟨7, 0, .rwl, []⟩, ⟨15, 8, .rwl, []⟩, ⟨24, 16, .rwl, [(1, 256)]⟩]⟩,
   ⟨0x110, 1, 0x4, 0x00000000#32, [⟨24, 6, .rwl, []⟩]⟩,
   ⟨0x114, 1, 0x4, 0x00000000#32, []⟩,
   ⟨0x118, 1, 0x4, 0x00000000#32, []⟩,
   ⟨0x11c, 1, 0x4, 0x00000000#32, []⟩,
   ⟨0x120, 1, 0x4, 0x00000000#32, []⟩,
   ⟨0x124, 1, 0x4, 0x00000000#32, []⟩,
   ⟨0x128, 1, 0x4, 0x00000000#32, []⟩]

/-- The block-specific registers of a stackLink page, as its chapter's register table lists them. -/
def Catalog.stackLink : List RegDesc :=
  [⟨0x100, 1, 0x4, 0x00000000#32, []⟩,
   ⟨0x104, 1, 0x4, 0x00000000#32, []⟩,
   ⟨0x108, 1, 0x4, 0x00000000#32, []⟩]

/-- The block-specific registers of a stackGroup page, as its chapter's register table lists them. -/
def Catalog.stackGroup : List RegDesc :=
  [⟨0x100, 1, 0x4, 0x00000000#32, []⟩,
   ⟨0x104, 1, 0x4, 0x00000000#32, []⟩]

/-- The block-specific registers of a pmc page, as its chapter's register table lists them. -/
def Catalog.pmc : List RegDesc :=
  [⟨0x100, 112, 0x4, 0x00000007#32, [⟨31, 31, .rw, []⟩, ⟨27, 7, .rw, []⟩, ⟨2, 0, .rw, []⟩]⟩,
   ⟨0x400, 224, 0x4, 0x00000000#32, []⟩]

/-- The block-specific registers of a bandwidth page, as its chapter's register table lists them. -/
def Catalog.bandwidth : List RegDesc :=
  [⟨0x100, 1, 0x4, 0x000003e8#32, [⟨19, 0, .rw, [(1, 1000000)]⟩]⟩,
   ⟨0x104, 1, 0x4, 0x00000000#32, []⟩,
   ⟨0x200, 192, 0x4, 0x00000000#32, []⟩]

/-- The block-specific registers of a sampler page, as its chapter's register table lists them. -/
def Catalog.sampler : List RegDesc :=
  [⟨0x100, 5, 0x20, 0x00000400#32, [⟨31, 31, .rw, []⟩, ⟨23, 0, .rw, [(1024, 16777215)]⟩]⟩,
   ⟨0x104, 5, 0x20, 0x00000000#32, [⟨24, 12, .rw, []⟩]⟩,
   ⟨0x108, 5, 0x20, 0x00000000#32, []⟩,
   ⟨0x10c, 5, 0x20, 0x00000000#32, []⟩]

/-- The block-specific registers of a workshop page, as its chapter's register table lists them. -/
def Catalog.workshop : List RegDesc :=
  [⟨0x100, 1, 0x4, 0x00000000#32, []⟩,
   ⟨0x104, 1, 0x4, 0x00000000#32, []⟩,
   ⟨0x108, 1, 0x4, 0x00000000#32, []⟩]

/-- The block-specific registers of a perturb page, as its chapter's register table lists them. -/
def Catalog.perturb : List RegDesc :=
  [⟨0x100, 1, 0x4, 0x00000000#32, [⟨31, 31, .rw, []⟩, ⟨29, 27, .rw, []⟩, ⟨15, 0, .rw, []⟩]⟩,
   ⟨0x104, 1, 0x4, 0x00000000#32, [⟨31, 31, .rw, []⟩, ⟨29, 28, .rw, []⟩, ⟨5, 0, .rw, []⟩]⟩,
   ⟨0x108, 1, 0x4, 0x00000000#32, [⟨31, 31, .rw, []⟩, ⟨29, 28, .rw, []⟩, ⟨15, 0, .rw, []⟩]⟩,
   ⟨0x10c, 1, 0x4, 0x00000000#32, [⟨15, 0, .rw, []⟩]⟩,
   ⟨0x110, 1, 0x4, 0x00000000#32, [⟨1, 0, .rw, []⟩, ⟨23, 8, .rw, []⟩]⟩,
   ⟨0x114, 1, 0x4, 0x00000000#32, [⟨9, 0, .rw, []⟩, ⟨17, 16, .rw, []⟩]⟩,
   ⟨0x118, 1, 0x4, 0x00000000#32, [⟨0, 0, .rw, []⟩]⟩,
   ⟨0x11c, 1, 0x4, 0x00000000#32, [⟨31, 31, .rw, []⟩, ⟨1, 0, .rw, []⟩]⟩,
   ⟨0x120, 1, 0x4, 0x00000000#32, [⟨31, 28, .rw, []⟩, ⟨23, 0, .rw, []⟩]⟩,
   ⟨0x124, 1, 0x4, 0x00000000#32, []⟩]

/-- The register table of a unit, by its kind; a unit without block-specific registers has none. -/
def Catalog.ofKind : UnitKind → List RegDesc
  | .root => Catalog.root
  | .ident => Catalog.ident
  | .clock => Catalog.clock
  | .reset => Catalog.reset
  | .faultMgr => Catalog.faultMgr
  | .workLedger => Catalog.workLedger
  | .cluster => Catalog.cluster
  | .copy => Catalog.copy
  | .cmp => Catalog.cmp
  | .redundancy => Catalog.redundancy
  | .debugReplay => Catalog.debugReplay
  | .cle => Catalog.cle
  | .engine => Catalog.engine
  | .cleImage => Catalog.cleImage
  | .program => Catalog.program
  | .dual => Catalog.dual
  | .stations => Catalog.stations
  | .switch => Catalog.switch
  | .port => Catalog.port
  | .bridge => Catalog.bridge
  | .trdp => Catalog.trdp
  | .prp => Catalog.prp
  | .gptp => Catalog.gptp
  | .streams => Catalog.streams
  | .queues => []
  | .queue => Catalog.queue
  | .meas => Catalog.meas
  | .chGroup => Catalog.chGroup
  | .outputs => []
  | .tracker => Catalog.tracker
  | .ch => Catalog.ch
  | .out => Catalog.out
  | .timebase => Catalog.timebase
  | .time => Catalog.time
  | .axles => Catalog.axles
  | .sched => Catalog.sched
  | .vme => Catalog.vme
  | .pstate => Catalog.pstate
  | .commitPorts => Catalog.commitPorts
  | .recorder => Catalog.recorder
  | .update => Catalog.update
  | .settings => Catalog.settings
  | .commissioning => Catalog.commissioning
  | .supervisor => Catalog.supervisor
  | .causeway => Catalog.causeway
  | .stackLink => Catalog.stackLink
  | .stackGroup => Catalog.stackGroup
  | .observe => []
  | .pmc => Catalog.pmc
  | .bandwidth => Catalog.bandwidth
  | .sampler => Catalog.sampler
  | .workshop => Catalog.workshop
  | .perturb => Catalog.perturb
  | .safeData => Catalog.safeData
  | .fieldbus => []
  | .mvb => Catalog.mvb
  | .can => Catalog.can

/-- Does offset `off` belong to a row of a register table, and as which copy? -/
def RegDesc.indexOf (d : RegDesc) (off : Nat) : Option Nat :=
  if off < d.off then none
  else if (off - d.off) % d.stride ≠ 0 then none
  else if (off - d.off) / d.stride < d.count then some ((off - d.off) / d.stride) else none

/-- The row of a register table that an offset belongs to. -/
def findReg : List RegDesc → Nat → Option RegDesc
  | [], _ => none
  | d :: t, off => if (d.indexOf off).isSome then some d else findReg t off

/-- The row of page `p` that offset `off` belongs to. -/
def regDesc (p off : Nat) : Option RegDesc :=
  match pageUnit p with
  | none => none
  | some (k, _) => findReg (Catalog.ofKind k) off

/-- A page and an offset as one key: the page's distance from the first page in bytes (R29). -/
def regKey (p off : Nat) : Nat := p * 0x1000 + off

/-- The value a register holds after module reset, by its key: the reset column of its register table; the few
registers whose reset value differs between instances (PORT_CONFIG of P6 and P7, R274; Q_CONFIG of the transmit
queues 32 to 63, R249) are told apart here. The common registers of R34 reset to 0. -/
def regReset (key : Nat) : Word :=
  match pageUnit (key / 0x1000) with
  | none => 0#32
  | some (k, n) =>
    match k with
    | .port => if key % 0x1000 = Reg.port.portConfig ∧ 6 ≤ n then 0x06000008#32
               else match findReg Catalog.port (key % 0x1000) with | some d => d.reset | none => 0#32
    | .queue => if key % 0x1000 = Reg.queue.qConfig ∧ 32 ≤ n then 0x00000401#32
                else match findReg Catalog.queue (key % 0x1000) with | some d => d.reset | none => 0#32
    | _ => match findReg (Catalog.ofKind k) (key % 0x1000) with | some d => d.reset | none => 0#32

/-- Is a value one that a field takes? -/
def FieldDesc.admits (f : FieldDesc) (v : Nat) : Bool :=
  f.ranges.isEmpty || f.ranges.any fun r => decide (r.1 ≤ v) && decide (v ≤ r.2)

/-- Does every writable field of a write hold a value of its range? -/
def RegDesc.admits (d : RegDesc) (v : Word) : Bool := d.fields.all fun f => f.admits (fieldOf v f.hi f.lo)

/-- The bits a write can change: the RW fields, and the RWL fields while the page is not locked (R9). -/
def RegDesc.writable (d : RegDesc) (locked : Bool) : Word :=
  d.fields.foldl (fun m f => if f.acc = .rwl ∧ locked then m else m ||| maskOf f.hi f.lo) 0#32

/-- The register after a write of `v` over `old` (R8, R9, and the out-of-range rule of R100): reserved and read-only
bits keep their value; a value outside a field's range leaves the whole register as it was. -/
def RegDesc.written (d : RegDesc) (locked : Bool) (old v : Word) : Word :=
  if d.admits v then (old &&& ~~~(d.writable locked)) ||| (v &&& d.writable locked) else old

end Sys2Proof.Machine
end

