-- ==== Sys2Proof/Machine/State.lean ====
section
/-!
DEFINITION. The state of the block, all of it plain data: the register pages with their run states and long
operations, the fault manager and the work ledger, and the state of every unit the chapters describe; the queue of
commands that wait; the reasons a step can stop; the state right after module reset.
-/
namespace Sys2Proof.Machine

/-- Three things, one for each copy or each engine. -/
structure Trio (α : Type) where
  a : α
  b : α
  c : α
  deriving DecidableEq, Repr

/-- The copy's part. -/
def Trio.copy {α : Type} (t : Trio α) : Copy → α
  | .a => t.a | .b => t.b | .c => t.c
/-- The trio with the copy's part replaced. -/
def Trio.setCopy {α : Type} (t : Trio α) (k : Copy) (v : α) : Trio α :=
  match k with | .a => { t with a := v } | .b => { t with b := v } | .c => { t with c := v }
/-- The engine's part. -/
def Trio.eng {α : Type} (t : Trio α) : Engine → α
  | .e0 => t.a | .e1 => t.b | .e2 => t.c
/-- The trio with the engine's part replaced. -/
def Trio.setEng {α : Type} (t : Trio α) (k : Engine) (v : α) : Trio α :=
  match k with | .e0 => { t with a := v } | .e1 => { t with b := v } | .e2 => { t with c := v }
/-- The same value three times. -/
def Trio.all {α : Type} (v : α) : Trio α := ⟨v, v, v⟩
/-- A function applied to each part. -/
def Trio.map {α β : Type} (f : α → β) (t : Trio α) : Trio β := ⟨f t.a, f t.b, f t.c⟩
/-- The parts as a list, A (E0) first. -/
def Trio.toList {α : Type} (t : Trio α) : List α := [t.a, t.b, t.c]

/-! ## Pages, faults, ledger (chapters 01 and 02) -/

/-- PAGE_CTRL and PAGE_STATUS of a page (R34, R39, R40). -/
structure PageState where
  enable : Bool
  freeze : Bool
  lock : Bool
  run : RunState
  pending : Bool      -- ENABLE_PENDING
  deriving DecidableEq, Repr

/-- The long operation of a page (R50 to R53): OPSTAT, OP_RESULT, OP_ERROR, and the latched arguments. -/
structure OpState where
  phase : OpPhase
  opcode : Fin 16
  progress : Nat
  result : Word
  error : Word
  arg0 : Word
  arg1 : Word
  arg2 : Word
  arg3 : Word
  selfSuspended : Bool
  deriving DecidableEq, Repr

/-- The work ledger (R57), without its constant header and its CRC, which are computed when the image is read. -/
structure Ledger where
  voterCommits : DWord
  journalSeq : DWord
  vmePosted : Word
  vmeFailed : Word
  scanNum : Tbl DWord       -- program p ↦ SCAN_NUM
  commitNum : Tbl DWord     -- program p ↦ COMMIT_NUM
  queueSeq : Tbl Word       -- queue q ↦ last committed sequence number
  undelivered : BitVec 256
  ntStamp : DWord
  ltStamp : DWord
  deriving DecidableEq, Repr

/-- A report accepted into a FIFO, with all that its fault record holds (R59, R60). -/
structure FaultReport where
  seq : Nat                -- RECORD_SEQ of its record
  origin : Nat
  cls : Nat
  reaction : Nat
  causes : Word
  detail : List Word
  nt : DWord
  lt : DWord
  epoch : Word
  summary : Word
  overflow : List Word
  ledger : Ledger
  originPage : List Word
  context : List Byte
  deriving DecidableEq, Repr

/-- The three report FIFOs (R21), oldest entry first. -/
structure FaultMgr where
  control : List FaultReport
  data : List FaultReport
  management : List FaultReport
  nextSeq : Nat            -- RECORD_SEQ of the next record (R60, R383)
  deriving DecidableEq, Repr

/-- What the originator of the last access gets (the model's own field): a value, a bus error, an access fault, an
address-misaligned exception, a wait (stall, RETRY, busy), or nothing. -/
inductive Reply where
  | none
  | value (v : DWord)
  | busError
  | accessFault
  | misaligned
  | wait
  deriving DecidableEq, Repr

/-! ## The safety cluster (chapters 03 and 04) -/

/-- An entry of a replay FIFO (R72): kind, address, size, value, and whether the read was refused (R32). -/
structure ReplayEntry where
  kind : ReadKind
  addr : BitVec 40
  size : Nat
  value : DWord
  refused : Bool
  deriving DecidableEq, Repr

/-- A distributed read that a copy waits for (R74). -/
structure ReadReq where
  kind : ReadKind
  addr : BitVec 40
  size : Nat
  deriving DecidableEq, Repr

/-- A voted write as a copy presents it (R77). -/
structure WriteReq where
  kind : WriteKind
  addr : BitVec 40
  size : Nat
  data : DWord
  deriving DecidableEq, Repr

/-- How far a voter slot has come (R77, R78, R80): OPEN; two identical presentations and waiting for lower ordinals;
held for the verdict of its commit tussock; COMMITTED. -/
inductive SlotPhase where
  | opened | ready | held | committed
  deriving DecidableEq, Repr

/-- A voter slot in use: its write ordinal, the presentations in order of arrival, its phase, the write that the
majority presented. -/
structure VoterSlot where
  ord : DWord
  pres : List (Copy × WriteReq)
  phase : SlotPhase
  write : Option WriteReq
  deriving DecidableEq, Repr

/-- What a copy does when it has retired the target count (R83, R90, R94, R96, R100, R114, R129). -/
inductive TargetKind where
  | irq (lines : DWord)
  | forced
  | gap
  | reseed
  | halt
  | interval (log2 : Nat)
  deriving DecidableEq, Repr

/-- A target count set by the distributor, and which copies have reached it. -/
structure Target where
  count : DWord
  kind : TargetKind
  reached : Trio Bool
  deriving DecidableEq, Repr

/-- A tussock report (R91). -/
structure TussockReport where
  num : DWord
  instret : DWord
  pc : DWord
  sig : DWord
  trigger : BitVec 6
  copy : Copy
  deriving DecidableEq, Repr

/-- A report on its way to a comparator; `delayed` while PT_CKPT holds it (R462). -/
structure FlyingReport where
  dest : Comparator
  report : TussockReport
  delayed : Bool
  deriving DecidableEq, Repr

/-- A tussock that a comparator has in judgement (R92, R93): the reports that came in time, the copies marked late,
TRIGGER of the first arrival. -/
structure Judgement where
  num : DWord
  trigger : BitVec 6
  reports : Trio (Option TussockReport)
  timedOut : Trio Bool
  deriving DecidableEq, Repr

/-- A verdict (R92): ARRIVED, TIMED_OUT, the three agreements, TRIGGER. -/
structure Verdict where
  num : DWord
  instret : DWord          -- instret of the reports (of the lowest-lettered copy that arrived); not compared
  arrived : Trio Bool
  timedOut : Trio Bool
  agreeAB : Bool
  agreeAC : Bool
  agreeBC : Bool
  trigger : BitVec 6
  deriving DecidableEq, Repr

/-- One copy (R63 to R65, R72 to R77, R88 to R91, R100, R107, R128, R129). -/
structure CopyState where
  x : Tbl DWord
  f : Tbl DWord
  csr : Tbl DWord
  pc : DWord
  instret : DWord
  sig : DWord
  ckptNum : DWord
  reads : DWord            -- ordinal of the last distributed read issued
  writes : DWord           -- ordinal of the last voted write presented
  consumed : DWord         -- CONSUMED of R98
  fifo : List ReplayEntry
  stall : Nat              -- STALL of COPY_STATUS
  inWfi : Bool
  waitRead : Option ReadReq
  waitWrite : Option WriteReq
  waitResult : Bool
  participant : Bool
  held : Bool
  halted : Bool
  started : Bool           -- an independent core that CORE_START has started (R128)
  mip : DWord
  intervalLog2 : Nat       -- the interval in use (R100)
  commitOrd : List (DWord × DWord)   -- commit-class stores: write ordinal, tussock number
  deriving DecidableEq, Repr

/-- The reseed in progress (R112 to R116). -/
structure Reseed where
  phase : Nat              -- RESEED_PHASE 1 to 4
  target : Copy
  source : Copy
  pass : Nat
  dirty : List Nat         -- dirty 4 KiB pages of TCM, ascending
  toCopy : List Nat        -- pages of the running pass not copied yet
  ltHold : DWord
  ltStall : DWord
  deriving DecidableEq, Repr

/-- A past reseed as RESEED_REPORT gives it (R133). -/
structure ReseedEntry where
  ltHold : DWord
  word : Word
  totalUs : Nat
  final10ns : Nat
  deriving DecidableEq, Repr

/-- The cluster group, the comparators and the redundancy unit. -/
structure Cluster where
  mode : SplitMode
  modeRejected : Bool
  strapSample : BitVec 2
  copies : Trio CopyState
  performed : DWord        -- PERFORMED of R98
  slots : List VoterSlot
  lateDiscard : List (Copy × DWord)  -- late presentations to discard without comparison (R79)
  reservation : Option Nat -- 64-byte granule held by the cluster's LR (R75)
  targets : List Target
  lastTarget : DWord
  lines : DWord            -- interrupt-pending inputs as the distributor last saw them
  messages : List (BitVec 16)
  discarded : Nat
  flying : List FlyingReport
  judging : List (Comparator × Judgement)
  verdicts : List (Comparator × Verdict)
  judged : List (DWord × Option Verdict)  -- the last verdict pairs taken, newest first: the verdict both gave, if they agreed
  gapRunning : Bool
  gapPending : Bool        -- a GAP target is set and no participant has reached it
  forcedBy : List (ForcedBy × DWord × Option Bool)  -- who waits for which target count, and the answer
  deriving DecidableEq, Repr

/-- The redundancy unit (R103 to R121) and the debug replay (R129 to R131). -/
structure Redundancy where
  odd : Option Copy
  retired : Option Copy
  lockout : Bool           -- a cause that the module meets with lock-out has been latched
  reseed : Option Reseed
  begun : List (Copy × DWord)        -- LT of each reseed begun
  history : List ReseedEntry         -- newest first
  duckGrace : Bool
  lastDuckCommit : Nat     -- elapsed seconds last committed
  selftestRun : Nat
  halting : Bool           -- HALT_PENDING
  deferred : Bool          -- DEFERRED_BY_RESEED
  deriving DecidableEq, Repr

/-- ECC state of a memory, by word index: 0 good, 1 one bit wrong (correctable), 2 uncorrectable. -/
abbrev EccMap := Tbl Nat

/-! ## The Benmi engines and the scan (chapters 05 and 06) -/

/-- The execution state of an engine (R148): BA, OV, ACC, PC, the branch stack (saved BA, OR join), the call stack
(`none`: the return of an error-task call, R193), top first. -/
structure EngRegs where
  ba : Bool
  ov : Bool
  acc : Word
  pc : Nat
  br : List (Bool × Bool)
  calls : List (Option Nat)
  deriving DecidableEq, Repr

/-- A station's part of a staged output image (R179, R180): its mailbox, the payload with live and with safe values,
and whether it was ONLINE at staging with OUTPUT_PERMIT 1. -/
structure StagedStation where
  station : Nat
  mailbox : Nat
  live : List Byte
  safe : List Byte
  useLive : Bool
  deriving DecidableEq, Repr

/-- A staged output image: OUTPUT_PERMIT at staging, the stations in ascending order, the output block, the captured
retentive lines (data-memory offset divided by 64, bytes), whether every line was captured. -/
structure Staged where
  permit : Bool
  stations : List StagedStation
  blockOff : Nat
  block : List Byte
  lines : List (Nat × List Byte)
  full : Bool
  deriving DecidableEq, Repr

/-- A program (R173 to R185, R198 to R201): STATE and the rest of PROG_STATUS, and the scan in progress. -/
structure ProgState where
  state : Nat              -- STATE of PROG_STATUS
  stopCause : Nat
  noRetainLast : Bool
  stopPending : Bool
  exchPending : Bool
  triggerLt : DWord        -- LT at the trigger
  nextTrigger : DWord      -- LT of the next CYCLIC trigger
  ft : DWord
  scanNum : DWord          -- number of the scan in progress, or of the last one
  firstScan : Bool
  warm : Bool
  noRetain : Bool
  exchanged : Bool
  errTasks : List (Nat × Nat)   -- station and code index of the error tasks still to call
  began : Bool             -- the execute phase has begun
  context : Trio EngRegs   -- saved context
  cycles : Nat             -- CK_CLE cycles of the execute phase so far
  staged : Option Staged
  released : Bool          -- release decided, write-out under way
  commitFired : Bool       -- COMMIT_INSTANT has fired since the verdict pair (R178)
  retain : Option (List (Nat × List Byte) × Bool)   -- captured lines to hand over
  retainSeq : Option DWord -- RETAIN_SEQ whose mark housekeeping waits for
  lastSet : List Nat       -- the retentive set of the last capture
  deriving DecidableEq, Repr

/-- The cyclic logic engine. -/
structure Cle where
  regs : Trio EngRegs
  participating : Trio Bool
  odd : Option Engine
  begun : List (Engine × DWord)   -- LT of each engine reseed begun
  waiting : Bool                  -- a reseed waits for a scan boundary
  differing : Bool                -- a difference of two participants stands
  running : Option Nat            -- the program whose execute phase holds the engines
  boundary : Bool                 -- the last engine event was the end of a housekeeping
  selftestRun : Nat
  progs : Tbl ProgState
  dirty : Tbl Nat                 -- data-memory line ↦ programs (bit mask) whose last capture precedes its last change
  confirmed : Option (Nat × Nat × Word)  -- first word, words and CRC of the image last confirmed by IMAGE_CHECK
  firstAfter : Option Nat         -- a program whose first scan after an exchange has not ended
  deriving DecidableEq, Repr

/-! ## The timebase (chapter 07) -/

/-- An axle (R215 to R217): AX with 16 fractional bits, the filtered levels (A bit 0, B bit 1), edges seen, LT of the
last edge, the interval before it in LT ticks, and whether a tacho error has come since the last speed update. -/
structure Axle where
  ax : Int
  levels : Nat
  edges : Nat
  lastEdge : DWord
  interval : Nat
  err : Bool
  deriving DecidableEq, Repr

/-- The applied settings of a schedule slot (R219 to R221); `armed` is false for an NT slot before NT is valid. -/
structure Slot where
  enable : Bool
  domain : Nat
  action : Nat
  arg : Word
  period : Nat
  phase : Int
  next : Int
  armed : Bool
  deriving DecidableEq, Repr

/-- A slot action on its way to its consumer (R223). -/
structure Fired where
  slot : Nat
  action : Nat
  arg : Word
  deriving DecidableEq, Repr

/-- The time domains (R208 to R218), the slots, SYNC. -/
structure TimeState where
  lt : DWord
  trimAcc : Nat            -- the 32-bit trim accumulator of R209
  nt : DWord               -- the counter; NT reads 0 before NT has first become valid (R211)
  ntFrac : Nat             -- its fraction in units of 10^-9 ns
  ntValid : Bool
  ntEver : Bool            -- NT has been valid since module reset
  ntSet : Bool             -- the first acquisition has set NT
  ntSource : Nat           -- NT_SOURCE once NT has been valid
  ntGood : Nat             -- consecutive messages with |offset| below NT_LOCK_NS
  ntRate : Int             -- ppb against LT
  mp : DWord
  mpFrac : Nat             -- the 32-bit fractional accumulator of R213
  mpHoldover : Bool
  mpTracked : Bool         -- the tracker reports lock
  axles : Tbl Axle
  dist : Int               -- mm with 32 fractional bits
  standstill : Bool
  slowMs : Option Nat      -- milliseconds for which the condition of R218 has held
  syncTarget : Option DWord
  slots : Tbl Slot
  fired : List Fired
  deriving DecidableEq, Repr
/-! ## The train network switch (chapter 08) and safe data (chapter 09) -/

/-- An entry of the forwarding database (R233): ports, STATIC, LT of the last frame seen from it. -/
structure FdbEntry where
  ports : Nat
  static : Bool
  seen : DWord
  deriving DecidableEq, Repr

/-- A stream filter (R242): its three words. -/
structure StreamFilter where
  w0 : Word
  w1 : Word
  w2 : Word
  deriving DecidableEq, Repr

/-- A flow meter (R235, R242): CIR, CBS, tokens in 1/2,000,000 byte, LT of their last count. -/
structure Meter where
  cir : Nat
  cbs : Nat
  tokens : Nat
  since : DWord
  deriving DecidableEq, Repr

/-- The recovery history of a stream (R243): the newest accepted sequence number and which of the last 32 were seen. -/
structure Recovery where
  newest : BitVec 16
  seen : BitVec 32
  deriving DecidableEq, Repr

/-- A frame accepted from a PRP node: sequence number, LAN (0 A, 1 B), LT. -/
structure PrpSeen where
  seq : BitVec 16
  lan : Nat
  lt : DWord
  deriving DecidableEq, Repr

/-- A proxied SAN (R247): its port and its sequence counter. -/
structure Proxy where
  port : Nat
  seq : BitVec 16
  deriving DecidableEq, Repr

/-- A frame as the switch handles it: addresses, VLAN (VID, PCP, DEI), whether it carried a tag, the bytes from the EtherType on. -/
structure Frame where
  dst : Nat
  src : Nat
  tagged : Bool
  vid : Nat
  pcp : Nat
  dei : Bool
  body : List Byte
  deriving DecidableEq, Repr

/-- Who handed a stored frame over: a port, descriptor `n` of a transmit queue, a publish entry, the module. -/
inductive FrameSource where
  | port
  | queue (q n : Nat)
  | entry (e : Nat)
  | module
  deriving DecidableEq, Repr

/-- An egress copy that waits (R234): port, class, LT of its arrival, the redundancy trailer it leaves with. -/
structure EgressCopy where
  port : Nat
  cls : Nat
  since : DWord
  trailer : Option (BitVec 16 × Nat)
  gated : Bool                   -- a closed gate has held it
  deriving DecidableEq, Repr

/-- A frame in the packet buffer: handle, contents, source, copies that still wait, ports it has left, the code of the
last copy discarded, LT of the first bit sent, and where P6 is to deliver it. -/
structure StoredFrame where
  handle : Nat
  frame : Frame
  source : FrameSource
  copies : List EgressCopy
  left : Nat
  lost : Nat
  sentLt : Option DWord
  host : Option (Nat × Nat)      -- (0 entry, 1 queue) and its number, with an egress copy on P6
  lan : Nat                      -- LAN of INFO: 1 A, 2 B where it came with a redundancy trailer, 3 both compared
  flags : Nat                    -- SAFE_FLAGS of the comparator's delivery
  ingress : Nat
  deriving DecidableEq, Repr

/-- A shaper's credit in kbit/s times LT ticks, and the LT from which it counts (R236). -/
structure Credit where
  credit : Int
  since : DWord
  deriving DecidableEq, Repr

/-- A port: LINK, SPEED, the gate list in use (R237, R238), the last frame it sent. -/
structure PortState where
  link : Bool
  speed : Nat
  bank : Nat
  operLen : Nat
  swapPending : Bool
  entry : Nat                -- entry of the operational list that applies
  started : Nat              -- NT at which it began to apply
  cycle : Nat                -- NT at which the cycle began
  sent : List Byte
  deriving DecidableEq, Repr

/-- The final status of a descriptor before its write-back (R251): data for the buffer, LENGTH, LT_STAMP, STATUS without
DONE, INFO. -/
structure FinalStatus where
  data : List Byte
  length : Nat
  lt : DWord
  status : Word
  info : Word
  deriving DecidableEq, Repr

/-- A descriptor fetched and not yet written back (R271). -/
structure ActiveDesc where
  n : Nat
  addr : Nat
  len : Nat
  outcome : Option FinalStatus
  deriving DecidableEq, Repr

/-- A DMA queue or a CAN ring: Q_POSTED, the fetched descriptors oldest first, write-backs not yet signalled. -/
structure RingState where
  posted : Word
  active : List ActiveDesc
  unsignalled : Nat
  deriving DecidableEq, Repr

/-- A TRDP entry (R257 to R264): words, sequence counter, RECEIVED, TIMED_OUT, last LT, LT of the last SEQ write to its
mailbox, the delivery held for the 10 µs spacing. -/
structure TrdpEntry where
  w : List Word
  seq : Word
  received : Bool
  timedOut : Bool
  last : DWord
  boxLt : Option DWord
  held : Option (List Byte × DWord)
  deriving DecidableEq, Repr

/-- A comparator slot in use (R277): destination (0 entry, 1 queue; number), source MAC, sequence number, LAN (0 A, 1 B),
LT of the last bit, the handle of the copy while HELD (none: LINGER). -/
structure TwinSlot where
  kind : Nat
  dest : Nat
  src : Nat
  seq : BitVec 16
  lan : Nat
  lt : DWord
  handle : Option Nat
  deriving DecidableEq, Repr

/-- An SDT channel (R283). -/
structure SdtChannel where
  w0 : Word
  sid : Word
  init : Word
  next : Word
  published : Nat
  rxSeen : Bool
  rxSsc : Word
  errs : Nat
  fault : Bool
  deriving DecidableEq, Repr

/-- The switch, the TRDP offload and the twin-path comparator. -/
structure Net where
  fdb : Tbl FdbEntry           -- by MAC · 4096 + VID
  vlans : Tbl Nat              -- by VID: MEMBER, UNTAGGED · 256
  streams : Tbl StreamFilter
  meters : Tbl Meter
  recovery : Tbl Recovery
  nodes : Tbl (List PrpSeen)   -- by source MAC, newest first
  proxies : Tbl Proxy          -- by MAC
  prpSeq : BitVec 16
  ipId : BitVec 16
  supSeq : BitVec 16
  nextHandle : Nat
  frames : List StoredFrame
  ports : Tbl PortState
  credits : Tbl Credit         -- 4 · port + shaper
  queues : Tbl RingState
  trdp : Tbl TrdpEntry
  split : Nat                  -- TRDP_SPLIT
  twins : Tbl TwinSlot
  channels : Tbl SdtChannel
  pathDown : BitVec 2
  single : Nat × Nat           -- single-path counts of LAN A and LAN B
  announced : Nat              -- announcements published
  deriving DecidableEq, Repr

/-! ## MVB and CAN FD (chapter 09) -/

/-- An MVB controller (R291 to R294). -/
structure MvbState where
  ports : Tbl (Word × Word)    -- PORT_W0, PORT_W1
  polls : Tbl Word             -- poll entries in force
  newPolls : Tbl Word          -- written, in force from the next basic period
  lineOk : BitVec 2
  rxLine : Nat
  period : Nat                 -- basic period index
  missing : Nat × Nat          -- consecutive basic periods without a valid frame on the line while the other had one
  heard : BitVec 2             -- lines that carried a valid frame in this basic period
  toSend : List Nat            -- poll entries due in this period and not sent yet
  waiting : Option Nat         -- F_CODE and address of the master frame that waits for its reply, as a word
  reply : Option (List Byte)   -- the last slave frame that this module's device part sent
  deriving DecidableEq, Repr

/-- A CAN FD controller (R296 to R301). -/
structure CanState where
  tec : Nat
  rec_ : Nat
  busOff : Bool
  recovering : Bool
  rx : RingState
  tx : RingState
  rxSeq : Word
  txSeq : Word
  deriving DecidableEq, Repr

/-! ## The measurement chain (chapter 10) -/

/-- A FIR bank (R314): its image's fields, the coefficients as words, and what BANK_LOAD has found (R315). -/
structure Bank where
  taps : Nat
  win : Nat
  threshold : Nat
  release : Nat
  tripTime : Nat
  coefs : List Word
  checked : Bool
  symmetric : Bool
  crc : Word
  deriving DecidableEq, Repr

/-- A channel: banks and swaps (R314 to R319), histories of the stages (R306 to R311), resampler (R320, R321), windows
and detectors (R324 to R326), the live flags. -/
structure ChState where
  bank0 : Bank
  bank1 : Bank
  active : Bool            -- ACTIVE_BANK
  swapFail : Nat
  armed : Bool             -- SWAP_ON_SYNC
  swapPending : Bool
  integ : List Int         -- integrators of the CIC
  comb : List Int
  cic : List Int           -- inputs of the half-band stages, newest first, up to 47 each
  half : List Int
  fir : List Int           -- inputs of the FIR, newest first, up to 256
  outs : List (Int × Int)  -- FIR outputs and their instants, newest first, up to 32
  rsTaken : Bool           -- the resampler has produced an output since the last FIR sample
  unsettled : Nat          -- FIR outputs still to flag
  lastUnsettled : Bool
  stuck : Bool             -- live MOD_STUCK
  rateLimited : Bool
  lastOut : Int            -- the last chain output and its instant
  lastLt : Int
  winCfg : Word            -- WIN_CFG of the window in progress
  winN : Nat
  winMin : Int
  winMax : Int
  winSq : Nat
  winCycle : Nat           -- MP cycle in which the window began
  cycle : Nat              -- MP cycle of the last chain output's instant
  brmsBuf : List Int       -- FIR outputs in the band-RMS window, newest first
  above : Bool
  runFrom : Option Int     -- t_first of the run
  trip : Bool
  streamStopped : Bool
  deriving DecidableEq, Repr

/-- An interpolating output (R334): its previous input, its FIR's inputs newest first, its coefficients, its FIR output. -/
structure OutState where
  prev : Int
  line : List Int
  coefs : List Word
  fed : Int
  deriving DecidableEq, Repr

/-- The tracker (R330 to R333). -/
structure Tracker where
  prev : Option (Int × Int)   -- TRACK_CH's last FIR output and its instant
  armed : Bool
  crossing : Option Int       -- a crossing that ZERO_CROSSING has not taken yet
  last : Option Int           -- instant of the last crossing
  periods : List Int          -- LT ticks, newest first, up to 4
  locked : Bool
  sum : Int
  sumSq : Nat
  n : Nat
  system : Nat                -- 15 none
  candidate : Nat
  count : Nat
  deriving DecidableEq, Repr

/-- The measurement chain. -/
structure MeasState where
  chs : Tbl ChState
  outs : Tbl OutState
  trk : Tracker
  deriving DecidableEq, Repr

/-! ## The VME bridge (chapter 11) -/

/-- An entry of the read buffer (R346): originator, address, size; posted writes still ahead of its fetch; what its
claim will get: a value, or a load access fault (R347). -/
structure VmeRead where
  master : Master
  addr : BitVec 40
  size : Nat
  ahead : Nat
  filled : Option (Option DWord)
  deriving DecidableEq, Repr

/-- A posted write in the FIFO (R348): number, originator, window, VME address and bytes of its cycle, address modifier, its
DATA word of R349. -/
structure VmeWrite where
  seq : Word
  originator : Nat
  window : Nat
  addr : Nat
  bytes : Nat
  am : Nat
  data : Word
  deriving DecidableEq, Repr

/-- What holds a semaphore (R352): an AMO in progress, an LR. -/
inductive SemKind where
  | amo | lr
  deriving DecidableEq, Repr

/-- A semaphore held: the granule's address divided by 64, its holder, its kind, and posted writes still ahead of an
AMO's cycle. -/
structure Semaphore where
  granule : Nat
  master : Master
  kind : SemKind
  ahead : Nat
  deriving DecidableEq, Repr

/-- The bridge. -/
structure VmeState where
  syscon : Bool
  owned : Bool                 -- BUS_OWNED
  brOthers : BitVec 4          -- BR levels on which other masters wait
  granted : Option (Fin 4)     -- the level granted last to another master that has the bus, as system controller
  lastLevel : Fin 4            -- the level granted last (RRS)
  accepted : Word              -- ACCEPTED_SEQ
  completed : Word             -- COMPLETED of the books: the last number that has left the FIFO
  fifo : List VmeWrite         -- oldest first
  block : Nat                  -- entries at the head that form the cycle or block being issued, 0 where none is
  reads : List VmeRead
  failed : Tbl Word            -- failed posted writes since a master's last fence read, by master
  fences : Tbl Nat             -- posted writes ahead of a fence read that waits, plus 1, by master
  sems : List Semaphore
  inbound : List (Nat × List Byte)  -- the inbound write buffer: shared-SRAM offset and bytes, oldest first
  rmw : Option Nat             -- the shared-SRAM granule that an inbound RMW holds
  irqFails : Tbl Nat           -- consecutive IACK failures, by level
  iackOut : Bool               -- levels of VME_IACKOUT_N and VME_BGOUT_n
  bgOut : BitVec 4
  deriving DecidableEq, Repr


/-! ## Persistent state (chapters 12 and 13) -/

/-- An entry of the slot table of the retentive pool (R372); a slot without one is FREE with JSEQ 0. -/
structure SlotEntry where
  alloc : Bool
  program : Nat
  order : Nat
  jseq : Nat
  deriving DecidableEq, Repr

/-- A program's chain in the retentive pool (R373 to R375): RETAIN_SEQ of its newest complete commit, the lines of its
set (data-memory offsets divided by 64), the image, the chain lines after the newest record and of the newest SET. -/
structure Chain where
  seq : DWord
  set : List Nat
  image : Tbl (List Byte)
  endLine : Nat
  setLine : Nat
  based : Bool             -- the chain holds a BASE
  deriving DecidableEq, Repr

/-- A boot control record (R403). -/
structure BootRec where
  active : Nat
  previous : Option Nat
  husk : Nat
  huskState : Nat
  activeId : DWord
  previousId : DWord
  huskId : DWord
  huskLen : Nat
  trialLeft : Nat
  workGen : Nat
  prevGen : Option Nat
  lastFallback : Nat
  deriving DecidableEq, Repr

/-- What the module keeps of a settings generation (R414); its bytes lie in MRAM. -/
structure GenRec where
  seq : DWord
  writer : DWord
  schema : Word
  len : Nat
  pcv : Word
  pcvConfirmed : Word
  pcvOk : Bool
  deriving DecidableEq, Repr

/-- Retention budgets (R377 to R380) in units of 2^-32 of a register unit: the budget of every block that has none of its own listed, the budgets of the
refreshed blocks, and per block WRITES in lines, REFRESHES and REFRESH_NT. -/
structure Budgets where
  common : Nat
  own : Tbl Nat
  writes : Tbl Nat
  refreshes : Tbl Nat
  refreshNt : Tbl DWord
  deriving DecidableEq, Repr

/-- A retention table (R379). -/
structure RetTable where
  jseq : DWord
  budgets : Budgets
  offCfg : Word
  offAssumed : Word
  scrubHours : Word
  deriving DecidableEq, Repr

/-- One-time-programmable items (R24, R125, R400). -/
structure Otp where
  unitId : DWord
  keyHashes : List (List Byte)
  programmed : BitVec 4
  revoked : BitVec 4
  counter : Nat
  modeAllowed : BitVec 3
  ckOffset : Word
  deriving DecidableEq, Repr

/-- The event recorder (R389 to R392): the open epoch's number, seconds and fields by byte offset, the LIFETIME
fields, the newest RUNNING record, the next positions. -/
structure Recorder where
  epoch : Nat
  seconds : Nat
  fields : Tbl Nat
  life : Tbl Nat
  running : Option (Nat × Nat × Tbl Nat)
  pos : Nat                -- position that the next RUNNING or LIFETIME record takes
  runPos : Nat
  lifePos : Nat
  lifeAt : Option Nat      -- offset of the newest LIFETIME record
  deriving DecidableEq, Repr

/-- The records that exist in MRAM, as the start scan finds them (R368), and OTP. -/
structure Nv where
  nextJseq : DWord         -- the JSEQ that the next trailer takes
  lastRecord : DWord       -- the highest JSEQ of an existing record
  slots : Tbl SlotEntry
  chains : Tbl Chain
  retired : Option (Copy × Nat)     -- the newest retirement record, none where COPY is 0xFF
  retirePos : Nat
  tableA : Option RetTable
  tableB : Option RetTable
  powerFail : Option (DWord × Nat)  -- NT_OFF and CAUSE of the newest power-fail record
  powerFailPos : Nat
  faultSeq : Nat           -- highest existing RECORD_SEQ
  journalPos : Nat
  activateStep : Option (DWord × Nat)  -- HUSK_ID and step of the newest journal entry of kind 0x02
  boot : BootRec
  bootPos : Nat
  gen0 : Option GenRec
  gen1 : Option GenRec
  spareUsed : Tbl Nat      -- spare lines used, per die
  otp : Otp
  recorder : Recorder
  deriving DecidableEq, Repr

/-- What the mark of a record changes besides JOURNAL_SEQ. -/
inductive NvEffect where
  | plain
  | retentive (program : Nat) (chain : Chain)
  | slot (n : Nat) (e : SlotEntry)
  | retirement (r : Option (Copy × Nat))
  | journalPort (mgmt : Bool)
  | journalOwn (step : Option (DWord × Nat))
  | table (b : Bool) (t : RetTable)
  | powerFail (ntOff : DWord) (cause : Nat)
  | epoch
  | running (epoch seconds : Nat) (fields : Tbl Nat) (pos : Nat)
  | lifetime (pos : Nat)
  | boot (r : BootRec)
  | gen (g : Nat) (r : GenRec)
  deriving DecidableEq, Repr

/-- Where a record lies: at an MRAM offset, or in a program's chain from a chain line on. -/
inductive NvPlace where
  | offset (a : Nat)
  | chain (program line : Nat)
  deriving DecidableEq, Repr

/-- A record on its way to MRAM (R365, R367): its class, its place, its bytes before JSEQ, what its mark changes. -/
structure NvRecord where
  cls : Nat
  place : NvPlace
  body : List Byte
  effect : NvEffect
  deriving DecidableEq, Repr

/-- A request of a commit port (R369): the command and the latched CP_SRC, CP_DST and CP_LINES. -/
structure CpReq where
  cmd : Nat
  src : Nat
  dst : Nat
  lines : Nat
  submitted : Bool         -- a JOURNAL whose record has been handed over
  deriving DecidableEq, Repr

/-- The persistent-state engine and the start (R364 to R387, R405 to R418). -/
structure PState where
  nv : Nv
  waiting : List NvRecord          -- in the order of their classes, then of arrival
  held : List NvRecord             -- handed over or not begun when PFW_N went low (R386)
  final : Bool                     -- the records of step 3 of R386 are being handed over
  pfIssued : Bool                  -- the power-fail record of this warning has been handed over
  portBegun : Bool × Bool          -- requests of the control and management port begun before the warning
  inFlight : Option (NvRecord × DWord)
  issued : DWord
  marked : DWord
  ports : List CpReq               -- requests of the control port
  portsMgmt : List CpReq           -- requests of the management port
  slots : Tbl SlotEntry            -- the live slot table
  chains : Tbl Chain               -- the shadow: chains with every record handed over
  firstDone : List Nat             -- programs that have handed over a record since module reset
  budgets : Budgets
  stopped : Bool                   -- PFW_N low has been acted on (R386)
  pfDone : Bool
  startDone : Bool
  offSource : Nat
  offCfg : Word                    -- OFF_CFG and OFF_TIME_ASSUMED as this start uses them (R379)
  offAssumed : Word
  recTaken : Tbl Nat               -- event counts already taken into the open epoch, by field (R391)
  distFrom : Nat                   -- |DIST| in m when DIST_M of the open epoch was `distBase`
  distBase : Nat
  poweredSince : DWord             -- seconds of powered time since power good
  tableB : Bool                    -- the next retention table is B
  huskReceived : Nat
  steppingOk : Bool
  compatOk : Bool
  verifyRestarted : Bool
  activateFailed : Bool
  commissioning : Bool
  confirmHeld : Option Word        -- a PCV_CONFIRM write held behind WRITE_GEN
  stale : Bool
  migration : Bool
  appliedGen : Nat                 -- the generation whose parameter set was applied at this start
  appliedConfirmed : Option Word   -- its confirmed check value
  deriving DecidableEq, Repr

/-! ## The supervisor die (chapter 14) -/

/-- The roles of a unit on the causeway (R442). -/
inductive Role where
  | disabled | standby | claiming | active
  deriving DecidableEq, Repr

/-- The nonvolatile lock-out latch (R433). -/
structure LockLatch where
  locked : Bool
  cls : Nat
  origin : Nat
  committed : Bool
  seq : Word
  readable : Bool          -- two of its three copies agree
  deriving DecidableEq, Repr

/-- Supply, reset, monitors and the safe outputs (R424 to R438, R472). -/
structure Supervisor where
  vddUp : Bool             -- VDD_SUP in its window
  socReset : Bool          -- the SoC and MRAM dies are held in reset
  resetOut : Bool          -- RESET_OUT_N is low
  pgCount : Bool           -- the 10 ms count to power good runs
  pllLocked : Bool         -- every SoC PLL reports lock
  released : Bool          -- the SoC die has been released since VDD_SUP came up
  railsIn : BitVec 8       -- rails within their windows, in the order of R390
  pfwLow : Bool            -- PFW_N reads low
  pfwSeen : Bool           -- PFW_N has been seen low since the last power good
  latch : LockLatch
  lockPosted : Bool        -- the supervisor's lock-out report has been accepted by the FIFO
  safeState : Option Nat   -- the class that set the safe state
  safeOrigin : Nat
  live : Bool              -- OUTPUTS_LIVE
  grant : Bool             -- SAFE_TX_GRANT
  startMode : Nat          -- START_MODE as last reported (R413): 0 OPERATIONAL
  taken : Word             -- CLASS_SUMMARY bits taken (R429)
  staticOff : Nat          -- consecutive samples in which SAFE_EN_STATIC differed (R431)
  dynOff : Nat
  tripLines : BitVec 8     -- MEAS_TRIP lines asserted
  resetAsked : Option Nat  -- the RESET_CAUSE of a module reset asked for and not yet performed
  resetCause : Nat         -- RESET_CAUSE
  pressLevel : Bool        -- recognised level of RESET_REQ_N (true: high)
  armed : Bool
  pressing : Bool
  pressStuck : Bool
  deriving DecidableEq, Repr

/-- Causeway and stack membership (R441 to R452). -/
structure Failover where
  role : Role
  unitSide : Bool
  toggling : Bool          -- the peer's claim is toggling
  goodGaps : Nat           -- edge intervals of 40 to 60 µs in a row, up to 2
  everEdge : Bool
  hbClaiming : Bool        -- CLAIMING of the peer's last heartbeat
  hbActive : Bool          -- ACTIVE_OUTPUTS of the peer's last heartbeat
  frozen : Bool
  faulty : Bool
  withdrawReq : Bool       -- WITHDRAW_REQ sent
  noWithdraw : Bool        -- the peer has not withdrawn (R448)
  lineOn : Bool            -- CWAY_CLAIM_OUT is toggling
  stopping : Bool          -- claim stopped, line still toggling (R444)
  stackId : Fin 8
  strapsValid : Bool
  present : List Nat       -- stack IDs present, ascending, own ID included
  seen : Tbl Nat           -- consecutive heartbeats per ID not yet present
  master : Fin 8
  returning : Option Nat   -- a lower ID waiting for NT_VALID to hold (R450)
  port0 : Bool
  port1 : Bool
  ringClosed : Bool
  deriving DecidableEq, Repr

/-! ## Observability, workshop access and perturbation (chapter 15) -/

/-- An instruction sampler (R457): LFSR, instructions left to the next sample. -/
structure Sampler where
  lfsr : Word
  left : Nat
  deriving DecidableEq, Repr

/-- Workshop access, TAP and counters. -/
structure Observe where
  pmc : Tbl DWord          -- programmable counts, key 16·set + n
  pmcOn : List Nat         -- the counters with EN = 1
  bwAcc : Tbl DWord        -- byte accumulators of the 96 points
  bwReg : Tbl DWord        -- BW_n
  bwValid : Bool           -- a window is in progress
  samplers : Tbl Sampler
  wsOpen : Bool
  wsOpened : Bool
  unlockStep : Nat
  unlockFails : Nat
  testEnLow : Bool         -- TEST_EN_N reads low now
  testEnPowerUp : Bool     -- TEST_EN_N read low in all three samples at power-up
  tapIr : BitVec 5
  dmi : Tbl Word           -- debug-module registers, by DMI address (R459)
  appHalted : BitVec 4     -- application cores halted by the debug module
  dropCount : Nat          -- frames counted towards PT_DROP's every Nth
  deriving DecidableEq, Repr

/-! ## Memories -/

/-- Every addressed memory of the block: shared SRAM, management SRAM, the copies' TCM, MRAM, boot ROM (bytes), the
engines' program memories (32-bit words) and data memories (bytes), and the words that ECC cannot deliver. -/
structure Memories where
  sram : Tbl Byte
  mgmt : Tbl Byte
  tcm : Trio (Tbl Byte)
  mram : Tbl Byte
  prog : Trio (Tbl Word)
  data : Trio (Tbl Byte)
  sramEcc : EccMap         -- 16-byte words (R68)
  tcmEcc : Trio EccMap     -- 8-byte words (R67)
  l1Ecc : Trio EccMap      -- bad L1 words, instruction cache at even indexes (R463)
  progEcc : Trio EccMap    -- 32-bit words (R140)
  dataEcc : Trio EccMap
  mramEcc : EccMap         -- 8-byte words (R364)
  otherEcc : EccMap        -- injected errors elsewhere: cluster cache, replay, voter, packet buffer, L2, ...
  deriving DecidableEq, Repr

/-! ## The whole state -/

/-- The state of the block. `regs` holds every register that is not computed from other state, by `regKey`;
`pending` is the queue of waiting commands, first in, first out; `free` counts the free values drawn (the model's
own field, log entry 3); `reply` is what the last access's originator got (the model's own field). -/
structure State where
  regs : Tbl Word
  pages : Tbl PageState
  ops : Tbl OpState
  counters : Tbl DWord     -- event counter n of page p at 16·p + n (R38)
  hiSnap : Tbl Word        -- _HI snapshots by master and register (R18, R100)
  auditBusy : List Nat     -- pages with a capture in progress (R61)
  owners : Tbl Bool        -- units that the NET or MEAS component gives to the management plane (R19)
  faults : FaultMgr
  ledger : Ledger
  ledgerSnaps : Tbl (Option Ledger)   -- by master (R58)
  ledgerSeqs : Tbl Word    -- captures taken by a master (R58)
  reply : Reply
  free : Nat
  clu : Cluster
  red : Redundancy
  measSync : Nat           -- SYNCs applied and not yet taken by the measurement chain (R322)
  appMessages : List (Nat × BitVec 16)  -- message interrupts sent to application cores, oldest first
  time : TimeState
  cle : Cle
  ps : PState
  sup : Supervisor
  fail : Failover
  obs : Observe
  net : Net
  mvbs : Tbl MvbState
  cans : Tbl CanState
  meas : MeasState
  vme : VmeState
  mem : Memories
  pending : List Instr
  deriving DecidableEq, Repr

/-! ## The state right after module reset -/

/-- An engine's execution state at reset (R148). -/
def EngRegs.reset : EngRegs := ⟨false, false, 0#32, 0, [], []⟩

/-- A copy at reset (R123): registers 0, ordinals and counts 0; a participant, or held with STALL 6 (R126). The program
counter at reset and the CSRs' reset values the spec does not give: 0 (log entry 60). -/
def CopyState.reset (participant : Bool) : CopyState :=
  { x := [], f := [], csr := [], pc := 0#64, instret := 0#64, sig := 0#64, ckptNum := 0#64, reads := 0#64, writes := 0#64,
    consumed := 0#64, fifo := [], stall := if participant then 0 else 6, inWfi := false, waitRead := none,
    waitWrite := none, waitResult := false, participant := participant, held := !participant, halted := false,
    started := false, mip := 0#64, intervalLog2 := 14, commitOrd := [] }

/-- The participants at reset by the split mode (R126). -/
def modeTakes : SplitMode → Copy → Bool
  | _, .a => true
  | .triplex, _ => true
  | .duplexPlusOne, .b => true
  | _, _ => false

/-- The cluster at reset in a split mode. -/
def Cluster.reset (mode : SplitMode) (rejected : Bool) (sample : BitVec 2) : Cluster :=
  { mode := mode, modeRejected := rejected, strapSample := sample,
    copies := ⟨CopyState.reset (modeTakes mode .a), CopyState.reset (modeTakes mode .b), CopyState.reset (modeTakes mode .c)⟩,
    performed := 0#64, slots := [], lateDiscard := [], reservation := none, targets := [], lastTarget := 0#64,
    lines := 0#64, messages := [], discarded := 0, flying := [], judging := [], verdicts := [], judged := [],
    gapRunning := true, gapPending := false, forcedBy := [] }

/-- The redundancy unit at reset. -/
def Redundancy.reset : Redundancy :=
  { odd := none, retired := none, lockout := false, reseed := none, begun := [], history := [], duckGrace := false,
    lastDuckCommit := 0, selftestRun := 0, halting := false, deferred := false }

/-- The engines at reset: all three participate, no program is loaded. -/
def Cle.reset : Cle :=
  { regs := Trio.all EngRegs.reset, participating := Trio.all true, odd := none, begun := [], waiting := false,
    differing := false, running := none, boundary := false, selftestRun := 0, progs := [], dirty := [],
    confirmed := none, firstAfter := none }

/-- The time domains at module reset (R208, R211, R214). -/
def TimeState.reset : TimeState :=
  { lt := 0#64, trimAcc := 0, nt := 0#64, ntFrac := 0, ntValid := false, ntEver := false, ntSet := false, ntSource := 0,
    ntGood := 0, ntRate := 0, mp := 0#64, mpFrac := 0, mpHoldover := true, mpTracked := false, axles := [], dist := 0,
    standstill := false, slowMs := none, syncTarget := none, slots := [], fired := [] }

/-- The switch, offload and comparator at reset. TRDP_SPLIT before a NET component has fixed it the spec does not give:
page 0x08A serves every entry (log entry 61). -/
def Net.reset : Net :=
  { fdb := [], vlans := [], streams := [], meters := [], recovery := [], nodes := [], proxies := [], prpSeq := 0#16,
    ipId := 0#16, supSeq := 0#16, nextHandle := 0, frames := [], ports := [], credits := [], queues := [], trdp := [],
    split := 2048, twins := [], channels := [], pathDown := 0#2, single := (0, 0), announced := 0 }

/-- The measurement chain at reset. -/
def MeasState.reset : MeasState :=
  { chs := [], outs := [], trk := ⟨none, false, none, none, [], false, 0, 0, 0, 15, 15, 0⟩ }

/-- The bridge at reset; SYSCON follows its strap. -/
def VmeState.reset (syscon : Bool) : VmeState :=
  { syscon := syscon, owned := false, brOthers := 0#4, granted := none, lastLevel := 0, accepted := 0#32,
    completed := 0#32, fifo := [], block := 0, reads := [], failed := [], fences := [], sems := [], inbound := [],
    rmw := none, irqFails := [], iackOut := true, bgOut := 0xf#4 }

/-- The boot control record at the factory (R403): slot 0 ACTIVE, no PREVIOUS, husk slot 2 EMPTY, WORK_GEN 0. Its
BUNDLE_ID the spec does not give: 1 (log entry 62). -/
def BootRec.factory : BootRec :=
  { active := 0, previous := none, husk := 2, huskState := 0, activeId := 1#64, previousId := 0#64, huskId := 0#64,
    huskLen := 0, trialLeft := 0, workGen := 0, prevGen := none, lastFallback := 0 }

/-- OTP (R24, R125, R400): its contents are the unit's own; log entry 62 names the values taken. -/
def Otp.factory : Otp :=
  { unitId := 1#64, keyHashes := [[], [], [], []], programmed := 0b0001#4, revoked := 0#4, counter := 0,
    modeAllowed := 0b111#3, ckOffset := 0xfffff448#32 }

/-- The recorder of a module that has recorded nothing. -/
def Recorder.factory : Recorder :=
  { epoch := 0, seconds := 0, fields := [], life := [], running := none, pos := 0, runPos := 0, lifePos := 0,
    lifeAt := none }

/-- Budgets of cells just written. -/
def Budgets.fresh : Budgets := { common := 0, own := [], writes := [], refreshes := [], refreshNt := [] }

/-- The records of a module as it leaves the factory (R403): the boot control record and settings generation 0, whose
parameter set is unconfirmed. -/
def Nv.factory : Nv :=
  { nextJseq := 3#64, lastRecord := 2#64, slots := [], chains := [], retired := none, retirePos := 0, tableA := none,
    tableB := none, powerFail := none, powerFailPos := 0, faultSeq := 0, journalPos := 0, activateStep := none,
    boot := BootRec.factory, bootPos := 1, gen0 := some ⟨1#64, 1#64, 1#32, 128, 0x6522df69#32, 0#32, false⟩, gen1 := none,
    spareUsed := [], otp := Otp.factory, recorder := Recorder.factory }

/-- The engine at module reset, over the records that MRAM holds: nothing waits, the start scan has not ended. -/
def PState.reset (nv : Nv) : PState :=
  { nv := nv, waiting := [], held := [], final := false, pfIssued := false, portBegun := (false, false), inFlight := none,
    issued := 0#64, marked := 0#64, ports := [], portsMgmt := [], slots := nv.slots, chains := nv.chains, firstDone := [],
    budgets := Budgets.fresh, stopped := false, pfDone := false, startDone := false, offSource := 0,
    offCfg := 0x005507d0#32, offAssumed := 0xffffffff#32, recTaken := [], distFrom := 0, distBase := 0,
    poweredSince := 0#64, tableB := false, huskReceived := 0, steppingOk := false, compatOk := false,
    verifyRestarted := false, activateFailed := false, commissioning := false, confirmHeld := none, stale := false,
    migration := false, appliedGen := 0, appliedConfirmed := none }

/-- The supervisor at the first power good: rails in window, PFW_N and RESET_REQ_N high, the latch clear. START_MODE has
not been reported yet, and nothing but OPERATIONAL lets the outputs be live (R430). -/
def Supervisor.reset : Supervisor :=
  { vddUp := true, socReset := false, resetOut := false, pgCount := false, pllLocked := true, released := true,
    railsIn := 0xff#8, pfwLow := false, pfwSeen := false, latch := ⟨false, 0, 0, false, 0#32, true⟩, lockPosted := false,
    safeState := none, safeOrigin := 0, live := false, grant := false, startMode := 3, taken := 0#32, staticOff := 0,
    dynOff := 0, tripLines := 0#8, resetAsked := none, resetCause := 0, pressLevel := true, armed := true,
    pressing := false, pressStuck := false }

/-- Causeway and stack at reset, by the straps: role DISABLED, alone on the ring and its own master (R45, R212, R442). -/
def Failover.reset (stackId : Fin 8) (strapsValid unitSide : Bool) : Failover :=
  { role := .disabled, unitSide := unitSide, toggling := false, goodGaps := 0, everEdge := false, hbClaiming := false,
    hbActive := false, frozen := false, faulty := false, withdrawReq := false, noWithdraw := false, lineOn := false,
    stopping := false, stackId := stackId, strapsValid := strapsValid, present := [stackId.val], seen := [],
    master := stackId, returning := none, port0 := false, port1 := false, ringClosed := false }

/-- Workshop access, TAP and counters at reset. -/
def Observe.reset (testEnLow testEnPowerUp : Bool) : Observe :=
  { pmc := [], pmcOn := [], bwAcc := [], bwReg := [], bwValid := false, samplers := [], wsOpen := false,
    wsOpened := false, unlockStep := 0, unlockFails := 0, testEnLow := testEnLow, testEnPowerUp := testEnPowerUp,
    tapIr := 0x01#5, dmi := [], appHalted := 0#4, dropCount := 0 }

/-- Memories with nothing listed. -/
def Memories.reset : Memories :=
  { sram := [], mgmt := [], tcm := Trio.all [], mram := [], prog := Trio.all [], data := Trio.all [], sramEcc := [],
    tcmEcc := Trio.all [], l1Ecc := Trio.all [], progEcc := Trio.all [], dataEcc := Trio.all [], mramEcc := [],
    otherEcc := [] }

/-- The work ledger at module reset (R57). -/
def Ledger.reset : Ledger :=
  { voterCommits := 0#64, journalSeq := 0#64, vmePosted := 0#32, vmeFailed := 0#32, scanNum := [], commitNum := [],
    queueSeq := [], undelivered := 0#256, ntStamp := 0#64, ltStamp := 0#64 }

/-- The block at module reset: everything the spec gives a reset value, over the straps' mode, the records, the
supervisor and the membership given. -/
def State.resetWith (clu : Cluster) (nv : Nv) (sup : Supervisor) (fail : Failover) (obs : Observe) (vme : VmeState)
    (mem : Memories) : State :=
  { regs := [], pages := [], ops := [], counters := [], hiSnap := [], auditBusy := [], owners := [],
    faults := ⟨[], [], [], nv.faultSeq + 1⟩, ledger := { Ledger.reset with journalSeq := nv.lastRecord }, ledgerSnaps := [], ledgerSeqs := [], reply := .none,
    free := 0, clu := clu, red := Redundancy.reset, measSync := 0, appMessages := [], time := TimeState.reset,
    cle := Cle.reset, ps := PState.reset nv, sup := sup, fail := fail, obs := obs, net := Net.reset, mvbs := [],
    cans := [], meas := MeasState.reset, vme := vme, mem := mem, pending := [] }

/-- The block right after module reset: power good of a module as it leaves the factory, strapped TRIPLEX, stack ID 0,
unit side 0, no VME system controller; START_DONE has not come yet (log entry 63). -/
def State.reset : State :=
  State.resetWith (Cluster.reset .triplex false 0#2) Nv.factory Supervisor.reset (Failover.reset 0 true false)
    (Observe.reset false false) (VmeState.reset false) Memories.reset

/-! ## The reasons a step can stop -/

/-- Faults: none is raised by a command today that the spec gives an effect; the constructor names the accesses to
addresses that the spec says do not exist where no access-violation handling is given. -/
inductive Fault where
  /-- Raised by no meaning: R32 gives every access to an unmapped address an effect (safe). -/
  | unmapped (addr : Nat)
  deriving DecidableEq, Repr

/-- Refusals. -/
inductive Refusal where
  /-- The instruction has no meaning yet: its arm in Dispatch.lean names it (safe). -/
  | notModelled (mnemonic : String)
  deriving DecidableEq, Repr

end Sys2Proof.Machine
end

