-- ==== Sys2Proof/Machine/Frames.lean ====
section
/-!
DEFINITION. The bytes of frames: Ethernet and VLAN fields, the PRP redundancy trailer (R244, R245), the R-TAG (R243),
the host form (R251), IPv4 and UDP, and the TRDP process-data header (R256, R259), whose layouts the standards of R3
give (PRESUMED, log entry 30).
-/
namespace Sys2Proof.Machine

/-! ## Ethernet -/

/-- A frame from its bytes, destination MAC first, without FCS; a C-tag has EtherType 0x8100. -/
def parseFrame (bs : List Byte) : Frame :=
  let dst := ofBeBytes (bs.take 6)
  let src := ofBeBytes ((bs.drop 6).take 6)
  if ofBeBytes ((bs.drop 12).take 2) = 0x8100 then
    let tci := ofBeBytes ((bs.drop 14).take 2)
    ⟨dst, src, true, tci % 4096, tci / 8192, tci / 4096 % 2 == 1, bs.drop 16⟩
  else ⟨dst, src, false, 0, 0, false, bs.drop 12⟩

/-- The bytes of a frame, tag included where it carries one. -/
def Frame.bytes (f : Frame) : List Byte :=
  beBytes 6 f.dst ++ beBytes 6 f.src
    ++ (if f.tagged then beBytes 2 0x8100 ++ beBytes 2 (f.pcp * 8192 + f.dei.toNat * 4096 + f.vid) else []) ++ f.body

/-- Length of a frame, FCS included. -/
def Frame.length (f : Frame) : Nat := 16 + (if f.tagged then 4 else 0) + f.body.length
/-- The EtherType of a frame. -/
def Frame.etherType (f : Frame) : Nat := ofBeBytes (f.body.take 2)
/-- The broadcast address. -/
def broadcastMac : Nat := 0xffffffffffff
/-- A frame padded with zeros to 60 bytes without FCS (R251). -/
def Frame.pad (f : Frame) : Frame := { f with body := f.body ++ zeros (64 - f.length) }
/-- Cells that a frame of `n` bytes takes (R267). -/
def cellsOf (n : Nat) : Nat := (n + 255) / 256

/-! ## R-TAG and redundancy trailer -/

/-- The sequence number of an R-TAG (EtherType 0xF1C1), where the frame carries one. -/
def Frame.rtag (f : Frame) : Option (BitVec 16) :=
  if f.etherType = 0xf1c1 then some (BitVec.ofNat 16 (ofBeBytes ((f.body.drop 4).take 2))) else none
/-- The frame without its R-TAG. -/
def Frame.noRtag (f : Frame) : Frame := if f.etherType = 0xf1c1 then { f with body := f.body.drop 6 } else f

/-- The redundancy trailer at the end of a frame: sequence number and LanId; valid where the suffix is 0x88FB, the LanId
is 0xA or 0xB, and the LSDU size is that of the frame (PRESUMED, log entry 30). -/
def Frame.trailer (f : Frame) : Option (BitVec 16 × Nat) :=
  let n := f.body.length
  let t := f.body.drop (n - 6)
  let w := ofBeBytes ((t.drop 2).take 2)
  if 8 ≤ n ∧ ofBeBytes (t.drop 4) = 0x88fb ∧ (w / 4096 = 0xa ∨ w / 4096 = 0xb) ∧ w % 4096 = (n - 2) % 4096 then
    some (BitVec.ofNat 16 (ofBeBytes (t.take 2)), w / 4096)
  else none
/-- The frame without its trailer. -/
def Frame.noTrailer (f : Frame) : Frame := { f with body := f.body.take (f.body.length - 6) }
/-- The frame with a trailer of a sequence number and a LanId. -/
def Frame.withTrailer (f : Frame) (seq : BitVec 16) (lan : Nat) : Frame :=
  { f with body := f.body ++ beBytes 2 seq.toNat ++ beBytes 2 (lan * 4096 + (f.body.length + 4) % 4096) ++ beBytes 2 0x88fb }

/-- The bytes in the host form of R251: the tag kept, the R-TAG removed. -/
def Frame.hostBytes (f : Frame) : List Byte := f.noRtag.bytes

/-! ## IPv4 and UDP -/

/-- The sum of the 16-bit words of a byte list, and its ones' complement checksum. -/
def onesSum : List Byte → Nat
  | a :: b :: t => a.toNat * 256 + b.toNat + onesSum t
  | [a] => a.toNat * 256
  | [] => 0
def checksum (l : List Byte) : Nat :=
  let n := onesSum l
  let a := n % 65536 + n / 65536
  65535 - (a % 65536 + a / 65536)

/-- A UDP datagram over IPv4. -/
structure Datagram where
  srcIp : Nat
  dstIp : Nat
  options : Bool
  fragmented : Bool
  port : Nat
  payload : List Byte
  deriving DecidableEq, Repr

/-- The IPv4 UDP datagram of a frame, its R-TAG passed over. -/
def Frame.datagram (f : Frame) : Option Datagram :=
  let g := f.noRtag
  let ip := g.body.drop 2
  let b0 := (ip.getD 0 0#8).toNat
  let h := b0 % 16 * 4
  let udp := ip.drop h
  let frag := ofBeBytes ((ip.drop 6).take 2)
  if g.etherType = 0x0800 ∧ b0 / 16 = 4 ∧ 20 ≤ h ∧ h + 8 ≤ ip.length ∧ ip.getD 9 0#8 = 17#8 ∧ frag % 8192 = 0 then
    some ⟨ofBeBytes ((ip.drop 12).take 4), ofBeBytes ((ip.drop 16).take 4), h != 20, frag / 8192 % 2 == 1,
      ofBeBytes ((udp.drop 2).take 2), (udp.take (ofBeBytes ((udp.drop 4).take 2))).drop 8⟩
  else none

/-! ## TRDP process data (R256) -/

/-- The process-data header and the bytes after it. -/
structure Telegram where
  srcIp : Nat
  dstIp : Nat
  seq : Word
  version : Nat
  comId : Word
  etbTopo : Word
  opTopo : Word
  datasetLen : Nat
  fcsOk : Bool
  data : List Byte
  deriving DecidableEq, Repr

/-- A big-endian word at byte `o` of a list. -/
def beWord (l : List Byte) (o : Nat) : Word := BitVec.ofNat 32 (ofBeBytes ((l.drop o).take 4))

/-- A telegram that the offload handles (R256): UDP to port 17224 without options or fragments, msgType Pd. -/
def Frame.telegram (f : Frame) : Option Telegram :=
  match f.datagram with
  | none => none
  | some d =>
    let h := d.payload
    if d.port = 17224 ∧ !d.options ∧ !d.fragmented ∧ 40 ≤ h.length ∧ ofBeBytes ((h.drop 6).take 2) = 0x5064 then
      some ⟨d.srcIp, d.dstIp, beWord h 0, ofBeBytes ((h.drop 4).take 2), beWord h 8, beWord h 12, beWord h 16,
        (beWord h 20).toNat, (crc32 (h.take 36)).toNat == ofLeBytes ((h.drop 36).take 4), h.drop 40⟩
    else none

/-- The comId that queue classification reads (R253): of a UDP frame to port 17224 or 17225. -/
def Frame.comId (f : Frame) : Option Nat :=
  match f.datagram with
  | none => none
  | some d => if (d.port = 17224 ∨ d.port = 17225) ∧ 12 ≤ d.payload.length then some (beWord d.payload 8).toNat else none

/-- The process-data header of a publish (R259). -/
def trdpHeader (seq comId etb op : Word) (len : Nat) : List Byte :=
  let h := beBytes 4 seq.toNat ++ beBytes 2 0x0100 ++ beBytes 2 0x5064 ++ beBytes 4 comId.toNat ++ beBytes 4 etb.toNat
    ++ beBytes 4 op.toNat ++ beBytes 4 len ++ zeros 12
  h ++ leBytes 4 (crc32 h).toNat

/-- The EtherType, IPv4 and UDP headers and payload of a publish (R259). -/
def udpBody (srcIp dstIp : Nat) (dscp : Nat) (ident : BitVec 16) (payload : List Byte) : List Byte :=
  let ul := payload.length + 8
  let ip (c : Nat) : List Byte :=
    [0x45#8, BitVec.ofNat 8 (dscp * 4)] ++ beBytes 2 (ul + 20) ++ beBytes 2 ident.toNat ++ beBytes 2 0x4000
      ++ [64#8, 17#8] ++ beBytes 2 c ++ beBytes 4 srcIp ++ beBytes 4 dstIp
  let udp (c : Nat) : List Byte := beBytes 2 17224 ++ beBytes 2 17224 ++ beBytes 2 ul ++ beBytes 2 c ++ payload
  let pseudo := beBytes 4 srcIp ++ beBytes 4 dstIp ++ beBytes 2 17 ++ beBytes 2 ul
  let uc := checksum (pseudo ++ udp 0)
  beBytes 2 0x0800 ++ ip (checksum (ip 0)) ++ udp (if uc = 0 then 65535 else uc)

/-- The PRP supervision frame of a source (R247): for the module itself or for a proxied SAN (PRESUMED contents, log
entry 30). -/
def supervisionFrame (host mac : Nat) (seq : BitVec 16) : Frame :=
  let tlv := [20#8, 6#8] ++ beBytes 6 mac ++ (if mac = host then [] else [30#8, 6#8] ++ beBytes 6 host) ++ zeros 2
  Frame.pad ⟨0x01154e000100, host, false, 0, 0, false,
    beBytes 2 0x88fb ++ beBytes 2 1 ++ beBytes 2 seq.toNat ++ tlv⟩

end Sys2Proof.Machine
end

