-- ==== Sys2Proof/Config.lean ====
section
/-!
DEFINITION. What an implementation fixes and the spec leaves open: constants without a body, so that no proof can
rest on a value of theirs. Each is applied to plain data; `State.free` numbers the values drawn.
-/
namespace Sys2Proof.Config

/-- STEPPING of PAGE_ID, "per die" (R34): the spec gives no value. -/
opaque stepping : Byte
/-- The contents of the boot ROM (R29): the spec gives none. -/
opaque bootRom : Nat → Byte
/-- The n-th free word: a measured latency or another value the spec names without fixing it. -/
opaque freeWord : Nat → Word
/-- The n-th free 64-bit value. -/
opaque freeDword : Nat → DWord
/-- DETAIL word `i` of a report of page `p`, where the page's chapter defines none (R60). -/
opaque undefinedDetail (p i : Nat) : Word
/-- The next value of the sampler's 32-bit LFSR (R457): the spec gives no polynomial. -/
opaque lfsrNext : Word → Word

/-- AX units per edge with 16 fractional bits where 4 · PPR does not divide 2^32 (R216): the rounding is not stated. -/
opaque axStep (ppr : Nat) : Int
/-- The change of DIST in mm with 32 fractional bits for a change of AX (16 fractional bits) and a wheel diameter in
0.1 mm (R216): the product with π, whose rounding is not stated. -/
opaque distStep (dx : Int) (dia : Nat) : Int
/-- A speed in mm/s from PPR, wheel diameter and interval in LT ticks (R217): the rounding is not stated. -/
opaque speed (ppr dia ticks : Nat) : Nat
/-- The retention charge of a number of seconds at a temperature in m°C, in units of 2^-64 of the whole retention (R377,
R378): the formula's rounding is not stated. -/
opaque retentionCharge (milliC : Int) (seconds : Nat) : Nat
/-- SHA-384 of FIPS 180-4 and ECDSA P-384 verification of FIPS 186 (R397, R401), which the spec takes from there. -/
opaque sha384 (bytes : List Byte) : List Byte
opaque ecdsaVerifies (pubkey r sig hash : List Byte) : Bool

/-- The SDTv2 safety code over a dataset's bytes, seeded with SID (R284), which the spec takes from IEC 61375-2-3. -/
opaque safetyCode (sid : Word) (bytes : List Byte) : Word

/-- DTMCS fields ABITS and IDLE (R458): the spec gives neither, nor a HARTINFO of the debug module (R459). -/
opaque dtmInfo : Word
opaque hartInfo : Word

/-- A half-band stage's output from its last 47 inputs, newest first (R308: fixed coefficients, which the spec bounds and
does not give), and the resampler's value from the 16 FIR samples nearest to an instant (R321: likewise). -/
opaque halfBand : List Int → Int
opaque resample (samples : List (Int × Int)) (instant : Int) : Int
/-- A rate `num / den` where the division leaves a remainder: the spec does not state the rounding. -/
opaque rateRound (num den : Nat) : Nat

end Sys2Proof.Config
end

