-- ==== Sys2Proof/Machine/Ops.lean ====
section
/-!
DEFINITION. The named operations over registers, pages, counters and memories that every meaning is written with,
the address map and the access rights, and the common registers of a page as a read sees them.
-/
namespace Sys2Proof.Machine

/-! ## Registers -/

/-- The stored value of a register. -/
def State.reg (s : State) (p off : Nat) : Word := tblRead regReset s.regs (regKey p off)
/-- A register's stored value replaced. -/
def State.setReg (s : State) (p off : Nat) (v : Word) : State :=
  { s with regs := tblWrite regReset s.regs (regKey p off) v }
/-- A _LO and _HI pair, _LO at `off`. -/
def State.reg64 (s : State) (p off : Nat) : DWord := dword (s.reg p (off + 4)) (s.reg p off)
def State.setReg64 (s : State) (p off : Nat) (v : DWord) : State :=
  (s.setReg p off (loWord v)).setReg p (off + 4) (hiWord v)
/-- A field of a register. -/
def State.field (s : State) (p off hi lo : Nat) : Nat := fieldOf (s.reg p off) hi lo
/-- A register counted up by `k`, saturating at 0xFFFF_FFFF. -/
def State.satReg (s : State) (p off k : Nat) : State := s.setReg p off (satWord (s.reg p off) k)
/-- A register counted up by `k`, wrapping. -/
def State.incReg (s : State) (p off k : Nat) : State := s.setReg p off (s.reg p off + BitVec.ofNat 32 k)
/-- The larger of a register and a value kept in the register. -/
def State.maxReg (s : State) (p off v : Nat) : State :=
  if (s.reg p off).toNat < v then s.setReg p off (BitVec.ofNat 32 v) else s

/-- The state with the answer to the access's originator set. -/
def State.answer (s : State) (r : Reply) : State := { s with reply := r }

/-- The n-th free value, and the state that has drawn it. -/
def State.drawWord (s : State) : Word × State := (Config.freeWord s.free, { s with free := s.free + 1 })
def State.drawDword (s : State) : DWord × State := (Config.freeDword s.free, { s with free := s.free + 1 })

/-! ## Pages and long operations -/

/-- A page's control and status after module reset: RUN_STATE reads ON on the pages that do not follow R39 (each
chapter's page rules); ENABLE of the root reads 1 (R39). -/
def pageReset (p : Nat) : PageState :=
  match pageUnit p with
  | some (.root, _) => ⟨true, false, false, .on, false⟩
  | some (k, _) => ⟨false, false, false, if followsRunStates k then .off else .on, false⟩
  | none => ⟨false, false, false, .off, false⟩

def State.page (s : State) (p : Nat) : PageState := tblRead pageReset s.pages p
def State.setPage (s : State) (p : Nat) (v : PageState) : State := { s with pages := tblWrite pageReset s.pages p v }

/-- The idle long operation. -/
def opReset (_ : Nat) : OpState := ⟨.idle, 0, 0, 0#32, 0#32, 0#32, 0#32, 0#32, 0#32, false⟩
def State.op (s : State) (p : Nat) : OpState := tblRead opReset s.ops p
def State.setOp (s : State) (p : Nat) (v : OpState) : State := { s with ops := tblWrite opReset s.ops p v }
/-- Is operation `opcode` of page `p` in progress and not suspended (QUEUED or RUNNING, R51)? -/
def State.opActive (s : State) (p : Nat) (opcode : Nat) : Bool :=
  (s.op p).opcode.val == opcode && ((s.op p).phase == .queued || (s.op p).phase == .running)
/-- PROGRESS advanced by `k`, saturating at 0xFF_FFFF (R50), OP_RESULT by `r` (R52). -/
def OpState.advance (o : OpState) (k r : Nat) : OpState :=
  { o with progress := satAdd 0xffffff o.progress k, result := o.result + BitVec.ofNat 32 r }
/-- The first error of an operation is the one kept (R53). -/
def OpState.note (o : OpState) (e : Word) : OpState := { o with error := if o.error = 0#32 then e else o.error }
/-- An operation that ends FAILED with a code. -/
def State.opFail (s : State) (p : Nat) (e : Word) : State :=
  s.setOp p { (s.op p).note e with phase := .failed }
/-- An operation that ends DONE. -/
def State.opDone (s : State) (p : Nat) : State := s.setOp p { s.op p with phase := .done }
/-- Is an operation in progress (QUEUED, RUNNING or SUSPENDED)? -/
def OpState.inProgress (o : OpState) : Bool := o.phase == .queued || o.phase == .running || o.phase == .suspended
/-- An operation in progress ends ABORTED with a code (R51, R53); any other is left as it is. -/
def State.opAborted (s : State) (p : Nat) (e : Word) : State :=
  if (s.op p).inProgress then s.setOp p { (s.op p).note e with phase := .aborted, selfSuspended := false } else s

/-- Is the page locked by its own LOCK bit (R9)? -/
def State.locked (s : State) (p : Nat) : Bool := (s.page p).lock
/-- LOCKED of PAGE_STATUS: the page's own LOCK, or that of an ancestor group (R44). Pages lie at most four deep. -/
def State.lockedStatus (s : State) (p : Nat) : Bool :=
  let up (q : Option Nat) : Option Nat := q.bind pageParent
  let q0 := some p
  let q1 := up q0
  let q2 := up q1
  let q3 := up q2
  [q0, q1, q2, q3].any fun q => match q with | some r => s.locked r | none => false

/-- A unit's own ENABLE as the effective enable uses it: a page that does not follow R39 never gates its children. -/
def State.ownEnable (s : State) (p : Nat) : Bool :=
  match pageUnit p with
  | some (k, _) => if followsRunStates k then (s.page p).enable else true
  | none => false
/-- The effective enable (R39): the unit's own ENABLE and that of each group between it and the root. -/
def State.effEnable (s : State) (p : Nat) : Bool :=
  s.ownEnable p &&
  match pageParent p with
  | none => true
  | some q => s.ownEnable q &&
    match pageParent q with
    | none => true
    | some r => s.ownEnable r &&
      match pageParent r with
      | none => true
      | some t => s.ownEnable t

def State.isOn (s : State) (p : Nat) : Bool := (s.page p).run == .on
/-- Is a unit held by FREEZE: under workshop access, and ON (R35)? -/
def State.frozen (s : State) (p : Nat) : Bool := (s.page p).freeze && s.obs.wsOpen && s.isOn p
/-- Does a unit start work items: ON and not frozen? -/
def State.working (s : State) (p : Nat) : Bool := s.isOn p && !(s.frozen p)

/-! ## Event counters and programmable counters -/

/-- The event number of counter `n` of a page (R453). -/
def eventNumber (p n : Nat) : Nat :=
  match pageUnit p with | some (k, _) => 16 * unitType k + n | none => 0
/-- INSTANCE of a page. -/
def pageInstance (p : Nat) : Nat := match pageUnit p with | some (_, i) => i | none => 0

def zeroDword (_ : Nat) : DWord := 0#64
def zeroWord (_ : Nat) : Word := 0#32

/-- PMC_SEL of programmable counter `k` = 16·set + n (R454). -/
def State.pmcSel (s : State) (k : Nat) : Word := s.reg 0x191 (Reg.pmc.pmcSel + 4 * k)

/-- One programmable counter takes `amt` occurrences of an event (R455). -/
def State.pmcAdd (s : State) (k amt : Nat) : State :=
  { s with obs := { s.obs with
      pmc := tblWrite zeroDword s.obs.pmc k (tblRead zeroDword s.obs.pmc k + BitVec.ofNat 64 amt) } }

/-- Every enabled programmable counter that selects event `ev` of instance `inst` advances (R455). -/
def State.pmcEvent (s : State) (ev inst amt : Nat) : State :=
  s.obs.pmcOn.foldl (fun t k =>
    let w := s.pmcSel k
    if fieldOf w 27 16 = ev ∧ (bitOf w 7 ∨ fieldOf w 15 8 = inst) then t.pmcAdd k amt else t) s

/-- Event counter `n` of page `p` advances by `amt`, wrapping from 2^48 − 1 to 0 (R38), and with it the programmable
counters that follow it (R455). -/
def State.bump (s : State) (p n amt : Nat) : State :=
  let c := tblRead zeroDword s.counters (16 * p + n)
  { s with counters := tblWrite zeroDword s.counters (16 * p + n) (BitVec.ofNat 64 ((c.toNat + amt) % 2 ^ 48)) }.pmcEvent
    (eventNumber p n) (pageInstance p) amt

/-- A core event (UNIT_TYPE 0xA4) of the core of set `set`, run at privilege `priv` (R453, R455). -/
def State.coreEvent (s : State) (set : Nat) (priv : Fin 3) (n amt : Nat) : State :=
  s.obs.pmcOn.foldl (fun t k =>
    let w := s.pmcSel k
    if k / 16 = set ∧ fieldOf w 27 16 = 16 * 0xa4 + n ∧ bitOf w priv.val then t.pmcAdd k amt else t) s

/-- Event counter `n` of page `p`. -/
def State.counter (s : State) (p n : Nat) : DWord := tblRead zeroDword s.counters (16 * p + n)

/-- Bytes counted at a bandwidth point (R456). -/
def State.bw (s : State) (point bytes : Nat) : State :=
  { s with obs := { s.obs with
      bwAcc := tblWrite zeroDword s.obs.bwAcc point (tblRead zeroDword s.obs.bwAcc point + BitVec.ofNat 64 bytes) } }

/-! ## Fault causes -/

/-- FAULT_STATUS of a page as stored (CHILD_FAULT is computed, R44). -/
def State.causes (s : State) (p : Nat) : Word := s.reg p 0x010
/-- Is cause `bit` of page `p` latched? -/
def State.hasCause (s : State) (p bit : Nat) : Bool := bitOf (s.causes p) bit
/-- A cause latched (R37), without a report. -/
def State.latch (s : State) (p bit : Nat) : State := s.setReg p 0x010 (setBit (s.causes p) bit true)
/-- FAULT_COUNT up by one, stopping at 0xFFFF (R37). -/
def State.countFault (s : State) (p : Nat) : State := s.setReg p 0x014 (satField (s.reg p 0x014) 15 0 1)
/-- CHILD_FAULT of a group: some direct child's FAULT_STATUS is non-zero, CHILD_FAULT of the child included
(R44: a child group's own bit 31 counts). Pages lie at most four deep. -/
def State.childFault (s : State) (p : Nat) : Bool :=
  (pageChildren p).any fun q => s.causes q != 0#32 ||
    (pageChildren q).any fun r => s.causes r != 0#32 ||
      (pageChildren r).any fun t => s.causes t != 0#32
/-- FAULT_STATUS as a read sees it. -/
def State.faultStatus (s : State) (p : Nat) : Word :=
  match pageUnit p with
  | some (k, _) => if isGroup k && s.childFault p then setBit (s.causes p) 31 true else s.causes p
  | none => 0#32

/-! ## The common registers of a page as a read sees them (R34) -/

def runCode : RunState → Nat
  | .off => 0 | .starting => 1 | .on => 2 | .stopping => 3 | .faulted => 4
def phaseCode : OpPhase → Nat
  | .idle => 0 | .queued => 1 | .running => 2 | .done => 3 | .failed => 4 | .aborted => 5 | .suspended => 6

/-- UNIT_CAPS [1:0]: the owner plane (R274, R302, R337, R359). -/
def State.ownerCaps (s : State) (p : Nat) (k : UnitKind) : Word :=
  if followsRunStates k then (if tblRead (fun _ => false) s.owners p then 0b10#32 else 0b01#32) else 0#32

/-- PAGE_CAPS. -/
def State.pageCaps (s : State) (p : Nat) : Word :=
  match pageUnit p with
  | some (k, _) => flag (isGroup k) 31 ||| flag (hasBooks k) 30 ||| flag (hasOps k) 29 ||| s.ownerCaps p k
  | none => 0#32

/-- PAGE_ID: UNIT_TYPE, INSTANCE, LAYOUT 0x01, STEPPING. -/
def pageId (p : Nat) : Word :=
  match pageUnit p with
  | some (k, i) => at' (unitType k) 24 ||| at' i 16 ||| at' 1 8 ||| Config.stepping.zeroExtend 32
  | none => 0#32

/-- PAGE_STATUS: FROZEN shows a FREEZE that acts (R35). -/
def State.pageStatus (s : State) (p : Nat) : Word :=
  let g := s.page p
  at' (runCode g.run) 0 ||| flag g.pending 4 ||| flag (s.lockedStatus p) 5
    ||| flag (s.frozen p) 6

/-- OPSTAT. -/
def OpState.stat (o : OpState) : Word := at' (phaseCode o.phase) 28 ||| at' o.opcode.val 24 ||| at' o.progress 0

/-- A reference to a page of a stacked module (R43). -/
def remoteRef (stack page : Nat) : Nat := 0x8000 + stack * 0x800 + page
/-- The other present modules, in ascending order of ID. -/
def State.others (s : State) : List Nat := s.fail.present.filter fun i => i != s.fail.stackId.val
/-- The smallest element of an ascending list that lies above `n`. -/
def nextAbove (l : List Nat) (n : Nat) : Option Nat := (l.filter fun i => n < i).head?

/-- GROUP_PARENT, GROUP_FIRST_CHILD, GROUP_NEXT_SIBLING, GROUP_CHILD_COUNT of a page (R34, R45, R46). -/
def State.groupField (s : State) (p off : Nat) : Word :=
  let ref : Option Nat → Word := fun r => match r with | some n => BitVec.ofNat 32 n | none => 0xffff#32
  if off = 0x040 then ref (pageParent p)
  else if off = 0x044 then
    if p = 0x1c7 then ref (s.others.head?.map fun i => remoteRef i 0) else ref (pageChildren p).head?
  else if off = 0x048 then
    match pageParent p with
    | none => 0xffff#32
    | some q => ref (nextAbove (pageChildren q) p)
  else if p = 0x1c7 then BitVec.ofNat 32 s.others.length else BitVec.ofNat 32 (pageChildren p).length

/-- A register at offset 0x000 to 0x0FF as a read sees it; the high word of an event counter is the live one here
(a software read takes the reader's snapshot, R38). -/
def State.commonRead (s : State) (p off : Nat) : Word :=
  if off = 0x000 then pageId p
  else if off = 0x004 then s.pageCaps p
  else if off = 0x008 then flag (s.page p).enable 0 ||| flag (s.page p).freeze 1 ||| flag (s.page p).lock 3
  else if off = 0x00c then s.pageStatus p
  else if off = 0x010 then s.faultStatus p
  else if off = 0x01c then (s.op p).stat
  else if off = 0x030 then (s.op p).result
  else if off = 0x034 then (s.op p).error
  else if 0x040 ≤ off ∧ off ≤ 0x04c then s.groupField p off
  else if 0x080 ≤ off then
    (if off % 8 = 0 then loWord (s.counter p ((off - 0x080) / 8)) else hiWord (s.counter p ((off - 0x080) / 8)))
  else if off = 0x018 then (if s.obs.wsOpen then s.reg p off else 0#32)
  else if off = 0x014 ∨ (0x020 ≤ off ∧ off ≤ 0x02c) ∨ off = 0x054 then s.reg p off
  else 0#32

/-- Offsets 0x000 to 0x0FC of a page, word by word (ORIGIN_PAGE of R60). -/
def State.commonPage (s : State) (p : Nat) : List Word := (List.range 64).map fun i => s.commonRead p (4 * i)

/-! ## Masters, address map, access rights -/

/-- The key under which a master's own snapshots are held (R18). -/
def masterKey : Master → Nat
  | .cluster => 0
  | .app n => 1 + n.val
  | .debug _ => 5
  | .remote i => 6 + i.val
  | .core .a => 14 | .core .b => 15 | .core .c => 16
  | .dma => 17 | .benmi => 18 | .vmeIn => 19 | .pse => 20

/-- The regions of the address map (R29). -/
inductive Region where
  | bootRom | tcm | benmi | sram | mgmt | localPages | remotePages | mram | mramHole | vme | unmapped
  deriving DecidableEq, Repr

/-- The region of a 40-bit address (R29). -/
def regionOf (a : Nat) : Region :=
  if a < 0x40000 then .bootRom
  else if a < 0x08000000 then .unmapped
  else if a < 0x08200000 then .tcm
  else if a < 0x0c000000 then .unmapped
  else if a < 0x0d000000 then .benmi
  else if a < 0x10000000 then .unmapped
  else if a < 0x12000000 then .sram
  else if a < 0x14000000 then .unmapped
  else if a < 0x15000000 then .mgmt
  else if a < 0x18000000 then .unmapped
  else if a < 0x1c000000 then .localPages
  else if a < 0x20000000 then .remotePages
  else if a < 0x3f000000 then .mram
  else if a < 0x40000000 then .mramHole
  else if a < 0x80000000 then .vme
  else .unmapped

/-- A master as the columns of R31 see it: a debug access has its hart's column (R487), an independent core the
application cores' (R127). -/
inductive Column where
  | copies | cores | engines | dma | vmeIn | pse | link
  deriving DecidableEq, Repr

def columnOf : Master → Column
  | .cluster => .copies
  | .app _ => .cores
  | .core _ => .cores
  | .debug h => if h.val = 0 then .copies else .cores
  | .remote _ => .link
  | .dma => .dma
  | .benmi => .engines
  | .vmeIn => .vmeIn
  | .pse => .pse

/-- May a master read, or write, a region at all (R31)? Writes of pages follow R19 besides; a stacked module
reaches only local pages (R47). -/
def regionAllows (c : Column) (r : Region) (write : Bool) : Bool :=
  match r, c with
  | .bootRom, .copies | .bootRom, .cores => !write
  | .tcm, .copies => true
  | .benmi, .copies | .benmi, .engines => true
  | .sram, .link => false
  | .sram, _ => true
  | .mgmt, .cores => true
  | .localPages, .copies | .localPages, .cores | .localPages, .link => true
  | .remotePages, .copies | .remotePages, .cores => true
  | .mram, .copies | .mram, .cores => !write
  | .mram, .pse => true
  | .vme, .copies | .vme, .cores => true
  | _, _ => false

/-- The plane whose masters write a page (R19). -/
def State.writingPlane (s : State) (p : Nat) : Plane :=
  if p < 0x080 then .control
  else if p < 0x140 ∨ (0x150 ≤ p ∧ p < 0x160) ∨ (0x1b0 ≤ p ∧ p < 0x1c8) then
    (if tblRead (fun _ => false) s.owners p then .management else .control)
  else if p < 0x160 then .control
  else if p < 0x180 then .management
  else if p < 0x190 then .control
  else .management

/-- Does R19 let a master write offset `off` of page `p`? The safety copies write the control port of page 0x161
(R369); a debug access also writes pages 0x1A0 to 0x1AF (R487), which nobody writes outside workshop access; an
independent core has the application cores' rights (R127). -/
def State.mayWritePage (s : State) (m : Master) (p off : Nat) : Bool :=
  let pl := s.writingPlane p
  let right := match columnOf m with
    | .copies => pl == .control || (p == 0x161 && decide (0x100 ≤ off ∧ off < 0x128))
    | .cores => pl == .management && !(p == 0x161 && decide (0x100 ≤ off ∧ off < 0x128))
    | _ => false
  if 0x1a0 ≤ p ∧ p < 0x1b0 then
    s.obs.wsOpen && (right || (match m with | .debug _ => true | _ => false))
  else right

/-- Is an access misaligned (R488)? -/
def misaligned (a size : Nat) : Bool := size == 0 || a % size != 0

/-- Page number and offset of an address in the local page region. -/
def localPage (a : Nat) : Nat := (a - 0x18000000) / 0x1000
def pageOffset (a : Nat) : Nat := a % 0x1000
/-- Stack ID and page of an address in the remote page region (R29). -/
def remoteStack (a : Nat) : Nat := (a - 0x1c000000) / 0x800000
def remotePageNo (a : Nat) : Nat := (a - 0x1c000000) % 0x800000 / 0x1000

/-- Is a remote write let through (R48): R19 allows the originator's plane, and the target is no control-plane page
and no page of the module root, timebase or persistent-state ranges? -/
def State.mayWriteRemote (s : State) (pl : Plane) (p : Nat) : Bool :=
  s.writingPlane p == pl && !(p < 0x080 || (0x140 ≤ p && p < 0x150) || (0x160 ≤ p && p < 0x190)
    || (s.writingPlane p == .control))

/-- The plane of a master's writes (R19). -/
def planeOf (m : Master) : Plane :=
  match columnOf m with
  | .copies => .control
  | .cores => .management
  | _ => .data

/-- Is an access refused: the region, the column of R31, and for a page write R19 and R48 decide (R29, R31, R32,
R48)? -/
def State.refuses (s : State) (m : Master) (a : Nat) (write : Bool) : Bool :=
  let r := regionOf a
  if !(regionAllows (columnOf m) r write) then true
  else match r with
  | .localPages =>
    (pageUnit (localPage a)).isNone || (write && !(s.mayWritePage m (localPage a) (pageOffset a)))
  | .remotePages =>
    if remoteStack a = s.fail.stackId.val then
      (pageUnit (remotePageNo a)).isNone || (write && !(s.mayWritePage m (remotePageNo a) (pageOffset a)))
    else !(s.fail.present.contains (remoteStack a)) || (write && !(s.mayWriteRemote (planeOf m) (remotePageNo a)))
  | _ => false

/-! ## Memories -/

/-- The 16-byte words that a span of shared SRAM touches. -/
def spanWords (size off n : Nat) : List Nat :=
  if n = 0 then [] else (List.range ((off + n - 1) / size + 1 - off / size)).map fun i => off / size + i

def noEcc (_ : Nat) : Nat := 0

/-- Is some word of a span uncorrectable? -/
def eccBad (m : EccMap) (size off n : Nat) : Bool := (spanWords size off n).any fun w => tblRead noEcc m w == 2

/-- FAULT_INJECT of page `p` armed for an ECC injection into memory `target`: single-bit (1) or
double-bit (2) errors (R463). -/
def State.armedEcc (s : State) (p target : Nat) : Option Nat :=
  let w := s.reg p 0x018
  if bitOf w 31 ∧ fieldOf w 23 16 = target then
    (if fieldOf w 30 28 = 1 then some 1 else if fieldOf w 30 28 = 2 then some 2 else none)
  else none
/-- One injection used up: COUNT falls by one, and ARM clears with the last (R463). -/
def State.spendInject (s : State) (p : Nat) : State :=
  let w := s.reg p 0x018
  if fieldOf w 15 0 ≤ 1 then s.setReg p 0x018 (setBit (setField w 15 0 0) 31 false)
  else s.setReg p 0x018 (setField w 15 0 (fieldOf w 15 0 - 1))

/-- ECC map after a write of `n` bytes at `off` with ECC words of `size` bytes: a word written whole reads correctly
again, a word written in part stays as it was (R490). -/
def eccWrite (m : EccMap) (size off n : Nat) : EccMap :=
  (spanWords size off n).foldl (fun t w =>
    if off ≤ w * size ∧ w * size + size ≤ off + n then tblErase t w else t) m

/-- Bytes written into shared SRAM at an offset from its base: R490 for uncorrectable words, R463 for an armed
injection; a reservation of the cluster on a granule written is lost (R75). -/
def State.sramWrite (s : State) (off : Nat) (bs : List Byte) : State :=
  let m := { s.mem with sram := memStore s.mem.sram off bs, sramEcc := eccWrite s.mem.sramEcc 16 off bs.length }
  let res := match s.clu.reservation with
    | some g => if (spanWords 64 off bs.length).contains g then none else some g
    | none => none
  let s1 := { s with mem := m, clu := { s.clu with reservation := res } }
  match s1.armedEcc 0x010 1 with
  | some d => { s1 with mem := { s1.mem with sramEcc := tblWrite noEcc s1.mem.sramEcc (off / 16) d } }.spendInject 0x010
  | none => s1

/-- Bytes of shared SRAM; none where a word is uncorrectable (R490). -/
def State.sramRead (s : State) (off n : Nat) : Option (List Byte) :=
  if eccBad s.mem.sramEcc 16 off n then none else some (memBytes s.mem.sram off n)

/-- Bytes of shared SRAM as a 40-bit address gives them; none outside the 32 MiB. -/
def inSram (a n : Nat) : Bool := decide (0x10000000 ≤ a ∧ a + n ≤ 0x12000000)
def sramOff (a : Nat) : Nat := a - 0x10000000

/-- The work ledger frozen now: NT and LT stamped (R57, R59). -/
def State.frozenLedger (s : State) : Ledger :=
  { s.ledger with ntStamp := if s.time.ntValid then s.time.nt else 0#64, ltStamp := s.time.lt }

end Sys2Proof.Machine
end

