-- ==== Sys2Proof/Machine/Faults.lean ====
section
/-!
DEFINITION. The fault manager: which class and reaction a cause has (R428 and the chapters' cause tables), posting a
report into its FIFO (R21, R59), access violations (R32), and the supervisor's safe state and lock-out (R432, R433).
-/
namespace Sys2Proof.Machine

/-- The safety mode in which comparator and engine causes are recorded only (R109, R167). -/
def State.simplex (s : State) : Bool := s.clu.mode == .simplexThree

/-- Copies that are participants (R64). -/
def State.participants (s : State) : List Copy := [Copy.a, .b, .c].filter fun k => (s.clu.copies.copy k).participant

/-- Class and reaction of TRIP_CLASS for a trip line (R429): the value 3 acts as 2. -/
def State.tripReaction (s : State) (line : Nat) : Nat :=
  let v := s.field 0x180 Reg.supervisor.tripClass (2 * line + 1) (2 * line)
  if v = 0 then 0 else if v = 1 then 4 else 5

/-- The class and the reaction of cause `bit` of page `p` (R428). The causes of a copy or engine naming (classes 4
and 5) are reported by the naming itself with its own reaction; here they have their reaction code 3. -/
def State.classify (s : State) (p bit : Nat) : Nat × Nat :=
  match pageUnit p with
  | some (.cluster, _) =>
    if bit = 0 then (if s.simplex then (1, 0) else (7, 5))
    else if bit = 1 then (10, 4)
    else if 2 ≤ bit ∧ bit ≤ 4 then (6, if s.simplex then 0 else 5)
    else (1, 0)
  | some (.copy, _) => if 2 ≤ bit then (if s.simplex then (1, 0) else (4, 3)) else (1, 0)
  | some (.cmp, _) => if bit = 1 then (6, if s.simplex then 0 else 5) else (1, 0)
  | some (.redundancy, _) =>
    if bit = 0 ∨ bit = 1 ∨ bit = 10 then (6, if s.simplex then 0 else 5)
    else if 2 ≤ bit ∧ bit ≤ 5 then (7, 5)
    else if bit = 8 then (9, 4)
    else (1, 0)
  | some (.cle, _) => if bit ≤ 5 then (8, if s.simplex then 0 else 5) else (1, 0)
  | some (.engine, _) => (5, 3)
  | some (.program, _) => if bit ≤ 1 then (3, 2) else (1, 0)
  | some (.supervisor, _) =>
    if bit = 0 then (s.sup.latch.cls, 5)
    else if bit = 1 then (11, 5)
    else if bit = 2 ∨ bit = 6 then (12, 5)
    else if bit = 3 ∨ bit = 4 then (13, 5)
    else (15, 5)
  | some (.causeway, _) => (16, if bit = 2 then 4 else 0)
  | some (.stackLink, _) => (17, 0)
  | some (.reset, _) => (18, 0)
  | _ => (1, 0)

/-- The FIFO that takes a report by the page of its origin (R21). -/
def fifoOf (p : Nat) : Plane :=
  if p < 0x080 ∨ (0x140 ≤ p ∧ p < 0x150) ∨ (0x180 ≤ p ∧ p < 0x190) ∨ 0x1c0 ≤ p then .control
  else if (0x160 ≤ p ∧ p < 0x180) ∨ (0x190 ≤ p ∧ p < 0x1b0) then .management
  else .data

def FaultMgr.fifo (f : FaultMgr) : Plane → List FaultReport
  | .control => f.control | .data => f.data | .management => f.management
def FaultMgr.setFifo (f : FaultMgr) (pl : Plane) (l : List FaultReport) : FaultMgr :=
  match pl with
  | .control => { f with control := l } | .data => { f with data := l } | .management => { f with management := l }

/-- The offset of the overflow count of a FIFO in page 0x004 (R55). -/
def overflowReg : Plane → Nat
  | .control => Reg.faultMgr.overflowCtrl | .data => Reg.faultMgr.overflowData | .management => Reg.faultMgr.overflowMgmt
def planeIndex : Plane → Nat
  | .control => 0 | .data => 1 | .management => 2

/-- A report posted into FIFO `pl` (R21, R37, R55, R59): FAULT_COUNT of the origin, the class summary bit, and, where
the FIFO has an entry free, the report with the ledger frozen in this cycle; where it is full, the overflow count. -/
def State.post (s : State) (pl : Plane) (origin cls reaction : Nat) (detail : List Word) : State :=
  let s1 := ((s.countFault origin).setReg 0x004 Reg.faultMgr.classSummary
      (setBit (s.reg 0x004 Reg.faultMgr.classSummary) cls true)).bump 0x004 (planeIndex pl) 1
  if (s1.faults.fifo pl).length < 32 then
    let r : FaultReport :=
      { seq := s1.faults.nextSeq, origin := origin, cls := cls, reaction := reaction, causes := s1.faultStatus origin,
        detail := (List.range 7).map fun i => detail.getD i (Config.undefinedDetail origin i),
        nt := if s1.time.ntValid then s1.time.nt else 0#64, lt := s1.time.lt,
        epoch := s1.reg 0x162 Reg.recorder.curEpoch,
        summary := s1.reg 0x004 Reg.faultMgr.classSummary,
        overflow := [s1.reg 0x004 Reg.faultMgr.overflowCtrl, s1.reg 0x004 Reg.faultMgr.overflowData,
          s1.reg 0x004 Reg.faultMgr.overflowMgmt],
        ledger := s1.frozenLedger, originPage := s1.commonPage origin, context := [] }
    { s1 with faults := { s1.faults.setFifo pl (s1.faults.fifo pl ++ [r]) with nextSeq := s1.faults.nextSeq + 1 } }
  else s1.satReg 0x004 (overflowReg pl) 1

/-- A unit latches a cause and posts its report, with the class and reaction of R428. -/
def State.raise (s : State) (p bit : Nat) (detail : List Word) : State :=
  let s1 := s.latch p bit
  s1.post (fifoOf p) p (s1.classify p bit).1 (s1.classify p bit).2 detail

/-- A cause that stops its unit (class 2): the report, and the unit FAULTED with ENABLE_PENDING clear (R39). -/
def State.raiseStop (s : State) (p bit : Nat) (detail : List Word) : State :=
  let s1 := (s.latch p bit).post (fifoOf p) p 2 1 detail
  s1.setPage p { s1.page p with run := .faulted, pending := false }

/-! ## Access violations -/

/-- The page that a violation by a master is reported for (the originating unit, R32) and the FIFO that takes it
(R21). An application core has no page: its reports carry origin page 0x000 (DESIGN CHOICE, log entry 4). -/
def violationOrigin : Master → Nat × Plane
  | .cluster => (0x010, .control)
  | .debug h => if h.val = 0 then (0x010, .control) else (0x000, .management)
  | .app _ => (0x000, .management)
  | .core .a => (0x011, .management)
  | .core .b => (0x012, .management)
  | .core .c => (0x013, .management)
  | .remote _ => (0x1c0, .control)
  | .dma => (0x08f, .data)
  | .benmi => (0x040, .control)
  | .vmeIn => (0x150, .data)
  | .pse => (0x160, .management)

/-- FAULT_COUNT of the page that a refused access addressed (R37). -/
def State.countAddressed (s : State) (a : Nat) : State :=
  match regionOf a with
  | .localPages => if (pageUnit (localPage a)).isSome then s.countFault (localPage a) else s
  | .remotePages =>
    if remoteStack a = s.fail.stackId.val ∧ (pageUnit (remotePageNo a)).isSome then s.countFault (remotePageNo a) else s
  | _ => s

/-- The report of a refused access: class 0, REACTION 0 (R428), of the originating unit. -/
def State.violationReport (s : State) (origin : Nat) (pl : Plane) : State :=
  s.post pl origin 0 0 []

/-- What the originator of a refused access gets (R32 items 2 and 3): a core an access fault, any other master 0. -/
def violationReply (m : Master) : Reply :=
  match m with
  | .cluster | .app _ | .core _ | .debug _ => .accessFault
  | _ => .value 0#64

/-- An access violation (R32): nothing is performed, the addressed page counts it (R37), the fault manager takes a
report for the originating unit. -/
def State.violation (s : State) (m : Master) (a : Nat) : State :=
  ((s.countAddressed a).violationReport (violationOrigin m).1 (violationOrigin m).2).answer (violationReply m)

/-! ## The supervisor's reactions -/

/-- The work-ledger-independent part of entering the safe state (R432 items 1 and 2): outputs off, SAFE_TX_GRANT
clear, every OUTPUT_PERMIT 0, the class that set it kept, the claim given up (R442). The safe values of item 2 are
written by the caller, which knows the scan (Scan.lean). -/
def State.safeOff (s : State) (cls origin : Nat) : State :=
  let u :=
    { s.sup with
      live := false, grant := false, safeState := s.sup.safeState.or (some cls),
      safeOrigin := if s.sup.safeState.isNone then origin else s.sup.safeOrigin }
  let s1 := { s with sup := u }
  (List.range 8).foldl (fun t p => t.setReg (0x048 + p) Reg.program.outputPermit 0#32) s1

/-- The module-side part of lock-out: no reseed begins from now on (R434). -/
def State.markLockout (s : State) : State := { s with red := { s.red with lockout := true } }

/-- Is lock-out entered: by the module's own finding, or by the supervisor's latch (R434)? -/
def State.inLockout (s : State) : Bool := s.red.lockout || s.sup.latch.locked

end Sys2Proof.Machine
end

