-- ==== Sys2Proof/Machine/Nv.lean ====
section
/-!
DEFINITION. The writing of MRAM by the persistent-state engine (chapter 12): records with their trailers and the order
of their marks (R365, R366), the retentive pool (R372 to R376), the journal (R371), retirement records (R385), fault
records (R60, R383), power-fail records (R384), retention tables (R379).

The engine's work on one record is one command, its mark: the record's bytes land then, all of them (log entry 20).
-/
namespace Sys2Proof.Machine

/-! ## Places in MRAM (R361, R362, R383, R384) -/

def mramRetirement (k : Nat) : Nat := 0x8000 + 64 * (k % 64)
def mramSlotEntry (n : Nat) : Nat := 0x10000 + 64 * n
def mramTable (b : Bool) : Nat := if b then 0x20000 else 0x18000
def mramJournal (k : Nat) : Nat := 0x28000 + 64 * (k % 128512)
def mramImage (slot : Nat) : Nat := 0x00800000 + slot * 0x03000000
def mramGen (g : Nat) : Nat := 0x09800000 + g * 0x00800000
def mramPool (slot : Nat) : Nat := 0x0a800000 + 0x10000 * slot
def mramFault (seq : Nat) : Nat := 0x10800000 + 0x1000 * ((seq - 1) % 2032)
def mramPowerFail (k : Nat) : Nat := 0x10ff0000 + 0x400 * (k % 64)
def mramUser (line : Nat) : Nat := 0x11000000 + 64 * line
def mramBoot (k : Nat) : Nat := 0x400 * (k % 32)

/-- The state with the engine's part replaced. -/
def State.setPs (s : State) (p : PState) : State := { s with ps := p }
def State.setNv (s : State) (n : Nv) : State := { s with ps := { s.ps with nv := n } }

def zeroNat (_ : Nat) : Nat := 0

/-- `n` lines written into the MiB block of an MRAM offset (R382): WRITES rises, and WEAR_HIGH is latched when WRITES
divided by 16,384 reaches 5 · 10^10. -/
def State.countWrites (s : State) (off n : Nat) : State :=
  let b := off / 0x100000
  let w := tblRead zeroNat s.ps.budgets.writes b + n
  let s1 := s.setPs { s.ps with budgets := { s.ps.budgets with writes := tblWrite zeroNat s.ps.budgets.writes b w } }
  if 5 * 10 ^ 10 ≤ w / 16384 ∧ !s1.hasCause 0x160 3 then s1.raise 0x160 3 [] else s1

/-- The die of an MRAM offset (R13). -/
def mramDie (off : Nat) : Nat := off / 0x1000 % 4

/-- A list cut into pieces of 64 bytes, at most `k` of them. -/
def linesOf : Nat → List Byte → List (List Byte)
  | 0, _ => []
  | k + 1, l => if l.isEmpty then [] else l.take 64 :: linesOf k (l.drop 64)

/-- One line written (whole words; R364's words read correctly again), with the count of R382, the bytes of R456 and an
armed injection into its die (R463). -/
def State.mramLine (s : State) (off : Nat) (bs : List Byte) : State :=
  let m := { s.mem with mram := memStore s.mem.mram off bs, mramEcc := eccWrite s.mem.mramEcc 8 off bs.length }
  let s1 := ({ s with mem := m }.countWrites off 1).bw (86 + mramDie off) bs.length
  match s1.armedEcc 0x160 (mramDie off) with
  | some d => { s1 with mem := { s1.mem with mramEcc := tblWrite noEcc s1.mem.mramEcc (off / 8) d } }.spendInject 0x160
  | none => s1

/-- Bytes written into MRAM from a line's offset on. The lines of a class count in counters 0 to 2 of page 0x160. -/
def State.mramWrite (s : State) (cls off : Nat) (bs : List Byte) : State :=
  let ls := linesOf (bs.length / 64 + 1) bs
  ((ls.foldl (fun (t : State × Nat) l => (t.1.mramLine t.2 l, t.2 + 64)) (s, off)).1).bump 0x160
    (if cls = 1 then 0 else if cls = 2 then 1 else 2) ls.length

/-! ## Trailers (R365) -/

/-- A record's bytes: its body, JSEQ, CRC and MARK. -/
def recordWith (body : List Byte) (jseq : DWord) : List Byte :=
  let b := body ++ leBytes 8 jseq.toNat
  b ++ leBytes 4 (crc32 b).toNat ++ leBytes 4 (loWord jseq ^^^ 0xa5a5a5a5#32).toNat

/-- The MRAM offset of a line of a program's chain: ORDER of its slot is the chain line divided by 1,024. -/
def chainOffset (slots : Tbl SlotEntry) (p line : Nat) : Option Nat :=
  (slots.find? fun e => e.2.alloc && e.2.program == p && e.2.order == line / 1024).map fun e =>
    mramPool e.1 + 64 * (line % 1024)

/-- A record's bytes at its place. -/
def State.writePlace (s : State) (cls : Nat) (pl : NvPlace) (bs : List Byte) : State :=
  match pl with
  | .offset a => s.mramWrite cls a bs
  | .chain p line =>
    ((linesOf (bs.length / 64 + 1) bs).foldl (fun (t : State × Nat) l =>
      (match chainOffset t.1.ps.slots p t.2 with
        | some a => t.1.mramWrite cls a l
        | none => t.1, t.2 + 1)) (s, line)).1

/-! ## The order of the marks (R366, R367) -/

/-- The trailer of the next waiting record is issued, where none is in flight: it takes the next JSEQ. -/
def State.issueNext (s : State) : State :=
  match s.ps.inFlight, s.ps.waiting with
  | none, r :: rest =>
    (s.setPs
      { s.ps with
        waiting := rest, inFlight := some (r, s.ps.nv.nextJseq), issued := s.ps.issued + 1,
        nv := { s.ps.nv with nextJseq := s.ps.nv.nextJseq + 1 } }).bump 0x160 4 1
  | _, _ => s

/-- A record put behind the records of its class and before those of a later class. -/
def enqueue (r : NvRecord) (l : List NvRecord) : List NvRecord :=
  let before := l.takeWhile fun q => q.cls ≤ r.cls
  before ++ r :: l.drop before.length

/-- A record handed to the engine. While the power-fail warning holds it is held, but for the records of step 3 (R386). -/
def State.submit (s : State) (r : NvRecord) : State :=
  if s.ps.stopped ∧ !s.ps.final then s.setPs { s.ps with held := enqueue r s.ps.held }
  else (s.setPs { s.ps with waiting := enqueue r s.ps.waiting }).issueNext

/-- JOURNAL_SEQ takes a JSEQ (R56, R366). -/
def State.journalSeqIs (s : State) (j : DWord) : State := { s with ledger := { s.ledger with journalSeq := j } }

/-- Offset of a register of a commit port: the control port at 0x100, the management port at 0x140. -/
def cpReg (mgmt : Bool) (off : Nat) : Nat := if mgmt then off + 0x40 else off
def State.portQueue (s : State) (mgmt : Bool) : List CpReq := if mgmt then s.ps.portsMgmt else s.ps.ports
def State.setPort (s : State) (mgmt : Bool) (l : List CpReq) : State :=
  if mgmt then s.setPs { s.ps with portsMgmt := l } else s.setPs { s.ps with ports := l }

/-- The oldest request of a port completes with a JSEQ: CP_DONE and CP_LAST_JSEQ. -/
def State.cpDone (s : State) (mgmt : Bool) (j : DWord) : State :=
  ((s.setPort mgmt (s.portQueue mgmt).tail).incReg 0x161 (cpReg mgmt Reg.commitPorts.cpDone) 1).setReg64 0x161
    (cpReg mgmt Reg.commitPorts.cpLastJseqLo) j

/-- A slot-table entry as a one-line record (R372). -/
def slotRecord (n : Nat) (e : SlotEntry) : NvRecord :=
  { cls := 2, place := .offset (mramSlotEntry n),
    body := leBytes 1 e.alloc.toNat ++ leBytes 1 e.program ++ zeros 6 ++ leBytes 8 e.order ++ zeros 32,
    effect := .slot n e }

def slotFree (_ : Nat) : SlotEntry := ⟨false, 0, 0, 0⟩

/-- The live slot table with an entry replaced, and its record handed over. -/
def State.setSlotEntry (s : State) (n : Nat) (e : SlotEntry) : State :=
  ((s.setPs { s.ps with slots := tblWrite slotFree s.ps.slots n e }).submit (slotRecord n e)).bump 0x160
    (if e.alloc then 10 else 11) 1

/-- Slots of a program that lie wholly before chain line `line` are freed (R376). -/
def State.freeBefore (s : State) (p line : Nat) : State :=
  (s.ps.slots.filter fun e => e.2.alloc && e.2.program == p && decide ((e.2.order + 1) * 1024 ≤ line)).foldl
    (fun t e => t.setSlotEntry e.1 { e.2 with alloc := false, program := 0, order := 0 }) s

/-- What the mark of a record changes besides JOURNAL_SEQ. -/
def State.markEffect (s : State) (e : NvEffect) (j : DWord) : State :=
  let nv := s.ps.nv
  match e with
  | .plain => s
  | .retentive p c =>
    (((s.setNv { nv with chains := tblPut nv.chains p c }).setReg64 (0x048 + p) Reg.program.retainSeqLo c.seq).freeBefore p
      c.setLine)
  | .slot n e =>
    let live := tblRead slotFree s.ps.slots n
    let s1 := if live.alloc = e.alloc ∧ live.program = e.program ∧ live.order = e.order then
        s.setPs { s.ps with slots := tblWrite slotFree s.ps.slots n { live with jseq := j.toNat } }
      else s
    s1.setNv { s1.ps.nv with slots := tblWrite slotFree nv.slots n { e with jseq := j.toNat } }
  | .retirement r => s.setNv { nv with retired := r }
  | .journalPort mgmt => (s.cpDone mgmt j).bump 0x161 3 1
  | .journalOwn step => (s.setNv { nv with activateStep := step.or nv.activateStep }).bump 0x161 3 1
  | .table b t =>
    if b then s.setNv { nv with tableB := some { t with jseq := j } }
    else s.setNv { nv with tableA := some { t with jseq := j } }
  | .powerFail ntOff cause => s.setNv { nv with powerFail := some (ntOff, cause) }
  | .epoch => s.bump 0x162 0 1
  | .running epoch seconds fields pos =>
    (s.setNv { nv with recorder := { nv.recorder with running := some (epoch, seconds, fields), runPos := pos } }).bump 0x162 1 1
  | .lifetime pos =>
    (s.setNv { nv with recorder := { nv.recorder with lifePos := pos % 4096, lifeAt := some (0x0f800000 + 0x1000 * (pos % 4096)) } }).bump
      0x162 2 1
  | .boot r => s.setNv { nv with boot := r }
  | .gen g r => if g = 0 then s.setNv { nv with gen0 := some r } else s.setNv { nv with gen1 := some r }

/-- The mark of the record in flight completes (R366): its bytes are in MRAM, JOURNAL_SEQ takes its JSEQ, its effect
follows, and the next trailer may issue. -/
def State.completeMark (s : State) : State :=
  match s.ps.inFlight with
  | none => s
  | some (r, j) =>
    let s1 := s.writePlace r.cls r.place (recordWith r.body j)
    let s2 := (s1.setPs
      { s1.ps with
        inFlight := none, marked := s1.ps.marked + 1, nv := { s1.ps.nv with lastRecord := j } }).journalSeqIs j
    (s2.markEffect r.effect j).issueNext

/-- A record written whole at once, in its turn after the one in flight: the records that the module commits before it
acts (R404, R416, R418). While the power-fail warning holds it is held. -/
def State.commitNow (s : State) (r : NvRecord) : State :=
  if s.ps.stopped then s.submit r
  else
    let s0 := match s.ps.inFlight with
      | none => s
      | some (q, j) =>
        let t := s.writePlace q.cls q.place (recordWith q.body j)
        ((t.setPs { t.ps with inFlight := none, marked := t.ps.marked + 1 }).journalSeqIs j).markEffect q.effect j
    let j := s0.ps.nv.nextJseq
    let s1 := (s0.setPs
      { s0.ps with
        issued := s0.ps.issued + 1, marked := s0.ps.marked + 1,
        nv := { s0.ps.nv with nextJseq := j + 1, lastRecord := j } }).bump 0x160 4 1
    (((s1.writePlace r.cls r.place (recordWith r.body j)).journalSeqIs j).markEffect r.effect j).issueNext

/-! ## The records -/

/-- A journal entry of the module (R371, R421): class 4, the next ring position. -/
def State.journal (s : State) (body : List Byte) (step : Option (DWord × Nat)) : State :=
  let k := s.ps.nv.journalPos
  (s.setNv { s.ps.nv with journalPos := k + 1 }).submit
    { cls := 4, place := .offset (mramJournal k), body := padTo 48 body, effect := .journalOwn step }

/-- A retirement record (R385), or one with COPY 0xFF. -/
def State.commitRetirement (s : State) (r : Option (Copy × Nat)) : State :=
  let k := s.ps.nv.retirePos
  let code : Nat := match r with
    | some (.a, _) => 0 | some (.b, _) => 1 | some (.c, _) => 2 | none => 0xff
  let el : Nat := match r with | some (_, n) => n | none => 0
  (s.setNv { s.ps.nv with retirePos := k + 1 }).submit
    { cls := 2, place := .offset (mramRetirement k),
      body := padTo 48 (leBytes 1 code ++ zeros 3 ++ leBytes 4 el), effect := .retirement r }

/-- The work-ledger image of R57 without its CRC. -/
def ledgerBody (l : Ledger) : List Byte :=
  let head := leBytes 2 1 ++ leBytes 2 0x200 ++ zeros 4 ++ leBytes 8 l.voterCommits.toNat
    ++ leBytes 8 l.journalSeq.toNat ++ leBytes 4 l.vmePosted.toNat ++ leBytes 4 l.vmeFailed.toNat
  let scans := ((List.range 8).map fun p =>
    leBytes 8 (tblRead zeroDword l.scanNum p).toNat ++ leBytes 8 (tblRead zeroDword l.commitNum p).toNat).flatten
  let queues := ((List.range 64).map fun q => leBytes 4 (tblRead (fun _ => 0#32) l.queueSeq q).toNat).flatten
  head ++ scans ++ queues ++ leBytes 32 l.undelivered.toNat ++ leBytes 8 l.ntStamp.toNat ++ leBytes 8 l.ltStamp.toNat
    ++ zeros 44
/-- The work-ledger image of R57: 512 bytes, CRC last. -/
def ledgerImage (l : Ledger) : List Byte := ledgerBody l ++ leBytes 4 (crc32 (ledgerBody l)).toNat

/-- The words of a list as bytes. -/
def wordBytes (l : List Word) : List Byte := (l.map fun w => leBytes 4 w.toNat).flatten

/-- Bytes 0x000 to 0xFEF of a fault record (R60). -/
def faultRecordBody (r : FaultReport) : List Byte :=
  padTo 0x300
    (padTo 0x100
      (leBytes 2 1 ++ leBytes 2 0x1000 ++ leBytes 4 r.seq ++ leBytes 8 r.nt.toNat ++ leBytes 8 r.lt.toNat
        ++ leBytes 4 r.epoch.toNat ++ leBytes 2 r.origin ++ leBytes 1 r.cls ++ leBytes 1 r.reaction
        ++ leBytes 4 r.causes.toNat ++ wordBytes r.detail ++ leBytes 4 r.summary.toNat ++ wordBytes r.overflow)
      ++ ledgerImage r.ledger)
    ++ padTo 0x100 (wordBytes r.originPage) ++ padTo 0x800 r.context ++ zeros 0x3f0
/-- A fault record, VALID last (R60). -/
def faultRecordBytes (r : FaultReport) : List Byte :=
  let b := faultRecordBody r
  b ++ leBytes 4 (crc32 b).toNat ++ zeros 8 ++ leBytes 4 (BitVec.ofNat 32 r.seq ^^^ 0xa5a5a5a5#32).toNat

/-- A power-fail record (R384), ledger frozen now; the next of 64 positions. -/
def State.commitPowerFail (s : State) (cause : Nat) : State :=
  let k := s.ps.nv.powerFailPos
  let l := s.frozenLedger
  (s.setNv { s.ps.nv with powerFailPos := k + 1 }).submit
    { cls := 2, place := .offset (mramPowerFail k),
      body := padTo 0x3f0 (ledgerImage l ++ leBytes 8 l.ntStamp.toNat ++ leBytes 8 l.ltStamp.toNat
        ++ leBytes 4 s.ps.nv.recorder.epoch ++ leBytes 1 cause),
      effect := .powerFail l.ntStamp cause }

/-- The budget of a block (R377), with 32 bits more than its register has: how the register's rounding goes is not
stated, so that the fraction is kept. -/
def Budgets.of (b : Budgets) (n : Nat) : Nat := tblRead (fun _ => b.common) b.own n
/-- The budget as a 32-bit fraction, 2^32 as the largest word. -/
def budgetWord (n : Nat) : Nat := min (n / 2 ^ 32) 0xffffffff
/-- The budgets as a retention table holds them. -/
def Budgets.stored (b : Budgets) : Budgets :=
  let cut : Nat → Nat := fun n => budgetWord n * 2 ^ 32
  { b with
    common := cut b.common,
    own := b.own.foldl (fun t e => tblWrite (fun _ => cut b.common) t e.1 (cut e.2)) [] }

/-- The settings of page 0x160 that a retention table holds (R379): OFF_CFG, OFF_TIME_ASSUMED, SCRUB_HOURS, in that
order (DEDUCED: R379 names them "the settings of page 0x160" and gives no bytes; log entry 21). -/
def State.tableBody (s : State) : List Byte :=
  let b := s.ps.budgets
  padTo 64 (leBytes 2 1 ++ zeros 2 ++ leBytes 4 (s.reg 0x160 Reg.pstate.offCfg).toNat
      ++ leBytes 4 (s.reg 0x160 Reg.pstate.offTimeAssumed).toNat ++ leBytes 4 (s.reg 0x160 Reg.pstate.scrubHours).toNat)
    ++ ((List.range 496).map fun n =>
      padTo 64 (leBytes 4 (budgetWord (b.of n)) ++ leBytes 4 (tblRead zeroNat b.refreshes n)
        ++ leBytes 8 (tblRead zeroNat b.writes n) ++ leBytes 8 (tblRead zeroDword b.refreshNt n).toNat)).flatten
    ++ zeros 48

/-- A retention table committed (R379), A and B in turn. -/
def State.commitTable (s : State) : State :=
  let t : RetTable := ⟨0#64, s.ps.budgets.stored, s.reg 0x160 Reg.pstate.offCfg, s.reg 0x160 Reg.pstate.offTimeAssumed,
    s.reg 0x160 Reg.pstate.scrubHours⟩
  (s.setPs { s.ps with tableB := !s.ps.tableB }).submit
    { cls := 2, place := .offset (mramTable s.ps.tableB), body := s.tableBody, effect := .table s.ps.tableB t }

/-! ## The event recorder's records (R390) -/

/-- The width in bytes of a recorder field, by its offset: the 8-byte fields are the NT stamps, the port counts, DIST_M
and the line writes; every other count or extreme has 4 bytes (R390). -/
def recWidth (o : Nat) : Nat :=
  if o = 0x010 ∨ o = 0x018 ∨ o = 0x148 ∨ o = 0x150 ∨ o = 0xd50 then 8
  else if 0x160 ≤ o ∧ o < 0x360 then (if (o - 0x160) % 64 = 0x28 ∨ (o - 0x160) % 64 = 0x30 then 8 else 4)
  else if 0x360 ≤ o ∧ o < 0x560 then (if (o - 0x360) % 64 = 0x24 then 8 else 4)
  else if 0x620 ≤ o ∧ o < 0x6a0 then 8
  else if 0x6c0 ≤ o ∧ o < 0x8c0 then (if (o - 0x6c0) % 64 = 0x28 ∨ (o - 0x6c0) % 64 = 0x30 then 8 else 4)
  else if 0x8c0 ≤ o ∧ o < 0xcc0 then (if (o - 0x8c0) % 16 = 8 then 8 else 4)
  else if o = 0xd08 ∨ o = 0xd10 then 8
  else 4

/-- The fields as bytes from offset 0x010 to 0xFEF (the trailer's JSEQ begins there). -/
def recBytes (fields : Tbl Nat) : List Byte :=
  (List.range 0xfe0).map (fun i =>
    let o := 0x10 + i
    match (fields.filter fun e => e.1 ≤ o).getLast? with
    | some e => if o < e.1 + recWidth e.1 then BitVec.ofNat 8 (e.2 / 256 ^ (o - e.1)) else 0#8
    | none => 0#8)

/-- An epoch record (KIND 1), running record (2) or lifetime record (3). -/
def recordBody (kind epoch : Nat) (fields : Tbl Nat) : List Byte :=
  leBytes 2 1 ++ leBytes 2 0x1000 ++ leBytes 1 kind ++ zeros 3 ++ leBytes 8 epoch ++ recBytes fields

/-- Where an epoch record lies (R389): peat below 4,096, moss from there. -/
def mramEpoch (n : Nat) : Nat := if n < 4096 then 0x0c800000 + 0x1000 * n else 0x0d800000 + 0x1000 * ((n - 4096) % 8192)

/-- A RUNNING record of the open epoch (R392). -/
def State.commitRunning (s : State) : State :=
  let r := s.ps.nv.recorder
  (s.setNv { s.ps.nv with recorder := { r with pos := r.pos + 1 } }).submit
    { cls := 4, place := .offset (0x0f800000 + 0x1000 * (r.pos % 4096)), body := recordBody 2 r.epoch r.fields,
      effect := .running r.epoch r.seconds r.fields (r.pos % 4096) }

/-- A LIFETIME record (R392): EPOCH is the number of epochs closed. -/
def State.commitLifetime (s : State) : State :=
  let r := s.ps.nv.recorder
  (s.setNv { s.ps.nv with recorder := { r with pos := r.pos + 1 } }).submit
    { cls := 4, place := .offset (0x0f800000 + 0x1000 * (r.pos % 4096)), body := recordBody 3 r.epoch r.life,
      effect := .lifetime r.pos }

/-- A count of the open epoch raised (R390). -/
def State.recAdd (s : State) (off k : Nat) : State :=
  let r := s.ps.nv.recorder
  let v := satAdd (2 ^ (8 * recWidth off) - 1) (tblRead zeroNat r.fields off) k
  s.setNv { s.ps.nv with recorder := { r with fields := tblWrite zeroNat r.fields off v } }
/-- A field of the open epoch set. -/
def State.recSet (s : State) (off v : Nat) : State :=
  let r := s.ps.nv.recorder
  s.setNv { s.ps.nv with recorder := { r with fields := tblWrite zeroNat r.fields off v } }
def State.recField (s : State) (off : Nat) : Nat := tblRead zeroNat s.ps.nv.recorder.fields off
/-- The NT stamp of a recorder field: 0 when NT is not valid. -/
def State.ntStamp (s : State) : Nat := if s.time.ntValid then s.time.nt.toNat else 0
/-- A maximum of the open epoch: replaced by a value strictly beyond it, or taken as the first one; its NT stamp. -/
def State.recMax (s : State) (off ntOff : Nat) (first : Bool) (v : Int) : State :=
  if first ∨ signedOf 32 (s.recField off) < v then (s.recSet off (v % 2 ^ 32).toNat).recSet ntOff s.ntStamp else s
/-- A minimum of the open epoch. -/
def State.recMin (s : State) (off ntOff : Nat) (first : Bool) (v : Int) : State :=
  if first ∨ v < signedOf 32 (s.recField off) then (s.recSet off (v % 2 ^ 32).toNat).recSet ntOff s.ntStamp else s

/-- A scan of program `p` in the recorder (R390): its time by the watchdog limit, the longest one in per mille of it. -/
def State.recScan (s : State) (p us limit : Nat) : State :=
  let b := 0x360 + 64 * p
  let s1 := s.recAdd (b + 4 * min 7 (8 * us / limit)) 1
  s1.recMax (b + 0x20) (b + 0x24) false ((us * 1000 / limit : Nat) : Int)

end Sys2Proof.Machine
end

