-- ==== Sys2Proof/Machine/Signature.lean ====
section
/-!
DEFINITION. The signature stream of a copy (R88, R89): the bytes each retired instruction folds, in their order.
-/
namespace Sys2Proof.Machine

/-- The CSRs whose changes make no record (R89): cycle, time, instret, the hpm counters, their machine-mode aliases,
and mip. -/
def unrecordedCsr (n : Nat) : Bool :=
  (0xc00 ≤ n && n ≤ 0xc1f) || (0xb00 ≤ n && n ≤ 0xb1f) || n == 0x344

/-- A CSR-write record: type 0x03, number, new value. -/
def csrRecord (n : BitVec 12) (v : DWord) : List Byte := 0x03#8 :: (leBytes 2 n.toNat ++ leBytes 8 v.toNat)

/-- The records of CSR changes: only a value that changes is recorded (R89). -/
def csrRecords (csr : Tbl DWord) : List (BitVec 12 × DWord) → List Byte
  | [] => []
  | (n, v) :: t =>
    (if unrecordedCsr n.toNat || tblRead zeroDword csr n.toNat == v then [] else csrRecord n v)
      ++ csrRecords (tblWrite zeroDword csr n.toNat v) t

/-- The CSR file after the changes. -/
def csrApply (csr : Tbl DWord) (l : List (BitVec 12 × DWord)) : Tbl DWord :=
  l.foldl (fun t p => tblWrite zeroDword t p.1.toNat p.2) csr

/-- A load, store or AMO record; store data is zero-extended from its size. -/
def memRecord : MemRec → List Byte
  | .load sz a => 0x04#8 :: (leBytes 1 sz.val ++ leBytes 8 a.toNat)
  | .store sz a d => 0x05#8 :: (leBytes 1 sz.val ++ leBytes 8 a.toNat ++ leBytes 8 (d.toNat % 2 ^ (8 * 2 ^ sz.val)))
  | .amo sz f5 a d => 0x06#8 :: (leBytes 1 sz.val ++ leBytes 1 f5.toNat ++ leBytes 8 a.toNat ++ leBytes 8 d.toNat)

/-- A register-write record; a write to x0 makes none. -/
def regRecord : RegRec → List Byte
  | .int n v => if n.val = 0 then [] else 0x01#8 :: (leBytes 1 n.val ++ leBytes 8 v.toNat)
  | .fp n v => 0x02#8 :: (leBytes 1 n.val ++ leBytes 8 v.toNat)

/-- The bytes an instruction folds: the trap entry before it (R32 item 3), then the load or store record, the CSR
records, the register record (R89). -/
def recordBytes (csr : Tbl DWord) (r : Retirement) : List Byte :=
  csrRecords csr r.entry
    ++ (match r.mem with | some m => memRecord m | none => [])
    ++ csrRecords (csrApply csr r.entry) r.csrs
    ++ (match r.reg with | some g => regRecord g | none => [])

/-- A tussock report as the bytes 0 to 33 of R91. -/
def reportBytes (r : TussockReport) : List Byte :=
  leBytes 8 r.num.toNat ++ leBytes 8 r.instret.toNat ++ leBytes 8 r.pc.toNat ++ leBytes 8 r.sig.toNat
    ++ [r.trigger.zeroExtend 8, match r.copy with | .a => 0#8 | .b => 1#8 | .c => 2#8]

/-- LINK_CRC of a report (R91): over bytes 0 to 33, initial value 0xFFFF. -/
def linkCrc (r : TussockReport) : BitVec 16 := crc16 0xffff#16 (reportBytes r)

/-- Two reports agree when bytes 0 to 32 are identical (R92): everything but COPY. -/
def reportsAgree (x y : TussockReport) : Bool :=
  x.num == y.num && x.instret == y.instret && x.pc == y.pc && x.sig == y.sig && x.trigger == y.trigger

end Sys2Proof.Machine
end

