-- ==== Sys2Proof/Machine/Cluster.lean ====
section
/-!
DEFINITION. The shared operations of the safety cluster: target counts of the distributor (R83 to R86), tussocks and
their reports (R90, R91), judgements and verdicts (R92, R93), the write voter (R77 to R81), and what happens when a
copy is named odd (R104 to R107, R117, R118).
-/
namespace Sys2Proof.Machine

def copyPage : Copy → Nat
  | .a => 0x011 | .b => 0x012 | .c => 0x013
def copyIndex : Copy → Nat
  | .a => 0 | .b => 1 | .c => 2
def cmpPage : Comparator → Nat
  | .x => 0x014 | .y => 0x015
def allCopies : List Copy := [.a, .b, .c]

def State.cp (s : State) (k : Copy) : CopyState := s.clu.copies.copy k
def State.setCp (s : State) (k : Copy) (v : CopyState) : State :=
  { s with clu := { s.clu with copies := s.clu.copies.setCopy k v } }

/-! ## Counts of the participants (R65) -/

/-- The leading copy: highest instret, the lowest-lettered of equals. -/
def State.leading (s : State) : Option Copy :=
  s.participants.foldl (fun best k =>
    match best with
    | none => some k
    | some b => if (s.cp b).instret < (s.cp k).instret then some k else some b) none

/-- The lowest instret among the participants. -/
def State.slowest (s : State) : Nat :=
  match s.participants with
  | [] => 0
  | k :: t => t.foldl (fun m j => min m (s.cp j).instret.toNat) (s.cp k).instret.toNat

/-- The lead of a copy: its instret minus that of the slowest copy. -/
def State.lead (s : State) (k : Copy) : Nat := (s.cp k).instret.toNat - s.slowest

/-- The lead limit (R95, R100): twice the interval in use, the larger one while the participants use two. -/
def State.leadLimit (s : State) : Nat :=
  2 * 2 ^ (s.participants.foldl (fun m k => max m (s.cp k).intervalLog2) 0)

/-! ## Tussocks and targets -/

/-- The perturbations of page 0x1A0 act only while workshop access is open (R462). -/
def State.pt (s : State) (off : Nat) : Word := if s.obs.wsOpen then s.reg 0x1a0 off else 0#32
/-- A perturbation applied: PT_APPLIED and event counter 0 of page 0x1A0. -/
def State.ptApplied (s : State) : State := (s.satReg 0x1a0 Reg.perturb.ptApplied 1).bump 0x1a0 0 1

/-- Does a copy control of page 0x1A0 name copy `k`? -/
def ptNames (w : Word) (k : Copy) : Bool := bitOf w 31 && fieldOf w 29 28 == copyIndex k

/-- A tussock of copy `k` under the triggers `trig` (R90, R91): it is numbered, its report leaves for both
comparators, and CKPT_NUM, CKPT_PC and CKPT_SIG show it. PT_SIG flips a SIG bit of the report, PT_CKPT delays it
(R462). -/
def State.tussock (s : State) (k : Copy) (trig : BitVec 6) : State :=
  let c := s.cp k
  let num := c.ckptNum + 1
  let ps := s.pt Reg.perturb.ptSig
  let flip := ptNames ps k
  let sig := if flip then c.sig ^^^ (1#64 <<< fieldOf ps 5 0) else c.sig
  let r : TussockReport := ⟨num, c.instret, c.pc, sig, trig, k⟩
  let pd := s.pt Reg.perturb.ptCkpt
  let delay := ptNames pd k
  let s1 := s.setCp k { c with ckptNum := num }
  let s2 := { s1 with clu := { s1.clu with flying := s1.clu.flying ++ [FlyingReport.mk .x r delay, FlyingReport.mk .y r delay] } }
  let p := copyPage k
  let s3 := ((s2.setReg64 p Reg.copy.ckptNumLo num).setReg64 p Reg.copy.ckptPcLo c.pc).setReg64 p Reg.copy.ckptSigLo sig
  let s4 := if flip then (s3.setReg 0x1a0 Reg.perturb.ptSig (setBit (s3.reg 0x1a0 Reg.perturb.ptSig) 31 false)).ptApplied
    else s3
  let s5 :=
    if delay then
      (if bitOf pd 27 then s4.setReg 0x1a0 Reg.perturb.ptCkpt (setBit (s4.reg 0x1a0 Reg.perturb.ptCkpt) 31 false)
       else s4).ptApplied
    else s4
  let s6 := (List.range 6).foldl (fun t i => if trig.getLsbD i ∧ some k = t.leading then t.bump 0x010 (7 + i) 1 else t) s5
  s6.bump p 15 1

/-- The trigger bit of a target that makes a tussock (R90). -/
def TargetKind.trigger : TargetKind → BitVec 6
  | .forced => 0b001000#6
  | .gap => 0b010000#6
  | .reseed => 0b100000#6
  | _ => 0#6

/-- Is the target an interrupt change? -/
def TargetKind.isIrq : TargetKind → Bool
  | .irq _ => true
  | _ => false

/-- What reaching a target does to the copy besides a tussock: the change of mip (R83), the halt (R129), the new
interval (R100), the stall after the RESEED tussock (R114). -/
def CopyState.reach (c : CopyState) : TargetKind → CopyState
  | .irq lines => { c with mip := lines }
  | .halt => { c with halted := true, stall := 7 }
  | .interval n => { c with intervalLog2 := n }
  | .reseed => { c with stall := 8 }
  | _ => c

/-- Targets of copy `k` due at its count and not reached yet. -/
def State.dueTargets (s : State) (k : Copy) : List Target :=
  s.clu.targets.filter fun t => t.count ≤ (s.cp k).instret && !(t.reached.copy k)

/-- Every participant has reached the target: the distributor holds it no longer. -/
def State.dropTargets (s : State) : State :=
  let waits : Target → Bool := fun t => s.participants.any fun k => !(t.reached.copy k)
  { s with clu := { s.clu with targets := s.clu.targets.filter waits } }

/-- Copy `k` stands at its count with the triggers `trig` of its last instruction (R90): one tussock with every
trigger bit that applies, then the interrupt changes and the rest, oldest target first. A GAP target reached by a
participant is no longer pending (R94); the halt of copy A is reported in HALT_COUNT (R129). -/
def State.arriveAt (s : State) (k : Copy) (trig : BitVec 6) : State :=
  let due := s.dueTargets k
  let bits := due.foldl (fun b t => b ||| t.kind.trigger) trig
  let s1 := if bits = 0#6 then s else s.tussock k bits
  let s2 := s1.setCp k (due.foldl (fun c t => c.reach t.kind) (s1.cp k))
  let mark : Target → Target := fun t =>
    if t.count ≤ (s2.cp k).instret then { t with reached := t.reached.setCopy k true } else t
  let s3 := { s2 with clu := { s2.clu with
    targets := s2.clu.targets.map mark,
    gapPending := s2.clu.gapPending && !(due.any fun t => t.kind == TargetKind.gap) } }
  let s4 : State := if (due.any fun t => t.kind == TargetKind.halt) = true ∧ k = .a then
      (s3.setReg64 0x017 Reg.debugReplay.haltCountLo (s3.cp k).instret).bump 0x017 0 1
    else s3
  let irqs : Nat := (due.filter fun t => t.kind.isIrq).length
  let s5 := if irqs ≠ 0 ∧ some k = s4.leading then s4.bump 0x010 5 irqs else s4
  let s6 := if s5.participants.all fun j => (s5.cp j).halted then
      { s5 with red := { s5.red with halting := false } } else s5
  s6.dropTargets

/-- The count at which a target is set now (R83, R86, R94): the leading copy's instret plus 256, not below the last
target; the leading copy's own count while it waits at WFI. -/
def State.targetCount (s : State) : DWord :=
  match s.leading with
  | none => s.clu.lastTarget
  | some k =>
    if (s.cp k).inWfi then (s.cp k).instret
    else
      let n := (s.cp k).instret + 256
      if n < s.clu.lastTarget then s.clu.lastTarget else n

/-- Key of a replay entry (copy, ordinal), or of a voter slot (ordinal), among the injected errors of `otherEcc`. -/
def replayKey (k : Copy) (n : DWord) : Nat := copyIndex k * 2 ^ 64 + n.toNat
def voterKey (n : DWord) : Nat := 3 * 2 ^ 64 + n.toNat

/-- A key of `otherEcc` takes the injection armed for memory `target` of page 0x010, if any (R463). -/
def State.injectOther (s : State) (target key : Nat) : State :=
  match s.armedEcc 0x010 target with
  | some d => { s with mem := { s.mem with otherEcc := tblWrite noEcc s.mem.otherEcc key d } }.spendInject 0x010
  | none => s

/-- An entry appended to a copy's replay FIFO (R72): the high-water mark follows, an armed injection strikes it. -/
def State.appendEntry (s : State) (k : Copy) (e : ReplayEntry) : State :=
  let c := s.cp k
  let n := c.reads + BitVec.ofNat 64 (c.fifo.length + 1)
  ((s.setCp k { c with fifo := c.fifo ++ [e] }).maxReg (copyPage k) Reg.copy.replayHwm (c.fifo.length + 1)).injectOther 2
    (replayKey k n)

/-- The first copy at WFI; a later one that has come to its WFI meanwhile waits with a read of kind WFI (R76). -/
def State.firstAtWfi (s : State) : Option Copy :=
  match s.participants.find? fun k => (s.cp k).inWfi && (s.cp k).waitRead.isNone with
  | some k => some k
  | none => s.participants.find? fun k => (s.cp k).inWfi

/-- A copy gets the WFI entry: one that waits for it goes on at once, another finds it in its replay FIFO. -/
def State.giveWfi (s : State) (j : Copy) : State :=
  let c := s.cp j
  if c.inWfi then
    (s.setCp j { c with inWfi := false, waitRead := none, consumed := c.consumed + 1 }).bump 0x010 1 1
  else s.appendEntry j ⟨.wfi, 0#40, 0, 0#64, false⟩

/-- The WFI entry of R76 recorded: the first copy goes on, the entry counts as read by it and goes to the others. -/
def State.wakeWfi (s : State) : State :=
  match s.firstAtWfi with
  | none => s
  | some k =>
    let s1 := { s with clu := { s.clu with performed := s.clu.performed + 1 } }
    let s2 := s1.setCp k { s1.cp k with inWfi := false, waitRead := none, consumed := (s1.cp k).consumed + 1 }
    ((s2.participants.filter fun j => j != k).foldl State.giveWfi s2).bump 0x010 0 1

/-- The distributor sets a target (R83): participants that stand at its count reach it at once (R86, R94). A change
or a tussock target ends the wait of the first copy at WFI (R76). -/
def State.setTarget (s : State) (kind : TargetKind) : State :=
  let n := s.targetCount
  let t : Target := ⟨n, kind, (Trio.all false)⟩
  let last := if s.clu.lastTarget < n then n else s.clu.lastTarget
  let s1 := { s with clu := { s.clu with targets := s.clu.targets ++ [t], lastTarget := last } }
  let s2 := (s1.setReg64 0x010 Reg.cluster.lastTargetLo n).wakeWfi
  s2.participants.foldl (fun u k => if n ≤ (u.cp k).instret then u.arriveAt k 0#6 else u) s2

/-- Changes held by the distributor: interrupt targets that some participant has not reached (R84). -/
def State.heldChanges (s : State) : List Target :=
  s.clu.targets.filter fun t => t.kind.isIrq

/-- An interrupt-pending input changes (R83, R84): a target of its own, or, with 16 changes held, merged into the
newest held change, whose target it takes. A change to the vector as it stands is no change. -/
def State.irqChange (s : State) (lines : DWord) : State :=
  if lines = s.clu.lines then s
  else
    let s1 := { s with clu := { s.clu with lines := lines } }
    if s1.heldChanges.length < 16 then s1.setTarget (.irq lines)
    else
      let upd : Target → Target := fun t =>
        match t.kind with
        | .irq _ => if s1.heldChanges.getLast? = some t then { t with kind := .irq lines } else t
        | _ => t
      { s1 with clu := { s1.clu with targets := s1.clu.targets.map upd } }.bump 0x010 6 1

/-- MEIP, bit 11 of the pending vector: 1 while the message FIFO holds an entry (R491). -/
def State.meipFollows (s : State) : State :=
  let v := if s.clu.messages.isEmpty then s.clu.lines &&& ~~~(1#64 <<< 11) else s.clu.lines ||| (1#64 <<< 11)
  s.irqChange v

/-- A message for the cluster (R491): into the FIFO in arrival order, or discarded and counted while it holds 64. -/
def State.message (s : State) (vector : BitVec 16) : State :=
  if s.clu.messages.length < 64 then
    { s with clu := { s.clu with messages := s.clu.messages ++ [vector] } }.meipFollows
  else { s with clu := { s.clu with discarded := satAdd 0xffff s.clu.discarded 1 } }

/-! ## Lock-out and naming -/

/-- The reseed in progress is abandoned by a lock-out (R116): the target stays held, the participants stalled at the
RESEED tussock are released, the report entry is marked failed. -/
def State.abandonReseed (s : State) : State :=
  match s.red.reseed with
  | none => s
  | some r =>
    let us := (s.time.lt - r.ltHold).toNat * 4 / 1000
    let w := at' (copyIndex r.target) 0 ||| at' (copyIndex r.source) 2 ||| at' r.pass 4 ||| flag true 31
    let e : ReseedEntry := ⟨r.ltHold, w, min us 0xffff, 0⟩
    let s1 := { s with red := { s.red with reseed := none, history := e :: s.red.history } }
    let s2 := s1.participants.foldl (fun t k =>
      if (t.cp k).stall = 8 then t.setCp k { t.cp k with stall := 0 } else t) s1
    { s2 with clu := { s2.clu with targets := s2.clu.targets.filter (fun t => t.kind != TargetKind.reseed) } }.setReg 0x016
      Reg.redundancy.lastReseed w

/-- The module enters lock-out on a cause of page `p` (R104 to R106, R109): the cause's report carries REACTION 5, and
the supervisor acts on its class summary bit (R429); a reseed in progress is abandoned at once (R116). In
SIMPLEX_THREE the comparator causes are recorded only. -/
def State.lockoutCause (s : State) (p bit : Nat) (detail : List Word) : State :=
  let s1 := s.raise p bit detail
  if (s.classify p bit).2 = 5 then (s1.markLockout).abandonReseed else s1

/-- A replay entry or voter slot is read and forgotten: an ECC error, corrected or not, latches cause `bit` of page 0x010
(R98, R109). -/
def State.readOther (s : State) (key bit : Nat) : State :=
  let bad := tblRead noEcc s.mem.otherEcc key != 0
  let s1 := { s with mem := { s.mem with otherEcc := tblErase s.mem.otherEcc key } }
  if bad then s1.lockoutCause 0x010 bit [] else s1

/-- The head of a copy's replay FIFO popped: the copy's read takes its ordinal and is served (R72, R98). -/
def State.popEntry (s : State) (k : Copy) : State :=
  let c := s.cp k
  let s1 := s.setCp k { c with fifo := c.fifo.tail, reads := c.reads + 1, consumed := c.consumed + 1 }
  ((s1.bump 0x010 1 1).bump (copyPage k) 9 1).readOther (replayKey k (c.reads + 1)) 2

/-- Number of participants. -/
def State.partCount (s : State) : Nat := s.participants.length

/-- A write that finds no majority (R78, R105): VOTE_NO_MAJORITY in the group page, with three participants lock-out,
with two a DUPLEX_MISMATCH, whose report is the only one. -/
def State.noMajority (s : State) : State :=
  if s.simplex then s.raise 0x010 0 []
  else if s.partCount = 2 then (s.latch 0x010 0).lockoutCause 0x016 3 []
  else s.lockoutCause 0x010 0 []

/-- A slot discarded or freed without further ado. -/
def State.dropSlot (s : State) (ord : DWord) : State :=
  { s with clu := { s.clu with slots := s.clu.slots.filter fun t => t.ord != ord } }
def State.setSlot (s : State) (v : VoterSlot) : State :=
  { s with clu := { s.clu with slots := s.clu.slots.map fun t => if t.ord = v.ord then v else t } }

/-- Presentations of a copy removed from one slot (R107 item 3): nothing left or a COMMITTED slot that waited for
this copy goes FREE; two presentations that differ are judged at once as those of two participants. -/
def VoterSlot.without (t : VoterSlot) (k : Copy) : VoterSlot :=
  { t with pres := t.pres.filter fun p => p.1 != k }

/-- The voter after copy `k` has left the participants (R107 item 3). -/
def State.voterRemove (s : State) (k : Copy) : State :=
  let keep := (s.clu.slots.map fun t => t.without k).filter fun t => !t.pres.isEmpty && t.phase != .committed
  let clash := keep.filter fun t =>
    t.phase == .opened && (match t.pres with | [x, y] => x.2 != y.2 | _ => false)
  let rest := keep.filter fun t => !(clash.contains t)
  let s1 := { s with clu := { s.clu with
    slots := rest, lateDiscard := s.clu.lateDiscard.filter fun p => p.1 != k } }
  clash.foldl (fun t _ => t.noMajority) s1

/-- A copy out of the participants and held (R107 items 1 to 3). -/
def State.holdCopy (s : State) (k : Copy) : State :=
  let c := s.cp k
  let h : CopyState :=
    { c with
      participant := false, held := true, stall := 6, fifo := [], inWfi := false,
      waitRead := none, waitWrite := none, waitResult := false }
  ((s.setCp k h).voterRemove k).dropTargets

/-- Reseeds of a copy begun in the last 3,600 s of LT (R117): one begun exactly 3,600 s ago no longer counts. -/
def State.reseedsHour (s : State) (k : Copy) : Nat :=
  (s.red.begun.filter fun p => p.1 == k && decide ((s.time.lt - p.2).toNat < 3600 * 250000000)).length

/-- A reseed of copy `k` begins (R112, R113): the source is the lowest-lettered participant; the target's registers
and L1 caches are reset. While a lock-out stands no reseed begins (R434). -/
def State.beginReseed (s : State) (k : Copy) : State :=
  if s.inLockout then s
  else match s.participants with
  | [] => s
  | src :: _ =>
    let c := s.cp k
    let fresh : CopyState := { c with x := [], f := [], csr := [], mip := 0#64 }
    let m : Memories := { s.mem with l1Ecc := s.mem.l1Ecc.setCopy k [] }
    let r : Reseed := ⟨1, k, src, 0, [], [], s.time.lt, 0#64⟩
    let s1 := { s.setCp k fresh with mem := m }
    ({ s1 with red := { s1.red with reseed := some r, begun := (k, s1.time.lt) :: s1.red.begun } }.satReg 0x016
      (Reg.redundancy.reseedsTotal + 4 * copyIndex k) 1).bump 0x016 0 1

/-- A copy retired (R118): it stays held, COPY_RETIRED is latched, duckboard operation begins with the other two, and
the retirement record with the elapsed time is committed (R385). -/
def State.retireCopy (s : State) (k : Copy) : State :=
  let el := (s.reg 0x016 Reg.redundancy.duckboardElapsed).toNat
  ({ s with red := { s.red with retired := some k, odd := none, lastDuckCommit := el } }.raise 0x016 7 []).commitRetirement
    (some (k, el))

/-- A comparator's judgements that wait for nobody any more form their verdicts; `formVerdict` below uses it. -/
def Judgement.complete (j : Judgement) (parts : List Copy) : Bool :=
  parts.all fun k => (j.reports.copy k).isSome || j.timedOut.copy k

/-- Do two copies' reports of a judgement agree (R92)? A copy late or no longer a participant agrees with none. -/
def Judgement.agree (j : Judgement) (parts : List Copy) (k l : Copy) : Bool :=
  parts.contains k && parts.contains l &&
  match j.reports.copy k, j.reports.copy l with
  | some x, some y => reportsAgree x y
  | _, _ => false

/-- The verdict of a judgement over the participants (R92, R93). -/
def Judgement.verdict (j : Judgement) (parts : List Copy) : Verdict :=
  { num := j.num,
    instret := match j.reports.a, j.reports.b, j.reports.c with
      | some r, _, _ => r.instret
      | none, some r, _ => r.instret
      | none, none, some r => r.instret
      | none, none, none => 0#64,
    arrived := ⟨parts.contains .a && j.reports.a.isSome, parts.contains .b && j.reports.b.isSome,
      parts.contains .c && j.reports.c.isSome⟩,
    timedOut := ⟨parts.contains .a && j.timedOut.a, parts.contains .b && j.timedOut.b, parts.contains .c && j.timedOut.c⟩,
    agreeAB := j.agree parts .a .b, agreeAC := j.agree parts .a .c, agreeBC := j.agree parts .b .c,
    trigger := j.trigger }

def flags3 (t : Trio Bool) (lo : Nat) : Word := flag t.a lo ||| flag t.b (lo + 1) ||| flag t.c (lo + 2)

/-- VERDICT of pages 0x014 and 0x015. -/
def Verdict.word (v : Verdict) : Word :=
  flag v.agreeAB 0 ||| flag v.agreeAC 1 ||| flag v.agreeBC 2 ||| flags3 v.arrived 8 ||| flags3 v.timedOut 11
    ||| at' v.trigger.toNat 24

/-- Number of AGREE bits that are 1. -/
def Verdict.agreements (v : Verdict) : Nat := v.agreeAB.toNat + v.agreeAC.toNat + v.agreeBC.toNat
/-- The verdicts agree when ARRIVED, TIMED_OUT and the AGREE bits are identical (R103). -/
def Verdict.same (v w : Verdict) : Bool :=
  v.arrived == w.arrived && v.timedOut == w.timedOut && v.agreeAB == w.agreeAB && v.agreeAC == w.agreeAC
    && v.agreeBC == w.agreeBC

/-- A comparator forms its verdict (R92): VERDICT, VERDICT_CKPT and the measured latency, which the spec only bounds
(a free value), and the counters of R453. -/
def State.formVerdict (s : State) (cmp : Comparator) (j : Judgement) : State :=
  let v := j.verdict s.participants
  let p := cmpPage cmp
  let s0 := { s with clu := { s.clu with
    judging := s.clu.judging.filter fun q => !(q.1 == cmp && q.2.num == j.num),
    verdicts := s.clu.verdicts ++ [(cmp, v)] } }
  let d := s0.drawWord
  let s1 := ((d.2.setReg p Reg.cmp.verdict v.word).setReg64 p Reg.cmp.verdictCkptLo j.num).setReg p Reg.cmp.verdictLatency d.1
  let s2 := (s1.maxReg p Reg.cmp.verdictLatencyMax d.1.toNat).bump p 0 1
  let s3 := if v.agreements = 3 then s2.bump p 1 1 else s2
  let s4 := if v.agreements = 1 ∧ s.partCount = 3 then s3.bump p 2 1 else s3
  if v.agreements = 0 then s4.bump p 3 1 else s4

/-- The judgements that nobody keeps waiting any more form their verdicts (R93: a participant that leaves is not waited
for). -/
def State.settleJudgements (s : State) : State :=
  s.clu.judging.foldl (fun t q => if q.2.complete t.participants then t.formVerdict q.1 q.2 else t) s

/-- A copy named odd, with three participants (R106, R107, R117): by a verdict (SIG_ODD is latched) or by a cause of
R105 latched already. One report, from the copy's page, class 4, REACTION 3; at the reseed limit REACTION 0 and the
copy is retired. A second odd copy is lock-out. -/
def State.nameOdd (s : State) (k : Copy) (byVerdict : Bool) : State :=
  match s.red.odd with
  | some o => if o = k then s else s.lockoutCause 0x016 4 []
  | none =>
    let s1 := if byVerdict then s.latch (copyPage k) 4 else s
    let limit := s1.field 0x016 Reg.redundancy.reseedLimit 3 0
    let retire := decide (limit ≤ s1.reseedsHour k) && !s1.inLockout
    let s2 := { s1.holdCopy k with red := { (s1.holdCopy k).red with odd := some k } }
    let s3 := (s2.post .control (copyPage k) 4 (if retire then 0 else 3) []).recAdd (0x560 + 8 * copyIndex k) 1
    let s4 := if retire then s3.retireCopy k else s3.beginReseed k
    s4.settleJudgements

/-- A cause of R105 latched in a copy's page: with three participants the copy becomes odd, with two it is a
DUPLEX_MISMATCH whose report is the only one, in SIMPLEX_THREE it is recorded with REACTION 0 (R127). -/
def State.copyCause (s : State) (k : Copy) (bit : Nat) : State :=
  if s.simplex then s.raise (copyPage k) bit []
  else if s.partCount = 3 then (s.latch (copyPage k) bit).nameOdd k false
  else (s.latch (copyPage k) bit).lockoutCause 0x016 3 []

/-! ## The write voter -/

/-- The commit-class registers (R80): RESTART_CMD, SAFE_REQUEST, CLAIM_CTRL (R451), PROG_CMD and OUTPUT_PERMIT of the
programs (R207). -/
def isCommitClass (a : BitVec 40) : Bool :=
  let n := a.toNat
  n == 0x18003000 + Reg.reset.restartCmd || n == 0x18180000 + Reg.supervisor.safeRequest
    || n == 0x18181000 + Reg.causeway.claimCtrl
    || (0x18048000 ≤ n && n < 0x18050000 && (n % 0x1000 == Reg.program.progCmd || n % 0x1000 == Reg.program.outputPermit))

/-- Slots in use by phase: OPEN holds one presentation or two that differ; a slot whose write is decided and not yet
performed counts as OPEN, COMMITTED begins with the performance (R77). -/
def State.slotsOpen (s : State) : Nat := (s.clu.slots.filter fun t => t.phase != .committed).length
def State.slotsCommitted (s : State) : Nat := (s.clu.slots.filter fun t => t.phase == .committed).length

/-- VOTER_LEVEL: FREE, OPEN, COMMITTED (R98). -/
def State.voterLevel (s : State) : Word :=
  at' (64 - s.clu.slots.length) 0 ||| at' s.slotsOpen 8 ||| at' s.slotsCommitted 16

/-- A slot whose write has a majority (R78): ready to perform, or held for its commit tussock (R80). -/
def State.slotAgreed (s : State) (t : VoterSlot) (w : WriteReq) : State :=
  if isCommitClass w.addr ∧ !s.simplex then
    (s.setSlot { t with phase := .held, write := some w }).bump 0x010 3 1
  else s.setSlot { t with phase := .ready, write := some w }

/-- The voter judges presentation `w` of copy `k` in a slot in use (R78). -/
def State.voteIn (s : State) (k : Copy) (w : WriteReq) (t : VoterSlot) : State :=
  let t' := { t with pres := t.pres ++ [(k, w)] }
  match t.phase, t.pres with
  | .committed, _ =>
    if t.write = some w then s.dropSlot t.ord else (s.dropSlot t.ord).copyCause k 2
  | .ready, _ | .held, _ =>
    if t.write = some w then s.setSlot t' else (s.setSlot t').copyCause k 2
  | .opened, [p] =>
    if p.2 = w then s.slotAgreed t' w
    else if s.partCount = 2 then (s.dropSlot t.ord).noMajority
    else s.setSlot t'
  | .opened, [p, q] =>
    if p.2 = w then (s.slotAgreed t' w).copyCause q.1 2
    else if q.2 = w then (s.slotAgreed t' w).copyCause p.1 2
    else (s.dropSlot t.ord).noMajority
  | .opened, _ => s.setSlot t'

/-- PT_VOTE delays a presentation of the copy that it names (R462). -/
def State.voteDelayed (s : State) (k : Copy) : State := if ptNames (s.pt Reg.perturb.ptVote) k then s.ptApplied else s

/-- A copy presents its next voted write (R77 to R81): a late presentation is discarded (R79); without a slot of this
ordinal a FREE one opens, and with all 64 in use the copy stalls (R81). In SIMPLEX_THREE the first presentation is
enough (R127). -/
def State.present (s0 : State) (k : Copy) (w : WriteReq) : State :=
  let s := s0.voteDelayed k
  let ord := (s.cp k).writes + 1
  if s.clu.lateDiscard.contains (k, ord) then
    { s.setCp k { s.cp k with writes := ord } with
      clu := { (s.setCp k { s.cp k with writes := ord }).clu with
        lateDiscard := s.clu.lateDiscard.filter fun p => p != (k, ord) } }
  else match s.clu.slots.find? fun t => t.ord == ord with
  | none =>
    if s.clu.slots.length < 64 then
      let s1 := (s.setCp k { s.cp k with writes := ord, waitWrite := none }).bump (copyPage k) 10 1
      let t : VoterSlot := ⟨ord, [(k, w)], if s.simplex then .ready else .opened, if s.simplex then some w else none⟩
      { s1 with clu := { s1.clu with slots := s1.clu.slots ++ [t] } }.injectOther 3 (voterKey ord)
    else (s.setCp k { s.cp k with stall := 5, waitWrite := some w }).answer .wait
  | some t =>
    (((s.setCp k { s.cp k with writes := ord, waitWrite := none }).bump (copyPage k) 10 1).readOther (voterKey ord) 3).voteIn
      k w t

end Sys2Proof.Machine
end

