-- ==== Sys2Proof/Machine/Triplex.lean ====
section
/-!
DEFINITION. The meanings of chapter 03 that need no bus access: presentations to the voter, interrupt changes and
messages, retirement of instructions with signature, tussocks and sampling, the comparators, the scrubs.
-/
namespace Sys2Proof.Machine

open Host (Outcome)

/-- Every meaning's outcome type. -/
abbrev Result := Outcome State Fault Refusal

/-! ## Voted writes (R77 to R81) -/

/-- May copy `k` act now: a participant, not held, not halted, not stalled, not waiting at WFI? -/
def CopyState.runs (c : CopyState) : Bool :=
  c.participant && !c.held && !c.halted && c.stall == 0 && !c.inWfi

/-- VOTED_WRITE_PRESENT (R78). A misaligned store is not presented (R488); a store into the copy's own TCM is no voted
write (R66, R77). -/
def State.doVotedWritePresent (s : State) (k : Copy) (addr : BitVec 40) (size : Nat) (data : DWord) : State :=
  if !(s.cp k).runs then s.answer .wait
  else if misaligned addr.toNat size then s.answer .misaligned
  else if regionOf addr.toNat = .tcm then s.answer .none
  else (s.answer .none).present k ⟨.store, addr, size, data⟩

def execVotedWritePresent (k : Copy) (addr : BitVec 40) (size : Nat) (data : DWord) (s : State) : Result :=
  .next (s.doVotedWritePresent k addr size data)

/-- A result entry at the head of the copy's replay FIFO: the copy that waits for it takes it and goes on (R75). -/
def State.takeResult (s : State) (k : Copy) : State :=
  match (s.cp k).fifo with
  | e :: _ =>
    if e.kind = .result then
      let s1 := s.popEntry k
      let c := s1.cp k
      (s1.setCp k { c with waitResult := false, stall := if c.stall = 4 then 0 else c.stall }).answer
        (if e.refused then .accessFault else .value e.value)
    else s
  | [] => s

/-- An SC or AMO presented (R75): like a write, and the copy stalls until the result entry is available to it. One to
any other region is refused when it is performed, so that the refusal reaches every copy alike (R32). -/
def State.presentAtomic (s : State) (k : Copy) (w : WriteReq) : State :=
  if !(s.cp k).runs then s.answer .wait
  else if misaligned w.addr.toNat w.size then s.answer .misaligned
  else
    let s1 := (s.answer .wait).present k w
    if (s1.cp k).stall = 5 then s1
    else (s1.setCp k { s1.cp k with waitResult := true, stall := 4 }).takeResult k

/-- STORE_CONDITIONAL (R75). -/
def execStoreConditional (k : Copy) (addr : BitVec 40) (size : Nat) (data : DWord) (s : State) : Result :=
  .next (s.presentAtomic k ⟨.sc, addr, size, data⟩)

/-- AMO (R75). -/
def execAmo (k : Copy) (addr : BitVec 40) (size : Nat) (f5 : BitVec 5) (src : DWord) (s : State) : Result :=
  .next (s.presentAtomic k ⟨.amo f5, addr, size, src⟩)

/-- VOTE_LATE (R79): the third presentation of a performed write is missing; the slot goes FREE, the copy is late, and
its presentation will be discarded when it comes. While the participants are halted the timeout is held (R131). -/
def State.doVoteLate (s : State) (ord : DWord) : State :=
  match s.clu.slots.find? fun t => t.ord == ord && t.phase == .committed with
  | none => s
  | some t =>
    if s.participants.all fun k => (s.cp k).halted then s
    else
      let late := s.participants.filter fun k => !(t.pres.any fun p => p.1 == k)
      late.foldl (fun u k =>
        ({ u with clu := { u.clu with lateDiscard := u.clu.lateDiscard ++ [(k, ord)] } }.raise (copyPage k) 1 []).bump
          0x010 4 1) (s.dropSlot ord)

def execVoteLate (ord : DWord) (s : State) : Result := .next (s.doVoteLate ord)

/-- VOTER_STALL_RESUME (R81): a slot is FREE again, the stalled copy presents its write. -/
def State.doVoterStallResume (s : State) (k : Copy) : State :=
  match (s.cp k).waitWrite with
  | some w =>
    if (s.cp k).stall = 5 ∧ s.clu.slots.length < 64 then
      let s1 := (s.setCp k { s.cp k with stall := 0, waitWrite := none }).present k w
      match w.kind with
      | .store => s1
      | _ => (s1.setCp k { s1.cp k with waitResult := true, stall := 4 }).takeResult k
    else s
  | none => s

def execVoterStallResume (k : Copy) (s : State) : Result := .next (s.doVoterStallResume k)

/-- CKPT_REQUEST (R96): a store to CKPT_REQUEST is an ordinary voted write. -/
def execCkptRequest (k : Copy) (data : DWord) (s : State) : Result :=
  .next (s.doVotedWritePresent k (BitVec.ofNat 40 (0x18010000 + Reg.cluster.ckptRequest)) 4 data)

/-! ## Interrupts and messages (R83 to R86, R491) -/

/-- INTERRUPT_CHANGE (R83). -/
def execInterruptChange (lines : DWord) (s : State) : Result := .next (s.irqChange lines)

/-- MESSAGE_INTERRUPT (R491). -/
def execMessageInterrupt (vector : BitVec 16) (s : State) : Result := .next (s.message vector)

/-- What MSG_CLAIM returns: the oldest message with bit 31 set, or 0. -/
def State.msgWord (s : State) : Word :=
  match s.clu.messages with
  | v :: _ => setBit (v.zeroExtend 32) 31 true
  | [] => 0#32

/-- MSG_CLAIM (R491): a read by the safety copies removes the oldest message, a read by another master does not. -/
def State.doMsgClaim (s : State) (m : Master) : State :=
  let s1 := s.answer (.value (s.msgWord.zeroExtend 64))
  match m with
  | .cluster => { s1 with clu := { s1.clu with messages := s1.clu.messages.tail } }.meipFollows
  | _ => s1

def execMsgClaim (m : Master) (s : State) : Result := .next (s.doMsgClaim m)

/-- Does another participant's replay FIFO hold 512 entries (R74)? -/
def State.othersFull (s : State) (k : Copy) : Bool :=
  s.participants.any fun j => j != k && decide (512 ≤ (s.cp j).fifo.length)

/-- A copy's read that must wait (R74): its stall reason, and the read it will repeat. -/
def State.stallRead (s : State) (k : Copy) (reason : Nat) (q : ReadReq) : State :=
  (s.setCp k { s.cp k with stall := reason, waitRead := some q }).answer .wait

/-- WFI (R74, R76): a waiting entry is popped; else the copy waits, as the first one or for the entry of the first. In
SIMPLEX_THREE copy A waits the same way (R127). -/
def State.doWfi (s : State) (k : Copy) : State :=
  let c := s.cp k
  if !c.runs then s.answer .wait
  else match c.fifo with
  | e :: _ => (if e.kind = .wfi then s.popEntry k else (s.popEntry k).copyCause k 3).answer .none
  | [] =>
    if s.othersFull k then s.stallRead k 2 ⟨.wfi, 0#40, 0⟩
    else
      let later : Option ReadReq := if s.firstAtWfi.isSome then some ⟨.wfi, 0#40, 0⟩ else none
      ((s.setCp k { c with inWfi := true, waitRead := later, reads := c.reads + 1 }).bump (copyPage k) 9 1).answer .wait

def execWfi (k : Copy) (s : State) : Result := .next (s.doWfi k)

/-! ## Sampling (R457) -/

/-- floor(INTERVAL / 8) bounds the jitter j of an interval. -/
def sampleInterval (interval : Nat) (lfsr : Word) : Nat :=
  let f := interval / 8
  interval + lfsr.toNat % (2 * f + 1) - f

def samplerReset (_ : Nat) : Sampler := ⟨0#32, 0⟩
def State.sampler (s : State) (n : Nat) : Sampler := tblRead samplerReset s.obs.samplers n
def State.setSampler (s : State) (n : Nat) (v : Sampler) : State :=
  { s with obs := { s.obs with samplers := tblWrite samplerReset s.obs.samplers n v } }
def samplerReg (off n : Nat) : Nat := off + 0x20 * n

/-- The 32-byte record of a sample (R457). -/
def sampleRecord (r : Retirement) (lt instret : DWord) : List Byte :=
  leBytes 8 r.pc.toNat ++ leBytes 4 r.insn.toNat ++ leBytes 2 r.latency.toNat ++ leBytes 2 (r.flags.toNat % 128)
    ++ leBytes 8 lt.toNat ++ leBytes 8 instret.toNat

/-- One retired instruction as sampler `n` sees it: counted, or sampled into the ring, or dropped with the write
buffer full; then the next interval is drawn. -/
def State.sample (s : State) (n : Nat) (r : Retirement) (instret : DWord) : State :=
  let ctrl := s.reg 0x193 (samplerReg Reg.sampler.smpCtrl n)
  if !(bitOf ctrl 31) then s
  else
    let sm := s.sampler n
    if 1 < sm.left then s.setSampler n { sm with left := sm.left - 1 }
    else
      let next := Config.lfsrNext sm.lfsr
      let s1 := s.setSampler n ⟨next, sampleInterval (fieldOf ctrl 23 0) next⟩
      if r.bufferFull then (s1.satReg 0x193 (samplerReg Reg.sampler.smpDrops n) 1).bump 0x193 1 1
      else
        let idx := (s1.reg 0x193 (samplerReg Reg.sampler.smpSeq n)).toNat % 128
        let base := (s1.reg 0x193 (samplerReg Reg.sampler.smpBase n)).toNat
        ((s1.sramWrite (base + 32 * idx) (sampleRecord r s1.time.lt instret)).incReg 0x193
          (samplerReg Reg.sampler.smpSeq n) 1).bump 0x193 0 1

/-! ## Retirement (R89, R90, R95) -/

/-- Bytes in a copy's TCM (R29, R66): offset from the TCM's base. -/
def tcmOff (a : BitVec 40) : Option Nat :=
  if regionOf a.toNat = .tcm then some (a.toNat - 0x08000000) else none

/-- A store into a copy's own TCM: the ECC words it covers whole read correctly again, an armed injection corrupts
the word (R67, R463), and a reseed notes the page as dirty (R113). -/
def State.tcmStore (s : State) (k : Copy) (off : Nat) (bs : List Byte) : State :=
  let p := copyPage k
  let m :=
    { s.mem with
      tcm := s.mem.tcm.setCopy k (memStore (s.mem.tcm.copy k) off bs),
      tcmEcc := s.mem.tcmEcc.setCopy k (eccWrite (s.mem.tcmEcc.copy k) 8 off bs.length) }
  let s1 := { s with mem := m }
  let s2 := match s1.armedEcc p 0 with
    | some d =>
      { s1 with mem := { s1.mem with
          tcmEcc := s1.mem.tcmEcc.setCopy k (tblWrite noEcc (s1.mem.tcmEcc.copy k) (off / 8) d) } }.spendInject p
    | none => s1
  match s2.red.reseed with
  | some r =>
    if r.phase ≤ 3 ∧ !(r.dirty.contains (off / 4096)) then
      { s2 with red := { s2.red with reseed := some { r with dirty := r.dirty ++ [off / 4096] } } }
    else s2
  | none => s2

/-- The trigger bits that the instruction itself brings (R90): INTERVAL, EXPLICIT (a store to CKPT_REQUEST), COMMIT (a
store to a commit-class register). -/
def ownTriggers (instret : DWord) (log2 : Nat) (m : Option MemRec) : BitVec 6 :=
  let i : BitVec 6 := if instret.toNat % 2 ^ log2 = 0 then 1#6 else 0#6
  match m with
  | some (.store _ a _) =>
    i ||| (if a.toNat = 0x18010000 + Reg.cluster.ckptRequest then 2#6 else 0#6)
      ||| (if isCommitClass a then 4#6 else 0#6)
  | _ => i

/-- The architectural effect of a retirement on the copy (R89): CSR and register writes, pc, instret, signature. -/
def CopyState.retire (c : CopyState) (r : Retirement) : CopyState :=
  let csr := csrApply (csrApply c.csr r.entry) r.csrs
  let c1 := { c with csr := csr, pc := r.nextPc, instret := c.instret + 1, sig := crc64 c.sig (recordBytes c.csr r) }
  match r.reg with
  | some (.int n v) => if n.val = 0 then c1 else { c1 with x := tblWrite zeroDword c1.x n.val v }
  | some (.fp n v) => { c1 with f := tblWrite zeroDword c1.f n.val v }
  | none => c1

/-- Copies stalled at the lead limit go on once their lead lies below it (R95). -/
def State.easeLead (s : State) : State :=
  s.participants.foldl (fun t k =>
    if (t.cp k).stall = 1 ∧ t.lead k < t.leadLimit then t.setCp k { t.cp k with stall := 0 } else t) s

/-- The set of programmable counters of a retiring core (R454, R455): set 0 counts the lowest-lettered participant. -/
def State.pmcSet (s : State) : RetiringCore → Option Nat
  | .copy k => if s.participants.head? = some k then some 0
    else if (s.cp k).participant then none
    else (match k with | .a => none | .b => some 1 | .c => some 2)
  | .app n => some (3 + n.val)

/-- Copy `k` halts at its count by a trigger or ebreak of workshop access (R130); copy A's halt is reported. -/
def State.haltNow (s : State) (k : Copy) : State :=
  let s1 := s.setCp k { s.cp k with halted := true, stall := 7 }
  let s2 := if k = .a then
      (s1.setReg64 0x017 Reg.debugReplay.haltCountLo (s1.cp k).instret).bump 0x017 0 1
    else s1
  if s2.participants.all fun j => (s2.cp j).halted then { s2 with red := { s2.red with halting := false } } else s2

/-- INSTRUCTION_RETIRE of copy `k`. -/
def State.doRetireCopy (s : State) (k : Copy) (r : Retirement) : State :=
  let c := s.cp k
  if !c.participant then
    (if c.started then s.setCp k (c.retire r) else s.answer .wait)
  else if !c.runs then s.answer .wait
  else if s.leadLimit ≤ s.lead k then (s.setCp k { c with stall := 1 }).answer .wait
  else match r.bad with
  | some b =>
    let s1 := (s.setCp k { c with held := true }).answer .wait
    s1.copyCause k (match b with | .tcm => 5 | .l1 => 6)
  | none =>
    let s1 := ((s.setCp k (c.retire r)).answer .none).bump (copyPage k) 0 1
    let s2 := match r.mem with
      | some (.store sz a d) =>
        match tcmOff a with
        | some off => s1.tcmStore k off (leBytes (2 ^ sz.val) d.toNat)
        | none => if isCommitClass a then
            s1.setCp k { s1.cp k with commitOrd := ((s1.cp k).writes, (s1.cp k).ckptNum + 1) :: (s1.cp k).commitOrd.take 63 }
          else s1
      | _ => s1
    let s3 := if !r.entry.isEmpty ∨ r.mret then { s2 with clu := { s2.clu with reservation := none } } else s2
    let s4 := if r.entry.isEmpty then s3 else s3.bump (copyPage k) 13 1
    let s5 := if s4.simplex then s4
      else s4.arriveAt k (ownTriggers (s4.cp k).instret (s4.cp k).intervalLog2 r.mem)
    let s5' := if s4.simplex then s4.arriveAt k 0#6 else s5
    let s6 := s5'.maxReg 0x010 Reg.cluster.leadMax (s5'.lead k)
    let s7 := s6.easeLead
    let s8 := if k = .a then s7.sample 0 r (s7.cp k).instret else s7
    if r.halts ∧ s8.obs.wsOpen then s8.haltNow k else s8

/-- INSTRUCTION_RETIRE (R89, R90, R457): a copy retires and folds its records; an application core's retirement
reaches the sampler and the programmable counters only. -/
def State.doInstructionRetire (s : State) (core : RetiringCore) (r : Retirement) : State :=
  let s1 := match core with
    | .copy k => s.doRetireCopy k r
    | .app n => s.sample (1 + n.val) r 0#64
  match s.pmcSet core with
  | some set => r.events.foldl (fun t e => t.coreEvent set r.priv e.1.val e.2) s1
  | none => s1

def execInstructionRetire (core : RetiringCore) (r : Retirement) (s : State) : Result :=
  .next (s.doInstructionRetire core r)

/-! ## Comparators (R91 to R94) -/

/-- A report arrives in time at a comparator: into its judgement, which is formed at the last participant's report.
The first arrival at CMP_X restarts CKPT_GAP (R94); the last RESEED report at CMP_X begins the final stall (R114). -/
def State.arriveReport (s : State) (cmp : Comparator) (r : TussockReport) : State :=
  let mine : Comparator × Judgement → Bool := fun q => q.1 == cmp && q.2.num == r.num
  let s1 : State := match s.clu.judging.find? mine with
    | some _ => s
    | none =>
      let j : Judgement := ⟨r.num, r.trigger, Trio.all none, Trio.all false⟩
      { s with clu := { s.clu with
        judging := s.clu.judging ++ [(cmp, j)], gapRunning := s.clu.gapRunning || cmp == .x } }
  let put : Comparator × Judgement → Comparator × Judgement := fun q =>
    if mine q && !(q.2.timedOut.copy r.copy) then (q.1, { q.2 with reports := q.2.reports.setCopy r.copy (some r) }) else q
  let s2 := { s1 with clu := { s1.clu with judging := s1.clu.judging.map put } }
  let s3 : State := match cmp, s2.red.reseed with
    | .x, some q =>
      if r.trigger.getLsbD 5 ∧ q.phase = 3 ∧
          (s2.clu.judging.any fun j => mine j && j.2.complete s2.participants) then
        { s2 with red := { s2.red with reseed := some { q with phase := 4, ltStall := s2.time.lt } } }
      else s2
    | _, _ => s2
  s3.settleJudgements

/-- TUSSOCK_REPORT_ARRIVAL (R91, R92): the oldest report of copy `k` on its way to the comparator. CMP_Y asks for one
retransmission of a report whose LINK_CRC fails; one that still fails latches LINK_FAIL and the copy counts as not
arrived. A report of a copy no longer a participant is not judged, but keeps the first arrival's roles (R93). -/
def State.doTussockReportArrival (s : State) (cmp : Comparator) (k : Copy) (retries : Nat) (linkOk : Bool) : State :=
  let mine : FlyingReport → Bool := fun f => f.dest == cmp && f.report.copy == k && !f.delayed
  match s.clu.flying.find? mine with
  | none => s
  | some f =>
    let s1 := { s with clu := { s.clu with flying := s.clu.flying.erase f } }
    let s2 := if cmp = .y ∧ retries ≠ 0 then (s1.satReg 0x015 Reg.cmp.linkRetries retries).bump 0x015 5 retries else s1
    if cmp = .y ∧ !linkOk then s2.raise 0x015 0 []
    else if (s2.cp k).participant then s2.arriveReport cmp f.report
    else s2

def execTussockReportArrival (cmp : Comparator) (k : Copy) (retries : Nat) (linkOk : Bool) (s : State) : Result :=
  .next (s.doTussockReportArrival cmp k retries linkOk)

/-- CKPT_TIMEOUT (R93): the oldest tussock in judgement of the comparator is out of time; participants that have not
arrived are marked TIMED_OUT, CMP_X's judgement latches CKPT_LATE, and the verdict is formed. A participant late at
the RESEED tussock fails the reseed (R116). While all participants are halted the timeout is held (R131). -/
def State.doCkptTimeout (s : State) (cmp : Comparator) : State :=
  match s.clu.judging.find? fun q => q.1 == cmp with
  | none => s
  | some q =>
    if !s.participants.isEmpty ∧ (s.participants.all fun k => (s.cp k).halted) then s
    else
      let late : List Copy := s.participants.filter fun k => (q.2.reports.copy k).isNone
      let j : Judgement := { q.2 with timedOut := late.foldl (fun t k => t.setCopy k true) q.2.timedOut }
      let s1 : State := if cmp = .x then late.foldl (fun t k => t.raise (copyPage k) 0 []) s else s
      let s2 := { s1 with clu := { s1.clu with
        judging := s1.clu.judging.map fun r => if r = q then (cmp, j) else r } }
      let s3 : State := if j.trigger.getLsbD 5 ∧ !late.isEmpty ∧ s2.red.reseed.isSome then s2.lockoutCause 0x016 5 [] else s2
      s3.settleJudgements

def execCkptTimeout (cmp : Comparator) (s : State) : Result := .next (s.doCkptTimeout cmp)

/-- CKPT_GAP (R94): no first arrival within CKPT_GAP; the distributor sets a GAP target. Held while every participant
waits at WFI, and while they are halted (R131); not run in SIMPLEX_THREE, which takes no tussock (R127). -/
def State.doCkptGap (s : State) : State :=
  if s.simplex ∨ s.participants.isEmpty ∨ (s.participants.all fun k => (s.cp k).inWfi)
      ∨ (s.participants.all fun k => (s.cp k).halted) ∨ !s.clu.gapRunning then s
  else { s with clu := { s.clu with gapPending := true, gapRunning := false } }.setTarget .gap

def execCkptGap (s : State) : Result := .next s.doCkptGap

/-- CKPT_STALL (R94): CKPT_TIMEOUT after its setting no participant has reached the GAP target. -/
def State.doCkptStall (s : State) : State :=
  if s.clu.gapPending ∧ !(s.participants.all fun k => (s.cp k).halted) then
    { s with clu := { s.clu with gapPending := false } }.raise 0x010 1 []
  else s

def execCkptStall (s : State) : Result := .next s.doCkptStall

/-- FORCED_TUSSOCK_REQUEST (R96): a FORCED target, whose agreement verdict answers the requester. In SIMPLEX_THREE no
tussock is taken (R127), and the request is answered at once. -/
def State.forceTussock (s : State) (who : ForcedBy) : State :=
  if s.simplex then
    { s with clu := { s.clu with forcedBy := (s.clu.forcedBy.filter fun q : ForcedBy × DWord × Option Bool => q.1 != who) ++ [(who, 0#64, some true)] } }
  else
    let n := s.targetCount
    { s with clu := { s.clu with
      forcedBy := (s.clu.forcedBy.filter fun q : ForcedBy × DWord × Option Bool => q.1 != who) ++ [(who, n, none)] } }.setTarget .forced

def execForcedTussockRequest (who : ForcedBy) (s : State) : Result := .next (s.forceTussock who)

/-- CKPT_INTERVAL_WRITE (R100): the register changes at once; the participants use the new interval from a target
count on. A value outside 10 to 20, a write after LOCK and a write by another plane change nothing (R9, R19). -/
def State.doCkptIntervalWrite (s : State) (m : Master) (v : Word) : State :=
  if !(s.mayWritePage m 0x010 Reg.cluster.ckptInterval) then
    s.violation m (0x18010000 + Reg.cluster.ckptInterval)
  else if s.locked 0x010 ∨ fieldOf v 4 0 < 10 ∨ 20 < fieldOf v 4 0 then s.answer .none
  else
    ((s.setReg 0x010 Reg.cluster.ckptInterval (at' (fieldOf v 4 0) 0)).setTarget (.interval (fieldOf v 4 0))).answer .none

def execCkptIntervalWrite (m : Master) (v : Word) (s : State) : Result := .next (s.doCkptIntervalWrite m v)

/-! ## Scrubs and the configuration echo -/

/-- An upset put into an ECC map: a second hit on a bad word leaves it uncorrectable. -/
def eccUpset (m : EccMap) (u : Option Upset) : EccMap :=
  match u with
  | none => m
  | some u => tblWrite noEcc m u.word (if u.double ∨ tblRead noEcc m u.word ≠ 0 then 2 else 1)

/-- Correctable words of an ECC map, and the map after a scrub has corrected them. -/
def eccSingles (m : EccMap) : Nat := (m.filter fun e => e.2 == 1).length
def eccScrubbed (m : EccMap) : EccMap := m.filter fun e => e.2 != 1
/-- Has a map an uncorrectable word? -/
def eccAnyBad (m : EccMap) : Bool := m.any fun e => e.2 == 2

/-- TCM_SCRUB (R67): single-bit errors are corrected and counted; an uncorrectable word latches TCM_UNCORRECTABLE. -/
def State.doTcmScrub (s : State) (k : Copy) (u : Option Upset) : State :=
  let m := eccUpset (s.mem.tcmEcc.copy k) u
  let n := eccSingles m
  let s1 := { s with mem := { s.mem with tcmEcc := s.mem.tcmEcc.setCopy k (eccScrubbed m) } }
  let s2 := if n = 0 then s1 else (s1.satReg (copyPage k) Reg.copy.eccCorrTcm n).bump (copyPage k) 11 n
  if eccAnyBad m ∧ !(s2.hasCause (copyPage k) 5) ∧ (s2.cp k).participant then s2.copyCause k 5 else s2

def execTcmScrub (k : Copy) (u : Option Upset) (s : State) : Result := .next (s.doTcmScrub k u)

/-- SHARED_SCRUB (R68): single-bit errors are corrected; an uncorrectable word stays so (R490). -/
def State.doSharedScrub (s : State) (u : Option Upset) : State :=
  { s with mem := { s.mem with sramEcc := eccScrubbed (eccUpset s.mem.sramEcc u) } }

def execSharedScrub (u : Option Upset) (s : State) : Result := .next (s.doSharedScrub u)

/-- The four values that LOCK of page 0x010 sends to the supervisor (R102), as page 0x015 shows them. -/
def State.setEcho (s : State) (i t g v : Word) : State :=
  (((s.setReg 0x015 Reg.cmp.echoInterval i).setReg 0x015 Reg.cmp.echoTimeout t).setReg 0x015 Reg.cmp.echoGap g).setReg
    0x015 Reg.cmp.echoVoteTimeout v

/-- CONFIG_ECHO_MISMATCH (R102): after LOCK the echoed values arrive; one that differs from page 0x010 latches
CONFIG_ECHO_MISMATCH, a comparator-class cause. Before LOCK nothing is echoed. -/
def State.doConfigEchoMismatch (s : State) (i t g v : Word) : State :=
  if !s.locked 0x010 then s
  else
    let s1 := s.setEcho i t g v
    if i = s.reg 0x010 Reg.cluster.ckptInterval ∧ t = s.reg 0x010 Reg.cluster.ckptTimeout
        ∧ g = s.reg 0x010 Reg.cluster.ckptGap ∧ v = s.reg 0x010 Reg.cluster.voteTimeout then s1
    else s1.lockoutCause 0x015 1 []

def execConfigEchoMismatch (i t g v : Word) (s : State) : Result := .next (s.doConfigEchoMismatch i t g v)

end Sys2Proof.Machine
end

