-- ==== Sys2Proof/Machine/Divergence.lean ====
section
/-!
DEFINITION. The meanings of chapter 04 that need no bus access: verdict pairs (R103, R104), the reseed (R112 to R116),
retirement and duckboard operation (R118 to R121), the comparator self-test (R110), independent cores (R128), the
debug replay (R129 to R131), RESEED_REPORT (R133).
-/
namespace Sys2Proof.Machine

/-! ## Verdict pairs -/

/-- The verdict that a comparator holds for tussock `k`. -/
def State.verdictOf (s : State) (cmp : Comparator) (k : DWord) : Option Verdict :=
  (s.clu.verdicts.find? fun q => q.1 == cmp && q.2.num == k).map (·.2)

/-- The two verdicts of a pair taken: the pair is remembered with the verdict both gave, the newest 32 pairs kept, and
event counter 5 of page 0x016 counts it. -/
def State.takePair (s : State) (k : DWord) (agreed : Option Verdict) : State :=
  let keep : Comparator × Verdict → Bool := fun q => q.2.num != k
  ({ s with clu := { s.clu with
    verdicts := s.clu.verdicts.filter keep, judged := ((k, agreed) :: s.clu.judged).take 32 } }).bump 0x016 5 1

/-- Those who wait for a FORCED tussock at count `n` get their answer (R96). -/
def State.answerForced (s : State) (n : DWord) (ok : Bool) : State :=
  let put : ForcedBy × DWord × Option Bool → ForcedBy × DWord × Option Bool :=
    fun q => if q.2.1 = n ∧ q.2.2 = none then (q.1, q.2.1, some ok) else q
  { s with clu := { s.clu with forcedBy := s.clu.forcedBy.map put } }

/-- The AGREE bit of two copies. -/
def Verdict.pairBit (v : Verdict) (k l : Copy) : Bool :=
  match k, l with
  | .a, .b | .b, .a => v.agreeAB
  | .a, .c | .c, .a => v.agreeAC
  | .b, .c | .c, .b => v.agreeBC
  | _, _ => true

/-- The copy outside the one agreeing pair. -/
def Verdict.outsider (v : Verdict) : Copy := if v.agreeAB then .c else if v.agreeAC then .b else .a

/-- The outcome of a pair whose verdicts agree (R104): the state after it, and whether it is "Continue" or names one
copy odd, which lets a waiting output commit go (R178). -/
def State.pairOutcome (s : State) (v : Verdict) : State × Bool :=
  match s.participants with
  | [_, _, _] =>
    if v.agreements = 3 then (s, true)
    else if v.agreements = 2 then (s.lockoutCause 0x016 0 [], false)
    else if v.agreements = 1 then
      (if s.red.odd.isNone then (s.nameOdd v.outsider true, true) else (s.nameOdd v.outsider true, false))
    else (s.lockoutCause 0x016 2 [], false)
  | [k, l] => if v.pairBit k l then (s, true) else (s.lockoutCause 0x016 3 [], false)
  | _ => (s, false)

/-- VERDICT_PAIR (R103, R104): both comparators hold a verdict for tussock `k`; the pair is compared and its outcome
taken. In SIMPLEX_THREE no verdict is formed (R127). -/
def State.doVerdictPair (s : State) (k : DWord) : State :=
  match s.verdictOf .x k, s.verdictOf .y k with
  | some v, some w =>
    if v.same w then
      let o := (s.takePair k (some v)).pairOutcome v
      o.1.answerForced v.instret o.2
    else ((s.takePair k none).lockoutCause 0x016 0 []).answerForced v.instret false
  | _, _ => s

def execVerdictPair (k : DWord) (s : State) : Result := .next (s.doVerdictPair k)

/-- VERDICT_MISSING (R103): a verdict has waited 2 µs for the other comparator's. -/
def State.doVerdictMissing (s : State) (k : DWord) : State :=
  match s.verdictOf .x k, s.verdictOf .y k with
  | some v, none | none, some v =>
    ((s.takePair k none).lockoutCause 0x016 1 []).answerForced v.instret false
  | _, _ => s

def execVerdictMissing (k : DWord) (s : State) : Result := .next (s.doVerdictMissing k)

/-! ## Reseeding -/

/-- RESEED_RESET_DONE (R113): pass 1 begins, over all 512 pages. -/
def State.doReseedResetDone (s : State) : State :=
  match s.red.reseed with
  | some r =>
    if r.phase = 1 then
      { s with red := { s.red with reseed := some { r with phase := 2, pass := 1, toCopy := List.range 512, dirty := [] } } }
    else s
  | none => s

def execReseedResetDone (s : State) : Result := .next s.doReseedResetDone

/-- The 4 KiB pages of a TCM copied from one copy's to another's, corrected (R113). -/
def State.copyTcm (s : State) (src dst : Copy) (pages : List Nat) : State :=
  let inPages : Nat → Bool := fun a => pages.contains (a / 4096)
  let kept := tblDrop inPages (s.mem.tcm.copy dst)
  let moved := ((s.mem.tcm.copy src).filter fun e => inPages e.1).foldl (fun t e => tblPut t e.1 e.2) kept
  let ecc := tblDrop (fun w => pages.contains (w / 512)) (s.mem.tcmEcc.copy dst)
  { s with mem := { s.mem with tcm := s.mem.tcm.setCopy dst moved, tcmEcc := s.mem.tcmEcc.setCopy dst ecc } }

/-- Does a set of pages of a copy's TCM hold an uncorrectable word? -/
def State.tcmBad (s : State) (src : Copy) (pages : List Nat) : Bool :=
  (s.mem.tcmEcc.copy src).any fun e => e.2 == 2 && pages.contains (e.1 / 512)

/-- The reseed fails (R116): RESEED_FAILED and lock-out. -/
def State.reseedFails (s : State) : State := s.lockoutCause 0x016 5 []

/-- RESEED_PASS_END (R113, R114): the pages of the pass are in the target. With 8 or fewer pages dirty, or after pass
8, the RESEED target is set; else the next pass takes the dirty pages. An uncorrectable source word fails the reseed. -/
def State.doReseedPassEnd (s : State) : State :=
  match s.red.reseed with
  | some r =>
    if r.phase ≠ 2 then s
    else if s.tcmBad r.source r.toCopy then s.reseedFails
    else
      let s1 := (s.copyTcm r.source r.target r.toCopy).bump 0x016 2 r.toCopy.length
      if r.dirty.length ≤ 8 ∨ r.pass = 8 then
        { s1 with red := { s1.red with reseed := some { r with phase := 3, toCopy := [] } } }.setTarget .reseed
      else
        { s1 with red := { s1.red with
          reseed := some { r with pass := r.pass + 1, toCopy := r.dirty, dirty := [] } } }
  | none => s

def execReseedPassEnd (s : State) : Result := .next s.doReseedPassEnd

/-- Ticks of LT (4 ns) since `t`. -/
def State.ticksSince (s : State) (t : DWord) : Nat := (s.time.lt - t).toNat

/-- Do the conditions of step 1 of R114 hold: the pair for the RESEED tussock agreed, no slot OPEN, nothing held? -/
def State.reseedReady (s : State) (r : Reseed) : Bool :=
  r.phase == 4
    && (s.clu.judged.any fun q => q.1 == (s.cp r.source).ckptNum && (match q.2 with
        | some v => v.trigger.getLsbD 5 && (match s.participants with | [k, l] => v.pairBit k l | _ => false)
        | none => false))
    && s.clu.slots.all (fun t => t.phase == .committed)

/-- A copy that rejoins with the source's architectural state (R114 items 3 to 5). -/
def CopyState.rejoin (t src : CopyState) (performed : DWord) : CopyState :=
  { t with
    x := src.x, f := src.f, csr := src.csr, pc := src.pc, instret := src.instret, sig := src.sig,
    ckptNum := src.ckptNum, mip := src.mip, intervalLog2 := src.intervalLog2, inWfi := src.inWfi,
    participant := true, held := false, halted := false, stall := 0, reads := 0#64, writes := 0#64,
    consumed := performed, fifo := [], waitRead := none, waitWrite := none, waitResult := false, commitOrd := [] }

/-- Ordinals restart for a participant that goes on (R114 items 4 and 6). -/
def CopyState.restartOrdinals (c : CopyState) : CopyState :=
  { c with reads := 0#64, writes := 0#64, commitOrd := [], stall := if c.stall = 8 then 0 else c.stall }

/-- RESEED_RELEASE (R114 items 2 to 6). A release 5 ms or more after hold, or an uncorrectable word among the dirty
pages, is a failure (R116). -/
def State.doReseedRelease (s : State) : State :=
  match s.red.reseed with
  | none => s
  | some r =>
    if !(s.reseedReady r) then s
    else if 1250000 ≤ s.ticksSince r.ltHold ∨ s.tcmBad r.source r.dirty then s.reseedFails
    else
      let stallTicks := s.ticksSince r.ltStall
      let total := s.ticksSince r.ltHold
      let w := at' (copyIndex r.target) 0 ||| at' (copyIndex r.source) 2 ||| at' r.pass 4 ||| at' r.dirty.length 8
      let e : ReseedEntry := ⟨r.ltHold, w, min (total * 4 / 1000) 0xffff, min (stallTicks * 4 / 10) 0xffff⟩
      let s1 := s.copyTcm r.source r.target r.dirty
      let s2 := s1.setCp r.target ((s1.cp r.target).rejoin (s1.cp r.source) s1.clu.performed)
      let s3 := (allCopies.filter fun k => k != r.target && (s2.cp k).participant).foldl
        (fun t k => t.setCp k (t.cp k).restartOrdinals) s2
      let s4 : State :=
        { s3 with
          clu := { s3.clu with slots := [], lateDiscard := [], gapRunning := true },
          red := { s3.red with reseed := none, odd := none, history := e :: s3.red.history } }
      let s5 := s4.setReg (copyPage r.target) 0x010 (s4.causes (copyPage r.target) &&& ~~~(maskOf 6 0))
      let s6 := ((s5.setReg 0x016 Reg.redundancy.lastReseed w).setReg 0x016 Reg.redundancy.lastReseedTime
        (BitVec.ofNat 32 (total * 4))).setReg 0x016 Reg.redundancy.lastFinalStall (BitVec.ofNat 32 (stallTicks * 4))
      let s7 := ((s6.maxReg 0x016 Reg.redundancy.maxFinalStall (stallTicks * 4)).bump 0x016 1 1).bump 0x016 3
        (stallTicks * 16 / 5)
      if s7.red.deferred then
        { s7 with red := { s7.red with deferred := false, halting := true } }.setTarget .halt
      else s7

def execReseedRelease (s : State) : Result := .next s.doReseedRelease

/-- RESEED_FAILED (R116): the reseed in progress has met one of the three failures. -/
def State.doReseedFailed (s : State) (_why : ReseedFailure) : State :=
  if s.red.reseed.isSome then s.reseedFails else s

def execReseedFailed (why : ReseedFailure) (s : State) : Result := .next (s.doReseedFailed why)

/-! ## Retirement and duckboard operation -/

/-- RETIREMENT_RECORD_COMMIT (R118, R385): 60 s more of duckboard operation have elapsed; the record is committed with
the elapsed time. -/
def State.doRetirementRecordCommit (s : State) : State :=
  match s.red.retired with
  | none => s
  | some k =>
    let el := (s.reg 0x016 Reg.redundancy.duckboardElapsed).toNat
    { s with red := { s.red with lastDuckCommit := el } }.commitRetirement (some (k, el))

def execRetirementRecordCommit (s : State) : Result := .next s.doRetirementRecordCommit

/-- Is standstill reported (R218)? -/
def State.standstill (s : State) : Bool := s.time.standstill

/-- The duckboard limit in seconds (R120). -/
def State.duckLimit (s : State) : Nat := s.field 0x016 Reg.redundancy.duckboardLimit 13 0 * 60

/-- The module acts on an expired duckboard limit: class 9, REACTION 5 (R120, R428). -/
def State.duckboardActs (s : State) : State :=
  ({ s with red := { s.red with duckGrace := false } }.post .control 0x016 9 5 []).markLockout.abandonReseed

/-- DUCKBOARD_EXPIRED (R120): DUCKBOARD_ELAPSED has reached the limit. The cause is latched with REACTION 4; at
standstill the module acts at once, else the grace begins. -/
def State.doDuckboardExpired (s : State) : State :=
  if s.red.retired.isNone ∨ s.hasCause 0x016 8 then s
  else
    let s1 := (s.setReg 0x016 Reg.redundancy.duckboardElapsed (BitVec.ofNat 32 s.duckLimit)).raise 0x016 8 []
    if s1.standstill then s1.duckboardActs
    else { s1 with red := { s1.red with duckGrace := true } }

def execDuckboardExpired (s : State) : Result := .next s.doDuckboardExpired

/-- DUCKBOARD_GRACE_END (R120): 900 s have passed without standstill. -/
def State.doDuckboardGraceEnd (s : State) : State :=
  if s.red.duckGrace then (s.setReg 0x016 Reg.redundancy.duckboardGrace 900#32).duckboardActs else s

def execDuckboardGraceEnd (s : State) : Result := .next s.doDuckboardGraceEnd

/-! ## The comparator self-test -/

/-- The SELFTEST bits [13:8] of a comparator's page latched from a run's result. -/
def State.latchSelftest (s : State) (cmp : Comparator) (bits : BitVec 6) : State :=
  s.setReg (cmpPage cmp) 0x010 (s.causes (cmpPage cmp) ||| (bits.zeroExtend 32 <<< 8))

/-- COMPARATOR_SELFTEST (R110, R111): the run of a 10 ms mark, with the SELFTEST bits that it left in either page. Any
bit latches SELFTEST_FAIL, a comparator-class cause; a run that is OVERDUE is not counted. -/
def State.doComparatorSelftest (s : State) (x y : BitVec 6) : State :=
  let s1 := (s.latchSelftest .x x).latchSelftest .y y
  let s2 := if x.getLsbD 5 ∨ y.getLsbD 5 then s1
    else { (((s1.satReg 0x016 Reg.redundancy.selftestRuns 1).bump 0x014 4 1).bump 0x015 4 1) with
      red := { s1.red with selftestRun := s1.red.selftestRun + 1 } }
  if x = 0#6 ∧ y = 0#6 then s2 else s2.lockoutCause 0x016 10 []

def execComparatorSelftest (x y : BitVec 6) (s : State) : Result := .next (s.doComparatorSelftest x y)

/-- The copy whose report differs in step S2 of run `r`, and the bit (R110). -/
def selftestCopy (r : Nat) : Copy := if r % 3 = 0 then .a else if r % 3 = 1 then .b else .c
def selftestBit (r : Nat) : Nat := (r / 3) % 264

/-! ## Independent cores -/

/-- A held independent core starts at CORE_ENTRY (R128), once. -/
def State.startCore (s : State) (k : Copy) : State :=
  let c := s.cp k
  if c.started ∨ c.participant then s
  else
    let entry := dword (s.reg 0x016 Reg.redundancy.coreEntryHi) (s.reg 0x016 Reg.redundancy.coreEntryLo)
    s.setCp k { c with started := true, held := false, stall := 0, pc := entry }

/-- CORE_START (R128): bit 0 starts B in SIMPLEX_THREE, bit 1 starts C in DUPLEX_PLUS_ONE or SIMPLEX_THREE. -/
def State.doCoreStart (s : State) (m : Master) (v : Word) : State :=
  if !(s.mayWritePage m 0x016 Reg.redundancy.coreStart) then s.violation m (0x18016000 + Reg.redundancy.coreStart)
  else
    let s1 := if bitOf v 0 ∧ s.clu.mode = .simplexThree then s.startCore .b else s
    let s2 := if bitOf v 1 ∧ s.clu.mode ≠ .triplex then s1.startCore .c else s1
    s2.answer .none

def execCoreStart (m : Master) (v : Word) (s : State) : Result := .next (s.doCoreStart m v)

/-! ## Debug replay -/

/-- DEBUG_HALT_REQUEST (R129): a halt target for every participant, deferred during a reseed. While workshop access is
closed a DMI write is ignored, and hart 0 is unavailable while copy A is no participant (R459). -/
def State.doDebugHaltRequest (s : State) : State :=
  if !s.obs.wsOpen ∨ !(s.cp .a).participant then s
  else if s.red.reseed.isSome then { s with red := { s.red with deferred := true } }
  else { s with red := { s.red with halting := true } }.setTarget .halt

def execDebugHaltRequest (s : State) : Result := .next s.doDebugHaltRequest

/-- Are the participants halted? -/
def State.allHalted (s : State) : Bool := !s.participants.isEmpty && s.participants.all fun k => (s.cp k).halted

/-- A debugger action on hart 0 (R130): ignored while workshop access is closed (R459), refused with ACTION_REFUSED
while the participants are not halted, else performed and counted. -/
def State.debugAction (s : State) (act : State → State) : State :=
  if !s.obs.wsOpen then s.answer (.value 0#64)
  else if !s.allHalted then ((s.raise 0x017 0 []).bump 0x017 2 1).answer .busError
  else
    let s1 := (act (s.answer .none))
    if 1 < s.partCount ∧ s1.reply ≠ .wait then (s1.satReg 0x017 Reg.debugReplay.dbgActions 1).bump 0x017 1 1 else s1

/-- A register of a copy written by the debugger; x0 keeps 0. -/
def CopyState.debugSet (c : CopyState) (r : DebugReg) (v : DWord) : CopyState :=
  match r with
  | .x n => if n.val = 0 then c else { c with x := tblWrite zeroDword c.x n.val v }
  | .f n => { c with f := tblWrite zeroDword c.f n.val v }
  | .csr n => { c with csr := tblWrite zeroDword c.csr n.toNat v }
  | .dpc => { c with pc := v }

/-- DEBUG_REGISTER_WRITE (R130): the same write in every participant, with no signature record. -/
def State.doDebugRegisterWrite (s : State) (r : DebugReg) (v : DWord) : State :=
  s.debugAction fun t => t.participants.foldl (fun u k => u.setCp k ((u.cp k).debugSet r v)) t

def execDebugRegisterWrite (r : DebugReg) (v : DWord) (s : State) : Result := .next (s.doDebugRegisterWrite r v)

/-- DEBUG_TCM_WRITE (R130): the same write in every participant's TCM. An address outside TCM is refused (R32). -/
def State.doDebugTcmWrite (s : State) (addr : BitVec 40) (size : Nat) (data : DWord) : State :=
  match tcmOff addr with
  | some off =>
    s.debugAction fun t => t.participants.foldl (fun u k => u.tcmStore k off (leBytes size data.toNat)) t
  | none => if s.obs.wsOpen then s.violation (.debug 0) addr.toNat else s.answer (.value 0#64)

def execDebugTcmWrite (addr : BitVec 40) (size : Nat) (data : DWord) (s : State) : Result :=
  .next (s.doDebugTcmWrite addr size data)

/-- All participants run again. -/
def State.unhalt (s : State) : State :=
  s.participants.foldl (fun t k => t.setCp k { t.cp k with halted := false, stall := if (t.cp k).stall = 7 then 0 else (t.cp k).stall }) s

/-- DEBUG_STEP (R130): a halt target at HALT_COUNT + 1; every participant retires one instruction and halts. -/
def State.doDebugStep (s : State) : State :=
  s.debugAction fun t =>
    let n := t.reg64 0x017 Reg.debugReplay.haltCountLo + 1
    let tgt : Target := ⟨n, .halt, Trio.all false⟩
    let t1 := { t with clu := { t.clu with
      targets := t.clu.targets ++ [tgt], lastTarget := if t.clu.lastTarget < n then n else t.clu.lastTarget } }
    (t1.setReg64 0x010 Reg.cluster.lastTargetLo t1.clu.lastTarget).unhalt

def execDebugStep (s : State) : Result := .next s.doDebugStep

/-- DEBUG_RESUME (R130): all participants resume. -/
def execDebugResume (s : State) : Result := .next (s.debugAction State.unhalt)

/-! ## RESEED_REPORT -/

/-- Entry `i` of the report (R133): LT_HOLD, WORD, TOTAL_US and FINAL_10NS. -/
def State.reportEntry (s : State) (i : Nat) (e : ReseedEntry) : State :=
  let o := Reg.redundancy.report + 16 * i
  ((s.setReg64 0x016 o e.ltHold).setReg 0x016 (o + 8) e.word).setReg 0x016 (o + 12)
    (at' e.totalUs 0 ||| at' e.final10ns 16)

/-- RESEED_REPORT (R133): the newest n reseeds into REPORT_0 onward, newest first; n outside 1 to 64 ends FAILED with
0x2. The operation acts while it is QUEUED or RUNNING. -/
def State.doReseedReport (s : State) : State :=
  if !(s.opActive 0x016 1) then s
  else
    let n := fieldOf (s.op 0x016).arg0 6 0
    if n = 0 ∨ 64 < n then s.opFail 0x016 2#32
    else
      let es := s.red.history.take n
      let s1 := (es.foldl (fun (t : State × Nat) e => (t.1.reportEntry t.2 e, t.2 + 1)) (s, 0)).1
      (s1.setOp 0x016 ((s1.op 0x016).advance es.length es.length)).opDone 0x016

def execReseedReport (s : State) : Result := .next s.doReseedReport

end Sys2Proof.Machine
end

