-- ==== Sys2Proof/Machine/Timebase.lean ====
section
/-!
DEFINITION. The timebase (chapter 07): the time domains, standstill, the schedule slots, SYNC; and the meanings of its
commands whose consumers lie in the safety cluster. The actions of other consumers are taken in their own files.
-/
namespace Sys2Proof.Machine

def State.setTime (s : State) (t : TimeState) : State := { s with time := t }

/-! ## Values of the domains (R208, R211) -/

/-- NT as it reads: 0 until NT has first become valid (R211). -/
def State.ntRead (s : State) : DWord := if s.time.ntEver then s.time.nt else 0#64
/-- NT_SOURCE as it reads (R211). -/
def State.ntSource (s : State) : Nat := if s.time.ntEver then s.time.ntSource else 0

def axleReset (_ : Nat) : Axle := ⟨0, 0, 0, 0#64, 0, false⟩
def State.axle (s : State) (n : Nat) : Axle := tblRead axleReset s.time.axles n
def State.setAxle (s : State) (n : Nat) (a : Axle) : State :=
  s.setTime { s.time with axles := tblWrite axleReset s.time.axles n a }

/-- Is an axle enabled (AX_ENABLE)? -/
def State.axleOn (s : State) (n : Nat) : Bool := bitOf (s.reg 0x142 Reg.axles.axConfig) n
/-- AX_n in units of 1/65,536 revolution; 0 while the axle is not enabled (R215). -/
def State.axValue (s : State) (n : Nat) : Int := if s.axleOn n then (s.axle n).ax / 65536 else 0
/-- DIST in mm. -/
def State.distValue (s : State) : Int := s.time.dist / 4294967296

/-- The value of a domain (R219) as slots compare it: AX and DIST are signed. -/
def State.domainValue (s : State) (d : Nat) : Int :=
  if d = 0 then s.time.lt.toNat
  else if d = 1 then s.time.nt.toNat
  else if d = 2 then s.time.mp.toNat
  else if d < 7 then s.axValue (d - 3)
  else s.distValue

/-! ## Slots (R219 to R224) -/

def slotReset (_ : Nat) : Slot := ⟨false, 0, 0, 0#32, 0, 0, 0, false⟩
def State.slot (s : State) (n : Nat) : Slot := tblRead slotReset s.time.slots n
def State.setSlotState (s : State) (n : Nat) (v : Slot) : State :=
  s.setTime { s.time with slots := tblWrite slotReset s.time.slots n v }
def slotPage (n : Nat) : Nat := 0x143 + n / 16
/-- Offset of a register of slot `n`. -/
def slotReg (off n : Nat) : Nat := off + 0x20 * (n % 16)

/-- The smallest instant k · PERIOD + PHASE strictly greater than `v` (R221). -/
def nextInstant (period : Nat) (phase v : Int) : Int := phase + ((v - phase) / (period : Int) + 1) * (period : Int)

/-- A slot armed against its domain's value (R221): a periodic slot for the next instant; a one-shot for PHASE, late
when PHASE lies at or below the value. -/
def State.armSlot (s : State) (n : Nat) : State :=
  let t := s.slot n
  let v := s.domainValue t.domain
  if t.period = 0 then
    let s1 := s.setSlotState n { t with next := t.phase, armed := true }
    if t.phase ≤ v then s1.raise (slotPage n) 0 [] else s1
  else s.setSlotState n { t with next := nextInstant t.period t.phase v, armed := true }

/-- The least PERIOD of a domain (R219). -/
def minPeriod (d : Nat) : Nat :=
  if d = 0 then 2500 else if d = 1 then 10000 else if d = 2 then 4194304 else if d < 7 then 64 else 1

/-- Is an ARG within the range of its action (R225)? -/
def argOk (action : Nat) (arg : Word) : Bool :=
  if action = 0 ∨ action = 4 ∨ action = 8 then arg == 0#32
  else if action = 1 ∨ action = 3 then arg.toNat < 8
  else if action = 2 ∨ action = 7 then true
  else if action = 5 then arg.toNat < 64
  else if action = 6 then fieldOf arg 2 0 ≤ 4 && fieldOf arg 7 3 == 0 && fieldOf arg 31 24 == 0
  else false

/-- Do the settings that a SLOT_CTRL write would apply satisfy R219 and R225? -/
def slotOk (domain action : Nat) (arg : Word) (period : Nat) (phase : DWord) : Bool :=
  domain < 8 && argOk action arg
    && (period == 0 || (minPeriod domain ≤ period && period ≤ 2 ^ 63 && phase.toNat < period))

/-- SLOT_CTRL_WRITE (R220, R221): the write applies SLOT_CTRL and the three shadows, and arms an enabled slot. A
setting that breaks R219 or R225, or a pinned slot after LOCK, refuses it with SLOT_REFUSED. -/
def State.applySlot (s : State) (n : Nat) (v : Word) : State :=
  let p := slotPage n
  let domain := fieldOf v 27 24
  let action := fieldOf v 19 16
  let arg := s.reg p (slotReg Reg.sched.slotArg n)
  let period := (s.reg64 p (slotReg Reg.sched.periodLo n)).toNat
  let phase := s.reg64 p (slotReg Reg.sched.phaseLo n)
  if !(slotOk domain action arg period phase) ∨ (bitOf (s.reg p Reg.sched.slotPin) (n % 16) ∧ s.locked p) then
    s.raise p 2 []
  else
    let ph : Int := if period = 0 ∧ 3 ≤ domain then phase.toInt else (phase.toNat : Int)
    let t : Slot := ⟨bitOf v 31, domain, action, arg, period, ph, 0, false⟩
    let s1 := s.setSlotState n t
    if bitOf v 31 ∧ (domain ≠ 1 ∨ s.time.ntEver) then s1.armSlot n else s1

def State.doSlotCtrlWrite (s : State) (m : Master) (n : Nat) (v : Word) : State :=
  let p := slotPage n
  if !(s.mayWritePage m p (slotReg Reg.sched.slotCtrl n)) then
    s.violation m (0x18000000 + 0x1000 * p + slotReg Reg.sched.slotCtrl n)
  else (s.applySlot n v).answer .none

def execSlotCtrlWrite (m : Master) (n : Fin 64) (v : Word) (s : State) : Result := .next (s.doSlotCtrlWrite m n.val v)

/-- A slot due now: enabled, armed, its domain at or beyond NEXT (R222). -/
def State.slotDue (s : State) (n : Nat) : Bool :=
  let t := s.slot n
  t.enable && t.armed && decide (t.next ≤ s.domainValue t.domain)

/-- The firing of a due slot (R222): NEXT grows by PERIOD, a one-shot clears its ENABLE, the action leaves for its
consumer, and the slot's firing counter advances. -/
def State.fireSlot (s : State) (n : Nat) : State :=
  let t := s.slot n
  let t' : Slot := if t.period = 0 then { t with enable := false, armed := false } else { t with next := t.next + t.period }
  let s1 := s.setSlotState n t'
  (s1.setTime { s1.time with fired := s1.time.fired ++ [⟨n, t.action, t.arg⟩] }).bump (slotPage n) (n % 16) 1

/-- The action of kind `a` that slot `n` has sent and no consumer has taken. -/
def State.firedAction (s : State) (n a : Nat) : Option Fired := s.time.fired.find? fun f => f.slot == n && f.action == a

/-- An action taken by its consumer: with it, `act` on its ARG. -/
def State.takeAction (s : State) (n a : Nat) (act : State → Word → State) : State :=
  match s.firedAction n a with
  | none => s
  | some f => act (s.setTime { s.time with fired := s.time.fired.erase f }) f.arg

/-- NONE (R225). -/
def execSlotNone (n : Fin 64) (s : State) : Result := .next (s.takeAction n.val 0 fun t _ => t)

/-- FORCED_CHECKPOINT (R225, R90). -/
def execForcedCheckpoint (n : Fin 64) (s : State) : Result :=
  .next (s.takeAction n.val 4 fun t _ => t.forceTussock (.slot n))

/-- A message interrupt (R225, R255, R357): target 0 is the safety cluster (R491), 1 to 4 the application cores. -/
def State.messageTo (s : State) (target : Nat) (vector : BitVec 16) : State :=
  if target = 0 then s.message vector
  else { s with appMessages := s.appMessages ++ [(target - 1, vector)] }

/-- CORE_INTERRUPT (R225). -/
def execCoreInterrupt (n : Fin 64) (s : State) : Result :=
  .next (s.takeAction n.val 6 fun t arg => t.messageTo (fieldOf arg 2 0) (BitVec.ofNat 16 (fieldOf arg 23 8)))

/-! ## SYNC (R226) -/

/-- Is the module stack master? -/
def State.isMaster (s : State) : Bool := s.fail.master == s.fail.stackId

/-- A SYNC applied: the applied count; the measurement chain restarts with the command MEAS_SYNC. -/
def State.applySync (s : State) : State :=
  let s1 := s.setTime { s.time with syncTarget := none }
  let s2 := (s1.setReg 0x140 Reg.timebase.syncCount (satField (s1.reg 0x140 Reg.timebase.syncCount) 15 0 1)).bump 0x141 4 1
  { s2 with measSync := s2.measSync + 1 }

/-- The SYNC target reaches a module: at once with SYNC_UNALIGNED where NT has no source here or on the master. -/
def State.syncTargetIs (s : State) (target : DWord) (masterNoNt : Bool) : State :=
  let s1 := s.setReg64 0x140 Reg.timebase.syncTargetLo target
  if s1.ntSource = 0 ∨ masterNoNt then s1.applySync.raise 0x141 3 []
  else s1.setTime { s1.time with syncTarget := some target }

/-- A SYNC request: on the master, with no target pending, the target NT + SYNC_LEAD goes to every present module;
otherwise it is ignored and counted. -/
def State.syncRequest (s : State) : State :=
  if s.isMaster ∧ s.time.syncTarget = none then
    s.syncTargetIs (s.ntRead + BitVec.ofNat 64 (s.field 0x140 Reg.timebase.syncLead 13 0 * 1000)) (s.ntSource == 0)
  else (s.setReg 0x140 Reg.timebase.syncCount (satField (s.reg 0x140 Reg.timebase.syncCount) 31 16 1)).bump 0x141 5 1

/-- STACK_SYNC (R225, R226). -/
def execStackSync (n : Fin 64) (s : State) : Result := .next (s.takeAction n.val 8 fun t _ => t.syncRequest)

/-- SYNC_CMD (R226): a write of 1. -/
def State.doSyncCmd (s : State) (m : Master) (v : Word) : State :=
  if !(s.mayWritePage m 0x140 Reg.timebase.syncCmd) then s.violation m (0x18140000 + Reg.timebase.syncCmd)
  else if bitOf v 0 then s.syncRequest.answer .none else s.answer .none

def execSyncCmd (m : Master) (v : Word) (s : State) : Result := .next (s.doSyncCmd m v)

/-- SYNC_IN_EDGE (R226). -/
def execSyncInEdge (s : State) : Result := .next s.syncRequest

/-- SYNC_TARGET_RECEIVED (R226): a target still pending is replaced by none; the request that would replace it was
ignored at the master. -/
def execSyncTargetReceived (target : DWord) (noNt : Bool) (s : State) : Result := .next (s.syncTargetIs target noNt)

/-- SYNC_APPLY (R226): NT has reached the target. -/
def State.doSyncApply (s : State) : State :=
  match s.time.syncTarget with
  | some t => if t.toNat ≤ s.time.nt.toNat then s.applySync else s
  | none => s

def execSyncApply (s : State) : Result := .next s.doSyncApply

/-! ## Network time (R210 to R212, R224) -/

/-- Slots in the NT domain that are enabled. -/
def State.ntSlots (s : State) : List Nat :=
  (List.range 64).filter fun n => (s.slot n).enable && (s.slot n).domain == 1

/-- Instants of a periodic slot in the interval that a forward step skips. -/
def skipped (next : Int) (period : Nat) (new : Int) : Nat := if next ≤ new then ((new - next) / period + 1).toNat else 0

/-- A slot after an NT step from `old` (R224): periodic slots re-armed, the instants of a forward step counted in
SLOT_MISSED with SLOT_SKIPPED; a one-shot in the skipped interval fires late. -/
def State.stepSlot (s : State) (old : DWord) (n : Nat) : State :=
  let t := s.slot n
  let new : Int := s.time.nt.toNat
  if t.period = 0 then
    if (old.toNat : Int) < t.phase ∧ t.phase ≤ new then s.raise (slotPage n) 0 [] else s
  else
    let k := if old.toNat < s.time.nt.toNat then skipped t.next t.period new else 0
    let s1 := s.setSlotState n { t with next := nextInstant t.period t.phase new, armed := true }
    if k = 0 then s1
    else (s1.satReg (slotPage n) (Reg.sched.slotMissed + 4 * (n % 16)) k).raise (slotPage n) 1 []

/-- NT set to a received time in one cycle (R210 item 3). Before NT has first been valid the step is the acquisition:
it is neither latched nor counted (R211). -/
def State.ntStep (s : State) (time : DWord) : State :=
  let old := s.time.nt
  let s1 := s.setTime { s.time with nt := time, ntFrac := 0, ntSet := true }
  if s1.time.ntEver then
    let s2 := ((s1.satReg 0x141 Reg.time.ntSteps 1).raise 0x141 0 []).bump 0x141 1 1
    s2.ntSlots.foldl (fun t n => t.stepSlot old n) s2
  else s1

/-- NT becomes valid (R210); the first time, every enabled NT slot is armed (R211). -/
def State.ntBecomesValid (s : State) : State :=
  if s.time.ntEver then s.setTime { s.time with ntValid := true }
  else
    let s1 := s.setTime { s.time with ntValid := true, ntEver := true }
    s1.ntSlots.foldl (fun t n => t.armSlot n) s1

/-- A free value between two bounds. -/
def State.drawIn (s : State) (lo hi : Int) : Int × State :=
  let d := s.drawWord
  (lo + (d.1.toNat : Int) % (hi - lo + 1), d.2)

/-- One Sync measurement (R210 to R212): offset, step or steering (the servo's new rate is free within ±500 ppm), and
validity after 8 consecutive messages below NT_LOCK_NS. -/
def State.ntMeasure (s : State) (time : DWord) (source : Nat) : State :=
  let off : Int := (time.toNat : Int) - (s.time.nt.toNat : Int)
  let shown : Int := if off < -2147483648 then -2147483648 else if 2147483647 < off then 2147483647 else off
  let s1 := (s.setReg 0x141 Reg.time.ntOffset (wordOfInt shown)).bump 0x141 0 1
  let mag := off.natAbs
  let s2 := s1.setTime { s1.time with ntSource := source }
  let s3 :=
    if (s2.reg 0x141 Reg.time.ntStepNs).toNat ≤ mag ∨ !s2.time.ntSet then s2.ntStep time
    else
      let d := s2.drawIn (-500000) 500000
      (d.2.setTime { d.2.time with ntRate := d.1 }).setReg 0x141 Reg.time.ntRate (wordOfInt d.1)
  let good := if mag < (s3.reg 0x141 Reg.time.ntLockNs).toNat then min (s3.time.ntGood + 1) 8 else 0
  let s4 := s3.setTime { s3.time with ntGood := good }
  if good = 8 ∧ !s4.time.ntValid then s4.ntBecomesValid else s4

/-- AS_STATUS[8]: Sync arrives on SLAVE_PORT. -/
def State.asSync (s : State) (b : Bool) : State :=
  s.setReg 0x08d Reg.gptp.asStatus (setBit (s.reg 0x08d Reg.gptp.asStatus) 8 b)

/-- SYNC_MESSAGE (R210): on the stack master, a Sync of the time-aware port; another module does not use its own
802.1AS time (R212). -/
def execSyncMessage (time : DWord) (s : State) : Result := .next (s.asSync true |> fun t => if t.isMaster then t.ntMeasure time 1 else t)

/-- NT_HOLDOVER (R211): no Sync for 3 intervals. -/
def State.doNtHoldover (s : State) : State :=
  if s.time.ntSource = 1 ∨ s.time.ntSource = 2 then
    ((s.asSync false).setTime { s.time with ntSource := 3, ntGood := 0 }).bump 0x141 2 1
  else s.asSync false

def execNtHoldover (s : State) : Result := .next s.doNtHoldover

/-- NT_LOST (R211): holdover has lasted NT_HOLDOVER_S. -/
def State.doNtLost (s : State) : State :=
  if s.time.ntSource = 3 ∧ s.time.ntValid then (s.setTime { s.time with ntValid := false }).raise 0x141 1 [] else s

def execNtLost (s : State) : Result := .next s.doNtLost

/-! ## Mains phase (R213, R214) -/

/-- MP_UPDATE (R213): the tracker's phase and frequency (mHz); MP is steered, its frequency free within ±5 % of the
tracked one. -/
def State.doMpUpdate (s : State) (freq : Word) : State :=
  if bitOf (s.pt Reg.perturb.ptMp) 0 then s.ptApplied
  else
    let d := s.drawIn (((freq.toNat * 95 + 99) / 100 : Nat) : Int) ((freq.toNat * 105 / 100 : Nat) : Int)
    (d.2.setTime { d.2.time with mpTracked := true }).setReg 0x141 Reg.time.mpFreq (wordOfInt d.1)

def execMpUpdate (_phase : Word) (freq : Word) (s : State) : Result := .next (s.doMpUpdate freq)

/-- MP enters holdover (R214): it freewheels at MP_NOMINAL; only an entry from tracking is latched. -/
def State.enterMpHoldover (s : State) : State :=
  let s1 := (s.setTime { s.time with mpHoldover := true, mpTracked := false }).setReg 0x141 Reg.time.mpFreq
    (s.reg 0x141 Reg.time.mpNominal)
  if s.time.mpHoldover then s1 else (s1.raise 0x141 2 []).bump 0x141 3 1

/-- MP_HOLDOVER (R214): loss of lock, or 5 ms without an update. -/
def execMpHoldover (s : State) : Result := .next s.enterMpHoldover

/-- MP_HOLDOVER_CLEAR (R214): the phase error has fallen below 0.1° with the tracker locked. -/
def State.doMpHoldoverClear (s : State) : State :=
  if s.time.mpTracked then s.setTime { s.time with mpHoldover := false } else s

def execMpHoldoverClear (s : State) : Result := .next s.doMpHoldoverClear

/-! ## Axles (R215 to R218) -/

/-- The sense of a quadrature change from levels `old` to `new` (A bit 0, B bit 1): A leading B is +1 (PRESUMED, log
entry 22); 0 for no change; both inputs are handled apart. -/
def quadrature (old new : Nat) : Int :=
  match old, new with
  | 0, 1 | 1, 3 | 3, 2 | 2, 0 => 1
  | 1, 0 | 3, 1 | 2, 3 | 0, 2 => -1
  | _, _ => 0

/-- AX units of one edge with 16 fractional bits: 65,536 · 65,536 / (4 · PPR) (R216); where the division leaves a
remainder the spec fixes no rounding (a free value). -/
def axStep (ppr : Nat) : Int :=
  if 4294967296 % (4 * ppr) = 0 then (4294967296 / (4 * ppr) : Nat) else Config.axStep ppr

/-- An edge of axle `n` in sense `d` (R216). -/
def State.edge (s : State) (n : Nat) (d : Int) : State :=
  let a := s.axle n
  let cfg := s.reg 0x142 (Reg.axles.axleCfg + 4 * n)
  let d' := if bitOf cfg 16 then -d else d
  let dx := d' * axStep (fieldOf cfg 12 0)
  let a' : Axle :=
    { a with ax := a.ax + dx, edges := a.edges + 1, lastEdge := s.time.lt,
             interval := if a.edges = 0 then 0 else (s.time.lt - a.lastEdge).toNat }
  let s1 := (s.setAxle n a').bump 0x142 n 1
  if fieldOf (s.reg 0x142 Reg.axles.axConfig) 5 4 = n then
    s1.setTime { s1.time with
      dist := s1.time.dist + Config.distStep dx (s.field 0x142 (Reg.axles.wheelDia + 4 * n) 13 0) }
  else s1

/-- TACHO_EDGE (R215): the filtered levels of axle `n` become `a` and `b`. A change of both inputs in one sample is a
tacho error; an axle that is not enabled holds AX at 0. -/
def State.doTachoEdge (s : State) (n : Nat) (a b : Bool) : State :=
  let x := s.axle n
  let new := a.toNat + 2 * b.toNat
  let s1 := s.setAxle n { x with levels := new }
  if !(s.axleOn n) ∨ new = x.levels then s1
  else if new + x.levels = 3 then
    let s2 := s1.setAxle n { s1.axle n with err := true }
    ((s2.setReg 0x142 Reg.axles.tachoErrors (satField (s2.reg 0x142 Reg.axles.tachoErrors) (8 * n + 7) (8 * n) 1)).raise
      0x142 n []).bump 0x142 (4 + n) 1
  else s1.edge n (quadrature x.levels new)

def execTachoEdge (n : Fin 4) (a b : Bool) (s : State) : Result := .next (s.doTachoEdge n.val a b)

/-- The speed of an axle in mm/s (R217): 0 until two edges; the rounding of the quotient with π is not fixed (a free
function of the settings and of the interval in LT ticks). -/
def State.speedNow (s : State) (n : Nat) : Nat :=
  let a := s.axle n
  if !(s.axleOn n) ∨ a.edges < 2 then 0
  else Config.speed (s.field 0x142 (Reg.axles.axleCfg + 4 * n) 12 0) (s.field 0x142 (Reg.axles.wheelDia + 4 * n) 13 0)
    (max a.interval (s.time.lt - a.lastEdge).toNat)

def enabledAxles (s : State) : List Nat := (List.range 4).filter fun n => s.axleOn n

/-- SPEED_UPDATE (R217, R218, R120): the speeds; standstill after 2,000 ms in which every enabled axle was below
STANDSTILL_SPEED without a tacho error. The first report of standstill ends a duckboard grace. -/
def State.doSpeedUpdate (s : State) : State :=
  let s1 := (List.range 4).foldl (fun t n =>
    t.setReg 0x142 (Reg.axles.speed + 4 * n) (BitVec.ofNat 32 (t.speedNow n))) s
  let on := enabledAxles s1
  let slow := !on.isEmpty && on.all fun n =>
    decide ((s1.reg 0x142 (Reg.axles.speed + 4 * n)).toNat < s1.field 0x142 Reg.axles.standstillSpeed 10 0)
      && !(s1.axle n).err
  let held : Option Nat := if slow then some (match s1.time.slowMs with | some k => min (k + 1) 2000 | none => 0) else none
  let still := held == some 2000
  let s2 := (List.range 4).foldl (fun t n => t.setAxle n { t.axle n with err := false }) s1
  let s3 := s2.setTime { s2.time with slowMs := held, standstill := still }
  let s4 := if still then s3.setReg64 0x142 Reg.axles.standstillLtLo s3.time.lt else s3
  if still ∧ s4.red.duckGrace then s4.duckboardActs else s4

def execSpeedUpdate (s : State) : Result := .next s.doSpeedUpdate

/-! ## One CK_AON cycle (the step on an empty queue) -/

/-- LT's advance in one cycle (R209) and the accumulator after it. -/
def ltAdvance (trim : Int) (acc : Nat) : Nat × Nat :=
  let a := acc + trim.natAbs
  if a < 4294967296 then (1, a) else (if 0 < trim then 2 else 0, a - 4294967296)

/-- MP units of one CK_AON cycle with 32 fractional bits, at a frequency in mHz. -/
def mpStep (freq : Nat) : Nat := freq * 18446744073709551616 / 250000000000

/-- One CK_AON cycle: LT (R209), NT at its rate against LT (R210), MP at its frequency (R213). -/
def State.tick (s : State) : State :=
  let adv := ltAdvance (s.reg 0x141 Reg.time.ltTrim).toInt s.time.trimAcc
  let frac : Int := (s.time.ntFrac : Int) + adv.1 * (4000000000 + 4 * s.time.ntRate)
  let mp := s.time.mpFrac + mpStep (s.reg 0x141 Reg.time.mpFreq).toNat
  s.setTime
    { s.time with
      lt := s.time.lt + BitVec.ofNat 64 adv.1, trimAcc := adv.2,
      nt := if s.time.ntSet then s.time.nt + BitVec.ofNat 64 (frac / 1000000000).toNat else s.time.nt,
      ntFrac := if s.time.ntSet then (frac % 1000000000).toNat else s.time.ntFrac,
      mp := s.time.mp + BitVec.ofNat 64 (mp / 4294967296), mpFrac := mp % 4294967296 }

end Sys2Proof.Machine
end

