-- ==== Sys2Proof/Machine/Net.lean ====
section
/-!
DEFINITION. The packet buffer of the switch with its books (R267 to R272), the egress queues with gates, shapers and
transmission (R234 to R240), and the DMA queues (R249 to R255).
-/
namespace Sys2Proof.Machine

def State.setNet (s : State) (n : Net) : State := { s with net := n }

/-- A write of a command register: refused under R19, or performed. -/
def State.written (s : State) (m : Master) (p off : Nat) (act : State → State) : State :=
  if !(s.mayWritePage m p off) then s.violation m (0x18000000 + 0x1000 * p + off) else (act s).answer .none

/-- A register written with its own row of the register table: LOCK bars its RWL fields, a value outside a range leaves it
as it was (R8, R9, R100). -/
def State.storeReg (s : State) (p off : Nat) (v : Word) : State :=
  match regDesc p off with
  | some d => s.setReg p off (d.written (s.locked p) (s.reg p off) v)
  | none => s

/-! ## Ports -/

def portPage (p : Nat) : Nat := 0x081 + p
/-- A port after module reset: OPER_BANK 1 and OPER_LEN 0 (GCL_STATUS of R274); P6 and P7 are internal. -/
def portReset (p : Nat) : PortState :=
  ⟨decide (6 ≤ p), if 6 ≤ p then 5 else 0, 1, 0, false, 0, 0, 0, []⟩
def State.swPort (s : State) (p : Nat) : PortState := tblRead portReset s.net.ports p
def State.setSwPort (s : State) (p : Nat) (v : PortState) : State :=
  s.setNet { s.net with ports := tblWrite portReset s.net.ports p v }
def State.portOn (s : State) (p : Nat) : Bool := (s.page (portPage p)).run == .on
/-- Is PRP in force (R244, R265)? -/
def State.prpActs (s : State) : Bool := (s.page 0x08c).run == .on && bitOf (s.reg 0x08c Reg.prp.prpCtrl) 0
/-- Line rate in kbit/s of a SPEED code. -/
def rateOf (speed : Nat) : Nat :=
  if speed = 1 then 100000 else if speed = 2 then 1000000 else if speed = 3 then 2500000
  else if speed = 4 then 10000000 else if speed = 5 then 20000000 else 1
/-- MAX_FRAME of a port. -/
def State.maxFrame (s : State) (p : Nat) : Nat := s.field (portPage p) Reg.port.portConfig 27 16
/-- The class of a PCP. -/
def State.pcpClass (s : State) (pcp : Nat) : Nat := s.field 0x089 Reg.bridge.pcpMap (3 * pcp + 2) (3 * pcp)
/-- MEMBER and UNTAGGED of a VID; the table lists nothing at reset (DESIGN CHOICE, log entry 31). -/
def noVlan (_ : Nat) : Nat := 0
def State.vlanMembers (s : State) (vid : Nat) : Nat := tblRead noVlan s.net.vlans vid % 256
def State.vlanUntagged (s : State) (vid : Nat) : Nat := tblRead noVlan s.net.vlans vid / 256
/-- HOST_MAC. -/
def State.hostMac (s : State) : Nat :=
  (s.reg 0x089 Reg.bridge.hostMacLo).toNat + s.field 0x089 Reg.bridge.hostMacHi 15 0 * 2 ^ 32

/-! ## Books (R267 to R272, R282) -/

/-- Does the comparator hold this frame's copy for P6 (R282)? -/
def State.twinHeld (s : State) (h : Nat) : Bool := s.net.twins.any fun e => e.2.handle == some h
/-- ALLOCATED; a held copy keeps its cells, its handle and its credit on P6. -/
def State.cellsUsed (s : State) : Nat := (s.net.frames.map fun f => cellsOf f.frame.length).sum
/-- FREE; IN_TRANSIT is 0 between the steps of this model. -/
def State.cellsFree (s : State) : Nat := 32768 - s.cellsUsed
/-- HANDLES_USED. -/
def State.handlesUsed (s : State) : Nat := s.net.frames.length
/-- CREDIT_HELD of a port and class. -/
def State.creditHeld (s : State) (p c : Nat) : Nat :=
  (s.net.frames.map fun f =>
    (f.copies.filter fun k => k.port == p && k.cls == c).length * cellsOf f.frame.length).sum
def State.creditLimit (s : State) (p c : Nat) : Nat := s.field (portPage p) (Reg.port.creditLimit + 4 * c) 15 0
/-- CREDIT_FREE of a port and class. -/
def State.creditFree (s : State) (p c : Nat) : Nat := s.creditLimit p c - s.creditHeld p c

/-! ## DMA accesses of the data plane -/

/-- A DMA read of shared SRAM, counted at the host port's point (R456); refused elsewhere and on an uncorrectable word
(R31, R32, R490). -/
def State.dmaRead (s : State) (a n : Nat) : Option (List Byte) × State :=
  if n = 0 then (some [], s)
  else if inSram a n then
    match s.sramRead (sramOff a) n with
    | some l => (some l, s.bw 83 n)
    | none => (none, s.violation .dma a)
  else (none, s.violation .dma a)

/-- A DMA write of shared SRAM: was it performed? -/
def State.dmaWrite (s : State) (a : Nat) (bs : List Byte) : Bool × State :=
  if bs.isEmpty then (true, s)
  else if inSram a bs.length then (true, (s.bw 83 bs.length).sramWrite (sramOff a) bs)
  else (false, s.violation .dma a)

/-! ## DMA queues (R249 to R255, R271) -/

def qPage (q : Nat) : Nat := 0x0c0 + q
/-- Q_SEQ, the ledger's QUEUE_q (R250). -/
def State.qSeq (s : State) (q : Nat) : Word := tblRead zeroWord s.ledger.queueSeq q
def ringReset (_ : Nat) : RingState := ⟨0#32, [], 0⟩
def State.ring (s : State) (q : Nat) : RingState := tblRead ringReset s.net.queues q
def State.setRing (s : State) (q : Nat) (r : RingState) : State :=
  s.setNet { s.net with queues := tblWrite ringReset s.net.queues q r }
def State.queueOn (s : State) (q : Nat) : Bool := s.working (qPage q)
/-- WAITING (R271). -/
def State.waiting (s : State) (q : Nat) : Nat :=
  seqDist (s.qSeq q + BitVec.ofNat 32 (s.ring q).active.length) (s.ring q).posted
/-- Address of the descriptor with running number `n`. -/
def State.descAddr (s : State) (q n : Nat) : Nat :=
  (s.reg (qPage q) Reg.queue.qBaseLo).toNat + s.field (qPage q) Reg.queue.qBaseHi 7 0 * 2 ^ 32
    + 32 * (n % 2 ^ s.field (qPage q) Reg.queue.qConfig 12 8)

/-- A descriptor or buffer access of a queue refused under R32. -/
def State.queueAccessError (s : State) (q : Nat) : State := (s.raise (qPage q) 1 []).bump (qPage q) 5 1

/-- Bytes that a queue has moved (R453, R456). -/
def State.moved (s : State) (q n : Nat) : State := (s.bump (qPage q) 1 n).bw (16 + q) n

/-- The next waiting descriptor read (R271); none where nothing waits or the read is refused. -/
def State.fetchOne (s : State) (q : Nat) : Option ActiveDesc × State :=
  if s.waiting q = 0 then (none, s)
  else
    let n := (s.qSeq q + BitVec.ofNat 32 (s.ring q).active.length).toNat
    let r := s.dmaRead (s.descAddr q n) 32
    match r.1 with
    | none => (none, r.2.queueAccessError q)
    | some l =>
      let d : ActiveDesc := ⟨n, ofLeBytes (l.take 8) % 2 ^ 40, ofLeBytes ((l.drop 8).take 2), none⟩
      let s1 := (r.2.bump (qPage q) 4 1).moved q 32
      (some d, s1.setRing q { s1.ring q with active := (s1.ring q).active ++ [d] })

/-- The first descriptor without an outcome takes one. -/
def giveFirst (o : FinalStatus) : List ActiveDesc → List ActiveDesc
  | [] => []
  | d :: t => if d.outcome.isNone then { d with outcome := some o } :: t else d :: giveFirst o t
/-- Descriptor `n` takes an outcome. -/
def giveTo (n : Nat) (o : FinalStatus) : List ActiveDesc → List ActiveDesc
  | [] => []
  | d :: t => if d.n = n ∧ d.outcome.isNone then { d with outcome := some o } :: t else d :: giveTo n o t

/-- A frame discarded by a receive queue (R254). -/
def State.rxDiscard (s : State) (q : Nat) : State :=
  (s.satReg (qPage q) Reg.queue.qDrops 1).bump (qPage q) 2 1

/-- A frame given to a receive queue (R251, R254): the next free descriptor takes its outcome, and DESCRIPTOR_WRITE_BACK
writes it. `code` is 0x00 or 0x07. -/
def State.rxDeliver (s : State) (q : Nat) (data : List Byte) (lt : DWord) (code flags ingress : Nat) (info : Word) :
    State :=
  if !(s.queueOn q) then s.rxDiscard q
  else
    let s1 := if (s.ring q).active.any (·.outcome.isNone) then s else (s.fetchOne q).2
    match (s1.ring q).active.find? (·.outcome.isNone) with
    | none => s1.rxDiscard q
    | some d =>
      let fits := decide (data.length ≤ d.len)
      let o : FinalStatus :=
        ⟨if fits then data else [], if fits then data.length else 0, lt,
          at' (if fits then code else 1) 24 ||| at' flags 16 ||| at' ingress 0, info⟩
      s1.setRing q { s1.ring q with active := giveFirst o (s1.ring q).active }

/-- The interrupt of a queue or CAN ring: a message with the VECTOR to the TARGET (R255); targets 5 to 7 name no core. -/
def State.ringIrq (s : State) (irq : Word) : State :=
  if fieldOf irq 10 8 ≤ 4 then s.messageTo (fieldOf irq 10 8) (BitVec.ofNat 16 (fieldOf irq 31 16)) else s

/-- A queue's interrupt raised: the count of write-backs not yet signalled starts again. -/
def State.queueIrq (s : State) (q : Nat) : State :=
  ((s.setRing q { s.ring q with unsignalled := 0 }).ringIrq (s.reg (qPage q) Reg.queue.qIrq)).bump (qPage q) 3 1

/-- A write-back counted towards the next interrupt. -/
def State.countWriteBack (s : State) (q : Nat) : State :=
  let s1 := s.setRing q { s.ring q with unsignalled := (s.ring q).unsignalled + 1 }
  let count := s.field (qPage q) Reg.queue.qIrq 7 0
  if count ≠ 0 ∧ count ≤ (s1.ring q).unsignalled then s1.queueIrq q else s1

/-- The second and the last 16-byte write of a write-back (R251, R252). -/
def ActiveDesc.low (d : ActiveDesc) (o : FinalStatus) : List Byte :=
  leBytes 8 d.addr ++ leBytes 2 d.len ++ leBytes 2 o.length ++ leBytes 4 (d.n + 1)
def FinalStatus.high (o : FinalStatus) : List Byte :=
  leBytes 8 o.lt.toNat ++ leBytes 4 (o.status ||| 0x80000000#32).toNat ++ leBytes 4 o.info.toNat

/-- The three writes of R252, in order; false where one is refused. -/
def State.writeDescriptor (s : State) (q : Nat) (d : ActiveDesc) (o : FinalStatus) : Bool × State :=
  let a := s.descAddr q d.n
  let w0 := s.dmaWrite d.addr o.data
  if !w0.1 then w0 else
    let w1 := w0.2.dmaWrite a (d.low o)
    if !w1.1 then w1 else w1.2.dmaWrite (a + 16) o.high

/-- DESCRIPTOR_WRITE_BACK (R252, R254): the oldest descriptor that has its final status is written, then Q_SEQ and the
ledger advance. A receive frame whose write is refused is discarded and its descriptor stays free. -/
def State.doWriteBack (s : State) (q : Nat) : State :=
  match (s.ring q).active with
  | [] => s
  | d :: t =>
    match d.outcome with
    | none => s
    | some o =>
      let w := s.writeDescriptor q d o
      if !w.1 then
        let s1 := w.2.queueAccessError q
        if q < 32 then (s1.setRing q { s1.ring q with active := { d with outcome := none } :: t }).rxDiscard q else s1
      else
        let s1 := w.2.setRing q { w.2.ring q with active := t }
        let s2 := { s1 with ledger := { s1.ledger with queueSeq := tblWrite zeroWord s1.ledger.queueSeq q (s1.qSeq q + 1) } }
        ((s2.bump (qPage q) 0 1).moved q (o.data.length + 32)).countWriteBack q

/-! ## Frames that leave the buffer -/

/-- The final status of a transmit descriptor (R251): the ports the frame left, or the code of the last copy discarded.
LT_STAMP of a frame that has left no port is a free value (the spec states none). -/
def State.txOutcome (s : State) (src : FrameSource) (left lost len : Nat) (lt : Option DWord) : State :=
  match src with
  | .queue q n =>
    let d := match lt with | some t => (t, s) | none => s.drawDword
    let o : FinalStatus := ⟨[], if left = 0 then 0 else len, d.1, at' (if left = 0 then lost else 0) 24 ||| at' left 0, 0#32⟩
    d.2.setRing q { d.2.ring q with active := giveTo n o (d.2.ring q).active }
  | _ => s

/-- A stored frame without copies leaves the buffer. -/
def State.finish (s : State) (h : Nat) : State :=
  match s.net.frames.find? (·.handle == h) with
  | none => s
  | some f =>
    if f.copies.isEmpty then
      (s.setNet { s.net with frames := s.net.frames.filter (·.handle != h) }).txOutcome f.source f.left f.lost
        f.frame.length f.sentLt
    else s

/-- A stored frame replaced. -/
def State.putFrame (s : State) (f : StoredFrame) : State :=
  s.setNet { s.net with frames := s.net.frames.map fun g => if g.handle = f.handle then f else g }

/-- Every copy that satisfies `p` discarded, its frame's status code kept. -/
def State.discardCopies (s : State) (code : Nat) (p : StoredFrame → EgressCopy → Bool) : State :=
  let hit := s.net.frames.filter fun f => f.copies.any (p f)
  hit.foldl (fun t f =>
    (t.putFrame { f with copies := f.copies.filter fun k => !(p f k), lost := code }).finish f.handle) s

/-- Does a frame wait in class `c` of port `p`? -/
def State.queued (s : State) (p c : Nat) : Bool :=
  s.net.frames.any fun f => f.copies.any fun k => k.port == p && k.cls == c

/-- The oldest frame of a class of a port, with its copy; a copy that the comparator holds does not wait for its port. -/
def State.headOf (s : State) (p c : Nat) : Option (StoredFrame × EgressCopy) :=
  s.net.frames.findSome? fun f =>
    if p = 6 ∧ s.twinHeld f.handle then none else (f.copies.find? fun k => k.port == p && k.cls == c).map fun k => (f, k)

/-! ## Gates (R237 to R239) -/

def State.qbv (s : State) (p : Nat) : Bool := decide (p < 6) && bitOf (s.reg (portPage p) Reg.port.gclCtrl) 0
/-- Entry `i` of a bank of a port. -/
def State.gclEntry (s : State) (p bank i : Nat) : Word :=
  s.reg (portPage p) ((if bank = 0 then Reg.port.gclBank0 else Reg.port.gclBank1) + 4 * i)
/-- An entry's interval in ns. -/
def entryNs (w : Word) : Nat := fieldOf w 23 0 * 8
/-- UNTIMED. -/
def State.untimed (s : State) (p : Nat) : Bool := s.qbv p && s.ntSource == 0
/-- Is the gate of a class open? -/
def State.gateOpen (s : State) (p c : Nat) : Bool :=
  !(s.qbv p) || s.untimed p || bitOf (s.gclEntry p (s.swPort p).bank (s.swPort p).entry) (24 + c)

/-- The entries of a list over one cycle with their lengths: cut at the cycle's end, the last one held until it. -/
def cycleParts : List Word → Nat → List (Word × Nat)
  | [], _ => []
  | [w], rest => [(w, rest)]
  | w :: t, rest => if rest ≤ entryNs w then [(w, rest)] else (w, entryNs w) :: cycleParts t (rest - entryNs w)

/-- The time for which a class stays open over a list of parts; none where it never closes. -/
def openFor (c : Nat) : List (Word × Nat) → Nat → Option Nat
  | [], _ => none
  | (w, n) :: t, acc => if bitOf w (24 + c) then openFor c t (acc + n) else some acc

/-- Time in ns until the gate of a class closes, over the rest of this cycle and the next one. -/
def State.untilClose (s : State) (p c : Nat) : Option Nat :=
  if !(s.qbv p) ∨ s.untimed p then none
  else
    let g := s.swPort p
    let cyc := (s.reg (portPage p) Reg.port.gclCycle).toNat
    let parts := cycleParts ((List.range g.operLen).map fun i => s.gclEntry p g.bank i) cyc
    match parts.drop g.entry with
    | [] => none
    | (w, n) :: t => openFor c ((w, n - (s.time.nt.toNat - g.started)) :: (t ++ parts)) 0

/-- The start of the cycle that holds the instant `nt`: GCL_BASE + k · GCL_CYCLE. -/
def cycleStart (base cyc nt : Nat) : Nat :=
  if cyc = 0 ∨ nt < base then nt else base + (nt - base) / cyc * cyc

/-! ## Shapers (R236) -/

/-- The shaper of a class of a port. -/
def State.shaperOf (s : State) (p c : Nat) : Option Nat :=
  if 6 ≤ p then none
  else (List.range 4).find? fun n =>
    let w := s.reg (portPage p) (Reg.port.cbs + 4 * n)
    bitOf w 31 && fieldOf w 30 28 == c
def idleSlope (w : Word) : Nat := fieldOf w 27 0
def creditReset (_ : Nat) : Credit := ⟨0, 0#64⟩
def State.credit (s : State) (p n : Nat) : Credit := tblRead creditReset s.net.credits (4 * p + n)
def State.setCredit (s : State) (p n : Nat) (v : Credit) : State :=
  s.setNet { s.net with credits := tblWrite creditReset s.net.credits (4 * p + n) v }

/-- The credit of shaper `n` of port `p` brought up to now: it grows while a frame of its class waits and its gate is
open, and is cut to 0 while the class is empty. -/
def State.settleOne (s : State) (p n : Nat) : State :=
  let w := s.reg (portPage p) (Reg.port.cbs + 4 * n)
  if !(bitOf w 31) then s
  else
    let c := fieldOf w 30 28
    let k := s.credit p n
    let v : Int :=
      if s.queued p c then
        (if s.gateOpen p c then k.credit + (idleSlope w * (s.time.lt.toNat - k.since.toNat) : Nat) else k.credit)
      else if 0 < k.credit then 0 else k.credit
    s.setCredit p n ⟨v, if k.since.toNat ≤ s.time.lt.toNat then s.time.lt else k.since⟩

/-- Every shaper of a port brought up to now. -/
def State.settle (s : State) (p : Nat) : State :=
  if p < 6 then (List.range 4).foldl (fun t n => t.settleOne p n) s else s

/-! ## Transmission (R234) -/

/-- Time on the wire in ns and in LT ticks at a rate in kbit/s. -/
def wireNs (bytes rate : Nat) : Nat := bytes * 8000000 / rate
def wireTicks (bytes rate : Nat) : Nat := bytes * 2000000 / rate

/-- A frame as it leaves a port: tag removed for a port of the UNTAGGED set (R232), the R-TAG removed towards P6 (R243),
padded, with its redundancy trailer (R244). -/
def State.egressFrame (s : State) (f : Frame) (p : Nat) (tr : Option (BitVec 16 × Nat)) : Frame :=
  if p = 6 then f.noRtag
  else
    let u := if (s.vlanUntagged f.vid).testBit p then { f with tagged := false } else f
    match tr with
    | some t => u.pad.withTrailer t.1 t.2
    | none => u.pad

/-- Does PT_EGRESS hold class `c` of port `p` (R462)? -/
def State.egressHeld (s : State) (p c : Nat) : Bool :=
  bitOf (s.pt Reg.perturb.ptEgress) (8 + p) && bitOf (s.pt Reg.perturb.ptEgress) c

/-- Does a closed gate hold the head of a class: closed now, or before the frame's last bit? -/
def State.gateHolds (s : State) (p c : Nat) (bytes : Nat) : Bool :=
  !(s.gateOpen p c) || (match s.untilClose p c with
    | some n => decide (n < wireNs bytes (rateOf (s.swPort p).speed))
    | none => false)

/-- Has the shaper of a class, if any, credit of 0 or more? -/
def State.creditOk (s : State) (p c : Nat) : Bool :=
  match s.shaperOf p c with
  | some n => decide (0 ≤ (s.credit p n).credit)
  | none => true

/-- May the head of a class start now? -/
def State.eligible (s : State) (p c : Nat) : Bool :=
  match s.headOf p c with
  | none => false
  | some h =>
    !(s.gateHolds p c (s.egressFrame h.1.frame p h.2.trailer).length) && s.creditOk p c && !(s.egressHeld p c)

/-- The highest class of a port that may send. -/
def State.nextClass (s : State) (p : Nat) : Option Nat := [7, 6, 5, 4, 3, 2, 1, 0].find? fun c => s.eligible p c

/-- Heads that a closed gate holds, each counted once (R453). -/
def State.markGated (s : State) (p : Nat) : State :=
  (List.range 8).foldl (fun t c =>
    match t.headOf p c with
    | none => t
    | some h =>
      if !h.2.gated ∧ t.gateHolds p c (t.egressFrame h.1.frame p h.2.trailer).length then
        (t.putFrame { h.1 with copies := h.1.copies.map fun k => if k = h.2 then { k with gated := true } else k }).bump
          (portPage p) 11 1
      else t) s

/-- Heads that PT_EGRESS holds and that would otherwise leave: one application counted. -/
def State.markPerturbed (s : State) (p : Nat) : State :=
  if (List.range 8).any (fun c => s.egressHeld p c && s.queued p c) then s.ptApplied else s

/-- A frame on its way out of a port: counted, the shaper's credit spent. -/
def State.countSent (s : State) (p c n : Nat) : State :=
  let s1 := ((s.bump (portPage p) 1 1).bump (portPage p) 3 n).bw (8 + p) n
  match s1.shaperOf p c with
  | some k =>
    let r := rateOf (s1.swPort p).speed
    let w := s1.reg (portPage p) (Reg.port.cbs + 4 * k)
    let t := wireTicks n r
    s1.setCredit p k
      ⟨(s1.credit p k).credit - (((r : Int) - (idleSlope w : Int)) * (t : Int)), s1.time.lt + BitVec.ofNat 64 t⟩
  | none => s1

/-- One copy sent completely: it leaves its class, and the frame leaves the buffer with its last copy. -/
def State.sendCopy (s : State) (f : StoredFrame) (k : EgressCopy) : State :=
  let e := s.egressFrame f.frame k.port k.trailer
  let s1 := s.countSent k.port k.cls e.length
  let s2 := s1.setSwPort k.port { s1.swPort k.port with sent := e.bytes }
  let f' : StoredFrame :=
    { f with copies := f.copies.erase k, left := f.left ||| 2 ^ k.port, sentLt := f.sentLt.or (some s2.time.lt) }
  ((s2.putFrame f').finish f.handle).settle k.port

/-! ## Admission (R268 to R272) -/

/-- The copies that find credit, and the ports whose copies are discarded. -/
def State.creditCopies (s : State) (cells : Nat) (l : List EgressCopy) : List EgressCopy × List EgressCopy :=
  l.partition fun k => decide (cells ≤ s.creditFree k.port k.cls)

/-- Is the packet buffer full for a frame of a class (R270)? -/
def State.bufferFull (s : State) (cls cells : Nat) : Bool :=
  let cfg := s.reg 0x080 Reg.switch.poolCfg
  decide (s.cellsFree < cells) || (decide (cls < fieldOf cfg 18 16) && decide (s.cellsFree < cells + fieldOf cfg 15 0))

/-- A frame admitted with its egress copies (R267 to R272, R463): handle, cells, credit; an uncorrectable cell discards
it with BUFFER_ECC. The handle given is the number before `nextHandle`. -/
def State.admitted (s : State) (f : Frame) (src : FrameSource) (ingress lan cls : Nat) (host : Option (Nat × Nat))
    (copies : List EgressCopy) : State :=
  let cells := cellsOf f.length
  if copies.isEmpty then s.txOutcome src 0 5 0 none
  else if 8192 ≤ s.handlesUsed then (s.bump 0x080 2 1).txOutcome src 0 3 0 none
  else if s.bufferFull cls cells then (s.bump 0x080 1 1).txOutcome src 0 3 0 none
  else
    let s1 := s.bump 0x080 0 cells
    match s1.armedEcc 0x080 0 with
    | some 2 => (((s1.spendInject 0x080).raise 0x080 1 []).bump 0x080 4 1).txOutcome src 0 6 0 none
    | inj =>
      let s2 := if inj.isSome then s1.spendInject 0x080 else s1
      let k := s2.creditCopies cells copies
      let s3 := k.2.foldl (fun t c => t.bump (portPage c.port) 9 1) s2
      if k.1.isEmpty then s3.txOutcome src 0 3 0 none
      else
        let s4 := k.1.foldl (fun t c => t.settle c.port) s3
        let g : StoredFrame := ⟨s4.net.nextHandle, f, src, k.1, 0, 3, none, host, lan, 0, ingress⟩
        s4.setNet { s4.net with frames := s4.net.frames ++ [g], nextHandle := s4.net.nextHandle + 1 }

end Sys2Proof.Machine
end

