-- ==== Sys2Proof/Machine/Trdp.lean ====
section
/-!
DEFINITION. TRDP entries and their subscribing side (R256 to R258, R262 to R264), the SDT channels (R283 to R286), the
twin-path comparator (R276 to R282), and the delivery of frames to the host (R248, R263, R281).
-/
namespace Sys2Proof.Machine

/-! ## Entries (R257, R258) -/

def trdpReset (_ : Nat) : TrdpEntry := ⟨List.replicate 8 0#32, 0#32, false, false, 0#64, none, none⟩
def State.trdp (s : State) (e : Nat) : TrdpEntry := tblRead trdpReset s.net.trdp e
def State.setTrdp (s : State) (e : Nat) (v : TrdpEntry) : State :=
  s.setNet { s.net with trdp := tblWrite trdpReset s.net.trdp e v }
/-- Word `i` of an entry, and a field of it. -/
def TrdpEntry.word (e : TrdpEntry) (i : Nat) : Word := e.w.getD i 0#32
def TrdpEntry.fld (e : TrdpEntry) (i hi lo : Nat) : Nat := fieldOf (e.word i) hi lo
def TrdpEntry.valid (e : TrdpEntry) : Bool := bitOf (e.word 0) 31
def TrdpEntry.publish (e : TrdpEntry) : Bool := bitOf (e.word 0) 30
def TrdpEntry.safe (e : TrdpEntry) : Bool := bitOf (e.word 0) 29
def TrdpEntry.mailbox (e : TrdpEntry) : Bool := bitOf (e.word 0) 28
def TrdpEntry.len (e : TrdpEntry) : Nat := e.fld 0 10 0
def TrdpEntry.channel (e : TrdpEntry) : Nat := e.fld 7 8 0

/-- The sequence counter of a publish entry's next publish (R257, R259): 0 for the first after a write; `received` says
that the entry has published, `seq` the counter sent last. -/
def TrdpEntry.nextSeq (e : TrdpEntry) : Word := if e.received then e.seq + 1 else 0#32

/-- The page that serves an entry, and whether it is ON (R257, R265). -/
def State.entryPage (s : State) (e : Nat) : Nat := if e < s.net.split then 0x08a else 0x08b
def State.entryOn (s : State) (e : Nat) : Bool := s.working (s.entryPage e)

/-- Does another valid entry of the same direction name the channel (R288)? -/
def State.channelTaken (s : State) (e : Nat) (pub : Bool) (ch : Nat) : Bool :=
  s.net.trdp.any fun x => x.1 != e && x.2.valid && x.2.safe && x.2.publish == pub && x.2.channel == ch

/-! ## SDT channels (R283 to R286) -/

def channelReset (_ : Nat) : SdtChannel := ⟨0#32, 0#32, 0#32, 0#32, 0, false, 0#32, 0, false⟩
def State.sdtChannel (s : State) (c : Nat) : SdtChannel := tblRead channelReset s.net.channels c
def State.setChannel (s : State) (c : Nat) (v : SdtChannel) : State :=
  s.setNet { s.net with channels := tblWrite channelReset s.net.channels c v }
def SdtChannel.valid (c : SdtChannel) : Bool := bitOf c.w0 31

/-- Do the bits that R258 does not name read 0, and do the fields keep their ranges? -/
def TrdpEntry.fieldsOk (e : TrdpEntry) : Bool :=
  let w0 := e.word 0
  let common := decide (e.len ≤ 1432) && e.fld 7 31 9 == 0 && e.fld 4 31 28 == 0
  common && (if e.publish then
      fieldOf w0 27 24 == 0 && bitOf w0 20 == false && fieldOf w0 19 18 == 0 && bitOf w0 11 == false && e.fld 6 31 6 == 0
    else fieldOf w0 25 21 == 0 && fieldOf w0 15 11 == 0 && e.fld 0 27 26 != 3)

/-- The refusals of R264 for a subscribe entry. -/
def TrdpEntry.substOk (e : TrdpEntry) : Bool :=
  if e.publish then true
  else if e.mailbox then e.fld 0 27 26 == 0 && decide (1 ≤ e.len ∧ e.len ≤ 1024)
  else e.fld 0 27 26 == 0 || e.len != 0

/-- The refusals of R288 for an entry with SAFE = 1. -/
def State.safeEntryOk (s : State) (i : Nat) (e : TrdpEntry) : Bool :=
  !e.safe || (decide (16 ≤ e.len) && (!e.publish || e.mailbox) && (s.sdtChannel e.channel).valid
    && !(s.channelTaken i e.publish e.channel))

/-! ## The sink checks (R284 to R286) -/

/-- A failure that counts towards ERRS; at ERR_LIMIT the channel faults. -/
def State.sdtError (s : State) (c : Nat) : State :=
  let ch := s.sdtChannel c
  let errs := satAdd 255 ch.errs 1
  if errs = fieldOf ch.w0 23 16 then (s.setChannel c { ch with errs := errs, fault := true }).raise 0x1b0 4 []
  else s.setChannel c { ch with errs := errs }

/-- The first check of R285 that a dataset fails, as its order in the table. -/
def SdtChannel.firstFailure (ch : SdtChannel) (data : List Byte) : Option Nat :=
  let t := data.drop (data.length - 16)
  let ssc := beWord t 8
  if ch.fault then some 0
  else if t.take 6 ≠ zeros 6 then some 1
  else if ofBeBytes ((t.drop 6).take 2) ≠ fieldOf ch.w0 15 0 then some 2
  else if beWord t 12 ≠ Config.safetyCode ch.sid (data.take (data.length - 4)) then some 3
  else if ch.rxSeen ∧ ssc = ch.rxSsc then some 4
  else if ch.rxSeen ∧ 2 ^ 31 ≤ (ssc - ch.rxSsc).toNat then some 5
  else none

/-- The checks of R285 on a delivered telegram: its SAFE_FLAGS bits (SDT_CHECKED 3, SSC_GAP 4) where it passes. -/
def State.sdtSink (s : State) (c : Nat) (data : List Byte) : Option Nat × State :=
  let ch := s.sdtChannel c
  if !ch.valid then (none, s.bump 0x1b0 13 1)
  else
    match ch.firstFailure data with
    | some k =>
      let s1 := s.bump 0x1b0 (6 + k) 1
      (none, if k = 0 ∨ k = 4 then s1 else s1.sdtError c)
    | none =>
      let ssc := beWord (data.drop (data.length - 16)) 8
      let gap := ch.rxSeen && decide (1 < (ssc - ch.rxSsc).toNat)
      (some (8 + 16 * gap.toNat), s.setChannel c { ch with rxSeen := true, rxSsc := ssc, errs := ch.errs - 1 })

/-! ## Mailboxes of the offload (R263) -/

/-- A delivery into a mailbox at an offset of shared SRAM: the other buffer, then SEQ (R189). -/
def State.boxWrite (s : State) (off : Nat) (payload : List Byte) (lt : DWord) : State :=
  let q := s.dmaRead (0x10000000 + off) 4
  match q.1 with
  | none => q.2
  | some l =>
    let seq := (ofLeBytes l + 1) % 2 ^ 32
    let buf := leBytes 8 lt.toNat ++ leBytes 4 payload.length ++ zeros 0x34 ++ padTo 1024 payload
    ((q.2.dmaWrite (0x10000000 + off + 0x40 + seq % 2 * 0x440) buf).2.dmaWrite (0x10000000 + off) (leBytes 4 seq)).2

/-- LT of the newest SEQ write that the offload has made to a mailbox. -/
def State.lastBoxWrite (s : State) (off : Nat) : Option DWord :=
  s.net.trdp.foldl (fun b x =>
    if (x.2.word 5).toNat = off then
      (match b, x.2.boxLt with
      | some l, some m => some (if l.toNat < m.toNat then m else l)
      | none, m => m
      | l, none => l)
    else b) none

/-- Entry `e` writes its mailbox now, keeping the LT of the write. -/
def State.entryBoxWrite (s : State) (e : Nat) (payload : List Byte) (lt : DWord) : State :=
  let s1 := s.boxWrite (((s.trdp e).word 5).toNat) payload lt
  s1.setTrdp e { s1.trdp e with boxLt := some s1.time.lt, held := none }

/-- Step 1 of R263 with the spacing rule: less than 10 µs after the last SEQ write the delivery is held, and the newest
one replaces a held one. -/
def State.mailDeliver (s : State) (e : Nat) (payload : List Byte) : State :=
  let t := s.trdp e
  let hold (u : State) : State := u.setTrdp e { u.trdp e with held := some (payload, u.time.lt) }
  if t.held.isSome then hold (s.bump (s.entryPage e) 10 1)
  else
    match s.lastBoxWrite (t.word 5).toNat with
    | some l => if s.time.lt.toNat - l.toNat < 2500 then hold s else s.entryBoxWrite e payload s.time.lt
    | none => s.entryBoxWrite e payload s.time.lt

/-! ## Subscribing (R262, R263) -/

/-- INFO of a receive descriptor (R251). -/
def infoOf (f : Frame) (hit : Option Nat) (lan : Nat) : Word :=
  at' f.vid 0 ||| at' f.pcp 12 ||| flag f.tagged 15 ||| at' (hit.getD 0) 16 ||| flag hit.isSome 27 ||| at' lan 28

/-- Do two topography counters differ, both non-zero? -/
def topoDiffers (a b : Word) : Bool := a != 0#32 && b != 0#32 && a != b

/-- The event counter of the reason for which an entry discards a telegram (R262). -/
def State.telegramFault (s : State) (e : TrdpEntry) (t : Telegram) : Option Nat :=
  if !t.fcsOk then some 4
  else if t.version / 256 ≠ 1 then some 5
  else if 1432 < t.datasetLen ∨ t.data.length < t.datasetLen ∨ (e.len ≠ 0 ∧ e.len ≠ t.datasetLen) then some 6
  else if topoDiffers (s.reg 0x08a Reg.trdp.etbTopocnt) t.etbTopo
      ∨ topoDiffers (s.reg 0x08a Reg.trdp.opTrnTopocnt) t.opTopo then some 7
  else if e.received ∧ t.seq = e.seq then some 8
  else none

/-- The entry's delivery of an accepted telegram (R263): arrival time, mailbox, queue. -/
def State.entryDeliver (s : State) (e : Nat) (f : Frame) (t : Telegram) (lan flags ingress : Nat) (lt : DWord) : State :=
  let x := s.trdp e
  let s1 := (s.setTrdp e { x with seq := t.seq, received := true, timedOut := false, last := s.time.lt }).bump
    (s.entryPage e) 3 1
  let s2 := if x.mailbox then s1.mailDeliver e (t.data.take t.datasetLen) else s1
  s2.rxDeliver (x.fld 0 20 16) f.hostBytes lt 0 flags ingress (infoOf f (some e) lan)

/-- A frame taken by subscribe entry `e` (R262, R281): the checks, for a safe entry the sink's checks, the delivery. -/
def State.entryTake (s : State) (e : Nat) (f : Frame) (lan flags ingress : Nat) (lt : DWord) : State :=
  match f.telegram with
  | none => s
  | some t =>
    let x := s.trdp e
    if !(s.entryOn e) then s
    else match s.telegramFault x t with
    | some k => s.bump (s.entryPage e) k 1
    | none =>
      if x.safe then
        let r := s.sdtSink x.channel (t.data.take t.datasetLen)
        match r.1 with
        | none => r.2
        | some fl => r.2.entryDeliver e f t lan (flags + fl) ingress lt
      else s.entryDeliver e f t lan flags ingress lt

/-- The first valid entry whose filters pass a telegram (R262), of a page that is ON. -/
def State.subscriber (s : State) (f : Frame) : Option Nat :=
  match f.telegram with
  | none => none
  | some t =>
    (s.net.trdp.find? fun x =>
      let pass (w : Word) (v : Nat) : Bool := w == 0#32 || w.toNat == v
      x.2.valid && !x.2.publish && x.2.word 1 == t.comId && pass (x.2.word 2) t.srcIp && pass (x.2.word 3) t.dstIp
        && (x.2.fld 4 27 16 == 0 || x.2.fld 4 27 16 == f.vid) && s.entryOn x.1).map (·.1)

/-- The lowest receive queue that is ON and whose rule a frame meets (R253). -/
def State.classify? (s : State) (f : Frame) : Option Nat :=
  (List.range 32).find? fun q =>
    let r := s.reg (qPage q) Reg.queue.qRule
    s.queueOn q && bitOf r (16 + f.pcp) && (!(bitOf r 30) || fieldOf r 11 0 == f.vid)
      && (!(bitOf r 31) || (match f.comId with
        | some c => decide ((s.reg (qPage q) Reg.queue.qComidLo).toNat ≤ c ∧ c ≤ (s.reg (qPage q) Reg.queue.qComidHi).toNat)
        | none => false))

/-- Where a frame for P6 goes (R248 step 5): an entry (0), a queue (1). -/
def State.hostOf (s : State) (f : Frame) : Option (Nat × Nat) :=
  match s.subscriber f with
  | some e => some (0, e)
  | none => (s.classify? f).map fun q => (1, q)

/-- Is a destination a twin-path one (R246)? -/
def State.twinDest (s : State) (h : Nat × Nat) : Bool :=
  if h.1 = 0 then (s.trdp h.2).safe else bitOf (s.reg (qPage h.2) Reg.queue.qConfig) 1

/-! ## P6 and its deliveries -/

/-- A frame's copy for P6 leaves, and its destination takes the frame (R253, R263, R281). -/
def State.sendHost (s : State) (f : StoredFrame) (k : EgressCopy) : State :=
  let s1 := s.sendCopy f k
  match f.host with
  | none => s1
  | some h =>
    if h.1 = 0 then s1.entryTake h.2 f.frame f.lan f.flags (2 ^ f.ingress) k.since
    else s1.rxDeliver h.2 f.frame.hostBytes k.since 0 f.flags (2 ^ f.ingress) (infoOf f.frame none f.lan)

/-- A stored frame's copy for P6 is free to leave: at once, unless PT_EGRESS holds its class (R462). -/
def State.toHost (s : State) (h : Nat) : State :=
  match s.net.frames.find? (·.handle == h) with
  | none => s
  | some f =>
    match f.copies.find? (·.port == 6) with
    | none => s
    | some k => if s.egressHeld 6 k.cls then s.ptApplied else s.sendHost f k

/-! ## The twin-path comparator (R276 to R281) -/

/-- TWIN_WINDOW in LT ticks. -/
def State.twinWindow (s : State) : Nat := s.field 0x1b0 Reg.safeData.twinConfig 15 0 * 2500
def State.setTwins (s : State) (t : Tbl TwinSlot) : State := s.setNet { s.net with twins := t }
/-- The slot of a twin key. -/
def State.twinSlot (s : State) (kind dest src : Nat) (seq : BitVec 16) : Option (Nat × TwinSlot) :=
  s.net.twins.find? fun e => e.2.kind == kind && e.2.dest == dest && e.2.src == src && e.2.seq == seq
/-- The lowest FREE slot. -/
def State.freeTwin (s : State) : Option Nat := (List.range 256).find? fun i => !(s.net.twins.any fun e => e.1 == i)

/-- PATH_A_DOWN and PATH_B_DOWN of SAFE_FLAGS. -/
def State.pathFlags (s : State) : Nat := 2 * s.net.pathDown.toNat

/-- The single-path count of a missing LAN (R280). -/
def State.missedLan (s : State) (lan : Nat) : State :=
  let old := if lan = 0 then s.net.single.1 else s.net.single.2
  let n := satAdd 255 old 1
  let s1 := (s.setNet { s.net with single := if lan = 0 then (n, s.net.single.2) else (s.net.single.1, n) }).recAdd (0x6a0 + 4 * lan) 1
  if n = s.field 0x1b0 Reg.safeData.twinConfig 23 16 ∧ n ≠ old then
    (s1.setNet { s1.net with pathDown := s1.net.pathDown ||| BitVec.ofNat 2 (2 ^ lan) }).raise 0x1b0 lan []
  else s1

/-- The comparator's delivery of a held copy with a LAN and SAFE_FLAGS. -/
def State.twinDeliver (s : State) (h lan flags : Nat) : State :=
  match s.net.frames.find? (·.handle == h) with
  | none => s
  | some f => (s.putFrame { f with lan := lan, flags := flags }).toHost h

/-- The copy that a slot or an arrival holds for P6 discarded. -/
def State.dropHost (s : State) (h : Nat) : State :=
  match s.net.frames.find? (·.handle == h) with
  | none => s
  | some f => (s.putFrame { f with copies := f.copies.filter (·.port != 6) }).finish h

/-- A held copy's window elapses (R278): it is delivered alone, the other LAN's count grows, the slot lingers. -/
def State.twinExpire (s : State) (i : Nat) (t : TwinSlot) : State :=
  match t.handle with
  | none => s
  | some h =>
    let s1 := (s.setTwins (tblPut s.net.twins i { t with handle := none })).missedLan (1 - t.lan)
    (s1.bump 0x1b0 4 1).twinDeliver h (1 + t.lan) (1 + s1.pathFlags)

/-- Window and linger time of a slot that have elapsed at this LT take effect before an arrival (R279). -/
def State.twinCatchUp (s : State) (i : Nat) (t : TwinSlot) : State :=
  let age := s.time.lt.toNat - t.lt.toNat
  let s1 := if s.twinWindow ≤ age then s.twinExpire i t else s
  if 2 * s.twinWindow ≤ age then s1.setTwins (tblErase s1.net.twins i) else s1

/-- Two identical copies (R278): one is delivered with LAN 3, both counts become 0, PATH_DOWN clears. -/
def State.twinMatch (s : State) (i held arrived : Nat) : State :=
  let s1 := (s.setTwins (tblErase s.net.twins i)).dropHost arrived
  let s2 := s1.setNet { s1.net with single := (0, 0), pathDown := 0#2 }
  (s2.bump 0x1b0 3 1).twinDeliver held 3 0

/-- Two copies that differ: both are discarded. -/
def State.twinMismatch (s : State) (i held arrived : Nat) : State :=
  let s1 := ((s.setTwins (tblErase s.net.twins i)).dropHost arrived).dropHost held
  ((s1.satReg 0x1b0 Reg.safeData.twinMismatches 1).raise 0x1b0 2 []).bump 0x1b0 5 1

/-- A copy with handle `h` arrives at the comparator (R278). -/
def State.twinArrive (s : State) (h : Nat) (f : Frame) (dst : Nat × Nat) (lan : Nat) (seq : BitVec 16) : State :=
  let s0 := match s.twinSlot dst.1 dst.2 f.src seq with
    | some q => s.twinCatchUp q.1 q.2
    | none => s
  match s0.twinSlot dst.1 dst.2 f.src seq with
  | none =>
    (match s0.freeTwin with
    | none => ((s0.dropHost h).raise 0x1b0 3 []).bump 0x1b0 14 1
    | some i => s0.setTwins (tblPut s0.net.twins i ⟨dst.1, dst.2, f.src, seq, lan, s0.time.lt, some h⟩))
  | some q =>
    (match q.2.handle with
    | none => (s0.dropHost h).bump 0x1b0 2 1
    | some g =>
      if q.2.lan = lan then (s0.dropHost h).bump 0x1b0 1 1
      else if (s0.net.frames.find? (·.handle == g)).map (·.frame.hostBytes) = some f.hostBytes then s0.twinMatch q.1 g h
      else s0.twinMismatch q.1 g h)

end Sys2Proof.Machine
end

