-- ==== Sys2Proof/Machine/Switch.lean ====
section
/-!
DEFINITION. The switch (chapter 08): the path of a received frame (R248), forwarding and learning (R232, R233), stream
filters and recovery (R242, R243), PRP and RedBox (R244 to R247), 802.1AS (R241); and the meanings of its commands.
-/
namespace Sys2Proof.Machine

/-! ## 802.1AS (R241) -/

def State.gptpOn (s : State) : Bool := s.working 0x08d
def State.slavePort (s : State) : Nat := s.field 0x08d Reg.gptp.asConfig 2 0
/-- A received 802.1AS frame (EtherType 0x88F7), taken by the time-aware system (PRESUMED, log entry 30): a Sync
(messageType 0) of the slave port is counted, and AS_STATUS shows it. -/
def State.gptpReceive (s : State) (port : Nat) (f : Frame) : State :=
  if s.gptpOn ∧ port = s.slavePort ∧ (f.body.getD 2 0#8).toNat % 16 = 0 then
    (s.bump 0x08d 0 1).setReg 0x08d Reg.gptp.asStatus (setBit (s.reg 0x08d Reg.gptp.asStatus) 8 true)
  else s

/-! ## PRP and RedBox (R244 to R247) -/

/-- A RedBox in force. -/
def State.redbox (s : State) : Bool := s.prpActs && bitOf (s.reg 0x08c Reg.prp.prpCtrl) 1
def findProxy (t : Tbl Proxy) (mac : Nat) : Option Proxy := (t.find? fun e => e.1 == mac).map (·.2)

/-- A SAN's source address learned into the proxy table (R247). -/
def State.learnProxy (s : State) (port mac : Nat) : State :=
  if !s.redbox ∨ port < 2 ∨ 5 < port then s
  else match findProxy s.net.proxies mac with
    | some x => s.setNet { s.net with proxies := tblPut s.net.proxies mac { x with port := port } }
    | none =>
      if 128 ≤ s.net.proxies.length then s.raise 0x08c 1 []
      else s.setNet { s.net with proxies := tblPut s.net.proxies mac ⟨port, 0#16⟩ }

/-- Whose counter numbers a frame that leaves on the backbone: the module's, a proxied SAN's, or none (an ordinary
frame). -/
inductive PrpOrigin where
  | module
  | proxy (mac : Nat)
  | ordinary
  deriving DecidableEq, Repr

/-- The next sequence number of an origin. -/
def State.takePrpSeq (s : State) (o : PrpOrigin) : BitVec 16 × State :=
  match o with
  | .proxy mac =>
    match findProxy s.net.proxies mac with
    | some x => (x.seq, s.setNet { s.net with proxies := tblPut s.net.proxies mac { x with seq := x.seq + 1 } })
    | none => (s.net.prpSeq, s)
  | _ => (s.net.prpSeq, s.setNet { s.net with prpSeq := s.net.prpSeq + 1 })

/-- The egress copies of a frame for a set of ports (bit p port p): with PRP, a frame of the module or of a proxied SAN
for P0 or P1 goes to both with one sequence number (R244). -/
def State.copiesFor (s : State) (ports cls : Nat) (o : PrpOrigin) : List EgressCopy × State :=
  let mk (set : Nat) (tr : Nat → Option (BitVec 16 × Nat)) : List EgressCopy :=
    ((List.range 8).filter fun p => set.testBit p && s.portOn p).map fun p => ⟨p, cls, s.time.lt, tr p, false⟩
  if s.prpActs ∧ o ≠ .ordinary ∧ ports % 4 ≠ 0 then
    let q := s.takePrpSeq o
    (mk (ports ||| 3) (fun p => if p < 2 then some (q.1, 0xa + p) else none), q.2.bump 0x08c 0 1)
  else (mk ports (fun _ => none), s)

def findNode (t : Tbl (List PrpSeen)) (mac : Nat) : Option (List PrpSeen) := (t.find? fun e => e.1 == mac).map (·.2)

/-- Duplicate discard (R245): is the frame a duplicate, and the node table after it? -/
def State.duplicate (s : State) (src : Nat) (seq : BitVec 16) (lan : Nat) : Bool × State :=
  let forget := s.field 0x08c Reg.prp.prpForget 15 0 * 250000
  let put (l : List PrpSeen) : State :=
    s.setNet { s.net with nodes := tblPut s.net.nodes src ((⟨seq, lan, s.time.lt⟩ :: l).take 64) }
  match findNode s.net.nodes src with
  | none => if 1024 ≤ s.net.nodes.length then (false, s.raise 0x08c 0 []) else (false, put [])
  | some l =>
    if l.any fun x => x.seq == seq && x.lan != lan && decide (s.time.lt.toNat - x.lt.toNat < forget) then
      (true, s.bump 0x08c 1 1)
    else (false, put l)

/-! ## Stream filters and recovery (R242, R243) -/

def streamReset (_ : Nat) : StreamFilter := ⟨0#32, 0#32, 0#32⟩
def State.stream (s : State) (i : Nat) : StreamFilter := tblRead streamReset s.net.streams i
def meterReset (_ : Nat) : Meter := ⟨0, 0, 0, 0#64⟩
def State.meter (s : State) (i : Nat) : Meter := tblRead meterReset s.net.meters i
def State.setMeter (s : State) (i : Nat) (v : Meter) : State :=
  s.setNet { s.net with meters := tblWrite meterReset s.net.meters i v }

/-- Does a filter match a frame? -/
def StreamFilter.matchesFrame (x : StreamFilter) (f : Frame) : Bool :=
  bitOf x.w0 31 && (if bitOf x.w0 29 then f.src else f.dst) == x.w1.toNat + fieldOf x.w0 15 0 * 2 ^ 32
    && fieldOf x.w0 27 16 == f.vid

/-- A meter asked for a frame of `n` bytes: tokens grow by CIR up to CBS; the frame passes where they suffice. -/
def State.meterPass (s : State) (i n : Nat) : Bool × State :=
  let m := s.meter i
  let grown := min (m.cbs * 2000000) (m.tokens + m.cir * (s.time.lt.toNat - m.since.toNat))
  if grown < n * 2000000 then (false, s.setMeter i { m with tokens := grown, since := s.time.lt })
  else (true, s.setMeter i { m with tokens := grown - n * 2000000, since := s.time.lt })

/-- The vector recovery algorithm (R243): accepted or not, with the event counter of page 0x08E. -/
def recoverSeq (r : Option Recovery) (seq : BitVec 16) : Bool × Nat × Option Recovery :=
  match r with
  | none => (true, 2, some ⟨seq, 1#32⟩)
  | some r =>
    let d := (seq - r.newest).toInt
    if 0 < d ∧ d ≤ 32 then (true, 2, some ⟨seq, (r.seen <<< d.toNat) ||| 1#32⟩)
    else if d ≤ 0 ∧ -32 < d then
      if r.seen.getLsbD d.natAbs then (false, 3, some r)
      else (true, 2, some { r with seen := r.seen ||| (1#32 <<< d.natAbs) })
    else if d = -32 then (true, 2, some r)
    else (false, 4, some r)

def findRecovery (t : Tbl Recovery) (i : Nat) : Option Recovery := (t.find? fun e => e.1 == i).map (·.2)

/-- The recovery of a filter applied to a frame. -/
def State.recover (s : State) (i : Nat) (f : Frame) : Bool × State :=
  match f.rtag with
  | none => (true, s)
  | some q =>
    let r := recoverSeq (findRecovery s.net.recovery i) q
    let s1 := s.bump 0x08e r.2.1 1
    (r.1, match r.2.2 with
      | some v => s1.setNet { s1.net with recovery := tblPut s1.net.recovery i v }
      | none => s1)

/-- The first matching filter applied (R242): does the frame pass? -/
def State.streamPass (s : State) (f : Frame) : Bool × State :=
  if !((s.page 0x08e).run == .on) then (true, s)
  else
    match s.net.streams.find? fun e => e.2.matchesFrame f with
    | none => (true, s)
    | some e =>
      let x := e.2
      let sdu := fieldOf x.w2 10 0
      if sdu ≠ 0 ∧ sdu < f.length then (false, s.bump 0x08e 0 1)
      else
        let m := if bitOf x.w2 23 then s.meterPass (fieldOf x.w2 22 16) f.length else (true, s)
        if !m.1 then (false, m.2.bump 0x08e 1 1)
        else if bitOf x.w0 30 then m.2.recover e.1 f else m

/-! ## Forwarding (R232, R233) -/

def fdbKey (mac vid : Nat) : Nat := mac * 4096 + vid
def findFdb (t : Tbl FdbEntry) (k : Nat) : Option FdbEntry := (t.find? fun e => e.1 == k).map (·.2)

/-- The VID, and for an untagged frame the PCP, that a port assigns. -/
def State.assignVid (s : State) (port : Nat) (f : Frame) : Frame :=
  let w := s.reg (portPage port) Reg.port.portVlan
  if !f.tagged then { f with vid := fieldOf w 11 0, pcp := fieldOf w 14 12 }
  else if f.vid = 0 then { f with vid := fieldOf w 11 0 } else f

/-- Is a frame discarded by its VID? -/
def State.vidRefused (s : State) (port : Nat) (f : Frame) : Bool :=
  f.vid == 4095 || !((s.vlanMembers f.vid).testBit port)

/-- A source address learned on P0 to P5. -/
def State.learn (s : State) (port : Nat) (f : Frame) : State :=
  if 6 ≤ port ∨ !(bitOf (s.reg 0x089 Reg.bridge.bridgeCtrl) 0) then s
  else
    let k := fdbKey f.src f.vid
    match findFdb s.net.fdb k with
    | some e => if e.static then s else s.setNet { s.net with fdb := tblPut s.net.fdb k ⟨2 ^ port, false, s.time.lt⟩ }
    | none =>
      if 8192 ≤ s.net.fdb.length then s
      else (s.setNet { s.net with fdb := tblPut s.net.fdb k ⟨2 ^ port, false, s.time.lt⟩ }).bump 0x089 2 1

/-- The destination set of a frame (R233): a hit's ports, or every MEMBER port; without the ingress port. -/
def State.lookup (s : State) (port : Nat) (f : Frame) : Nat × State :=
  let flood := (s.vlanMembers f.vid) &&& (255 - 2 ^ port)
  if f.dst = broadcastMac then (flood, s)
  else match findFdb s.net.fdb (fdbKey f.dst f.vid) with
    | some e => (e.ports &&& (255 - 2 ^ port), s.bump 0x089 0 1)
    | none => (flood, s.bump 0x089 1 1)

/-- Ports without those that a frame may not take: not ON, and with PRP no way from P0 to P1 or back (R244). -/
def State.allowed (s : State) (port ports : Nat) : Nat :=
  let l := (List.range 8).filter fun p =>
    ports.testBit p && s.portOn p && !(s.prpActs && ((port == 0 && p == 1) || (port == 1 && p == 0)))
  (l.map fun p => 2 ^ p).sum

/-! ## The path of a received frame (R248) -/

/-- The redundancy trailer of a frame on P0 or P1 taken off (R245). -/
def State.takeTrailer (s : State) (port : Nat) (f : Frame) : Option (BitVec 16) × Frame × State :=
  if s.prpActs ∧ port < 2 then
    match f.trailer with
    | some t => (some t.1, f.noTrailer, if t.2 = 0xa + port then s else s.bump (portPage port) 13 1)
    | none => (none, f, s.bump (portPage port) 14 1)
  else (none, f, s)

/-- The origin under R244 of a frame received on a port. -/
def State.originOf (s : State) (port : Nat) (f : Frame) : PrpOrigin :=
  if port = 6 then .module
  else if s.redbox ∧ (findProxy s.net.proxies f.src).isSome then .proxy f.src
  else .ordinary

/-- Where a frame's P6 copy goes: the destination and whether the comparator takes it; `none` takes P6 out of the
destination set (unclassified, or not twin). -/
def State.hostPlan (s : State) (port ports : Nat) (f : Frame) (tr : Option (BitVec 16)) : Option (Nat × Nat) × Bool × State :=
  if !(ports.testBit 6) then (none, false, s)
  else match s.hostOf f with
    | none => (none, false, s.bump 0x080 3 1)
    | some h =>
      if s.twinDest h then
        (if tr.isSome ∧ port < 2 then (some h, true, s) else (none, true, s.bump 0x1b0 0 1))
      else (some h, false, s)

/-- Duplicate discard, admission and P6's delivery (R248 steps 6 and 7, R276). -/
def State.admitReceived (s : State) (port ports : Nat) (f : Frame) (tr : Option (BitVec 16)) (o : PrpOrigin) : State :=
  let h := s.hostPlan port ports f tr
  let twin := h.2.1
  let set := if h.1.isSome then ports else ports &&& (255 - 64)
  let d := match tr, twin with
    | some q, false => h.2.2.duplicate f.src q port
    | _, _ => (false, h.2.2)
  if d.1 then d.2
  else
    let cls := s.pcpClass f.pcp
    let c := d.2.copiesFor set cls o
    if c.1.isEmpty then c.2
    else
      let s1 := c.2.admitted f .port port (if tr.isSome then 1 + port else 0) cls h.1 c.1
      let k := c.2.net.nextHandle
      if s1.net.nextHandle = k then s1
      else match h.1, tr, twin with
        | some dst, some q, true =>
          if s1.net.frames.any fun g => g.handle == k && g.copies.any (·.port == 6) then s1.twinArrive k f dst port q
          else s1
        | _, _, _ => s1.toHost k

/-- R248 from the stream filters on, with the trailer off. `forced` is the loop's destination set {P6} (R289). -/
def State.forward (s : State) (port : Nat) (f0 : Frame) (tr : Option (BitVec 16)) (forced : Bool) : State :=
  let f := s.assignVid port f0
  if s.vidRefused port f then s.bump (portPage port) 7 1
  else
    let m := s.streamPass f
    if !m.1 then m.2
    else if !(s.working 0x089) then m.2
    else if forced then m.2.admitReceived port (m.2.allowed port 64) f tr .ordinary
    else
      let s1 := (m.2.learn port f).learnProxy port f.src
      let l := s1.lookup port f
      l.2.admitReceived port (l.2.allowed port l.1) f tr (l.2.originOf port f)

/-- PT_DROP (R462): is a frame received on LAN A (P0) or LAN B (P1) dropped? One count of frames serves both LANs
(DESIGN CHOICE, log entry 32). -/
def State.ptDrop (s : State) (port : Nat) : Bool × State :=
  let w := s.pt Reg.perturb.ptDrop
  if port < 2 ∧ bitOf w port then
    let n := s.obs.dropCount + 1
    let hit := fieldOf w 23 8 = 0 ∨ n % fieldOf w 23 8 = 0
    let s1 := { s with obs := { s.obs with dropCount := n } }
    (decide hit, if hit then s1.ptApplied else s1)
  else (false, s)

/-- R248 from step 2 on: the point where frames from the port's MAC enter the receive path. -/
def State.receivePath (s : State) (port : Nat) (f : Frame) (forced : Bool) : State :=
  let d := s.ptDrop port
  if d.1 then d.2
  else if f.etherType = 0x8808 then d.2.bump (portPage port) 8 1
  else if f.etherType = 0x88f7 then d.2.gptpReceive port f
  else
    let t := d.2.takeTrailer port f
    let s1 := if t.2.1.etherType = 0x88fb ∧ s.prpActs then t.2.2.bump 0x08c 3 1 else t.2.2
    s1.forward port t.2.1 t.1 forced

/-- FRAME_RECEIVE (R231, R248): a frame without its FCS arrives at a port that is ON and has LINK. -/
def State.doFrameReceive (s : State) (port : Nat) (bs : List Byte) (fcsOk : Bool) : State :=
  if !(s.working (portPage port)) ∨ !(s.swPort port).link then s
  else
    let n := bs.length + 4
    let s1 := ((s.bump (portPage port) 0 1).bump (portPage port) 2 n).bw port n
    if !fcsOk then s1.bump (portPage port) 4 1
    else if n < 64 then s1.bump (portPage port) 5 1
    else if s1.maxFrame port < n then s1.bump (portPage port) 6 1
    else s1.receivePath port (parseFrame bs) false

def execFrameReceive (port : Fin 8) (frame : List Byte) (fcsOk : Bool) (s : State) : Result :=
  .next (s.doFrameReceive port.val frame fcsOk)

/-! ## Frames from the host -/

/-- A frame enters the switch as from P6 for given ports (R251, R259): copies for ports whose MAX_FRAME it exceeds are
discarded as OVERSIZE. -/
def State.enterHost (s : State) (f0 : Frame) (src : FrameSource) (cls ports : Nat) (lines : Bool) : State :=
  let f := s.assignVid 6 f0
  if !(s.portOn 6) ∨ !((s.page 0x089).run == .on) then s.txOutcome src 0 5 0 none
  else
    let s1 := ((s.bump (portPage 6) 0 1).bump (portPage 6) 2 f.length).bw 6 f.length
    let fwd := decide (ports = 0)
    if fwd ∧ s1.vidRefused 6 f then (s1.bump (portPage 6) 7 1).txOutcome src 0 5 0 none
    else
      let l := if fwd then s1.lookup 6 f else (ports, s1)
      let set := l.2.allowed 6 l.1
      let c := l.2.copiesFor set cls .module
      let fit := c.1.filter fun k => decide (f.length ≤ s.maxFrame k.port)
      if !lines then c.2.txOutcome src 0 5 0 none
      else if fit.isEmpty then c.2.txOutcome src 0 (if c.1.isEmpty then 5 else 1) 0 none
      else c.2.admitted f src 6 0 cls none fit

/-- DESCRIPTOR_FETCH (R249, R271): a receive queue fetches at most 4 ahead; a transmit queue at most 8, reads the frame
and hands it to the switch at its CLASS towards Q_PORTS, or by R233 where Q_PORTS is 0. -/
def State.doDescriptorFetch (s : State) (q : Nat) : State :=
  if !(s.queueOn q) ∨ (if q < 32 then 4 else 8) ≤ (s.ring q).active.length then s
  else
    let r := s.fetchOne q
    match r.1 with
    | none => r.2
    | some d =>
      if q < 32 then r.2
      else
        let b := r.2.dmaRead d.addr d.len
        match b.1 with
        | none => (b.2.queueAccessError q).txOutcome (.queue q d.n) 0 2 0 none
        | some bytes =>
          (b.2.moved q d.len).enterHost (parseFrame bytes).pad (.queue q d.n) (s.field (qPage q) Reg.queue.qConfig 6 4)
            (s.field (qPage q) Reg.queue.qPorts 5 0) true

def execDescriptorFetch (q : Fin 64) (s : State) : Result := .next (s.doDescriptorFetch q.val)
def execDescriptorWriteBack (q : Fin 64) (s : State) : Result := .next (s.doWriteBack q.val)

/-- QUEUE_IRQ_TIMER (R255). -/
def State.doQueueIrqTimer (s : State) (q : Nat) : State :=
  if s.field (qPage q) Reg.queue.qIrqTime 15 0 ≠ 0 ∧ s.field (qPage q) Reg.queue.qIrq 7 0 ≠ 0
      ∧ (s.ring q).unsignalled ≠ 0 then s.queueIrq q else s

def execQueueIrqTimer (q : Fin 64) (s : State) : Result := .next (s.doQueueIrqTimer q.val)

/-- May a POSTED count take a value (R250)? Both differences, modulo 2^32, are at most the ring's size. -/
def postOk (new posted seq : Word) (log2 : Nat) : Bool :=
  decide (seqDist posted new ≤ 2 ^ log2 ∧ seqDist seq new ≤ 2 ^ log2)

/-- Q_POSTED_WRITE (R250). -/
def State.postQueue (s : State) (q : Nat) (v : Word) : State :=
  if postOk v (s.ring q).posted (s.qSeq q) (s.field (qPage q) Reg.queue.qConfig 12 8) then
    s.setRing q { s.ring q with posted := v }
  else s.raise (qPage q) 0 []

def execQPostedWrite (m : Master) (q : Fin 64) (v : Word) (s : State) : Result :=
  .next (s.written m (qPage q.val) Reg.queue.qPosted fun t => t.postQueue q.val v)

/-! ## Publishing (R259 to R261, R287, R289, R434) -/

/-- Bytes of shared SRAM at an offset as the offload reads them; a refused read gives zeros (R32). -/
def State.offloadRead (s : State) (off n : Nat) : List Byte × State :=
  let r := s.dmaRead (0x10000000 + off) n
  (r.1.getD (zeros n), r.2)

/-- A mailbox source (R260): its SEQ and the first `n` bytes of the newest buffer, 0 beyond its LENGTH. -/
def State.boxSource (s : State) (off n : Nat) : Nat × List Byte × State :=
  let q := s.offloadRead off 4
  let seq := ofLeBytes q.1
  if seq = 0 then (0, [], q.2)
  else
    let h := q.2.offloadRead (off + 0x40 + seq % 2 * 0x440 + 8) 4
    let len := min (min (ofLeBytes h.1) 1024) n
    let d := h.2.offloadRead (off + 0x40 + seq % 2 * 0x440 + 0x40) len
    (seq, padTo n d.1, d.2)

/-- The announcement's dataset (R434). -/
def State.announcement (s : State) : List Byte :=
  leBytes 4 0x4e4e4158 ++ leBytes 8 s.ps.nv.otp.unitId.toNat ++ leBytes 1 (if s.inLockout then 2 else 1)
    ++ leBytes 1 (s.sup.safeState.getD 0) ++ leBytes 2 s.sup.safeOrigin ++ leBytes 4 s.sup.latch.seq.toNat
    ++ leBytes 8 (if s.time.ntValid then s.time.nt.toNat else 0) ++ zeros 4

/-- Is entry `e` the announcement's (R434)? -/
def State.isAnnounce (s : State) (e : Nat) : Bool :=
  bitOf (s.reg 0x180 Reg.supervisor.announceEntry) 31 && s.field 0x180 Reg.supervisor.announceEntry 10 0 == e

def State.loopOn (s : State) : Bool := bitOf (s.reg 0x1b0 Reg.safeData.loopCtrl) 0

/-- The dataset of a firing (R260, R287): none where it is empty or withheld. -/
def State.publishData (s : State) (e : Nat) : Option (List Byte) × State :=
  let x := s.trdp e
  let n := x.len
  if !x.mailbox then
    let r := s.offloadRead (x.word 5).toNat n
    (some r.1, r.2)
  else
    let b := s.boxSource (x.word 5).toNat n
    if !x.safe then (if b.1 = 0 then (none, b.2.2.bump (s.entryPage e) 1 1) else (some b.2.1, b.2.2))
    else
      let ch := s.sdtChannel x.channel
      if !ch.valid then (none, b.2.2.bump 0x1b0 13 1)
      else if (!s.sup.grant ∧ !s.loopOn) ∨ b.1 = 0 ∨ b.1 = ch.published then (none, b.2.2.bump 0x1b0 12 1)
      else
        let d := b.2.1.take (n - 16) ++ zeros 6 ++ beBytes 2 (fieldOf ch.w0 15 0) ++ beBytes 4 ch.next.toNat
        (some (d ++ beBytes 4 (Config.safetyCode ch.sid d).toNat),
          b.2.2.setChannel x.channel { ch with next := ch.next + 1, published := b.1 })

/-- The frame of a publish (R259). -/
def State.publishFrame (s : State) (e : Nat) (data : List Byte) : Frame :=
  let x := s.trdp e
  let vid := x.fld 4 27 16
  let pcp := x.fld 0 23 21
  let head := trdpHeader x.nextSeq (x.word 1) (s.reg 0x08a Reg.trdp.etbTopocnt) (s.reg 0x08a Reg.trdp.opTrnTopocnt) x.len
  Frame.pad
    ⟨(x.word 3).toNat + x.fld 4 15 0 * 2 ^ 32, s.hostMac, vid != 0, vid, pcp, false,
     udpBody (s.reg 0x089 Reg.bridge.hostIp).toNat (x.word 2).toNat (8 * pcp) s.net.ipId (head ++ data)⟩

/-- A frame still waiting from an earlier publish of the entry is removed (R261). -/
def State.supersede (s : State) (e : Nat) : State :=
  if s.net.frames.any fun f => f.source == .entry e then
    (s.setNet { s.net with frames := s.net.frames.filter fun f => f.source != .entry e }).bump (s.entryPage e) 2 1
  else s

/-- The two copies of a safe publish injected into the receive paths of P0 and P1 (R289), with the sequence number that
their line copies carry. -/
def State.inject (s : State) (f : Frame) (seq : Option (BitVec 16)) : State :=
  [0, 1].foldl (fun t p =>
    if t.portOn p then
      (t.bump 0x1b0 15 1).receivePath p (match seq with | some q => f.withTrailer q (0xa + p) | none => f) true
    else t) s

/-- A firing's publish (R259 to R261, R287, R289). -/
def State.publishNow (s : State) (e : Nat) : State :=
  let d := s.publishData e
  match d.1 with
  | none => d.2
  | some data =>
    let s0 := d.2.supersede e
    let f := s0.publishFrame e data
    let x := s0.trdp e
    let prp := s0.net.prpSeq
    let sent := s0.setTrdp e { x with seq := x.nextSeq, received := true, last := s0.time.lt }
    let s1 := (sent.setNet { sent.net with ipId := s0.net.ipId + 1 }).bump (s0.entryPage e) 0 1
    let s2 := s1.enterHost f (.entry e) (s1.pcpClass (x.fld 0 23 21)) (x.fld 6 5 0) (!x.safe || s1.sup.grant)
    if x.safe ∧ s.loopOn ∧ x.fld 6 1 0 ≠ 0 then
      s2.inject f (if s1.prpActs ∧ s2.net.prpSeq ≠ prp then some prp else none)
    else s2

/-- A firing of a publish entry (R259, R434): the announcement's firings are withheld except while the safe state holds,
and its dataset is written first. -/
def State.fireEntry (s : State) (e : Nat) : State :=
  let x := s.trdp e
  if !x.valid ∨ !x.publish ∨ !(s.entryOn e) then s
  else if s.isAnnounce e then
    if s.sup.safeState.isNone then s
    else
      let w := (s.dmaWrite (0x10000000 + (x.word 5).toNat) s.announcement).2
      (w.setNet { w.net with announced := w.net.announced + 1 }).publishNow e
  else s.publishNow e

/-- The announcement at the entry into the safe state (R432 item 3, R434). -/
def State.announce (s : State) : State :=
  if bitOf (s.reg 0x180 Reg.supervisor.announceEntry) 31 then
    let e := s.field 0x180 Reg.supervisor.announceEntry 10 0
    if (s.trdp e).safe ∨ (s.trdp e).mailbox then s else s.fireEntry e
  else s

/-- SLOT_FIRE (R222, R259): a due slot fires, and every publish entry of that slot publishes. -/
def State.doSlotFire (s : State) (n : Nat) : State :=
  if !(s.slotDue n) then s
  else
    let s1 := s.fireSlot n
    let l := (s1.net.trdp.filter fun x => x.2.valid && x.2.publish && x.2.fld 0 17 12 == n).map (·.1)
    l.foldl (fun t e => t.fireEntry e) s1

def execSlotFire (slot : Fin 64) (s : State) : Result := .next (s.doSlotFire slot.val)

/-! ## Egress -/

/-- FRAME_TRANSMIT (R234): the oldest frame of the highest class that may send leaves the port; from P6 it goes to its
destination. -/
def State.doFrameTransmit (s : State) (p : Nat) : State :=
  if !(s.working (portPage p)) ∨ !(s.swPort p).link then s
  else
    let s1 := (s.settle p).markGated p
    match s1.nextClass p with
    | none => s1.markPerturbed p
    | some c =>
      match s1.headOf p c with
      | none => s1
      | some h => if p = 6 then (s1.markPerturbed p).sendHost h.1 h.2 else (s1.markPerturbed p).sendCopy h.1 h.2

def execFrameTransmit (port : Fin 8) (s : State) : Result := .next (s.doFrameTransmit port.val)

/-- TX_AGE_LIMIT (R240): the oldest frame of a class has waited its limit. -/
def State.doTxAgeLimit (s : State) (p c : Nat) : State :=
  match (s.settle p).headOf p c with
  | none => s
  | some h =>
    (((s.settle p).discardCopies 4 fun f k => f.handle == h.1.handle && k == h.2).bump (portPage p) 10 1).settle p

def execTxAgeLimit (port : Fin 8) (cls : Fin 8) (s : State) : Result := .next (s.doTxAgeLimit port.val cls.val)

/-- Every queued copy of a port discarded (R251 DROPPED_PORT, R265); copies that the comparator holds stay. -/
def State.dropEgress (s : State) (p : Nat) : State :=
  (s.settle p).discardCopies 5 fun f k => k.port == p && !(p == 6 && s.twinHeld f.handle)

/-- LINK_LOST (R275): LINK falls; while the port is ON it is latched and its queued frames are discarded. -/
def State.doLinkLost (s : State) (p : Nat) : State :=
  if !(s.swPort p).link ∨ 6 ≤ p then s
  else
    let s1 := s.setSwPort p { s.swPort p with link := false, speed := 0 }
    if s1.portOn p then ((s1.dropEgress p).raise (portPage p) 0 []).bump (portPage p) 12 1 else s1

def execLinkLost (port : Fin 8) (s : State) : Result := .next (s.doLinkLost port.val)

/-- SPEED of a MODE (R229); an auto-negotiated or fixed SGMII speed is 1 Gbit/s or 100 Mbit/s. -/
def speedOfMode (mode : Nat) (partner : Nat) (autoneg : Bool) : Nat :=
  if mode = 1 then 4
  else if mode = 4 then 3
  else if mode = 2 ∨ mode = 3 then (if autoneg then (if partner = 1 ∨ partner = 2 then partner else 0)
    else if mode = 2 then 2 else 1)
  else 0

/-- LINK_UP (R230): with AUTONEG on an SGMII port the partner's speed (1 100 Mbit/s, 2 1 Gbit/s; any other partner,
10 Mbit/s or half duplex, leaves LINK at 0); otherwise the speed of MODE. -/
def State.doLinkUp (s : State) (p partner : Nat) : State :=
  if 6 ≤ p then s
  else
    let w := s.reg (portPage p) Reg.port.portConfig
    let v := speedOfMode (fieldOf w 3 0) partner (bitOf w 8)
    if v = 0 ∨ !(s.portOn p) then s else s.setSwPort p { s.swPort p with link := true, speed := v }

def execLinkUp (port : Fin 8) (partner : Fin 4) (s : State) : Result := .next (s.doLinkUp port.val partner.val)

/-! ## Gates (R237, R238) -/

/-- Is every admin entry in use longer than 0? -/
def State.adminOk (s : State) (p : Nat) : Bool :=
  (List.range (s.field (portPage p) Reg.port.gclAdminLen 6 0)).all fun i =>
    entryNs (s.gclEntry p (1 - (s.swPort p).bank) i) != 0

/-- GATE_SWAP for one port. -/
def State.gateSwap (s : State) (p : Nat) : State :=
  if !(s.qbv p) then s
  else if (s.swPort p).swapPending ∨ !(s.adminOk p) then s.raise (portPage p) 1 []
  else s.setSwPort p { s.swPort p with swapPending := true }

def execGateSwap (slot : Fin 64) (s : State) : Result :=
  .next (s.takeAction slot.val 5 fun t arg =>
    (List.range 6).foldl (fun u p => if bitOf arg p then u.gateSwap p else u) t)

/-- GATE_CYCLE_START (R237, R238): a pending swap takes place, and the list restarts. -/
def State.doGateCycleStart (s : State) (p : Nat) : State :=
  if !(s.qbv p) then s
  else
    let s1 := s.settle p
    let g := s1.swPort p
    let base := (s1.reg64 (portPage p) Reg.port.gclBaseLo).toNat
    let t := cycleStart base (s1.reg (portPage p) Reg.port.gclCycle).toNat s1.time.nt.toNat
    let g1 := { g with entry := 0, started := t, cycle := t }
    s1.setSwPort p
      (if g.swapPending then
        { g1 with bank := 1 - g.bank, operLen := s1.field (portPage p) Reg.port.gclAdminLen 6 0, swapPending := false }
      else g1)

def execGateCycleStart (port : Fin 8) (s : State) : Result := .next (s.doGateCycleStart port.val)

/-- GATE_ENTRY_CHANGE (R237): the next entry's gates apply; the last entry holds until the cycle ends. -/
def State.doGateEntryChange (s : State) (p : Nat) : State :=
  let g := s.swPort p
  if !(s.qbv p) ∨ g.operLen ≤ g.entry + 1 then s
  else
    let n := entryNs (s.gclEntry p g.bank g.entry)
    (s.settle p).setSwPort p { (s.settle p).swPort p with entry := g.entry + 1, started := g.started + n }

def execGateEntryChange (port : Fin 8) (s : State) : Result := .next (s.doGateEntryChange port.val)

/-! ## Timers of the bridge, the streams and PRP -/

/-- FDB_AGE_OUT (R233). -/
def State.doFdbAgeOut (s : State) (mac vid : Nat) : State :=
  match findFdb s.net.fdb (fdbKey mac vid) with
  | some e => if e.static then s else (s.setNet { s.net with fdb := tblErase s.net.fdb (fdbKey mac vid) }).bump 0x089 3 1
  | none => s

def execFdbAgeOut (mac : BitVec 48) (vid : BitVec 12) (s : State) : Result := .next (s.doFdbAgeOut mac.toNat vid.toNat)

/-- CB_RESET (R243). -/
def execCbReset (i : Fin 256) (s : State) : Result :=
  .next (s.setNet { s.net with recovery := tblErase s.net.recovery i.val })

/-- NODE_FORGET (R245). -/
def execNodeForget (mac : BitVec 48) (s : State) : Result :=
  .next (s.setNet { s.net with nodes := tblErase s.net.nodes mac.toNat })

/-- One supervision frame sent (R247). -/
def State.supervise (s : State) (mac : Nat) (o : PrpOrigin) : State :=
  let f := s.assignVid 6 (supervisionFrame s.hostMac mac s.net.supSeq)
  let s1 := (s.setNet { s.net with supSeq := s.net.supSeq + 1 }).bump 0x08c 2 1
  let cls := s1.pcpClass f.pcp
  let c := s1.copiesFor 3 cls o
  if c.1.isEmpty then c.2 else c.2.admitted f .module 6 0 cls none c.1

/-- LIFE_CHECK (R247): for the module and each proxied SAN. -/
def State.doLifeCheck (s : State) : State :=
  if s.redbox ∧ bitOf (s.reg 0x08c Reg.prp.prpCtrl) 2 then
    s.net.proxies.foldl (fun t x => t.supervise x.1 (.proxy x.1)) (s.supervise s.hostMac .module)
  else s

def execLifeCheck (s : State) : Result := .next s.doLifeCheck

/-! ## 802.1AS sends (R241) -/

/-- GPTP_SYNC_SEND: Sync, Follow_Up and Announce on every master port that is ON; their lengths are free values. -/
def State.doGptpSyncSend (s : State) : State :=
  if !s.gptpOn then s
  else
    ((List.range 6).filter fun p => bitOf (s.reg 0x08d Reg.gptp.asConfig) (8 + p) && s.portOn p).foldl (fun t p =>
      let d := t.drawIn 192 6144
      ((((d.2.bump 0x08d 1 1).bump (portPage p) 1 3).bump (portPage p) 3 d.1.toNat).bw (8 + p) d.1.toNat)) s

def execGptpSyncSend (s : State) : Result := .next s.doGptpSyncSend

/-- PEER_DELAY_EXCHANGE: a completed exchange gives the neighbour delay, and asCapable where it is below 2,000 ns. -/
def State.doPeerDelay (s : State) (p : Nat) (delay : Option Word) : State :=
  if !s.gptpOn ∨ 6 ≤ p ∨ !(p = s.slavePort ∨ bitOf (s.reg 0x08d Reg.gptp.asConfig) (8 + p)) then s
  else
    let w := s.reg 0x08d Reg.gptp.asStatus
    match delay with
    | some d =>
      ((s.bump 0x08d 2 1).setReg 0x08d (Reg.gptp.nbrDelay + 4 * p) d).setReg 0x08d Reg.gptp.asStatus
        (setBit w p (decide (d.toNat < 2000)))
    | none => (s.bump 0x08d 3 1).setReg 0x08d Reg.gptp.asStatus (setBit w p false)

def execPeerDelayExchange (port : Fin 8) (delay : Option Word) (s : State) : Result := .next (s.doPeerDelay port.val delay)

/-! ## Indirect commands (R274) -/

def State.fdbKeyReg (s : State) : Nat :=
  fdbKey ((s.reg 0x089 Reg.bridge.fdbKeyLo).toNat + s.field 0x089 Reg.bridge.fdbKeyHi 15 0 * 2 ^ 32)
    (s.field 0x089 Reg.bridge.fdbKeyHi 27 16)
def State.fdbAnswer (s : State) (n : Nat) : State := s.setReg 0x089 Reg.bridge.fdbResult (BitVec.ofNat 32 n)

def State.fdbLookup (s : State) : State :=
  match findFdb s.net.fdb s.fdbKeyReg with
  | some e => (s.setReg 0x089 Reg.bridge.fdbData (at' e.ports 0 ||| flag e.static 8)).fdbAnswer 0
  | none => s.fdbAnswer 1

/-- ADD; a VID outside 1 to 4,094 is refused (R232). -/
def State.fdbAdd (s : State) : State :=
  let vid := s.field 0x089 Reg.bridge.fdbKeyHi 27 16
  let w := s.reg 0x089 Reg.bridge.fdbData
  if vid = 0 ∨ vid = 4095 then s.fdbAnswer 3
  else if (findFdb s.net.fdb s.fdbKeyReg).isNone ∧ 8192 ≤ s.net.fdb.length then s.fdbAnswer 2
  else (s.setNet { s.net with fdb := tblPut s.net.fdb s.fdbKeyReg ⟨fieldOf w 7 0, bitOf w 8, s.time.lt⟩ }).fdbAnswer 0

def State.fdbDelete (s : State) : State :=
  if (findFdb s.net.fdb s.fdbKeyReg).isSome then
    (s.setNet { s.net with fdb := tblErase s.net.fdb s.fdbKeyReg }).fdbAnswer 0
  else s.fdbAnswer 1

def execFdbLookup (m : Master) (s : State) : Result := .next (s.written m 0x089 Reg.bridge.fdbCmd State.fdbLookup)
def execFdbAdd (m : Master) (s : State) : Result := .next (s.written m 0x089 Reg.bridge.fdbCmd State.fdbAdd)
def execFdbDelete (m : Master) (s : State) : Result := .next (s.written m 0x089 Reg.bridge.fdbCmd State.fdbDelete)

def State.vlanRead (s : State) : State :=
  s.setReg 0x089 Reg.bridge.vlanData (BitVec.ofNat 32 (tblRead noVlan s.net.vlans (s.field 0x089 Reg.bridge.vlanSel 11 0)))
def State.vlanWrite (s : State) : State :=
  let v := s.field 0x089 Reg.bridge.vlanData 15 0
  s.setNet { s.net with vlans := tblWrite noVlan s.net.vlans (s.field 0x089 Reg.bridge.vlanSel 11 0) v }

def execVlanRead (m : Master) (s : State) : Result := .next (s.written m 0x089 Reg.bridge.vlanCmd State.vlanRead)
def execVlanWrite (m : Master) (s : State) : Result := .next (s.written m 0x089 Reg.bridge.vlanCmd State.vlanWrite)

/-- CB_STREAMS: filters with RECOVER set. -/
def recoverFilters (t : Tbl StreamFilter) : Nat := (t.filter fun e => bitOf e.2.w0 31 && bitOf e.2.w0 30).length
def State.streamAnswer (s : State) (n : Nat) : State := s.setReg 0x08e Reg.streams.cmdResult (BitVec.ofNat 32 n)

def State.streamRead (s : State) : State :=
  let x := s.stream (s.field 0x08e Reg.streams.streamSel 7 0)
  (((s.setReg 0x08e Reg.streams.streamW0 x.w0).setReg 0x08e Reg.streams.streamW1 x.w1).setReg 0x08e Reg.streams.streamW2
    x.w2).streamAnswer 0
/-- STREAM_WRITE (R242, R243): a write that would make a 65th RECOVER filter is refused. -/
def State.streamWrite (s : State) : State :=
  let t := tblWrite streamReset s.net.streams (s.field 0x08e Reg.streams.streamSel 7 0)
    ⟨s.reg 0x08e Reg.streams.streamW0, s.reg 0x08e Reg.streams.streamW1, s.reg 0x08e Reg.streams.streamW2⟩
  if 64 < recoverFilters t then s.streamAnswer 2 else (s.setNet { s.net with streams := t }).streamAnswer 0

def execStreamRead (m : Master) (s : State) : Result := .next (s.written m 0x08e Reg.streams.streamCmd State.streamRead)
def execStreamWrite (m : Master) (s : State) : Result := .next (s.written m 0x08e Reg.streams.streamCmd State.streamWrite)

def State.meterRead (s : State) : State :=
  let x := s.meter (s.field 0x08e Reg.streams.meterSel 6 0)
  ((s.setReg 0x08e Reg.streams.meterCir (BitVec.ofNat 32 x.cir)).setReg 0x08e Reg.streams.meterCbs
    (BitVec.ofNat 32 x.cbs)).streamAnswer 0
/-- METER_WRITE: the tokens after a write are not stated (a free value from 0 to CBS). -/
def State.meterWrite (s : State) : State :=
  let cbs := s.field 0x08e Reg.streams.meterCbs 19 0
  let d := s.drawIn 0 (cbs : Int)
  (d.2.setMeter (s.field 0x08e Reg.streams.meterSel 6 0)
    ⟨s.field 0x08e Reg.streams.meterCir 23 0, cbs, d.1.toNat * 2000000, s.time.lt⟩).streamAnswer 0

def execMeterRead (m : Master) (s : State) : Result := .next (s.written m 0x08e Reg.streams.meterCmd State.meterRead)
def execMeterWrite (m : Master) (s : State) : Result := .next (s.written m 0x08e Reg.streams.meterCmd State.meterWrite)

/-! ## TRDP entries (R257, R264) -/

def trdpPage (n : Nat) : Nat := 0x08a + n
def State.entryAnswer (s : State) (p n : Nat) : State := s.setReg p Reg.trdp.entryResult (BitVec.ofNat 32 n)
/-- Does an entry lie in the range of a page? -/
def State.entryIn (s : State) (p e : Nat) : Bool := s.entryPage e == p

/-- ENTRY_READ: an entry of the page's range fills the words and the state registers. -/
def State.entryRead (s : State) (p : Nat) : State :=
  let e := s.field p Reg.trdp.entrySel 10 0
  if !(s.entryIn p e) then s.entryAnswer p 1
  else
    let x := s.trdp e
    let pending := s.net.frames.any fun f => f.source == .entry e
    let s1 := (List.range 8).foldl (fun t i => t.setReg p (Reg.trdp.entryW + 4 * i) (x.word i)) s
    ((((s1.setReg p Reg.trdp.entryState (flag (x.received && !x.publish) 0 ||| flag x.timedOut 1 ||| flag pending 2)).setReg p
      Reg.trdp.entrySeq x.seq).setReg64 p Reg.trdp.entryLastLo
        x.last).entryAnswer p 0)

/-- ENTRY_WRITE (R257, R258, R264, R288). -/
def State.entryWrite (s : State) (p : Nat) : State :=
  let e := s.field p Reg.trdp.entrySel 10 0
  let x : TrdpEntry :=
    { trdpReset 0 with
      w := (List.range 8).map fun i => s.reg p (Reg.trdp.entryW + 4 * i), last := s.time.lt }
  if !(s.entryIn p e) then (s.entryAnswer p 1).raise p 0 []
  else if x.valid ∧ !(x.fieldsOk && x.substOk && s.safeEntryOk e x) then (s.entryAnswer p 2).raise p 0 []
  else (s.setTrdp e x).entryAnswer p 0

def execEntryRead (m : Master) (page : Fin 2) (s : State) : Result :=
  .next (s.written m (trdpPage page.val) Reg.trdp.entryCmd fun t => t.entryRead (trdpPage page.val))
def execEntryWrite (m : Master) (page : Fin 2) (s : State) : Result :=
  .next (s.written m (trdpPage page.val) Reg.trdp.entryCmd fun t => t.entryWrite (trdpPage page.val))

/-- HELD_DELIVERY_WRITE (R263): 10 µs have passed since the previous SEQ write. -/
def State.doHeldDelivery (s : State) (e : Nat) : State :=
  match (s.trdp e).held with
  | none => s
  | some h => if s.entryOn e then s.entryBoxWrite e h.1 h.2 else s

def execHeldDeliveryWrite (entry : Fin 2048) (s : State) : Result := .next (s.doHeldDelivery entry.val)

/-- TRDP_TIMEOUT (R264): one descriptor with CODE 0x07 and the entry's substitute. -/
def State.doTrdpTimeout (s : State) (e : Nat) : State :=
  let x := s.trdp e
  if !x.valid ∨ x.publish ∨ x.fld 4 15 0 = 0 ∨ x.timedOut ∨ !(s.entryOn e) then s
  else
    let s1 := (s.setTrdp e { x with timedOut := true }).bump (s.entryPage e) 9 1
    let sub := x.fld 0 27 26
    let d := if sub = 1 then (zeros x.len, s1) else if sub = 2 then s1.offloadRead (x.word 6).toNat x.len else ([], s1)
    d.2.rxDeliver (x.fld 0 20 16) d.1 s.time.lt 7 0 0 (at' e 16 ||| flag true 27)

def execTrdpTimeout (entry : Fin 2048) (s : State) : Result := .next (s.doTrdpTimeout entry.val)

/-! ## Registers computed from the switch's state -/

/-- GCL_STATUS. -/
def State.gclStatus (s : State) (p : Nat) : Word :=
  let g := s.swPort p
  at' g.bank 0 ||| flag g.swapPending 1 ||| flag (s.untimed p) 2 ||| at' g.operLen 8

/-- The registers of pages 0x080 to 0x08F and of the queue pages that are computed from other state. -/
def State.switchView (s : State) (p off : Nat) : Option Word :=
  let nat (n : Nat) : Option Word := some (BitVec.ofNat 32 n)
  if p = 0x080 then
    (if off = Reg.switch.freeCells then nat s.cellsFree
     else if off = Reg.switch.allocatedCells then nat s.cellsUsed
     else if off = Reg.switch.inTransitCells then nat 0
     else if off = Reg.switch.handlesUsed then nat s.handlesUsed else none)
  else if 0x081 ≤ p ∧ p ≤ 0x088 then
    let n := p - 0x081
    let g := s.swPort n
    (if off = Reg.port.portStatus then
      (if 6 ≤ n ∧ !(s.portOn n) then some 0#32 else some (flag g.link 0 ||| at' g.speed 1))
     else if off = Reg.port.gclStatus then some (s.gclStatus n)
     else if Reg.port.creditHeld ≤ off ∧ off < Reg.port.creditHeld + 0x20 then
      nat (s.creditHeld n ((off - Reg.port.creditHeld) / 4))
     else none)
  else if p = 0x089 then (if off = Reg.bridge.fdbCount then nat s.net.fdb.length else none)
  else if p = 0x08a then (if off = Reg.trdp.trdpRange then some (at' s.net.split 16) else none)
  else if p = 0x08b then
    (if off = Reg.trdp.trdpRange then some (at' s.net.split 0 ||| at' (2048 - s.net.split) 16) else none)
  else if p = 0x08c then
    (if off = Reg.prp.prpNodes then some (at' s.net.nodes.length 0 ||| at' s.net.proxies.length 16)
     else if off = Reg.prp.seqTx then nat s.net.prpSeq.toNat else none)
  else if p = 0x08e then (if off = Reg.streams.cbStreams then nat (recoverFilters s.net.streams) else none)
  else if 0x0c0 ≤ p ∧ p ≤ 0x0ff then
    (if off = Reg.queue.qPosted then some (s.ring (p - 0x0c0)).posted
     else if off = Reg.queue.qRule ∧ 0x0e0 ≤ p then some 0#32
     else if off = Reg.queue.qSeq then some (s.qSeq (p - 0x0c0)) else none)
  else none

/-- The books of page 0x080 captured (R61, R273). -/
def State.captureCells (s : State) : State :=
  let nat (n : Nat) : Word := BitVec.ofNat 32 n
  (((((s.setReg 0x080 Reg.switch.snapFree (nat s.cellsFree)).setReg 0x080 Reg.switch.snapAllocated
    (nat s.cellsUsed)).setReg 0x080 Reg.switch.snapInTransit 0#32).setReg 0x080 Reg.switch.snapHandlesFree
      (nat (8192 - s.handlesUsed))).setReg 0x080 Reg.switch.snapHandlesUsed (nat s.handlesUsed)).bump 0x080 5 1
/-- The books of a port captured. -/
def State.capturePort (s : State) (p : Nat) : State :=
  (List.range 8).foldl (fun u c =>
    (u.setReg (portPage p) (Reg.port.snapCreditFree + 4 * c) (BitVec.ofNat 32 (s.creditFree p c))).setReg (portPage p)
      (Reg.port.snapCreditHeld + 4 * c) (BitVec.ofNat 32 (s.creditHeld p c))) s
/-- The books of a queue captured. -/
def State.captureQueue (s : State) (q : Nat) : State :=
  (((s.setReg (qPage q) Reg.queue.snapPosted (s.ring q).posted).setReg (qPage q) Reg.queue.snapDone (s.qSeq q)).setReg
    (qPage q) Reg.queue.snapActive (BitVec.ofNat 32 (s.ring q).active.length)).setReg (qPage q) Reg.queue.snapWaiting
      (BitVec.ofNat 32 (s.waiting q))

/-- Does a book break its invariant (R267 to R271): more cells or handles in use than there are, a credit beyond its limit,
a queue beyond its ring? -/
def State.cellImbalance (s : State) : Bool := decide (32768 < s.cellsUsed) || decide (8192 < s.handlesUsed)
def State.portImbalance (s : State) (p : Nat) : Bool :=
  (List.range 8).any fun c => decide (s.creditLimit p c < s.creditHeld p c)
def State.queueImbalance (s : State) (q : Nat) : Bool :=
  decide (2 ^ s.field (qPage q) Reg.queue.qConfig 12 8 < (s.ring q).active.length + s.waiting q)

/-! ## Stopping and resetting (R265, R266) -/

/-- LOCAL_RESET of a queue (R266): its frames in the switch are discarded without write-back, Q_POSTED takes Q_SEQ. -/
def State.queueReset (s : State) (q : Nat) : State :=
  let mine (f : StoredFrame) : Bool := match f.source with | .queue r _ => r == q | _ => false
  let s1 := s.setNet { s.net with frames := s.net.frames.filter fun f => !(mine f) }
  s1.setRing q ⟨s1.qSeq q, [], 0⟩

/-- Every entry of a page takes the state of R257 at the page's restart (R265). -/
def State.trdpRestart (s : State) (p : Nat) : State :=
  let again (x : Nat × TrdpEntry) : Nat × TrdpEntry :=
    if s.entryPage x.1 = p then (x.1, { trdpReset 0 with w := x.2.w, last := s.time.lt }) else x
  s.setNet { s.net with trdp := s.net.trdp.map again }

end Sys2Proof.Machine
end

