-- ==== Sys2Proof/Machine/SafeData.lean ====
section
/-!
DEFINITION. Safe data (chapter 09): the comparator's timers, the SDT channel commands, the registers of page 0x1B0.
-/
namespace Sys2Proof.Machine

/-- TWIN_WINDOW (R278): the window of a held copy elapses. -/
def State.doTwinWindow (s : State) (i : Nat) : State :=
  match s.net.twins.find? fun e => e.1 == i with
  | some q => s.twinExpire i q.2
  | none => s

def execTwinWindow (slot : Fin 256) (s : State) : Result := .next (s.doTwinWindow slot.val)

/-- TWIN_LINGER_END (R278): the slot becomes FREE. -/
def State.doTwinLingerEnd (s : State) (i : Nat) : State :=
  match s.net.twins.find? fun e => e.1 == i with
  | some q => if q.2.handle.isNone then s.setTwins (tblErase s.net.twins i) else s
  | none => s

def execTwinLingerEnd (slot : Fin 256) (s : State) : Result := .next (s.doTwinLingerEnd slot.val)

/-- Does a valid entry of a direction name a channel? -/
def State.channelNamed (s : State) (pub : Bool) (c : Nat) : Bool :=
  s.net.trdp.any fun x => x.2.valid && x.2.safe && x.2.publish == pub && x.2.channel == c

/-- CHAN_READ (R302). -/
def State.chanRead (s : State) : State :=
  let c := s.field 0x1b0 Reg.safeData.chanSel 8 0
  let x := s.sdtChannel c
  let st := flag x.rxSeen 0 ||| flag x.fault 1 ||| flag (s.channelNamed true c) 2 ||| flag (s.channelNamed false c) 3
    ||| at' x.errs 8
  ((((((s.setReg 0x1b0 Reg.safeData.chanW0 x.w0).setReg 0x1b0 Reg.safeData.chanW1 x.sid).setReg 0x1b0
    Reg.safeData.chanW2 x.init).setReg 0x1b0 Reg.safeData.chanState st).setReg 0x1b0 Reg.safeData.chanTxSsc
      x.next).setReg 0x1b0 Reg.safeData.chanRxSsc x.rxSsc).setReg 0x1b0 Reg.safeData.chanResult 0#32

/-- CHAN_WRITE (R283): the settings, and both states reset. -/
def State.chanWrite (s : State) : State :=
  let init := s.reg 0x1b0 Reg.safeData.chanW2
  (s.setChannel (s.field 0x1b0 Reg.safeData.chanSel 8 0)
    ⟨s.reg 0x1b0 Reg.safeData.chanW0, s.reg 0x1b0 Reg.safeData.chanW1, init, init, 0, false, 0#32, 0, false⟩).setReg
      0x1b0 Reg.safeData.chanResult 0#32

def execChanRead (m : Master) (s : State) : Result := .next (s.written m 0x1b0 Reg.safeData.chanCmd State.chanRead)
def execChanWrite (m : Master) (s : State) : Result := .next (s.written m 0x1b0 Reg.safeData.chanCmd State.chanWrite)

/-- HELD and LINGER slots (R277, R282). -/
def State.twinsHeld (s : State) : Nat := (s.net.twins.filter fun e => e.2.handle.isSome).length
def State.twinsLinger (s : State) : Nat := (s.net.twins.filter fun e => e.2.handle.isNone).length

/-- The computed registers of page 0x1B0. -/
def State.safeView (s : State) (off : Nat) : Option Word :=
  if off = Reg.safeData.twinStatus then
    some (at' s.net.twins.length 0 ||| at' s.net.pathDown.toNat 16 ||| flag s.sup.grant 18)
  else if off = Reg.safeData.spCount then some (at' s.net.single.1 0 ||| at' s.net.single.2 8)
  else none

/-- A capture of page 0x1B0 (R61, R282). -/
def State.captureSafe (s : State) : State :=
  s.setReg 0x1b0 Reg.safeData.snapTwin
    (at' (256 - s.net.twins.length) 0 ||| at' s.twinsHeld 10 ||| at' s.twinsLinger 20)

end Sys2Proof.Machine
end

