-- ==== Sys2Proof/Machine/Mvb.lean ====
section
/-!
DEFINITION. The MVB controllers (R290 to R295): administrator, device part, process-data ports and lines.
-/
namespace Sys2Proof.Machine

def mvbPage (c : Nat) : Nat := 0x1b2 + c
def mvbReset (_ : Nat) : MvbState := ⟨[], [], [], 3#2, 0, 0, (0, 0), 0#2, [], none, none⟩
def State.mvb (s : State) (c : Nat) : MvbState := tblRead mvbReset s.mvbs c
def State.setMvb (s : State) (c : Nat) (v : MvbState) : State := { s with mvbs := tblWrite mvbReset s.mvbs c v }
def State.mvbOn (s : State) (c : Nat) : Bool := s.working (mvbPage c)
def State.mvbCfg (s : State) (c : Nat) : Word := s.reg (mvbPage c) Reg.mvb.mvbConfig
def noPort (_ : Nat) : Word × Word := (0#32, 0#32)

/-- Data bytes of an F_code (R290). -/
def fcodeBytes (f : Nat) : Nat := 2 ^ (f + 1)

/-- The valid port of a direction with an address and F_code. -/
def MvbState.portFor (m : MvbState) (source : Bool) (fcode addr : Nat) : Option (Word × Word) :=
  (m.ports.find? fun e => bitOf e.2.1 31 && bitOf e.2.1 30 == source && fieldOf e.2.1 18 16 == fcode
    && fieldOf e.2.1 11 0 == addr).map (·.2)

/-- A slave frame sent by the device part. -/
def State.mvbReply (s : State) (c : Nat) (bs : List Byte) : State :=
  (s.setMvb c { s.mvb c with reply := some bs }).bump (mvbPage c) 1 1

/-- The device part's answer to a master frame (R293, R294): DEVICE_STATUS, most significant byte first (PRESUMED, log
entry 33), or a source port's data read as R260 reads a mailbox. -/
def State.mvbAnswer (s : State) (c fcode addr : Nat) : State :=
  if !(bitOf (s.mvbCfg c) 1) then s
  else if fcode = 15 then
    (if addr = fieldOf (s.mvbCfg c) 27 16 then
      (s.mvbReply c (beBytes 2 (s.field (mvbPage c) Reg.mvb.deviceStatus 15 0))).bump (mvbPage c) 9 1
     else s)
  else match (s.mvb c).portFor true fcode addr with
    | none => s
    | some p =>
      let b := s.boxSource p.2.toNat (fcodeBytes fcode)
      if b.1 = 0 then b.2.2 else b.2.2.mvbReply c b.2.1

/-- The next due poll entry's master frame sent and handed to the own device part (R292, R293). -/
def State.mvbSendNext (s : State) (c : Nat) : State :=
  let m := s.mvb c
  match m.toSend with
  | [] => s.setMvb c { m with waiting := none }
  | e :: t =>
    let w := tblRead zeroWord m.polls e
    let f := fieldOf w 15 12
    let a := fieldOf w 11 0
    ((s.setMvb c { m with toSend := t, waiting := some (f * 4096 + a) }).bump (mvbPage c) 0 1).mvbAnswer c f a

/-- The consecutive basic periods in which a line carried no valid frame while the other did (R291). -/
def missNext (heardThis heardOther : Bool) (n : Nat) : Nat :=
  if heardThis then 0 else if heardOther then n + 1 else 0

/-- A line's status at the end of a basic period: three such periods clear LINE_x_OK and latch LINE_FAULT_x. -/
def State.lineEnd (s : State) (c line n : Nat) : State :=
  if n = 3 ∧ (s.mvb c).lineOk.getLsbD line then
    (s.setMvb c { s.mvb c with lineOk := (s.mvb c).lineOk &&& ~~~(1#2 <<< line) }).raise (mvbPage c) line []
  else s

/-- The end of a basic period: entries not sent are skipped, the lines are judged. -/
def State.mvbClose (s : State) (c : Nat) : State :=
  let s1 :=
    if (s.mvb c).toSend.isEmpty then s
    else ((s.satReg (mvbPage c) Reg.mvb.bpOverrun 1).raise (mvbPage c) 2 []).bump (mvbPage c) 7 1
  let m := s1.mvb c
  let a := missNext (m.heard.getLsbD 0) (m.heard.getLsbD 1) m.missing.1
  let b := missNext (m.heard.getLsbD 1) (m.heard.getLsbD 0) m.missing.2
  ((s1.setMvb c { m with toSend := [], waiting := none, missing := (a, b), heard := 0#2 }).lineEnd c 0 a).lineEnd c 1 b

/-- BASIC_PERIOD (R292): the administrator's poll entries of the new period, in ascending index; the first one is sent at
once, each later one after its predecessor's reply or reply timeout. Periods are counted from 0 (DESIGN CHOICE, log
entry 33). -/
def State.doBasicPeriod (s : State) (c : Nat) : State :=
  if !(s.mvbOn c) then s
  else
    let s1 := s.mvbClose c
    let m := s1.mvb c
    let i := (m.period + 1) % 2 ^ fieldOf (s1.mvbCfg c) 11 8
    let due := (m.newPolls.filter fun e =>
      bitOf e.2 31 && i % 2 ^ fieldOf e.2 19 16 == fieldOf e.2 29 20).map (·.1)
    let s2 := s1.setMvb c { m with polls := m.newPolls, period := i, toSend := if bitOf (s1.mvbCfg c) 0 then due else [] }
    s2.mvbSendNext c

def execBasicPeriod (ctl : Fin 2) (s : State) : Result := .next (s.doBasicPeriod ctl.val)

/-- MVB_REPLY_TIMEOUT (R292). -/
def State.doMvbReplyTimeout (s : State) (c : Nat) : State :=
  if (s.mvb c).waiting.isSome ∧ bitOf (s.mvbCfg c) 0 then
    ((s.satReg (mvbPage c) Reg.mvb.noReply 1).bump (mvbPage c) 6 1).mvbSendNext c
  else s

def execMvbReplyTimeout (ctl : Fin 2) (s : State) : Result := .next (s.doMvbReplyTimeout ctl.val)

/-- A valid frame heard on a line: counted, LINE_x_OK set (R291). -/
def State.lineHeard (s : State) (c line : Nat) : State :=
  let m := s.mvb c
  (s.setMvb c { m with heard := m.heard ||| (1#2 <<< line), lineOk := m.lineOk ||| (1#2 <<< line) }).bump (mvbPage c)
    (2 + line) 1
/-- An invalid frame on a line. -/
def State.lineBad (s : State) (c line : Nat) : State :=
  (s.setReg (mvbPage c) Reg.mvb.lineErrors
    (satField (s.reg (mvbPage c) Reg.mvb.lineErrors) (16 * line + 15) (16 * line) 1)).bump (mvbPage c) (4 + line) 1
def State.lineFrame (s : State) (c line : Nat) (f : LineFrame) : State :=
  match f with
  | none => s
  | some x => if x.2 then s.lineHeard c line else s.lineBad c line

/-- MVB_MASTER_FRAME (R293): a master frame of another administrator, valid on both lines; the device part answers. -/
def State.doMvbMasterFrame (s : State) (c fcode addr : Nat) : State :=
  if !(s.mvbOn c) then s
  else
    let s1 := (s.lineHeard c 0).lineHeard c 1
    (s1.setMvb c { s1.mvb c with waiting := some (fcode * 4096 + addr) }).mvbAnswer c fcode addr

def execMvbMasterFrame (ctl : Fin 2) (fcode : BitVec 4) (addr : BitVec 12) (s : State) : Result :=
  .next (s.doMvbMasterFrame ctl.val fcode.toNat addr.toNat)

/-- Which line's frame the controller uses (R291): RX_LINE's where it is valid, else the other's. -/
def usedLine (rx : Nat) (a b : LineFrame) : Option (Nat × List Byte) :=
  let ok (f : LineFrame) : Option (List Byte) := match f with | some x => if x.2 then some x.1 else none | none => none
  let first := if rx = 0 then ok a else ok b
  let second := if rx = 0 then ok b else ok a
  match first, second with
  | some x, _ => some (rx, x)
  | none, some x => some (1 - rx, x)
  | none, none => none

/-- A slave frame taken by the sink port of the master frame's address, where its size is right (R293). -/
def State.mvbSink (s : State) (c line key : Nat) (data : List Byte) : State :=
  match (s.mvb c).portFor false (key / 4096) (key % 4096) with
  | none => s
  | some p =>
    if data.length = fcodeBytes (key / 4096) then s.boxWrite p.2.toNat data s.time.lt else s.lineBad c line

/-- MVB_SLAVE_FRAME (R291, R293): what the two lines carried in answer to the last master frame. -/
def State.doMvbSlaveFrame (s : State) (c : Nat) (a b : LineFrame) : State :=
  if !(s.mvbOn c) ∨ (a.isNone ∧ b.isNone) then s
  else
    let s1 := (s.lineFrame c 0 a).lineFrame c 1 b
    let key := (s1.mvb c).waiting
    let s2 := match usedLine (s1.mvb c).rxLine a b with
      | none => s1
      | some u =>
        let t := if u.1 = (s1.mvb c).rxLine then s1
          else (s1.setMvb c { s1.mvb c with rxLine := u.1 }).bump (mvbPage c) 8 1
        (match key with
          | some k => if bitOf (t.mvbCfg c) 1 then t.mvbSink c u.1 k u.2 else t
          | none => t)
    if key.isSome ∧ bitOf (s2.mvbCfg c) 0 then s2.mvbSendNext c else s2.setMvb c { s2.mvb c with waiting := none }

def execMvbSlaveFrame (ctl : Fin 2) (a b : LineFrame) (s : State) : Result := .next (s.doMvbSlaveFrame ctl.val a b)

/-! ## Indirect commands -/

def State.mvbResult (s : State) (c n : Nat) : State := s.setReg (mvbPage c) Reg.mvb.cmdResult (BitVec.ofNat 32 n)

/-- PORT_READ (R302). -/
def State.mvbPortRead (s : State) (c : Nat) : State :=
  let x := tblRead noPort (s.mvb c).ports (s.field (mvbPage c) Reg.mvb.portSel 7 0)
  ((s.setReg (mvbPage c) Reg.mvb.portW0 x.1).setReg (mvbPage c) Reg.mvb.portW1 x.2).mvbResult c 0

/-- PORT_WRITE (R293): refused where another valid port has the address. -/
def State.mvbPortWrite (s : State) (c : Nat) : State :=
  let m := s.mvb c
  let sel := s.field (mvbPage c) Reg.mvb.portSel 7 0
  let w := s.reg (mvbPage c) Reg.mvb.portW0
  if bitOf w 31 ∧ m.ports.any fun e => e.1 != sel && bitOf e.2.1 31 && fieldOf e.2.1 11 0 == fieldOf w 11 0 then
    s.mvbResult c 2
  else
    (s.setMvb c { m with ports := tblWrite noPort m.ports sel (w, s.reg (mvbPage c) Reg.mvb.portW1) }).mvbResult c 0

def execPortRead (m : Master) (ctl : Fin 2) (s : State) : Result :=
  .next (s.written m (mvbPage ctl.val) Reg.mvb.portCmd fun t => t.mvbPortRead ctl.val)
def execPortWrite (m : Master) (ctl : Fin 2) (s : State) : Result :=
  .next (s.written m (mvbPage ctl.val) Reg.mvb.portCmd fun t => t.mvbPortWrite ctl.val)

/-- POLL_READ (R302). -/
def State.mvbPollRead (s : State) (c : Nat) : State :=
  (s.setReg (mvbPage c) Reg.mvb.pollW0
    (tblRead zeroWord (s.mvb c).newPolls (s.field (mvbPage c) Reg.mvb.pollSel 9 0))).mvbResult c 0

/-- POLL_WRITE (R292): in force from the next basic period. -/
def State.mvbPollWrite (s : State) (c : Nat) : State :=
  let m := s.mvb c
  let w := s.reg (mvbPage c) Reg.mvb.pollW0
  let f := fieldOf w 15 12
  if 2 ^ fieldOf w 19 16 ≤ fieldOf w 29 20 ∨ (4 < f ∧ f ≠ 15) then s.mvbResult c 2
  else
    (s.setMvb c { m with newPolls := tblWrite zeroWord m.newPolls (s.field (mvbPage c) Reg.mvb.pollSel 9 0) w }).mvbResult
      c 0

def execPollRead (m : Master) (ctl : Fin 2) (s : State) : Result :=
  .next (s.written m (mvbPage ctl.val) Reg.mvb.pollCmd fun t => t.mvbPollRead ctl.val)
def execPollWrite (m : Master) (ctl : Fin 2) (s : State) : Result :=
  .next (s.written m (mvbPage ctl.val) Reg.mvb.pollCmd fun t => t.mvbPollWrite ctl.val)

/-- MVB_STATUS. -/
def State.mvbView (s : State) (c off : Nat) : Option Word :=
  let m := s.mvb c
  if off = Reg.mvb.mvbStatus then some (at' m.lineOk.toNat 0 ||| at' m.rxLine 2 ||| at' m.period 16) else none

end Sys2Proof.Machine
end

