-- ==== Sys2Proof/Machine/Can.lean ====
section
/-!
DEFINITION. The CAN FD controllers (R296 to R301): error counters and bus-off, filters, the receive and transmit rings.
The steps of the error counters are those of ISO 11898-1 (PRESUMED, log entry 34).
-/
namespace Sys2Proof.Machine

def canPage (c : Nat) : Nat := 0x1b4 + c
def canReset (_ : Nat) : CanState := ⟨0, 0, false, false, ⟨0#32, [], 0⟩, ⟨0#32, [], 0⟩, 0#32, 0#32⟩
def State.can (s : State) (c : Nat) : CanState := tblRead canReset s.cans c
def State.setCan (s : State) (c : Nat) (v : CanState) : State := { s with cans := tblWrite canReset s.cans c v }
def State.canOn (s : State) (c : Nat) : Bool := s.working (canPage c)
def State.canCfg (s : State) (c : Nat) : Word := s.reg (canPage c) Reg.can.canConfig

/-- A frame that R296 calls invalid. -/
def canInvalid (f : CanFrame) (fdEn : Bool) : Bool := (f.fdf && f.rtr) || (f.fdf && !fdEn) || (f.brs && !f.fdf)

/-- ID and CTRL of a descriptor (R299). -/
def canIdWord (f : CanFrame) : Word :=
  at' (if f.ide then f.id.toNat else f.id.toNat % 2048) 0 ||| flag f.ide 29 ||| flag f.rtr 30
def canCtrlWord (f : CanFrame) : Word := at' f.dlc.toNat 0 ||| flag f.fdf 4 ||| flag f.brs 5 ||| flag f.esi 6

/-- Data bytes of a DLC: up to 8 in classical format, the ISO 11898-1 table in FD format. -/
def dlcBytes (dlc : Nat) (fdf : Bool) : Nat :=
  if dlc ≤ 8 then dlc else if fdf then [12, 16, 20, 24, 32, 48, 64].getD (dlc - 9) 64 else 8

/-- The lowest valid filter that accepts a frame (R298). -/
def State.canFilter (s : State) (c : Nat) (f : CanFrame) : Option Nat :=
  (List.range 32).find? fun n =>
    let w := s.reg (canPage c) (Reg.can.filterId + 4 * n)
    let k := fieldOf (s.reg (canPage c) (Reg.can.filterMask + 4 * n)) 28 0
    bitOf w 31 && bitOf w 29 == f.ide && (fieldOf (canIdWord f) 28 0) &&& k == (fieldOf w 28 0) &&& k

/-- Address of the descriptor with running number `n` of a ring. -/
def State.canDesc (s : State) (c : Nat) (tx : Bool) (n : Nat) : Nat :=
  let lo := if tx then Reg.can.txBaseLo else Reg.can.rxBaseLo
  let k := if tx then s.field (canPage c) Reg.can.ringCfg 7 4 else s.field (canPage c) Reg.can.ringCfg 3 0
  (s.reg (canPage c) lo).toNat + s.field (canPage c) (lo + 4) 7 0 * 2 ^ 32 + 96 * (n % 2 ^ k)

def State.canAccessError (s : State) (c : Nat) : State := s.raise (canPage c) 2 []

/-- A CAN interrupt raised (R255, R299); the rings share one count. -/
def State.canIrq (s : State) (c : Nat) : State :=
  let x := s.can c
  (s.setCan c { x with rx := { x.rx with unsignalled := 0 } }).ringIrq (s.reg (canPage c) Reg.can.canIrq)
def State.canSignal (s : State) (c : Nat) : State :=
  let x := s.can c
  let s1 := s.setCan c { x with rx := { x.rx with unsignalled := x.rx.unsignalled + 1 } }
  let count := s.field (canPage c) Reg.can.canIrq 7 0
  if count ≠ 0 ∧ count ≤ x.rx.unsignalled + 1 then s1.canIrq c else s1

/-- REC after a frame received correctly: one less; a value above 127 becomes one from 119 to 127. -/
def State.recDown (s : State) (c : Nat) : State :=
  let x := s.can c
  if 127 < x.rec_ then
    let d := s.drawIn 119 127
    d.2.setCan c { x with rec_ := d.1.toNat }
  else s.setCan c { x with rec_ := x.rec_ - 1 }

/-- The three writes of a receive write-back (R299). -/
def State.canWriteRx (s : State) (c : Nat) (f : CanFrame) (filter : Nat) : Bool × State :=
  let x := s.can c
  let a := s.canDesc c false x.rxSeq.toNat
  let w0 := s.dmaWrite (a + 0x20) (padTo 64 (f.data.take (if f.rtr then 0 else dlcBytes f.dlc.toNat f.fdf)))
  if !w0.1 then w0 else
    let w1 := w0.2.dmaWrite a (leBytes 4 (canIdWord f).toNat ++ leBytes 4 (canCtrlWord f).toNat ++ leBytes 8 s.time.lt.toNat)
    if !w1.1 then w1 else
      w1.2.dmaWrite (a + 0x10)
        (leBytes 4 (x.rxSeq + 1).toNat ++ leBytes 4 (0x80000000 + filter) ++ zeros 8)

/-- An accepted frame given to the receive ring. -/
def State.canAccept (s : State) (c : Nat) (f : CanFrame) (filter : Nat) : State :=
  let x := s.can c
  if x.rx.posted = x.rxSeq then (s.satReg (canPage c) Reg.can.rxDrops 1).bump (canPage c) 4 1
  else
    let w := s.canWriteRx c f filter
    if !w.1 then w.2.canAccessError c
    else (w.2.setCan c { w.2.can c with rxSeq := x.rxSeq + 1 }).canSignal c

/-- CAN_FRAME_RECEIVE (R296, R298, R299). -/
def State.doCanReceive (s : State) (c : Nat) (f : CanFrame) : State :=
  if !(s.canOn c) ∨ (s.can c).busOff then s
  else if canInvalid f (bitOf (s.canCfg c) 0) then
    let x := s.can c
    (s.setCan c { x with rec_ := satAdd 255 x.rec_ 1 }).bump (canPage c) 2 1
  else
    let s1 := (s.recDown c).bump (canPage c) 0 1
    match s1.canFilter c f with
    | none => s1.bump (canPage c) 6 1
    | some n => s1.canAccept c f n

def execCanFrameReceive (ctl : Fin 4) (f : CanFrame) (s : State) : Result := .next (s.doCanReceive ctl.val f)

/-- The oldest posted transmit descriptor fetched (R300): `len` counts the attempts to send it. -/
def State.canFetch (s : State) (c : Nat) : State :=
  let x := s.can c
  if !x.tx.active.isEmpty ∨ x.tx.posted = x.txSeq then s
  else
    let a := s.canDesc c true x.txSeq.toNat
    let r := s.dmaRead a 96
    match r.1 with
    | none => r.2.canAccessError c
    | some _ => r.2.setCan c { r.2.can c with tx := { x.tx with active := [⟨x.txSeq.toNat, a, 0, none⟩] } }

/-- Is the fetched frame invalid (R296)? -/
def State.canTxInvalid (s : State) (c : Nat) (a : Nat) : Bool :=
  let w := BitVec.ofNat 32 (ofLeBytes (memBytes s.mem.sram (sramOff a) 4))
  let k := BitVec.ofNat 32 (ofLeBytes (memBytes s.mem.sram (sramOff a + 4) 4))
  (bitOf k 4 && bitOf w 30) || (bitOf k 4 && !(bitOf (s.canCfg c) 0)) || (bitOf k 5 && !(bitOf k 4))

/-- The fetched descriptor written back with a CODE and the LT of its start of frame (R299). -/
def State.canTxDone (s : State) (c code : Nat) (lt : DWord) : State :=
  let x := s.can c
  match x.tx.active with
  | [] => s
  | d :: _ =>
    let w1 := s.dmaWrite (d.addr + 8) (leBytes 8 lt.toNat)
    let w2 := if w1.1 then
        w1.2.dmaWrite (d.addr + 0x10) (leBytes 4 (d.n + 1) ++ leBytes 4 (0x80000000 + code * 2 ^ 24) ++ zeros 8)
      else w1
    if !w2.1 then w2.2.canAccessError c
    else
      (w2.2.setCan c { w2.2.can c with tx := { x.tx with active := [] }, txSeq := x.txSeq + 1 }).canSignal c

/-- An attempt counted; every one after the first is a retransmission. -/
def State.canAttempt (s : State) (c : Nat) : State :=
  let x := s.can c
  match x.tx.active with
  | [] => s
  | d :: t =>
    let s1 := s.setCan c { x with tx := { x.tx with active := { d with len := d.len + 1 } :: t } }
    if d.len = 0 then s1 else s1.bump (canPage c) 7 1

/-- CAN_FRAME_TRANSMIT (R300): an attempt to send the next posted frame ends with `r`. -/
def State.doCanTransmit (s : State) (c : Nat) (r : CanResult) : State :=
  if !(s.canOn c) ∨ (s.can c).busOff ∨ 256 ≤ (s.can c).tec ∨ bitOf (s.canCfg c) 1 then s
  else
    let s1 := s.canFetch c
    match (s1.can c).tx.active with
    | [] => s1
    | d :: _ =>
      if s1.canTxInvalid c d.addr then
        let q := s1.drawDword
        q.2.canTxDone c 5 q.1
      else
        let s2 := s1.canAttempt c
        let x := s2.can c
        match r with
        | .sent => ((s2.setCan c { x with tec := x.tec - 1 }).bump (canPage c) 1 1).canTxDone c 0 s2.time.lt
        | .arbitrationLost =>
          let s3 := s2.bump (canPage c) 3 1
          if bitOf (s3.canCfg c) 3 then s3.canTxDone c 1 s3.time.lt else s3
        | .error =>
          let s3 := (s2.setCan c { x with tec := satAdd 256 x.tec 8 }).bump (canPage c) 2 1
          if bitOf (s3.canCfg c) 3 ∧ (s3.can c).tec < 256 then s3.canTxDone c 1 s3.time.lt else s3

def execCanFrameTransmit (ctl : Fin 4) (r : CanResult) (s : State) : Result := .next (s.doCanTransmit ctl.val r)

/-- BUS_OFF (R296, R300): TEC has passed 255; the frame in transmission is written back with CODE 0x02. -/
def State.doBusOff (s : State) (c : Nat) : State :=
  let x := s.can c
  if x.busOff ∨ x.tec < 256 then s
  else
    let s1 := s.setCan c { x with busOff := true, recovering := bitOf (s.canCfg c) 2 }
    ((s1.canTxDone c 2 s1.time.lt).raise (canPage c) 0 []).bump (canPage c) 5 1

def execBusOff (ctl : Fin 4) (s : State) : Result := .next (s.doBusOff ctl.val)

/-- RECOVER (R296). -/
def State.canRecover (s : State) (c : Nat) : State :=
  let x := s.can c
  if x.busOff then s.setCan c { x with recovering := true } else s

def execCanRecover (m : Master) (ctl : Fin 4) (s : State) : Result :=
  .next (s.written m (canPage ctl.val) Reg.can.canCmd fun t => t.canRecover ctl.val)

/-- BUS_OFF_RECOVERY_DONE (R296): back on the bus, error-active. -/
def State.doRecoveryDone (s : State) (c : Nat) : State :=
  let x := s.can c
  if x.busOff ∧ x.recovering then s.setCan c { x with busOff := false, recovering := false, tec := 0, rec_ := 0 } else s

def execBusOffRecoveryDone (ctl : Fin 4) (s : State) : Result := .next (s.doRecoveryDone ctl.val)

/-- CAN_POSTED_WRITE (R299). -/
def State.canPost (s : State) (c : Nat) (tx : Bool) (v : Word) : State :=
  let x := s.can c
  let k := if tx then s.field (canPage c) Reg.can.ringCfg 7 4 else s.field (canPage c) Reg.can.ringCfg 3 0
  if tx then
    (if postOk v x.tx.posted x.txSeq k then s.setCan c { x with tx := { x.tx with posted := v } } else s.raise (canPage c) 1 [])
  else
    (if postOk v x.rx.posted x.rxSeq k then s.setCan c { x with rx := { x.rx with posted := v } } else s.raise (canPage c) 1 [])

def execCanPostedWrite (m : Master) (ctl : Fin 4) (tx : Bool) (v : Word) (s : State) : Result :=
  .next (s.written m (canPage ctl.val) (if tx then Reg.can.txPosted else Reg.can.rxPosted) fun t => t.canPost ctl.val tx v)

/-- CAN_IRQ_TIMER (R255, R299). -/
def State.doCanIrqTimer (s : State) (c : Nat) : State :=
  if s.field (canPage c) Reg.can.canIrqTime 15 0 ≠ 0 ∧ s.field (canPage c) Reg.can.canIrq 7 0 ≠ 0
      ∧ (s.can c).rx.unsignalled ≠ 0 then s.canIrq c else s

def execCanIrqTimer (ctl : Fin 4) (s : State) : Result := .next (s.doCanIrqTimer ctl.val)

/-- A controller that leaves ON writes back the fetched descriptor that was not sent with CODE 0x04 (R301). -/
def State.canStop (s : State) (c : Nat) : State :=
  let d := s.drawDword
  if (s.can c).tx.active.isEmpty then s else d.2.canTxDone c 4 d.1

/-- CAN_STATUS and the running counts. -/
def State.canView (s : State) (c off : Nat) : Option Word :=
  let x := s.can c
  if off = Reg.can.canStatus then
    some (at' (if x.busOff then 2 else if 127 < x.tec ∨ 127 < x.rec_ then 1 else 0) 0 ||| at' (min x.tec 255) 8
      ||| at' x.rec_ 16)
  else if off = Reg.can.rxPosted then some x.rx.posted
  else if off = Reg.can.rxSeq then some x.rxSeq
  else if off = Reg.can.txPosted then some x.tx.posted
  else if off = Reg.can.txSeq then some x.txSeq
  else none

end Sys2Proof.Machine
end

