-- ==== Sys2Proof/Machine/Image.lean ====
section
/-!
DEFINITION. Program images (R168 to R170, R203 to R205): header, sections, instance table, retentive map, scan tables;
which instruction words are legal (R145, R151 to R153); and the judgement of IMAGE_CHECK.
-/
namespace Sys2Proof.Machine

/-- How a program memory is read: the word at an index. -/
abbrev WordAt := Nat → Word

/-- The 16-word header of an image (R168), `base` its first word. -/
structure Header where
  format : Nat
  program : Nat
  reserved : Nat
  codeWords : Nat
  instOffset : Nat
  instCount : Nat
  retainOffset : Nat
  retainWords : Nat
  scanOffset : Nat
  scanWords : Nat
  imageWords : Nat
  check : Word
  zeros : Bool
  deriving DecidableEq, Repr

def header (rd : WordAt) (base : Nat) : Header :=
  let w := fun i => (rd (base + i)).toNat
  { format := w 0 % 65536, program := w 0 / 65536 % 256, reserved := w 0 / 16777216, codeWords := w 1,
    instOffset := w 2, instCount := w 3, retainOffset := w 4, retainWords := w 5, scanOffset := w 6, scanWords := w 7,
    imageWords := w 14, check := rd (base + 15), zeros := [9, 10, 11, 12, 13].all fun i => w i == 0 }

/-! ## Instructions (R145, R151 to R153) -/

/-- A bit operand: space and address allowed for a bit access. -/
def bitOperand (sp ad : Nat) : Bool :=
  match sp with
  | 1 | 2 => ad < 65536 | 3 => ad < 262144 | 4 | 5 => ad < 4096 | 9 => ad < 64 | _ => false

/-- A word operand other than KL. -/
def wordOperand (sp ad : Nat) : Bool :=
  match sp with
  | 1 | 2 => ad < 65536 && ad % 32 == 0
  | 3 => ad < 262144 && ad % 32 == 0
  | 4 | 5 => ad < 4096
  | 6 => ad < 65536
  | 7 => true
  | 9 => 0x80000 ≤ ad && ad ≤ 0x8003f
  | _ => false

/-- D, K, KL, T or C, the operands of ADD to CLE. -/
def arithOperand (sp ad : Nat) : Bool :=
  match sp with
  | 4 | 5 => ad < 4096 | 6 => ad < 65536 | 7 => true | 8 => ad == 0 | _ => false

/-- A destination of STW and MOVW: Q, M, C or D. -/
def storeOperand (sp ad : Nat) : Bool :=
  match sp with
  | 2 => ad < 65536 && ad % 32 == 0
  | 3 => ad < 262144 && ad % 32 == 0
  | 5 => ad < 4096
  | 6 => ad < 65536
  | _ => false

/-- Is the opcode in the table of R153? -/
def opcodeKnown (op : Nat) : Bool :=
  op == 0x01 || (0x10 ≤ op && op ≤ 0x1a) || (0x20 ≤ op && op ≤ 0x25) || (0x28 ≤ op && op ≤ 0x2a) || op == 0x2c || op == 0x2d
    || (0x30 ≤ op && op ≤ 0x32) || (0x34 ≤ op && op ≤ 0x36) || (0x38 ≤ op && op ≤ 0x3d) || (0x40 ≤ op && op ≤ 0x42)
    || (0x48 ≤ op && op ≤ 0x4a) || op == 0x4c || op == 0x4d || op == 0x50 || op == 0x7f

/-- Fields of an instruction word (R151). -/
def opOf (w : Word) : Nat := fieldOf w 31 24
def spOf (w : Word) : Nat := fieldOf w 23 20
def adOf (w : Word) : Nat := fieldOf w 19 0

/-- Does the word take a second word (R151)? -/
def twoWords (w : Word) : Bool := spOf w == 8 || opOf w == 0x32

/-- Are SPACE and ADDR allowed for the opcode, jump targets apart (R152, R153)? -/
def operandOk (op sp ad : Nat) : Bool :=
  if 0x10 ≤ op ∧ op ≤ 0x17 then bitOperand sp ad
  else if 0x20 ≤ op ∧ op ≤ 0x22 then (sp == 2 && ad < 65536) || (sp == 3 && ad < 262144)
  else if op = 0x23 then (sp == 2 && ad < 65536) || (sp == 3 && ad < 262144) || ((sp == 4 || sp == 5) && ad < 4096)
  else if op = 0x24 ∨ op = 0x25 then sp == 3 && ad < 262144
  else if 0x28 ≤ op ∧ op ≤ 0x2a then sp == 4 && ad < 4096
  else if op = 0x2c ∨ op = 0x2d then sp == 5 && ad < 4096
  else if op = 0x30 then wordOperand sp ad || (sp == 8 && ad == 0)
  else if op = 0x31 then storeOperand sp ad
  else if op = 0x32 then wordOperand sp ad
  else if (0x34 ≤ op ∧ op ≤ 0x36) ∨ (0x38 ≤ op ∧ op ≤ 0x3d) then arithOperand sp ad
  else if 0x40 ≤ op ∧ op ≤ 0x42 then sp == 0 && ad < 32
  else if 0x48 ≤ op ∧ op ≤ 0x4c then sp == 0
  else if op = 0x50 then sp == 0 && ad < 512
  else sp == 0 && ad == 0

/-- Is the second word of MOVW a legal destination? -/
def movwOk (second : Word) : Bool := opOf second == 0 && storeOperand (spOf second) (adOf second)

/-- Is code index `target` the first word of an instruction within the code (R152)? Instructions are walked from index
0, `n` bounding the walk. -/
def isStart (rd : WordAt) (code codeWords target : Nat) : Nat → Nat → Bool
  | 0, _ => false
  | n + 1, i =>
    if codeWords ≤ i then false
    else if i = target then true
    else isStart rd code codeWords target n (i + (if twoWords (rd (code + i)) then 2 else 1))

/-- A jump or call target (R152). -/
def targetOk (rd : WordAt) (code codeWords target : Nat) : Bool := isStart rd code codeWords target (codeWords + 1) 0

/-- Is the instruction at code index `i` legal (R152)? -/
def insnOk (rd : WordAt) (code codeWords i : Nat) : Bool :=
  let w := rd (code + i)
  opcodeKnown (opOf w) && operandOk (opOf w) (spOf w) (adOf w)
    && (!(twoWords w) || decide (i + 1 < codeWords))
    && (opOf w != 0x32 || movwOk (rd (code + i + 1)))
    && (!(0x48 ≤ opOf w && opOf w ≤ 0x4c) || targetOk rd code codeWords (adOf w))

/-! ## Tables -/

/-- An instance-table entry (R168). -/
structure Instance where
  ident : Nat
  kind : Nat
  space : Nat
  addr : Nat
  deriving DecidableEq, Repr

def Header.instances (h : Header) (rd : WordAt) (base : Nat) : List Instance :=
  (List.range h.instCount).map fun i =>
    let a := rd (base + h.instOffset + 2 * i)
    let b := rd (base + h.instOffset + 2 * i + 1)
    ⟨fieldOf a 23 0, fieldOf a 27 24, spOf b, adOf b⟩

/-- Lines of a space of data memory (R194), as numbers of 64-byte lines from the start of data memory. -/
def spaceLines (sp : Nat) : Nat × Nat :=
  match sp with
  | 6 => (0, 4096) | 4 => (0x40000 / 64, 2048) | 5 => (0x60000 / 64, 1024) | 3 => (0x70000 / 64, 512) | _ => (0, 0)

/-- Lines of a range: none where it runs beyond its space. -/
def rangeLines (sp start count : Nat) : Option (List Nat) :=
  if start + count ≤ (spaceLines sp).2 then some ((List.range count).map fun i => (spaceLines sp).1 + start + i) else none

/-- The lines of the ranges together, ascending, each once; none where a range runs beyond its space or the set is
larger than 1,024 lines (R194). -/
def setOfRanges (l : List (Nat × Nat × Nat)) : Option (List Nat) :=
  let all := l.foldl (fun (acc : Option (Tbl Unit)) r =>
    match acc, rangeLines r.1 r.2.1 r.2.2 with
    | some t, some ls => some (ls.foldl (fun u n => tblPut u n ()) t)
    | _, _ => none) (some [])
  match all with
  | some t => if t.length ≤ 1024 then some (t.map (·.1)) else none
  | none => none

/-- The ranges of a retentive map (R203): space, start line, lines. -/
def Header.retainMap (h : Header) (rd : WordAt) (base : Nat) : List (Nat × Nat × Nat) :=
  (List.range (h.retainWords / 2)).map fun i =>
    let a := rd (base + h.retainOffset + 2 * i)
    (spOf a, fieldOf a 15 0, fieldOf (rd (base + h.retainOffset + 2 * i + 1)) 15 0)

/-- Does entry `i` of a retentive map keep R203 by itself? -/
def Header.mapEntryOk (h : Header) (rd : WordAt) (base i : Nat) : Bool :=
  let a := rd (base + h.retainOffset + 2 * i)
  let b := rd (base + h.retainOffset + 2 * i + 1)
  (spOf a == 3 || spOf a == 4 || spOf a == 5 || spOf a == 6) && fieldOf a 31 24 == 0 && fieldOf a 19 16 == 0
    && fieldOf b 31 16 == 0

/-- A station entry of the scan tables (R205). -/
structure StationEntry where
  station : Nat
  task : Option Nat
  inBox : Nat
  outBox : Option Nat
  timeout : Nat
  len : Nat
  deriving DecidableEq, Repr

structure InputEntry where
  station : Nat
  policy : Nat
  word : Bool
  src : Nat
  dst : Nat
  fixed : Word
  deriving DecidableEq, Repr

structure PairEntry where
  pair : Nat
  anti : Bool
  ticks : Nat
  aStation : Nat
  aBit : Nat
  bStation : Nat
  bBit : Nat
  deriving DecidableEq, Repr

structure OutputEntry where
  station : Nat
  block : Bool
  word : Bool
  space : Nat
  addr : Nat
  dst : Nat
  safe : Word
  deriving DecidableEq, Repr

/-- The scan tables (R204, R205). -/
structure ScanTables where
  stations : List StationEntry
  inputs : List InputEntry
  pairs : List PairEntry
  outputs : List OutputEntry
  blockOff : Nat
  blockLen : Nat
  deriving DecidableEq, Repr

/-- Word offsets of the sections behind the 8-word header of the scan tables, and the words that they take. -/
structure ScanLayout where
  st : Nat
  inp : Nat
  pr : Nat
  out : Nat
  total : Nat

/-- The layout of the scan tables at word `o`. -/
def scanLayout (rd : WordAt) (o : Nat) : ScanLayout :=
  let n := fun i => (rd (o + i)).toNat
  ⟨o + 8, o + 8 + 4 * n 0, o + 8 + 4 * n 0 + 4 * n 1, o + 8 + 4 * n 0 + 4 * n 1 + 3 * n 2,
    8 + 4 * n 0 + 4 * n 1 + 3 * n 2 + 4 * n 3⟩

def stationEntry (rd : WordAt) (o : Nat) : StationEntry :=
  let a := rd o
  let t := rd (o + 3)
  { station := fieldOf a 7 0, task := if bitOf a 8 then some (fieldOf a 31 14) else none, inBox := (rd (o + 1)).toNat,
    outBox := if rd (o + 2) = 0xffffffff#32 then none else some (rd (o + 2)).toNat, timeout := fieldOf t 15 0,
    len := fieldOf t 26 16 }
def inputEntry (rd : WordAt) (o : Nat) : InputEntry :=
  let a := rd o
  ⟨fieldOf a 7 0, fieldOf a 9 8, bitOf a 10, (rd (o + 1)).toNat, (rd (o + 2)).toNat, rd (o + 3)⟩
def pairEntry (rd : WordAt) (o : Nat) : PairEntry :=
  let a := rd o
  let x := rd (o + 1)
  let y := rd (o + 2)
  ⟨fieldOf a 8 0, bitOf a 9, fieldOf a 31 16, fieldOf x 7 0, fieldOf x 31 8, fieldOf y 7 0, fieldOf y 31 8⟩
def outputEntry (rd : WordAt) (o : Nat) : OutputEntry :=
  let a := rd o
  ⟨fieldOf a 7 0, bitOf a 8, bitOf a 10, spOf (rd (o + 1)), adOf (rd (o + 1)), (rd (o + 2)).toNat, rd (o + 3)⟩

/-- The scan tables of an image; empty where it has none. -/
def Header.scan (h : Header) (rd : WordAt) (base : Nat) : ScanTables :=
  if h.scanWords = 0 then ⟨[], [], [], [], 0, 0⟩
  else
    let o := base + h.scanOffset
    let y := scanLayout rd o
    { stations := (List.range (rd o).toNat).map fun i => stationEntry rd (y.st + 4 * i),
      inputs := (List.range (rd (o + 1)).toNat).map fun i => inputEntry rd (y.inp + 4 * i),
      pairs := (List.range (rd (o + 2)).toNat).map fun i => pairEntry rd (y.pr + 3 * i),
      outputs := (List.range (rd (o + 3)).toNat).map fun i => outputEntry rd (y.out + 4 * i),
      blockOff := (rd (o + 4)).toNat, blockLen := (rd (o + 5)).toNat }

/-- The station's entry in a list. -/
def findStation (l : List StationEntry) (k : Nat) : Option StationEntry := l.find? fun e => e.station == k

/-- Reserved bits, ranges and the offset rules of R205 for one entry by itself. A station entry's input payload is 1,024
bytes (R189), its output payload LENGTH bytes. -/
def stationOk (rd : WordAt) (o : Nat) : Bool :=
  let e := stationEntry rd o
  fieldOf (rd o) 13 9 == 0 && e.inBox % 64 == 0 && (match e.outBox with | some b => b % 64 == 0 | none => true)
    && decide (1 ≤ e.timeout) && decide (e.len ≤ 1024) && fieldOf (rd (o + 3)) 31 27 == 0
def inputOk (rd : WordAt) (o : Nat) : Bool :=
  let e := inputEntry rd o
  fieldOf (rd o) 31 11 == 0 && decide (e.policy ≤ 2)
    && (if e.word then e.src % 4 == 0 && decide (e.src + 4 ≤ 1024) && decide (e.dst < 65536) && e.dst % 32 == 0
        else decide (e.src < 8192) && decide (e.dst < 65536))
def pairOk (rd : WordAt) (o : Nat) : Bool :=
  let e := pairEntry rd o
  fieldOf (rd o) 15 10 == 0 && decide (10 ≤ e.ticks) && decide (e.ticks ≤ 20000) && decide (e.aBit < 8192)
    && decide (e.bBit < 8192)
def outputOk (rd : WordAt) (o : Nat) : Bool :=
  let e := outputEntry rd o
  fieldOf (rd o) 9 9 == 0 && fieldOf (rd o) 31 11 == 0 && fieldOf (rd (o + 1)) 31 24 == 0
    && (if e.word then storeOperand e.space e.addr && e.space != 5 && e.dst % 4 == 0
        else (e.space == 2 && decide (e.addr < 65536)) || (e.space == 3 && decide (e.addr < 262144)))

/-- The rules of R205 that involve the station section or the block's length. -/
def inputFits (stations : List StationEntry) (e : InputEntry) : Bool := (findStation stations e.station).isSome
def pairFits (stations : List StationEntry) (e : PairEntry) : Bool :=
  (findStation stations e.aStation).isSome && (findStation stations e.bStation).isSome
def outputFits (t : ScanTables) (e : OutputEntry) : Bool :=
  let fits := fun n => if e.word then decide (e.dst + 4 ≤ n) else decide (e.dst < 8 * n)
  if e.block then fits t.blockLen
  else match findStation t.stations e.station with
    | some st => st.outBox.isSome && fits st.len
    | none => false

/-! ## The judgement of IMAGE_CHECK (R170) -/

/-- Do two word ranges, where neither is empty, overlap? -/
def overlap (a n b m : Nat) : Bool := decide (0 < n ∧ 0 < m ∧ a < b + m ∧ b < a + n)

/-- A malformed header: the header word that holds the offending field (R168, R170). -/
def headerError (h : Header) (base : Nat) : Option Nat :=
  let secs := [(1, 16, h.codeWords), (2, h.instOffset, 2 * h.instCount), (4, h.retainOffset, h.retainWords),
    (6, h.scanOffset, h.scanWords)]
  if h.format ≠ 1 ∨ 7 < h.program ∨ h.reserved ≠ 0 then some 0
  else if 12288 < h.instCount then some 3
  else if !h.zeros then some 9
  else if h.imageWords < 17 ∨ 262144 < base + h.imageWords then some 14
  else match secs.find? fun q => decide (0 < q.2.2 ∧ (h.imageWords < q.2.1 + q.2.2 ∨ q.2.1 < 16)) with
    | some q => some q.1
    | none =>
      (secs.find? fun q => secs.any fun r => decide (r.1 < q.1) && overlap q.2.1 q.2.2 r.2.1 r.2.2).map (·.1)

/-- The instruction starts of the code, in order. -/
def codeStarts (rd : WordAt) (code codeWords : Nat) : Nat → Nat → List Nat
  | 0, _ => []
  | n + 1, i => if codeWords ≤ i then [] else i :: codeStarts rd code codeWords n (i + (if twoWords (rd (code + i)) then 2 else 1))

/-- The kind of instance that an instruction needs, and its space (R169). -/
def needsKind (op : Nat) : Option (Nat × Nat) :=
  if 0x28 ≤ op ∧ op ≤ 0x2a then some (op - 0x27, 4)
  else if op = 0x2c ∨ op = 0x2d then some (4, 5)
  else if op = 0x24 then some (5, 3)
  else if op = 0x25 then some (6, 3)
  else none

/-- Is an instance entry well formed by itself: identifier, kind, and the space of its kind? -/
def instanceOk (e : Instance) : Bool :=
  e.ident != 0 && (if 1 ≤ e.kind ∧ e.kind ≤ 3 then e.space == 4 && decide (e.addr < 4096)
    else if e.kind = 4 then e.space == 5 && decide (e.addr < 4096)
    else if e.kind = 5 ∨ e.kind = 6 then e.space == 3 && decide (e.addr < 262144) else false)

/-- The bytes of an image with the CHECK field taken as 0 (R168). -/
def imageBytes (rd : WordAt) (base n : Nat) : List Byte :=
  ((List.range n).map fun i => leBytes 4 (if i = 15 then 0 else (rd (base + i)).toNat)).flatten
def imageCrc (rd : WordAt) (base n : Nat) : Word := crc32 (imageBytes rd base n)

/-- Errors of `n` entries of `size` words from word `start` that break their rule by themselves, by image word. -/
def sectionErrors (base n start size : Nat) (ok : Nat → Bool) : List (Nat × Nat) :=
  (List.range n).filterMap fun i => if ok (start + size * i) then none else some (start + size * i - base, 0x104)

/-- Errors of the retentive map by itself (R203). -/
def mapErrors (rd : WordAt) (base : Nat) (h : Header) : List (Nat × Nat) :=
  (List.range (h.retainWords / 2)).filterMap fun i =>
    if h.mapEntryOk rd base i then none else some (h.retainOffset + 2 * i, 0x104)

/-- Errors of the scan tables' words by themselves (R204, R205). -/
def scanErrors (rd : WordAt) (base : Nat) (h : Header) : List (Nat × Nat) :=
  let y := scanLayout rd (base + h.scanOffset)
  let n := fun i => (rd (base + h.scanOffset + i)).toNat
  if h.scanWords = 0 then []
  else if h.scanWords < 8 ∨ 256 < n 0 ∨ 512 < n 2 ∨ h.scanWords < y.total ∨ n 4 % 64 ≠ 0 ∨ 4096 < n 5 ∨ n 6 ≠ 0 ∨ n 7 ≠ 0
    then [(h.scanOffset, 0x104)]
  else sectionErrors base (n 0) y.st 4 (stationOk rd) ++ sectionErrors base (n 1) y.inp 4 (inputOk rd)
    ++ sectionErrors base (n 2) y.pr 3 (pairOk rd) ++ sectionErrors base (n 3) y.out 4 (outputOk rd)

/-- Errors of the scan tables that involve the station section or the block (R205). -/
def scanCrossErrors (rd : WordAt) (base : Nat) (h : Header) : List (Nat × Nat) :=
  let t := h.scan rd base
  let y := scanLayout rd (base + h.scanOffset)
  let dup := t.stations.zipIdx.filterMap fun e =>
    if t.stations.zipIdx.any fun f => decide (f.2 < e.2) && f.1.station == e.1.station then some (y.st + 4 * e.2 - base, 0x104)
    else none
  let ins := t.inputs.zipIdx.filterMap fun e => if inputFits t.stations e.1 then none else some (y.inp + 4 * e.2 - base, 0x104)
  let prs := t.pairs.zipIdx.filterMap fun e => if pairFits t.stations e.1 then none else some (y.pr + 3 * e.2 - base, 0x104)
  let outs := t.outputs.zipIdx.filterMap fun e => if outputFits t e.1 then none else some (y.out + 4 * e.2 - base, 0x104)
  dup ++ ins ++ prs ++ outs

/-- Errors of single words, by image word: an illegal instruction, or a table entry that breaks its rules by itself. -/
def wordErrors (rd : WordAt) (base : Nat) (h : Header) : List (Nat × Nat) :=
  let code := (codeStarts rd (base + 16) h.codeWords (h.codeWords + 1) 0).filterMap fun i =>
    if insnOk rd (base + 16) h.codeWords i then none else some (16 + i, 0x103)
  let inst := ((h.instances rd base).zipIdx).filterMap fun q =>
    if instanceOk q.1 then none else some (h.instOffset + 2 * q.2, 0x104)
  code ++ inst ++ mapErrors rd base h ++ scanErrors rd base h

/-- The earliest of a list of errors by word. -/
def firstError (l : List (Nat × Nat)) : Option (Nat × Nat) :=
  l.foldl (fun b e => match b with | none => some e | some q => if e.1 < q.1 then some e else some q) none

/-- Errors that involve more than one section (R169, R205), in the order of their words. -/
def crossErrors (rd : WordAt) (base : Nat) (h : Header) : List (Nat × Nat) :=
  let inst := h.instances rd base
  let starts := codeStarts rd (base + 16) h.codeWords (h.codeWords + 1) 0
  let same := fun (e : Instance × Nat) => inst.zipIdx.any fun f =>
    decide (f.2 < e.2) && (f.1.ident == e.1.ident || (f.1.space == e.1.space && f.1.addr == e.1.addr))
  let twice := inst.zipIdx.filterMap fun e => if same e then some (h.instOffset + 2 * e.2, 0x104) else none
  let uses := starts.filterMap fun i =>
    let w := rd (base + 16 + i)
    match needsKind (opOf w) with
    | none => none
    | some (kind, sp) =>
      if inst.any fun e => e.kind == kind && e.space == sp && e.addr == adOf w then none else some (16 + i, 0x104)
  let noEnd := if starts.any fun i => opOf (rd (base + 16 + i)) == 0x7f then [] else [(16 + h.codeWords - 1, 0x104)]
  let odd := if h.retainWords % 2 = 1 then [(h.retainOffset + h.retainWords - 1, 0x104)] else []
  uses ++ noEnd ++ twice ++ odd ++ scanCrossErrors rd base h

/-- The outcome of an image check: an error with CHECK_INDEX, and whether the last word was read; or none. -/
structure CheckResult where
  error : Option (Nat × Nat)   -- OP_ERROR, CHECK_INDEX
  crc : Word                   -- CHECK_CRC: 0 when the check failed before the last word
  words : Nat
  deriving DecidableEq, Repr

/-- IMAGE_CHECK (R170): the header, then each word in reading order (a word that differs between the participants
before its own error), then the conditions over several sections, then the CRC. -/
def imageCheck (rd : WordAt) (differs : List Nat) (base : Nat) (check : Word) : CheckResult :=
  let h := header rd base
  match headerError h base with
  | some i => ⟨some (0x100, i), 0#32, h.imageWords⟩
  | none =>
    if h.check ≠ check then ⟨some (0x101, 15), 0#32, h.imageWords⟩
    else
      let diff := (differs.filter fun i => decide (i < h.imageWords)).map fun i => (i, 0x105)
      match firstError (diff ++ wordErrors rd base h) with
      | some e => ⟨some (e.2, e.1), 0#32, h.imageWords⟩
      | none =>
        let crc := imageCrc rd base h.imageWords
        match firstError (crossErrors rd base h) with
        | some e => ⟨some (e.2, e.1), crc, h.imageWords⟩
        | none => if crc = h.check then ⟨none, crc, h.imageWords⟩ else ⟨some (0x102, 15), crc, h.imageWords⟩

end Sys2Proof.Machine
end

