-- ==== Sys2Proof/Machine/Engines.lean ====
section
/-!
DEFINITION. The three Benmi engines: their memories and how writes land in all of them (R136, R138, R140, R144), how an
engine is named odd (R137, R162, R163), and the programs' records.
-/
namespace Sys2Proof.Machine

def allEngines : List Engine := [.e0, .e1, .e2]
def engineIndex : Engine → Nat
  | .e0 => 0 | .e1 => 1 | .e2 => 2
def enginePage (e : Engine) : Nat := 0x041 + engineIndex e

def State.setCle (s : State) (c : Cle) : State := { s with cle := c }
/-- The participating engines, E0 first (R134). -/
def State.engines (s : State) : List Engine := allEngines.filter fun e => s.cle.participating.eng e
/-- The lowest-numbered participant. -/
def State.lowEngine (s : State) : Engine := s.engines.headD .e0

/-- An engine's program memory. -/
def State.progMem (s : State) (e : Engine) : WordAt := fun i => tblRead zeroWord (s.mem.prog.eng e) i
/-- An engine's data memory. -/
def State.dataMem (s : State) (e : Engine) : Tbl Byte := s.mem.data.eng e
/-- The lowest participant's memories, as the scan phases read them. -/
def State.pm (s : State) : WordAt := s.progMem s.lowEngine
def State.dm (s : State) : Tbl Byte := s.dataMem s.lowEngine

/-! ## Layout of data memory (R144, R206) -/

def bitBase (sp : Nat) : Nat := if sp = 1 then 0x78000 else if sp = 2 then 0x7a000 else 0x70000
def timerOff (n : Nat) : Nat := 0x40000 + 32 * n
def counterOff (n : Nat) : Nat := 0x60000 + 16 * n
def contextOff (p : Nat) : Nat := 0x7c000 + 64 * p
def sWordOff (p n : Nat) : Nat := 0x7c200 + 256 * p + 4 * n
def pairOff (n : Nat) : Nat := 0x7ca00 + 4 * n
def stationOff (k : Nat) : Nat := 0x7d200 + 16 * k
def freshOff (i : Nat) : Nat := 0x7e200 + 4 * i

/-! ## Writes into the data memories -/

/-- Bytes into all three data memories (R136, R138): ECC of the words written whole, an armed injection in an engine's
page, and the lines that change, which the programs' next captures take (R196). -/
def State.putData (s : State) (off : Nat) (bs : List Byte) : State :=
  let old := s.dm
  let changed := (spanWords 64 off bs.length).filter fun l =>
    (List.range 64).any fun i =>
      let a := 64 * l + i
      decide (off ≤ a ∧ a < off + bs.length) && memByte old a != bs.getD (a - off) 0#8
  let m :=
    { s.mem with
      data := s.mem.data.map fun t => memStore t off bs,
      dataEcc := s.mem.dataEcc.map fun t => eccWrite t 4 off bs.length }
  let s1 := { s with mem := m, cle := { s.cle with
    dirty := changed.foldl (fun t l => tblWrite zeroNat t l 255) s.cle.dirty } }
  allEngines.foldl (fun t e =>
    match t.armedEcc (enginePage e) 1 with
    | some d =>
      { t with mem := { t.mem with
          dataEcc := t.mem.dataEcc.setEng e (tblWrite noEcc (t.mem.dataEcc.eng e) (off / 4) d) } }.spendInject (enginePage e)
    | none => t) s1

/-- A voted write (R136). -/
def State.votedData (s : State) (off : Nat) (bs : List Byte) : State :=
  if bs.isEmpty then s
  else (((s.putData off bs).setReg64 0x040 Reg.cle.votedWritesLo (s.reg64 0x040 Reg.cle.votedWritesLo + 1))).bump 0x040 0 1
/-- An insertion of up to 64 bytes (R138). -/
def State.insertData (s : State) (off : Nat) (bs : List Byte) : State :=
  if bs.isEmpty then s
  else ((s.putData off bs).setReg64 0x040 Reg.cle.extWritesLo (s.reg64 0x040 Reg.cle.extWritesLo + 1)).bump 0x040 1 1
/-- A 32-bit word written by a scan phase. -/
def State.dataWord (s : State) (off v : Nat) : State := s.votedData off (leBytes 4 v)

/-- A word into all three program memories (R138). -/
def State.putProg (s : State) (i : Nat) (w : Word) : State :=
  let m :=
    { s.mem with
      prog := s.mem.prog.map fun t => tblWrite zeroWord t i w, progEcc := s.mem.progEcc.map fun t => tblErase t i }
  allEngines.foldl (fun t e =>
    match t.armedEcc (enginePage e) 0 with
    | some d =>
      { t with mem := { t.mem with progEcc := t.mem.progEcc.setEng e (tblWrite noEcc (t.mem.progEcc.eng e) i d) } }.spendInject
        (enginePage e)
    | none => t) { s with mem := m }

/-! ## Programs -/

def regs0 : EngRegs := ⟨false, false, 0#32, 0, [], []⟩
def progReset (_ : Nat) : ProgState :=
  { state := 0, stopCause := 0, noRetainLast := false, stopPending := false, exchPending := false, triggerLt := 0#64,
    nextTrigger := 0#64, ft := 0#64, scanNum := 0#64, firstScan := false, warm := false, noRetain := false,
    exchanged := false, errTasks := [], began := false, context := Trio.all regs0, cycles := 0, staged := none,
    released := false, commitFired := false, retain := none, retainSeq := none, lastSet := [] }
def State.prog (s : State) (p : Nat) : ProgState := tblRead progReset s.cle.progs p
def State.setProg (s : State) (p : Nat) (v : ProgState) : State :=
  s.setCle { s.cle with progs := tblWrite progReset s.cle.progs p v }
def progPage (p : Nat) : Nat := 0x048 + p

/-- First word of a program's active image (ACTIVE_IMAGE). -/
def State.imageBase (s : State) (p : Nat) : Nat := s.field (progPage p) Reg.program.activeImage 17 0
def State.imageValid (s : State) (p : Nat) : Bool := bitOf (s.reg (progPage p) Reg.program.activeImage) 31
def State.imageHeader (s : State) (p : Nat) : Header := header s.pm (s.imageBase p)
def State.scanTables (s : State) (p : Nat) : ScanTables := (s.imageHeader p).scan s.pm (s.imageBase p)

/-- The images that program pages name as active, as (first word, words): ACTIVE_IMAGE with VALID, and EXCH_IMAGE while
an exchange is pending (R143, R185, R207). -/
def State.activeImages (s : State) : List (Nat × Nat × Nat) :=
  (List.range 8).flatMap fun p =>
    (if s.imageValid p then [(p, s.imageBase p, (s.imageHeader p).imageWords)] else [])
      ++ (if (s.prog p).exchPending then
        let b := s.field (progPage p) Reg.program.exchImage 17 0
        [(p, b, (header s.pm b).imageWords)] else [])

/-- Does a word of program memory belong to an active image? -/
def State.inActiveImage (s : State) (i : Nat) : Bool := s.activeImages.any fun q => decide (q.2.1 ≤ i ∧ i < q.2.1 + q.2.2)

/-- Is a program's execute phase executing or preempted (IDLE of CLE_STATUS, R164)? -/
def State.executing (s : State) : Bool := (List.range 8).any fun p => (s.prog p).state == 4 || (s.prog p).began

/-! ## Naming an engine odd (R137, R162, R163) -/

/-- Reseeds of an engine begun in the last 3,600 s of LT. -/
def State.engineReseeds (s : State) (e : Engine) : Nat :=
  (s.cle.begun.filter fun q => q.1 == e && decide ((s.time.lt - q.2).toNat < 3600 * 250000000)).length

/-- An engine named odd among three participants (R162, R163): held, out of the participants, one report; at the reseed
limit the report is that of ENGINE_RESEED_LIMIT and no reseed follows. -/
def State.nameEngine (s : State) (e : Engine) (bit : Nat) : State :=
  let s1 := s.latch (enginePage e) bit
  let limit := decide (s1.field 0x040 Reg.cle.cleReseedLimit 3 0 ≤ s1.engineReseeds e)
  let s2 := (s1.recAdd (0x578 + 8 * engineIndex e) 1).setCle
    { s1.cle with
      participating := s1.cle.participating.setEng e false, odd := some e, waiting := !limit && !s1.inLockout }
  if limit then s2.lockoutCause 0x040 3 [] else s2.post .control (enginePage e) 5 3 []

/-- A finding against an engine: named odd among three; with two participants the cause is latched in its page and the
finding is an ENGINE_DUPLEX_MISMATCH (R137). -/
def State.engineCause (s : State) (e : Engine) (bit : Nat) : State :=
  if !(s.cle.participating.eng e) then s.latch (enginePage e) bit
  else if s.engines.length = 3 then s.nameEngine e bit
  else (s.latch (enginePage e) bit).lockoutCause 0x040 1 []

/-- Two participants differ: one finding until they agree again (R137). -/
def State.engineMismatch (s : State) : State :=
  if s.cle.differing then s else (s.setCle { s.cle with differing := true }).lockoutCause 0x040 1 []

/-- Findings against two or more engines of three in one cycle (R162). -/
def State.secondOddEngine (s : State) (l : List (Engine × Nat)) : State :=
  (l.foldl (fun t q => t.latch (enginePage q.1) q.2) s).lockoutCause 0x040 2 []

end Sys2Proof.Machine
end

