-- ==== Sys2Proof/Machine/ScanOps.lean ====
section
/-!
DEFINITION. The shared operations of the scan (chapter 06): the transfer port and the station mailboxes (R189), the
outputs' values and their writing (R179, R180), the retentive sets and their commits (R194 to R196, R373 to R376), and
how a program is stopped (R183).
-/
namespace Sys2Proof.Machine

/-! ## The transfer port (R139) -/

/-- A read by the transfer port at an offset of shared SRAM: an uncorrectable word or an offset beyond the SRAM is a
refused access, which reads 0 (R32, R68). -/
def State.portRead (s : State) (off n : Nat) : List Byte × State :=
  let s1 := s.bw 81 n
  if off + n ≤ 0x2000000 then
    match s.sramRead off n with
    | some l => (l, s1)
    | none => (zeros n, s1.violation .benmi (0x10000000 + off))
  else (zeros n, s1.violation .benmi (0x10000000 + off))

/-- A write by the transfer port. -/
def State.portWrite (s : State) (off : Nat) (bs : List Byte) : State :=
  if bs.isEmpty then s
  else if off + bs.length ≤ 0x2000000 then (s.bw 81 bs.length).sramWrite off bs
  else s.violation .benmi (0x10000000 + off)

/-! ## Mailboxes (R189) -/

/-- A delivery as a reader of a mailbox takes it: SEQ, LT_STAMP, LENGTH (above 1,024 read as 1,024) and the payload. -/
structure Delivery where
  seq : Nat
  lt : DWord
  len : Nat
  bytes : List Byte
  deriving DecidableEq, Repr

/-- Buffer `b` of the mailbox at `off`. -/
def mailBuffer (off b : Nat) : Nat := off + 0x40 + b * 0x440

/-- One buffer read through the port. -/
def State.readBuffer (s : State) (off seq b : Nat) : Delivery × State :=
  let h := s.portRead (mailBuffer off b) 12
  let len := min (ofLeBytes (h.1.drop 8)) 1024
  let d := h.2.portRead (mailBuffer off b + 0x40) len
  (⟨seq, BitVec.ofNat 64 (ofLeBytes (h.1.take 8)), len, d.1⟩, d.2)

/-- The newest delivery of a mailbox, SEQ read first; none while SEQ is 0. -/
def State.readMailbox (s : State) (off : Nat) : Option Delivery × State :=
  let q := s.portRead off 4
  let seq := ofLeBytes q.1
  if seq = 0 then (none, q.2) else
    let d := q.2.readBuffer off seq (seq % 2)
    (some d.1, d.2)

/-- Bit `n` and the 4-byte word at byte `o` of a payload; beyond LENGTH they read 0 (R192). -/
def Delivery.bit (d : Delivery) (n : Nat) : Bool := ((d.bytes.getD (n / 8) 0#8)).getLsbD (n % 8)
def Delivery.word (d : Delivery) (o : Nat) : Word :=
  BitVec.ofNat 32 (ofLeBytes ((List.range 4).map fun i => d.bytes.getD (o + i) 0#8))

/-- A delivery into a mailbox (R189): the whole of the other buffer, then SEQ. -/
def State.writeMailbox (s : State) (off : Nat) (payload : List Byte) : State :=
  let q := s.portRead off 4
  let seq := (ofLeBytes q.1 + 1) % 4294967296
  let buf := leBytes 8 s.time.lt.toNat ++ leBytes 4 payload.length ++ zeros 0x34 ++ padTo 1024 payload
  (q.2.portWrite (mailBuffer off (seq % 2)) buf).portWrite off (leBytes 4 seq)

/-! ## Stations (R190) -/

/-- Is a station timed out now, given its newest delivery: no delivery, or one TIMEOUT ms or longer ago? -/
def State.timedOut (s : State) (e : StationEntry) (d : Option Delivery) : Bool :=
  match d with
  | none => true
  | some d => decide (e.timeout * 250000 ≤ s.time.lt.toNat - d.lt.toNat)

/-- State of station `k` in the scan-state area (R206): 0 LOST, 1 RETURNING, 2 ONLINE. -/
def State.stationState (s : State) (k : Nat) : Nat := memLe s.dm (stationOff k) 4 % 4
/-- Words 0 to 3 of a station's record. -/
def State.setStation (s : State) (k state : Nat) (err undelivered : Bool) (d : Option Delivery) : State :=
  let w0 := state + 4 * err.toNat + 8 * undelivered.toNat
  let rest := match d with
    | some d => leBytes 4 d.seq ++ leBytes 8 d.lt.toNat
    | none => memBytes s.dm (stationOff k + 4) 12
  s.votedData (stationOff k) (leBytes 4 w0 ++ rest)
/-- Bits 2 and 3 of word 0. -/
def State.stationErr (s : State) (k : Nat) : Bool := memLe s.dm (stationOff k) 4 / 4 % 2 == 1
def State.stationUndelivered (s : State) (k : Nat) : Bool := memLe s.dm (stationOff k) 4 / 8 % 2 == 1

/-- The UNDELIVERED bit of a station in the work ledger (R180), newly set ones counted (R453). -/
def State.ledgerUndelivered (s : State) (k : Nat) (b : Bool) : State :=
  let old := s.ledger.undelivered
  let new := if b then old ||| (1#256 <<< k) else old &&& ~~~(1#256 <<< k)
  let s1 := { s with ledger := { s.ledger with undelivered := new } }
  if b ∧ new ≠ old then s1.bump 0x051 3 1 else s1

/-! ## Output values (R180, R204, R205) -/

/-- A bit and a word of data memory, as R145's spaces place them. -/
def dataBit (m : Tbl Byte) (sp ad : Nat) : Bool :=
  if sp = 4 then (memByte m (timerOff ad + 0x13)).getLsbD 6
  else if sp = 5 then (memByte m (counterOff ad + 0x0b)).getLsbD 6
  else (memByte m (bitBase sp + ad / 8)).getLsbD (ad % 8)
def dataWordAt (m : Tbl Byte) (sp ad : Nat) : Word :=
  BitVec.ofNat 32
    (if sp = 4 then memLe m (timerOff ad) 4
     else if sp = 5 then memLe m (counterOff ad) 4
     else if sp = 6 then memLe m (4 * ad) 4
     else memLe m (bitBase sp + ad / 8) 4)

/-- The live value of an output entry: bit 0 for a bit entry. -/
def liveValue (m : Tbl Byte) (e : OutputEntry) : Word :=
  if e.word then dataWordAt m e.space e.addr else flag (dataBit m e.space e.addr) 0

/-- A byte list with bit `n` replaced, and with the 4 bytes from `o` replaced. -/
def putBit (l : List Byte) (n : Nat) (b : Bool) : List Byte :=
  let old := l.getD (n / 8) 0#8
  l.set (n / 8) (if b then old ||| (1#8 <<< (n % 8)) else old &&& ~~~(1#8 <<< (n % 8)))
def putWord (l : List Byte) (o : Nat) (w : Word) : List Byte :=
  (leBytes 4 w.toNat).zipIdx.foldl (fun t q => t.set (o + q.2) q.1) l

/-- A payload of `n` bytes from the entries of a list and their values; bits that no entry covers are 0. -/
def payloadOf (n : Nat) (l : List OutputEntry) (v : OutputEntry → Word) : List Byte :=
  l.foldl (fun t e => if e.word then putWord t e.dst (v e) else putBit t e.dst (bitOf (v e) 0)) (zeros n)

/-- The stations of an image that have an output mailbox, in ascending order. -/
def ScanTables.outStations (t : ScanTables) : List (StationEntry × Nat) :=
  (List.range 256).filterMap fun k => match findStation t.stations k with
    | some e => e.outBox.map fun b => (e, b)
    | none => none
def ScanTables.stationOutputs (t : ScanTables) (k : Nat) : List OutputEntry :=
  t.outputs.filter fun e => !e.block && e.station == k
def ScanTables.blockOutputs (t : ScanTables) : List OutputEntry := t.outputs.filter (·.block)

/-- The safe value of every output entry to all mailboxes, each with SEQ last, then to the output block (R183 item 2,
R432 item 2). -/
def State.writeSafe (s : State) (p : Nat) : State :=
  let t := s.scanTables p
  let s1 := t.outStations.foldl (fun u q =>
    u.writeMailbox q.2 (payloadOf q.1.len (t.stationOutputs q.1.station) (·.safe))) s
  s1.portWrite t.blockOff (payloadOf t.blockLen t.blockOutputs (·.safe))

/-- A staged image written out after its release (R179): mailboxes in ascending station order, then the block; the
ledger takes the scan's number after the last write. -/
def State.writeOut (s : State) (p : Nat) : State :=
  let g := s.prog p
  match g.staged with
  | none => s
  | some im =>
    let s1 := im.stations.foldl (fun u q => u.writeMailbox q.mailbox (if q.useLive then q.live else q.safe)) s
    let s2 := s1.portWrite im.blockOff im.block
    let l := s2.ledger
    let s3 := { s2 with ledger := { l with
      scanNum := tblWrite zeroDword l.scanNum p g.scanNum, commitNum := tblWrite zeroDword l.commitNum p g.scanNum } }
    s3.setProg p { g with staged := none, released := false }

/-! ## Retentive sets (R194) -/

/-- COMPAT mode of PROG_CONFIG. -/
def State.compat (s : State) (p : Nat) : Bool := bitOf (s.reg (progPage p) Reg.program.progConfig) 2

/-- A RETAIN_RANGE register as (space, start line, lines). -/
def State.compatRange (s : State) (p sp off : Nat) : Nat × Nat × Nat :=
  (sp, s.field (progPage p) off 15 0, s.field (progPage p) off 31 16)

/-- The four ranges of COMPAT mode. -/
def State.compatRanges (s : State) (p : Nat) : List (Nat × Nat × Nat) :=
  [s.compatRange p 3 Reg.program.retainRangeM, s.compatRange p 4 Reg.program.retainRangeT,
   s.compatRange p 5 Reg.program.retainRangeC, s.compatRange p 6 Reg.program.retainRangeD]

/-- The retentive set of a program for the image at `base`; none where a range runs beyond its space or the set is
larger than 1,024 lines. -/
def State.retainSetOf (s : State) (p base : Nat) : Option (List Nat) :=
  if s.compat p then setOfRanges (s.compatRanges p) else setOfRanges ((header s.pm base).retainMap s.pm base)

/-- Does an image's retentive map keep R203? -/
def Header.mapOk (h : Header) (rd : WordAt) (base : Nat) : Bool :=
  h.retainWords % 2 == 0 && (List.range (h.retainWords / 2)).all fun i => h.mapEntryOk rd base i

/-- A 64-byte line of data memory. -/
def lineOf (m : Tbl Byte) (l : Nat) : List Byte := memBytes m (64 * l) 64

/-! ## The retentive commit (R373, R374) -/

def chainReset (_ : Nat) : Chain := ⟨0#64, [], [], 0, 0, false⟩
def State.chain (s : State) (p : Nat) : Chain := tblRead chainReset s.ps.chains p

/-- The header line of a record in a chain. -/
def chainHeader (kind p lines : Nat) (seq : DWord) (setLines : Nat) : List Byte :=
  padTo 64 (leBytes 2 1 ++ leBytes 1 kind ++ leBytes 1 p ++ leBytes 4 lines ++ leBytes 8 seq.toNat ++ leBytes 2 setLines)

/-- The list of a SET record's lines, two bytes each, unused entries 0xFFFF. -/
def setList (l : List Nat) : List Byte :=
  let k := 32 * ((l.length + 31) / 32)
  (l.map fun n => leBytes 2 n).flatten ++ (List.replicate (2 * (k - l.length)) 0xff#8)

/-- The bitmap of set positions over two lines. -/
def positionMap (set : List Nat) (has : Nat → Bool) : List Byte :=
  set.zipIdx.foldl (fun t q => if has q.1 then putBit t q.2 true else t) (zeros 128)

/-- The free pool slot whose entry has the lowest JSEQ; of equal ones, the lowest number (log entry 23). -/
def State.nextSlot (s : State) : Option Nat :=
  ((List.range 512).foldl (fun (b : Option (Nat × Nat)) n =>
    let e := tblRead slotFree s.ps.slots n
    if e.alloc then b
    else match b with
      | none => some (n, e.jseq)
      | some q => if e.jseq < q.2 then some (n, e.jseq) else b) none).map (·.1)

/-- Pool slots allocated for the chain lines from `line` on, `n` lines (R372): the entry is written before the first
line of its slot. -/
def State.allocate (s : State) (p line n : Nat) : State :=
  (List.range ((line + n - 1) / 1024 + 1 - line / 1024)).foldl (fun t i =>
    let o := line / 1024 + i
    if t.ps.slots.any fun e => e.2.alloc && e.2.program == p && e.2.order == o then t
    else match t.nextSlot with
      | some k => t.setSlotEntry k ⟨true, p, o, 0⟩
      | none => t) s

/-- The lines of a capture merged into a chain's image. -/
def Chain.merge (c : Chain) (lines : List (Nat × List Byte)) : Tbl (List Byte) :=
  lines.foldl (fun t q => tblPut t q.1 q.2) c.image

/-- The SET record of a set at a chain line, and the lines it takes. -/
def setRecord (p line : Nat) (seq : DWord) (set : List Nat) : NvRecord :=
  let n := (set.length + 31) / 32 + 2
  { cls := 2, place := .chain p line, body := chainHeader 3 p n seq set.length ++ setList set ++ zeros 48, effect := .plain }

/-- A DELTA (KIND 1) or BASE (KIND 2) record: its data lines in ascending position; its mark makes `c` the program's
newest chain. -/
def dataRecord (p line kind : Nat) (c : Chain) (lines : List (Nat × List Byte)) : NvRecord :=
  let n := lines.length + 4
  { cls := 2, place := .chain p line,
    body := chainHeader kind p n c.seq c.set.length
      ++ positionMap c.set (fun l => lines.any fun q => q.1 == l) ++ (lines.map (·.2)).flatten ++ zeros 48,
    effect := .retentive p c }

/-- A scan's captured lines handed to the persistent-state engine (R195, R374): a BASE behind its SET record for the
program's first record since module reset, for a capture of the whole set and when the chain has grown by 4,096 lines;
otherwise a DELTA. The shadow takes the lines. -/
def State.handOver (s : State) (p : Nat) (set : List Nat) (lines : List (Nat × List Byte)) (full : Bool) : State :=
  let c := s.chain p
  let base := full || !c.based || !(s.ps.firstDone.contains p) || decide (4096 ≤ c.endLine - c.setLine)
  let image := (if full then [] else c.image)
  let merged := ({ c with image := image }).merge lines
  let s0 := (s.bump (progPage p) 5 1).bump (progPage p) 6 lines.length
  if base then
    let all := set.map fun l => (l, tblRead (fun _ => zeros 64) merged l)
    let n1 := (set.length + 31) / 32 + 2
    let n2 := set.length + 4
    let c' : Chain := ⟨c.seq + 1, set, merged, c.endLine + n1 + n2, c.endLine, true⟩
    let s1 := s0.allocate p c.endLine (n1 + n2)
    let s2 := (s1.submit (setRecord p c.endLine c'.seq set)).submit (dataRecord p (c.endLine + n1) 2 c' all)
    s2.setPs { s2.ps with chains := tblPut s2.ps.chains p c', firstDone := if s2.ps.firstDone.contains p then s2.ps.firstDone else p :: s2.ps.firstDone }
  else
    let c' : Chain := { c with seq := c.seq + 1, image := merged, endLine := c.endLine + lines.length + 4 }
    let s1 := s0.allocate p c.endLine (lines.length + 4)
    let s2 := s1.submit (dataRecord p c.endLine 1 c' lines)
    s2.setPs { s2.ps with chains := tblPut s2.ps.chains p c' }

/-! ## Stopping a program (R161, R183) -/

/-- The engines let go of a program. -/
def State.release (s : State) (p : Nat) : State :=
  if s.cle.running = some p then s.setCle { s.cle with running := none } else s

/-- A program stopped: its scan abandoned (a write-out under way completes), the safe values written, STATE STOPPED
with its cause, a pending exchange discarded with EXCH_STATUS PROGRAM_STOPPED. -/
def State.haltProgram (s : State) (p cause : Nat) : State :=
  let s1 := if (s.prog p).released then s.writeOut p else s
  let s2 := (s1.release p).writeSafe p
  let g := s2.prog p
  let s3 := if g.exchPending then s2.setReg (progPage p) Reg.program.exchStatus 0x16#32 else s2
  s3.setProg p
    { g with
      state := 0, stopCause := cause, stopPending := false, exchPending := false, began := false, staged := none,
      released := false, retain := none, retainSeq := none, errTasks := [], commitFired := false }

/-- A program stopped by an overrun (bit 0, STOP_CAUSE 0x10) or by a program fault (bit 1, the code of R161, which is
DETAIL word 0): the cause is latched and reported with REACTION 2. -/
def State.stopProgram (s : State) (p cause bit : Nat) : State :=
  (s.haltProgram p cause).raise (progPage p) bit (if bit = 1 then [BitVec.ofNat 32 cause] else [])

/-! ## Which phase the engines serve next (R176) -/

/-- Does a program wait for the engines: an input freeze, an execute phase, output staging, housekeeping work? -/
def ProgState.waitsEngines (g : ProgState) : Bool := g.state == 2 || g.state == 5 || g.state == 6 || g.state == 9

/-- May an engine phase of program `p` start: the engines are free and no program of higher priority waits for them? -/
def State.turnOf (s : State) (p : Nat) : Bool :=
  s.cle.running.isNone && (s.prog p).waitsEngines && (List.range p).all fun q => !(s.prog q).waitsEngines

end Sys2Proof.Machine
end

