-- ==== Sys2Proof/Machine/Benmi.lean ====
section
/-!
DEFINITION. The Benmi instructions (chapter 05). Each engine computes an instruction's effect from its own registers
and memories (`Ctx` to `Eff`); the lockstep comparator and the write voter then judge the three (R135 to R137).
-/
namespace Sys2Proof.Machine

/-- What an engine executes an instruction with: its data memory, the running program with FT, the pairs that its
image configures and its error tasks still to call, its registers, the instruction's operand. -/
structure Ctx where
  m : Tbl Byte
  p : Nat
  ft : DWord
  exchanged : Bool
  pairs : List Nat
  tasks : List (Nat × Nat)
  r : EngRegs
  sp : Nat
  ad : Nat
  second : Word

/-- What an instruction does: the registers after it, its data-memory writes, what it reads of data memory, a program
fault of R161, cycles, whether it ends the execute phase, whether it ends an error-task call. -/
structure Eff where
  r : EngRegs
  writes : List (Nat × List Byte)
  reads : List (Nat × Nat)
  fault : Option Nat
  cycles : Nat
  fin : Bool
  popTask : Bool
  deriving DecidableEq

/-! ## Operands (R145) -/

/-- S word `n` as the running program reads it: bit 3 of word 0 is OV (R147). -/
def Ctx.sWord (c : Ctx) (n : Nat) : Word :=
  let w := BitVec.ofNat 32 (memLe c.m (sWordOff c.p n) 4)
  if n = 0 then setBit w 3 c.r.ov else w

def Ctx.bitOperand (c : Ctx) : Bool :=
  if c.sp = 9 then bitOf (c.sWord (c.ad / 32)) (c.ad % 32) else dataBit c.m c.sp c.ad

/-- A word operand in space `sp` at `ad`. -/
def Ctx.wordIn (c : Ctx) (sp ad : Nat) : Word :=
  if sp = 7 then wordOfInt (signedOf 20 ad)
  else if sp = 8 then c.second
  else if sp = 9 then c.sWord (ad - 0x80000)
  else dataWordAt c.m sp ad
def Ctx.wordOperand (c : Ctx) : Word := c.wordIn c.sp c.ad

/-- The place of a bit or word operand in data memory: offset and bytes (none for K and KL). -/
def bitPlace (p sp ad : Nat) : List (Nat × Nat) :=
  if sp = 4 then [(timerOff ad + 0x10, 4)]
  else if sp = 5 then [(counterOff ad + 8, 4)]
  else if sp = 9 then [(sWordOff p (ad / 32), 4)]
  else [(bitBase sp + ad / 8, 1)]
def wordPlace (p sp ad : Nat) : List (Nat × Nat) :=
  if sp = 4 then [(timerOff ad, 4)]
  else if sp = 5 then [(counterOff ad, 4)]
  else if sp = 6 then [(4 * ad, 4)]
  else if sp = 7 ∨ sp = 8 then []
  else if sp = 9 then [(sWordOff p (ad - 0x80000), 4)]
  else [(bitBase sp + ad / 8, 4)]

/-! ## Shapes of effects -/

/-- Words of the instruction. -/
def Ctx.len (c : Ctx) : Nat := if c.sp = 8 then 2 else 1
/-- An instruction that goes on with the next one. -/
def Ctx.next (c : Ctx) (r : EngRegs) (cycles : Nat) : Eff :=
  ⟨{ r with pc := c.r.pc + c.len }, [], [], none, cycles + (c.len - 1), false, false⟩
/-- A program fault: the instruction makes no write. -/
def Ctx.fails (c : Ctx) (code : Nat) : Eff := ⟨c.r, [], [], some code, 0, false, false⟩
/-- A jump. -/
def Ctx.goto (c : Ctx) (pc cycles : Nat) : Eff := ⟨{ c.r with pc := pc }, [], [], none, cycles, false, false⟩
/-- BA takes a value, computed from a bit operand. -/
def Ctx.toBa (c : Ctx) (b : Bool) : Eff := { c.next { c.r with ba := b } 1 with reads := bitPlace c.p c.sp c.ad }
/-- ACC takes a value, computed from a word operand. -/
def Ctx.toAcc (c : Ctx) (w : Word) (cycles : Nat) : Eff :=
  { c.next { c.r with acc := w } cycles with reads := wordPlace c.p c.sp c.ad }
/-- A write of a bit in Q or M. -/
def Ctx.storeBit (c : Ctx) (r : EngRegs) (b : Bool) (cycles : Nat) : Eff :=
  let o := bitBase c.sp + c.ad / 8
  { c.next r cycles with writes := [(o, putBit [memByte c.m o] (c.ad % 8) b)], reads := [(o, 1)] }

/-! ## Bit instructions -/

def semNop (c : Ctx) : Eff := c.next c.r 1
def semLdb (c : Ctx) : Eff := c.toBa c.bitOperand
def semLdbn (c : Ctx) : Eff := c.toBa (!c.bitOperand)
def semAndb (c : Ctx) : Eff := c.toBa (c.r.ba && c.bitOperand)
def semAndbn (c : Ctx) : Eff := c.toBa (c.r.ba && !c.bitOperand)
def semOrb (c : Ctx) : Eff := c.toBa (c.r.ba || c.bitOperand)
def semOrbn (c : Ctx) : Eff := c.toBa (c.r.ba || !c.bitOperand)
def semXorb (c : Ctx) : Eff := c.toBa (c.r.ba ^^ c.bitOperand)
def semXorbn (c : Ctx) : Eff := c.toBa (c.r.ba ^^ !c.bitOperand)

/-- A branch open; `join` is true for an OR join. -/
def Ctx.openBranch (c : Ctx) (join : Bool) : Eff :=
  if c.r.br.length < 16 then c.next { c.r with br := (c.r.ba, join) :: c.r.br } 1 else c.fails 3
def semBra (c : Ctx) : Eff := c.openBranch false
def semBro (c : Ctx) : Eff := c.openBranch true
def semBrc (c : Ctx) : Eff :=
  match c.r.br with
  | (r, k) :: t => c.next { c.r with ba := if k then r || c.r.ba else r && c.r.ba, br := t } 1
  | [] => c.fails 4

def semStb (c : Ctx) : Eff := c.storeBit c.r c.r.ba 1
def semStbn (c : Ctx) : Eff := c.storeBit c.r (!c.r.ba) 1
def semSetb (c : Ctx) : Eff := if c.r.ba then c.storeBit c.r true 1 else c.next c.r 1

/-- INSTANCE of a timer record and of a counter record. -/
def timerInst (m : Tbl Byte) (n : Nat) : Word := BitVec.ofNat 32 (memLe m (timerOff n + 0x10) 4)
def counterInst (m : Tbl Byte) (n : Nat) : Word := BitVec.ofNat 32 (memLe m (counterOff n + 8) 4)

/-- A timer record's bytes 0x00 to 0x13 (R157). -/
def timerBytes (elapsed preset : Nat) (lastT : DWord) (inst : Word) : List Byte :=
  leBytes 4 elapsed ++ leBytes 4 preset ++ leBytes 8 lastT.toNat ++ leBytes 4 inst.toNat
/-- A counter record's bytes 0x00 to 0x0B (R157). -/
def counterBytes (value preset inst : Word) : List Byte :=
  leBytes 4 value.toNat ++ leBytes 4 preset.toNat ++ leBytes 4 inst.toNat

/-- CLRB: with BA = 1 the bit, or ELAPSED, RUNNING and Q of a timer (R158), or VALUE and Q of a counter (R159). -/
def semClrb (c : Ctx) : Eff :=
  if !c.r.ba then c.next c.r 1
  else if c.sp = 4 then
    let o := timerOff c.ad
    { c.next c.r 1 with
      writes := [(o, timerBytes 0 (memLe c.m (o + 4) 4) (BitVec.ofNat 64 (memLe c.m (o + 8) 8))
        (setBit (setBit (timerInst c.m c.ad) 29 false) 30 false))],
      reads := [(o, 20)] }
  else if c.sp = 5 then
    let o := counterOff c.ad
    { c.next c.r 1 with
      writes := [(o, counterBytes 0#32 (BitVec.ofNat 32 (memLe c.m (o + 4) 4)) (setBit (counterInst c.m c.ad) 30 false))],
      reads := [(o, 12)] }
  else c.storeBit c.r false 1

/-- The place of an M bit in the fresh-edge set (R201, R206). -/
def freshIndex (m : Tbl Byte) (ad : Nat) : Option Nat :=
  (List.range 1024).find? fun i => memLe m (freshOff i) 4 == ad

/-- EDGR and EDGF (R160); in the EXCHANGED scan a bit of the fresh-edge set reports no edge and leaves the set
(R201). -/
def Ctx.edge (c : Ctx) (result : Bool → Bool → Bool) : Eff :=
  let old := dataBit c.m 3 c.ad
  match (if c.exchanged then freshIndex c.m c.ad else none) with
  | some i =>
    let e := c.storeBit { c.r with ba := false } c.r.ba 2
    { e with writes := e.writes ++ [(freshOff i, leBytes 4 0xffffffff)] }
  | none => c.storeBit { c.r with ba := result c.r.ba old } c.r.ba 1
def semEdgr (c : Ctx) : Eff := c.edge fun b old => b && !old
def semEdgf (c : Ctx) : Eff := c.edge fun b old => !b && old

/-! ## Timers and counters (R158, R159) -/

/-- The live part of a timer. -/
structure TimerState where
  elapsed : Nat
  running : Bool
  q : Bool

def sat32 (n : Nat) : Nat := min n 0xffffffff

/-- The pseudocode of R158: `d` is FT minus LAST_T. -/
def tonStep (t : TimerState) (inp : Bool) (pre d : Nat) : TimerState :=
  let t1 : TimerState :=
    if !inp then ⟨0, false, false⟩
    else if !t.running && !t.q then ⟨0, true, t.q⟩
    else if t.running then { t with elapsed := sat32 (t.elapsed + d) }
    else t
  if t1.running ∧ pre ≤ t1.elapsed then { t1 with q := true, running := false } else t1
def tofStep (t : TimerState) (inp prev : Bool) (pre d : Nat) : TimerState :=
  let t1 : TimerState :=
    if inp then ⟨0, false, true⟩
    else if prev then { t with running := true, elapsed := 0 }
    else if t.running then { t with elapsed := sat32 (t.elapsed + d) }
    else t
  if t1.running ∧ pre ≤ t1.elapsed then { t1 with q := false, running := false } else t1
def tpStep (t : TimerState) (inp prev : Bool) (pre d : Nat) : TimerState :=
  let t1 : TimerState :=
    if t.running then { t with elapsed := sat32 (t.elapsed + d) }
    else if inp && !prev then ⟨0, true, true⟩
    else t
  if t1.running ∧ pre ≤ t1.elapsed then { t1 with q := false, running := false } else t1

/-- A timer instruction around its step. -/
def Ctx.timer (c : Ctx) (step : TimerState → Bool → Bool → Nat → Nat → TimerState) : Eff :=
  let o := timerOff c.ad
  let inst := timerInst c.m c.ad
  let last := BitVec.ofNat 64 (memLe c.m (o + 8) 8)
  let t := step ⟨memLe c.m o 4, bitOf inst 29, bitOf inst 30⟩ c.r.ba (bitOf inst 28) c.r.acc.toNat (c.ft - last).toNat
  let inst' := setBit (setBit (setBit inst 28 c.r.ba) 29 t.running) 30 t.q
  { c.next { c.r with ba := t.q } 2 with
    writes := [(o, timerBytes t.elapsed c.r.acc.toNat c.ft inst')], reads := [(o, 20)] }
def semTon (c : Ctx) : Eff := c.timer fun t i _ pre d => tonStep t i pre d
def semTof (c : Ctx) : Eff := c.timer tofStep
def semTp (c : Ctx) : Eff := c.timer tpStep

def satSigned (i : Int) : Int := max (-2147483648) (min 2147483647 i)

def semCtu (c : Ctx) : Eff :=
  let o := counterOff c.ad
  let inst := counterInst c.m c.ad
  let v := (dataWordAt c.m 5 c.ad).toInt
  let v' := if c.r.ba && !(bitOf inst 28) then satSigned (v + 1) else v
  let q := decide (c.r.acc.toInt ≤ v')
  { c.next { c.r with ba := q } 2 with
    writes := [(o, counterBytes (wordOfInt v') c.r.acc (setBit (setBit inst 28 c.r.ba) 30 q))], reads := [(o, 12)] }
def semCtd (c : Ctx) : Eff :=
  let o := counterOff c.ad
  let inst := counterInst c.m c.ad
  let v := (dataWordAt c.m 5 c.ad).toInt
  let v' := if c.r.ba && !(bitOf inst 29) then satSigned (v - 1) else v
  let q := decide (v' ≤ 0)
  { c.next { c.r with ba := q } 2 with
    writes := [(o, counterBytes (wordOfInt v') (BitVec.ofNat 32 (memLe c.m (o + 4) 4)) (setBit (setBit inst 29 c.r.ba) 30 q))],
    reads := [(o, 12)] }

/-! ## Word instructions (R153, R154) -/

def semLdw (c : Ctx) : Eff := c.toAcc c.wordOperand 1
/-- A word stored in Q, M, C (VALUE) or D. -/
def Ctx.storeWord (c : Ctx) (sp ad : Nat) (w : Word) : List (Nat × List Byte) :=
  (wordPlace c.p sp ad).map fun q => (q.1, leBytes 4 w.toNat)
def semStw (c : Ctx) : Eff := { c.next c.r 1 with writes := c.storeWord c.sp c.ad c.r.acc }
def semMovw (c : Ctx) : Eff :=
  ⟨{ c.r with pc := c.r.pc + 2 }, c.storeWord (spOf c.second) (adOf c.second) c.wordOperand, wordPlace c.p c.sp c.ad, none, 2,
    false, false⟩

/-- ADD, SUB, MUL: the low 32 bits; OV is set where the signed result does not fit, and never cleared. -/
def Ctx.arith (c : Ctx) (f : Int → Int → Int) (cycles : Nat) : Eff :=
  let v := f c.r.acc.toInt c.wordOperand.toInt
  let ov := decide (v < -2147483648 ∨ 2147483647 < v)
  { c.next { c.r with acc := wordOfInt v, ov := c.r.ov || ov } cycles with reads := wordPlace c.p c.sp c.ad }
def semAdd (c : Ctx) : Eff := c.arith (· + ·) 1
def semSub (c : Ctx) : Eff := c.arith (· - ·) 1
def semMul (c : Ctx) : Eff := c.arith (· * ·) 3

/-- A compare. -/
def Ctx.compare (c : Ctx) (f : Int → Int → Bool) : Eff :=
  { c.next { c.r with ba := f c.r.acc.toInt c.wordOperand.toInt } 1 with reads := wordPlace c.p c.sp c.ad }
def semCeq (c : Ctx) : Eff := c.compare (· == ·)
def semCne (c : Ctx) : Eff := c.compare (· != ·)
def semCgt (c : Ctx) : Eff := c.compare fun a b => decide (b < a)
def semCge (c : Ctx) : Eff := c.compare fun a b => decide (b ≤ a)
def semClt (c : Ctx) : Eff := c.compare fun a b => decide (a < b)
def semCle (c : Ctx) : Eff := c.compare fun a b => decide (a ≤ b)

def semShl (c : Ctx) : Eff := c.next { c.r with acc := c.r.acc <<< c.ad } 1
def semShr (c : Ctx) : Eff := c.next { c.r with acc := c.r.acc >>> c.ad } 1
def semSar (c : Ctx) : Eff := c.next { c.r with acc := c.r.acc.sshiftRight c.ad } 1

/-! ## Control instructions -/

def semJmp (c : Ctx) : Eff := c.goto c.ad 2
def semJbt (c : Ctx) : Eff := if c.r.ba then c.goto c.ad 2 else c.next c.r 1
def semJbf (c : Ctx) : Eff := if c.r.ba then c.next c.r 1 else c.goto c.ad 2
def semCall (c : Ctx) : Eff :=
  if c.r.calls.length < 8 then
    ⟨{ c.r with pc := c.ad, calls := some (c.r.pc + 1) :: c.r.calls }, [], [], none, 2, false, false⟩
  else c.fails 5

/-- RET; the return of an error-task call clears BA and ACC and goes on to the next error task, whose call costs 2
cycles, or to code index 0 (R193). -/
def semRet (c : Ctx) : Eff :=
  match c.r.calls with
  | [] => c.fails 6
  | some n :: t => ⟨{ c.r with pc := n, calls := t }, [], [], none, 2, false, false⟩
  | none :: t =>
    if c.r.br ≠ [] then c.fails 7
    else match c.tasks.tail with
    | (k, i) :: _ =>
      ⟨{ c.r with ba := false, acc := 0#32, pc := i, calls := none :: t }, [(sWordOff c.p 8, leBytes 4 k)], [], none, 4, false,
        true⟩
    | [] =>
      ⟨{ c.r with ba := false, acc := 0#32, pc := 0, calls := t }, [(sWordOff c.p 8, leBytes 4 0xffffffff)], [], none, 2,
        false, true⟩

/-- DCH: the frozen value of a pair that the image configures (R187); any other pair is ILLEGAL_OPERAND. -/
def semDch (c : Ctx) : Eff :=
  if c.pairs.contains c.ad then
    { c.next { c.r with ba := (memByte c.m (pairOff c.ad + 2)).getLsbD 3 } 2 with reads := [(pairOff c.ad, 4)] }
  else c.fails 2

def semEnd (c : Ctx) : Eff :=
  if c.r.br ≠ [] ∨ c.r.calls ≠ [] then c.fails 7 else ⟨c.r, [], [], none, 1, true, false⟩

/-! ## One instruction in the three engines -/

/-- What an engine presents, and the cause of its page for an uncorrectable word it met (2 program, 3 data) or for being
held by PT_CLE (0). -/
structure EngineOut where
  e : Engine
  eff : Eff
  cause : Option Nat

/-- The state that the lockstep comparator compares (R135), and the judgement of the instruction itself. -/
def Eff.sameState (x y : Eff) : Bool :=
  x.r.pc == y.r.pc && x.r.ba == y.r.ba && x.r.ov == y.r.ov && x.r.acc == y.r.acc && x.r.br.length == y.r.br.length
    && x.r.calls.length == y.r.calls.length && x.fault == y.fault && x.fin == y.fin
def Eff.same (x y : Eff) : Bool := x.sameState y && x.writes == y.writes
/-- The cause that an engine latches against the two others. -/
def EngineOut.against (x : EngineOut) (good : Eff) : Nat :=
  match x.cause with
  | some n => n
  | none => if x.eff.sameState good then 1 else 0

/-- The outcome table of R137: the effect that is written (none: nothing is), and the state after the findings. -/
def State.judgeEngines (s : State) (l : List EngineOut) : Option Eff × State :=
  let agrees : EngineOut → EngineOut → Bool := fun x y => x.cause.isNone && y.cause.isNone && x.eff.same y.eff
  match l with
  | [x, y, z] =>
    if agrees x y && agrees y z then (some x.eff, s)
    else if agrees x y then (some x.eff, s.nameEngine z.e (z.against x.eff))
    else if agrees x z then (some x.eff, s.nameEngine y.e (y.against x.eff))
    else if agrees y z then (some y.eff, s.nameEngine x.e (x.against y.eff))
    else
      let bad := l.filterMap fun o => o.cause.map fun n => (o.e, n)
      if 2 ≤ bad.length then (none, s.secondOddEngine bad)
      else (none, (bad.foldl (fun t q => t.latch (enginePage q.1) q.2) s).lockoutCause 0x040 0 [])
  | [x, y] =>
    if agrees x y then (some x.eff, s.setCle { s.cle with differing := false })
    else
      (none, (l.foldl (fun t o => match o.cause with | some n => t.latch (enginePage o.e) n | none => t) s).engineMismatch)
  | [x] => (some x.eff, s)
  | _ => (none, s)

/-- The event counter of an engine page that counts an opcode (R453). -/
def opcodeGroup (op : Nat) : Option Nat :=
  if 0x10 ≤ op ∧ op ≤ 0x1a then some 1
  else if 0x20 ≤ op ∧ op ≤ 0x25 then some 2
  else if 0x28 ≤ op ∧ op ≤ 0x2a then some 3
  else if op = 0x2c ∨ op = 0x2d then some 4
  else if 0x30 ≤ op ∧ op ≤ 0x42 then some 5
  else if 0x48 ≤ op ∧ op ≤ 0x4d then some 6
  else if op = 0x50 then some 7
  else if op = 0x7f then some 8
  else none

/-- Cycles of an execute phase booked: CYCLES and the counters of every participating engine, the scan's own count. -/
def State.bookCycles (s : State) (p n : Nat) (op : Option Nat) : State :=
  let s1 := s.engines.foldl (fun t e =>
    let t1 := (t.setReg64 (enginePage e) Reg.engine.cyclesLo (t.reg64 (enginePage e) Reg.engine.cyclesLo + BitVec.ofNat 64 n)).bump
      (enginePage e) 0 n
    match op.bind opcodeGroup with
    | some g => t1.bump (enginePage e) g 1
    | none => t1) s
  s1.setProg p { s1.prog p with cycles := (s1.prog p).cycles + n }

/-- Pairs that the image of a program configures. -/
def State.imagePairs (s : State) (p : Nat) : List Nat := (s.scanTables p).pairs.map (·.pair)

/-- The engine that PT_CLE holds, where it participates (R462). -/
def State.heldByPt (s : State) : Option Engine :=
  let w := s.pt Reg.perturb.ptCle
  if bitOf w 31 then allEngines.find? fun e => engineIndex e == fieldOf w 1 0 && s.cle.participating.eng e else none

/-- What engine `e` presents for the instruction `op sp ad second` of program `p`, whose code begins at word `code`. -/
def State.engineOut (s : State) (p code : Nat) (exchanged : Bool) (ft : DWord) (pairs : List Nat) (tasks : List (Nat × Nat))
    (sem : Ctx → Eff) (w second : Word) (e : Engine) : EngineOut :=
  let r := s.cle.regs.eng e
  let own := s.progMem e (code + r.pc)
  let own2 := s.progMem e (code + r.pc + 1)
  let eff := sem ⟨s.dataMem e, p, ft, exchanged, pairs, tasks, r, spOf w, adOf w, second⟩
  let badFetch := tblRead noEcc (s.mem.progEcc.eng e) (code + r.pc) == 2
    || (twoWords w && tblRead noEcc (s.mem.progEcc.eng e) (code + r.pc + 1) == 2)
  let badData := eff.reads.any fun q => eccBad (s.mem.dataEcc.eng e) 4 q.1 q.2
  let odd := s.heldByPt = some e ∨ own ≠ w ∨ (twoWords w = true ∧ own2 ≠ second)
  ⟨e, eff, if badFetch then some 2 else if badData then some 3 else if odd then some 0 else none⟩

/-- The registers that the engines hold after an instruction. -/
def State.putRegs (s : State) (l : List EngineOut) : State :=
  s.setCle { s.cle with regs := l.foldl (fun t o => t.setEng o.e o.eff.r) s.cle.regs }

/-- The effect of an agreed instruction on the module: its voted writes, its cycles, the end of the execute phase
(STATE STAGING), the end of an error-task call; PC at the end of the code without END is the fault CODE_OVERRUN. -/
def State.applyEff (s : State) (p codeWords op : Nat) (l : List EngineOut) (eff : Eff) : State :=
  match eff.fault with
  | some code => s.stopProgram p code 1
  | none =>
    let s1 := eff.writes.foldl (fun t q => t.votedData q.1 q.2) (s.putRegs l)
    let s2 := s1.bookCycles p eff.cycles (some op)
    let g := s2.prog p
    if eff.fin then (s2.setProg p { g with state := 6, began := false }).setCle { (s2.setProg p { g with state := 6, began := false }).cle with running := none }
    else if eff.popTask then s2.setProg p { g with errTasks := g.errTasks.tail }
    else if codeWords ≤ eff.r.pc then s2.stopProgram p 8 1
    else s2

/-- An instruction executes: the program that holds the engines stands at the word `op sp ad` (and `second` where a
second word follows); an illegal one is the fault ILLEGAL_OPERAND (R152, R161). Any other command changes nothing. -/
def State.runInsn (s : State) (op sp ad : Nat) (second : Option Word) (sem : Ctx → Eff) : State :=
  match s.cle.running with
  | none => s
  | some p =>
    let g := s.prog p
    let h := s.imageHeader p
    let code := s.imageBase p + 16
    let pc := (s.cle.regs.eng s.lowEngine).pc
    let w := s.pm (code + pc)
    let w2 := s.pm (code + pc + 1)
    let fits := match second with | some v => !(twoWords w) || w2 == v | none => true
    if g.state ≠ 4 ∨ h.codeWords ≤ pc ∨ opOf w ≠ op ∨ spOf w ≠ sp ∨ adOf w ≠ ad ∨ fits = false then s
    else if !(insnOk s.pm code h.codeWords pc) then s.stopProgram p 2 1
    else
      let l := s.engines.map (s.engineOut p code g.exchanged g.ft (s.imagePairs p) g.errTasks sem w w2)
      let s0 := if s.heldByPt.isSome then s.ptApplied else s
      match s0.judgeEngines l with
      | (some eff, s1) => s1.applyEff p h.codeWords op l eff
      | (none, s1) => s1.putRegs l

/-- An opcode that R153 does not list, or the end of the code reached, stops the program (R161); the command END stands
for the next instruction time there. -/
def State.doBenmiEnd (s : State) (sp ad : Nat) : State :=
  match s.cle.running with
  | none => s
  | some p =>
    let h := s.imageHeader p
    let pc := (s.cle.regs.eng s.lowEngine).pc
    let w := s.pm (s.imageBase p + 16 + pc)
    if (s.prog p).state ≠ 4 then s
    else if h.codeWords ≤ pc then s.stopProgram p 8 1
    else if !(opcodeKnown (opOf w)) then s.stopProgram p 1 1
    else s.runInsn 0x7f sp ad none semEnd

/-! ## The meanings -/

def execBenmiNop (sp : BitVec 4) (ad : BitVec 20) (s : State) : Result :=
  .next (s.runInsn 0x01 sp.toNat ad.toNat none semNop)
def execLdb (sp : BitVec 4) (ad : BitVec 20) (s : State) : Result :=
  .next (s.runInsn 0x10 sp.toNat ad.toNat none semLdb)
def execLdbn (sp : BitVec 4) (ad : BitVec 20) (s : State) : Result :=
  .next (s.runInsn 0x11 sp.toNat ad.toNat none semLdbn)
def execAndb (sp : BitVec 4) (ad : BitVec 20) (s : State) : Result :=
  .next (s.runInsn 0x12 sp.toNat ad.toNat none semAndb)
def execAndbn (sp : BitVec 4) (ad : BitVec 20) (s : State) : Result :=
  .next (s.runInsn 0x13 sp.toNat ad.toNat none semAndbn)
def execOrb (sp : BitVec 4) (ad : BitVec 20) (s : State) : Result :=
  .next (s.runInsn 0x14 sp.toNat ad.toNat none semOrb)
def execOrbn (sp : BitVec 4) (ad : BitVec 20) (s : State) : Result :=
  .next (s.runInsn 0x15 sp.toNat ad.toNat none semOrbn)
def execXorb (sp : BitVec 4) (ad : BitVec 20) (s : State) : Result :=
  .next (s.runInsn 0x16 sp.toNat ad.toNat none semXorb)
def execXorbn (sp : BitVec 4) (ad : BitVec 20) (s : State) : Result :=
  .next (s.runInsn 0x17 sp.toNat ad.toNat none semXorbn)
def execBra (sp : BitVec 4) (ad : BitVec 20) (s : State) : Result :=
  .next (s.runInsn 0x18 sp.toNat ad.toNat none semBra)
def execBro (sp : BitVec 4) (ad : BitVec 20) (s : State) : Result :=
  .next (s.runInsn 0x19 sp.toNat ad.toNat none semBro)
def execBrc (sp : BitVec 4) (ad : BitVec 20) (s : State) : Result :=
  .next (s.runInsn 0x1a sp.toNat ad.toNat none semBrc)
def execStb (sp : BitVec 4) (ad : BitVec 20) (s : State) : Result :=
  .next (s.runInsn 0x20 sp.toNat ad.toNat none semStb)
def execStbn (sp : BitVec 4) (ad : BitVec 20) (s : State) : Result :=
  .next (s.runInsn 0x21 sp.toNat ad.toNat none semStbn)
def execSetb (sp : BitVec 4) (ad : BitVec 20) (s : State) : Result :=
  .next (s.runInsn 0x22 sp.toNat ad.toNat none semSetb)
def execClrb (sp : BitVec 4) (ad : BitVec 20) (s : State) : Result :=
  .next (s.runInsn 0x23 sp.toNat ad.toNat none semClrb)
def execEdgr (sp : BitVec 4) (ad : BitVec 20) (s : State) : Result :=
  .next (s.runInsn 0x24 sp.toNat ad.toNat none semEdgr)
def execEdgf (sp : BitVec 4) (ad : BitVec 20) (s : State) : Result :=
  .next (s.runInsn 0x25 sp.toNat ad.toNat none semEdgf)
def execTon (sp : BitVec 4) (ad : BitVec 20) (s : State) : Result :=
  .next (s.runInsn 0x28 sp.toNat ad.toNat none semTon)
def execTof (sp : BitVec 4) (ad : BitVec 20) (s : State) : Result :=
  .next (s.runInsn 0x29 sp.toNat ad.toNat none semTof)
def execTp (sp : BitVec 4) (ad : BitVec 20) (s : State) : Result :=
  .next (s.runInsn 0x2a sp.toNat ad.toNat none semTp)
def execCtu (sp : BitVec 4) (ad : BitVec 20) (s : State) : Result :=
  .next (s.runInsn 0x2c sp.toNat ad.toNat none semCtu)
def execCtd (sp : BitVec 4) (ad : BitVec 20) (s : State) : Result :=
  .next (s.runInsn 0x2d sp.toNat ad.toNat none semCtd)
def execLdw (sp : BitVec 4) (ad : BitVec 20) (second : Word) (s : State) : Result :=
  .next (s.runInsn 0x30 sp.toNat ad.toNat (some second) semLdw)
def execStw (sp : BitVec 4) (ad : BitVec 20) (s : State) : Result :=
  .next (s.runInsn 0x31 sp.toNat ad.toNat none semStw)
def execMovw (sp : BitVec 4) (ad : BitVec 20) (second : Word) (s : State) : Result :=
  .next (s.runInsn 0x32 sp.toNat ad.toNat (some second) semMovw)
def execBenmiAdd (sp : BitVec 4) (ad : BitVec 20) (second : Word) (s : State) : Result :=
  .next (s.runInsn 0x34 sp.toNat ad.toNat (some second) semAdd)
def execBenmiSub (sp : BitVec 4) (ad : BitVec 20) (second : Word) (s : State) : Result :=
  .next (s.runInsn 0x35 sp.toNat ad.toNat (some second) semSub)
def execBenmiMul (sp : BitVec 4) (ad : BitVec 20) (second : Word) (s : State) : Result :=
  .next (s.runInsn 0x36 sp.toNat ad.toNat (some second) semMul)
def execCeq (sp : BitVec 4) (ad : BitVec 20) (second : Word) (s : State) : Result :=
  .next (s.runInsn 0x38 sp.toNat ad.toNat (some second) semCeq)
def execCne (sp : BitVec 4) (ad : BitVec 20) (second : Word) (s : State) : Result :=
  .next (s.runInsn 0x39 sp.toNat ad.toNat (some second) semCne)
def execCgt (sp : BitVec 4) (ad : BitVec 20) (second : Word) (s : State) : Result :=
  .next (s.runInsn 0x3a sp.toNat ad.toNat (some second) semCgt)
def execCge (sp : BitVec 4) (ad : BitVec 20) (second : Word) (s : State) : Result :=
  .next (s.runInsn 0x3b sp.toNat ad.toNat (some second) semCge)
def execClt (sp : BitVec 4) (ad : BitVec 20) (second : Word) (s : State) : Result :=
  .next (s.runInsn 0x3c sp.toNat ad.toNat (some second) semClt)
def execCle (sp : BitVec 4) (ad : BitVec 20) (second : Word) (s : State) : Result :=
  .next (s.runInsn 0x3d sp.toNat ad.toNat (some second) semCle)
def execBenmiShl (sp : BitVec 4) (ad : BitVec 20) (s : State) : Result :=
  .next (s.runInsn 0x40 sp.toNat ad.toNat none semShl)
def execBenmiShr (sp : BitVec 4) (ad : BitVec 20) (s : State) : Result :=
  .next (s.runInsn 0x41 sp.toNat ad.toNat none semShr)
def execBenmiSar (sp : BitVec 4) (ad : BitVec 20) (s : State) : Result :=
  .next (s.runInsn 0x42 sp.toNat ad.toNat none semSar)
def execJmp (sp : BitVec 4) (ad : BitVec 20) (s : State) : Result :=
  .next (s.runInsn 0x48 sp.toNat ad.toNat none semJmp)
def execJbt (sp : BitVec 4) (ad : BitVec 20) (s : State) : Result :=
  .next (s.runInsn 0x49 sp.toNat ad.toNat none semJbt)
def execJbf (sp : BitVec 4) (ad : BitVec 20) (s : State) : Result :=
  .next (s.runInsn 0x4a sp.toNat ad.toNat none semJbf)
def execBenmiCall (sp : BitVec 4) (ad : BitVec 20) (s : State) : Result :=
  .next (s.runInsn 0x4c sp.toNat ad.toNat none semCall)
def execBenmiRet (sp : BitVec 4) (ad : BitVec 20) (s : State) : Result :=
  .next (s.runInsn 0x4d sp.toNat ad.toNat none semRet)
def execDch (sp : BitVec 4) (ad : BitVec 20) (s : State) : Result :=
  .next (s.runInsn 0x50 sp.toNat ad.toNat none semDch)
def execBenmiEnd (sp : BitVec 4) (ad : BitVec 20) (s : State) : Result := .next (s.doBenmiEnd sp.toNat ad.toNat)

end Sys2Proof.Machine
end

