-- ==== Sys2Proof/Machine/Scan.lean ====
section
/-!
DEFINITION. The scan (chapter 06) and the engines' own events (chapter 05): triggers, phases, starting and stopping,
online exchange, dual-channel pairs, insertions, view reads, scrubs, engine reseeds, IMAGE_CHECK; and the registers of
pages 0x040 to 0x051 that are computed from other state.
-/
namespace Sys2Proof.Machine

/-! ## Triggers (R174 to R176) -/

/-- A context saved at a preemption (R150): PC, BA, OV, ACC and the stacks are kept; the 64 bytes in data memory take
two voted writes, whose layout the spec does not give (free values, log entry 3). -/
def State.saveContext (s : State) (q : Nat) : State :=
  let d := (List.range 16).foldl (fun (a : List Byte × State) _ =>
    let w := a.2.drawWord
    (a.1 ++ leBytes 4 w.1.toNat, w.2)) ([], s)
  ((d.2.votedData (contextOff q) (d.1.take 32)).votedData (contextOff q + 32) (d.1.drop 32)).bump 0x040 2 1

/-- The program that executes is preempted at the instruction boundary (R176). -/
def State.preempt (s : State) (q : Nat) : State :=
  let s1 := s.saveContext q
  let s2 := s1.setProg q { s1.prog q with state := 5, context := s1.cle.regs }
  ((s2.setCle { s2.cle with running := none }).satReg (progPage q) Reg.program.preemptions 1).bump (progPage q) 3 1

/-- A trigger of program `p`: ignored while STOPPED, missed while a scan is open, otherwise the scan begins. -/
def State.trigger (s : State) (p : Nat) : State :=
  let g := s.prog p
  if g.state = 0 then s
  else if g.state ≠ 1 then
    ((s.satReg (progPage p) Reg.program.triggersMissed 1).bump (progPage p) 2 1).raise (progPage p) 2 []
  else
    let s1 := (s.setProg p { g with state := 2, triggerLt := s.time.lt, scanNum := g.scanNum + 1 }).bump (progPage p) 0 1
    match s1.cle.running with
    | some q => if p < q then s1.preempt q else s1
    | none => s1

/-- SCHEDULE of PROG_CONFIG. -/
def State.scheduled (s : State) (p : Nat) : Bool := bitOf (s.reg (progPage p) Reg.program.progConfig) 0

/-- CYCLE_TIME in LT ticks. -/
def State.cycleTicks (s : State) (p : Nat) : Nat := s.field (progPage p) Reg.program.cycleTime 19 0 * 250

/-- CYCLIC_TRIGGER (R174): the program's next trigger instant has come. -/
def State.doCyclicTrigger (s : State) (p : Nat) : State :=
  let g := s.prog p
  if s.scheduled p ∨ g.state = 0 ∨ s.time.lt < g.nextTrigger then s
  else (s.setProg p { g with nextTrigger := g.nextTrigger + BitVec.ofNat 64 (s.cycleTicks p) }).trigger p

def execCyclicTrigger (p : Fin 8) (s : State) : Result := .next (s.doCyclicTrigger p.val)

/-- CLE_TRIGGER (R174, R225): the action of a slot names a SCHEDULE program. -/
def State.cleTriggerTo (s : State) (arg : Word) : State :=
  if s.scheduled arg.toNat then s.trigger arg.toNat else s

def execCleTrigger (n : Fin 64) (s : State) : Result := .next (s.takeAction n.val 1 State.cleTriggerTo)

/-! ## Input freeze (R177, R187, R190 to R193) -/

/-- A station at an input freeze (R190): its newest delivery, its new state; a change to LOST is latched, counted and
schedules the error task. -/
def State.freezeStation (s : State) (e : StationEntry) : Option Delivery × State :=
  let d := s.readMailbox e.inBox
  let s1 := d.2
  let st := s1.stationState e.station
  let und := s1.stationUndelivered e.station
  if s1.timedOut e d.1 then
    if st = 0 then (d.1, s1.setStation e.station 0 false und d.1)
    else
      let s2 := s1.setStation e.station 0 true und d.1
      (d.1, ((s2.satReg 0x051 Reg.stations.lossEvents 1).bump 0x051 0 1).raise 0x051 0 [])
  else if st = 0 then (d.1, (s1.setStation e.station 1 false und d.1).bump 0x051 1 1)
  else (d.1, s1.setStation e.station st false und d.1)

/-- An I bit and an I word written by the scan (R146). -/
def State.putInput (s : State) (e : InputEntry) (v : Word) : State :=
  let o := bitBase 1 + e.dst / 8
  if e.word then s.insertData o (leBytes 4 v.toNat)
  else s.insertData o (putBit [memByte s.dm o] (e.dst % 8) (bitOf v 0))

/-- An input entry (R192): the payload of a RETURNING or ONLINE station, otherwise the substitute of its POLICY. -/
def State.applyInput (s : State) (ds : List (Nat × Option Delivery)) (e : InputEntry) : State :=
  if s.stationState e.station = 0 then
    (if e.policy = 0 then s else if e.policy = 1 then s.putInput e e.fixed else s.putInput e 0#32)
  else match (ds.find? fun q => q.1 == e.station).bind (·.2) with
    | some d => s.putInput e (if e.word then d.word e.src else flag (d.bit e.src) 0)
    | none => s.putInput e 0#32

/-- The state word of a pair (R206). -/
def State.pairWord (s : State) (n : Nat) : Word := BitVec.ofNat 32 (memLe s.dm (pairOff n) 4)
def State.setPairWord (s : State) (n : Nat) (w : Word) : State :=
  if s.pairWord n = w then s else s.dataWord (pairOff n) w.toNat

/-- The value of a pair copied into its frozen bit (R187). -/
def State.freezePair (s : State) (n : Nat) : State :=
  s.setPairWord n (setBit (s.pairWord n) 19 (bitOf (s.pairWord n) 16))

/-- The S words of program `p` at its input freeze (R147, R202). -/
def State.writeSWords (s : State) (p : Nat) (t : ScanTables) : State :=
  let g := s.prog p
  let permit := bitOf (s.reg (progPage p) Reg.program.outputPermit) 0
  let w0 := flag g.firstScan 0 ||| flag true 1 ||| flag g.exchanged 4 ||| flag g.noRetain 5 ||| flag permit 6
    ||| flag g.warm 7
  let lost := (t.stations.filter fun e => s.stationState e.station == 0).length
  let bad := (t.pairs.filter fun e => !(bitOf (s.pairWord e.pair) 17)).length
  let ws := [w0, 0#32, loWord g.ft, hiWord g.ft, loWord g.scanNum, hiWord g.scanNum, BitVec.ofNat 32 p,
    BitVec.ofNat 32 g.cycles, 0xffffffff#32, BitVec.ofNat 32 lost, BitVec.ofNat 32 bad]
  ws.zipIdx.foldl (fun u q => u.dataWord (sWordOff p q.2) q.1.toNat) s

/-- INPUT_FREEZE (R177): the engines are free and no program of higher priority waits for them. -/
def State.doInputFreeze (s : State) (p : Nat) : State :=
  let g := s.prog p
  if g.state ≠ 2 ∨ s.turnOf p = false then s
  else
    let ft := BitVec.ofNat 64 (s.time.lt.toNat / 250)
    let s0 := s.setProg p { g with ft := ft }
    let t := s0.scanTables p
    let order := (List.range 256).filterMap fun k => findStation t.stations k
    let f := order.foldl (fun (a : List (Nat × Option Delivery) × State) e =>
      let d := a.2.freezeStation e
      (a.1 ++ [(e.station, d.1)], d.2)) ([], s0)
    let s1 := t.inputs.foldl (fun u e => u.applyInput f.1 e) f.2
    let s2 := t.pairs.foldl (fun u e => u.freezePair e.pair) s1
    let s3 := s2.writeSWords p t
    let errs := order.filterMap fun e => if s3.stationErr e.station then e.task.map fun i => (e.station, i) else none
    let s4 := s3.setProg p
      { s3.prog p with state := 5, began := false, errTasks := errs, commitFired := false, staged := none, released := false }
    s4.setCle { s4.cle with boundary := false }

def execInputFreeze (p : Fin 8) (s : State) : Result := .next (s.doInputFreeze p.val)

/-! ## Execute -/

/-- The context of a preempted scan restored; an uncorrectable word of it is a finding against its engine (R140). -/
def State.restoreContext (s : State) (p : Nat) : State :=
  let s1 := s.engines.foldl (fun t e =>
    if eccBad (t.mem.dataEcc.eng e) 4 (contextOff p) 64 then t.engineCause e 3 else t) s
  (s1.setCle { s1.cle with regs := (s1.prog p).context }).bump 0x040 2 1

/-- The execute phase begins (R148, R193): registers 0, and the call of the first error task, if there is one. -/
def State.beginExecute (s : State) (p : Nat) : State :=
  let g := s.prog p
  let s1 := s.setProg p { g with began := true, cycles := 0 }
  match g.errTasks with
  | [] => s1.setCle { s1.cle with regs := Trio.all regs0 }
  | (k, i) :: _ =>
    let s2 := (s1.dataWord (sWordOff p 8) k).bookCycles p 2 none
    s2.setCle { s2.cle with regs := Trio.all { regs0 with pc := i, calls := [none] } }

/-- EXECUTE_RESUME (R176): an execute phase that waits for the engines begins or goes on. -/
def State.doExecuteResume (s : State) (p : Nat) : State :=
  let g := s.prog p
  if g.state ≠ 5 ∨ s.turnOf p = false then s
  else
    let s1 := if g.began then s.restoreContext p else s.beginExecute p
    let s2 := s1.setProg p { s1.prog p with state := 4 }
    s2.setCle { s2.cle with running := some p, boundary := false }

def execExecuteResume (p : Fin 8) (s : State) : Result := .next (s.doExecuteResume p.val)

/-! ## Output staging (R177, R180, R196) -/

/-- What the participants' second ports give for a span, each by its engine: none where a word is uncorrectable. -/
def State.portValues (s : State) (off n : Nat) : List (Engine × Option (List Byte)) :=
  s.engines.map fun e =>
    (e, if eccBad (s.mem.dataEcc.eng e) 4 off n then none else some (memBytes (s.dataMem e) off n))

/-- The comparison of R142: the majority's value among three, the lowest engine's among two that differ; whoever
differs is named, three different values are ENGINE_NO_MAJORITY. An unreadable word differs from every value. -/
def State.compareRead (s : State) (bit : Nat) (n : Nat) (l : List (Engine × Option (List Byte))) : List Byte × State :=
  let val : Option (List Byte) → List Byte := fun v => v.getD (zeros n)
  let eq : Option (List Byte) → Option (List Byte) → Bool := fun a b => a.isSome && a == b
  let cause : Option (List Byte) → Nat := fun v => if v.isNone then bit else 0
  match l with
  | [x, y, z] =>
    if eq x.2 y.2 && eq y.2 z.2 then (val x.2, s)
    else if eq x.2 y.2 then (val x.2, s.nameEngine z.1 (cause z.2))
    else if eq x.2 z.2 then (val x.2, s.nameEngine y.1 (cause y.2))
    else if eq y.2 z.2 then (val y.2, s.nameEngine x.1 (cause x.2))
    else (val x.2, s.lockoutCause 0x040 0 [])
  | [x, y] => if eq x.2 y.2 then (val x.2, s) else (val x.2, s.engineMismatch)
  | (_, v) :: _ => (val v, s)
  | [] => (zeros n, s)

/-- A compared read of data memory. -/
def State.readData (s : State) (off n : Nat) : List Byte × State := s.compareRead 3 n (s.portValues off n)

/-- Was line `l` changed since the last capture of program `p`? -/
def State.isDirty (s : State) (p l : Nat) : Bool := (tblRead zeroNat s.cle.dirty l).testBit p
def State.cleanLine (s : State) (p l : Nat) : State :=
  let m := tblRead zeroNat s.cle.dirty l
  s.setCle { s.cle with dirty := tblWrite zeroNat s.cle.dirty l (if m.testBit p then m - 2 ^ p else m) }

/-- The lines captured for a scan (R196). -/
def State.capture (s : State) (p : Nat) (set : List Nat) (full : Bool) : List (Nat × List Byte) × State :=
  (set.filter fun l => full || s.isDirty p l).foldl (fun (a : List (Nat × List Byte) × State) l =>
    let d := a.2.readData (64 * l) 64
    (a.1 ++ [(l, d.1)], d.2.cleanLine p l)) ([], s)

/-- The staged image of the stations and of the output block. -/
def State.stage (s : State) (p : Nat) : Staged :=
  let t := s.scanTables p
  let permit := bitOf (s.reg (progPage p) Reg.program.outputPermit) 0
  { permit := permit,
    stations := t.outStations.map fun q =>
      let l := t.stationOutputs q.1.station
      ⟨q.1.station, q.2, payloadOf q.1.len l (liveValue s.dm), payloadOf q.1.len l (·.safe),
        permit && s.stationState q.1.station == 2⟩,
    blockOff := t.blockOff,
    block := payloadOf t.blockLen t.blockOutputs (fun e => if permit then liveValue s.dm e else e.safe),
    lines := [], full := false }

/-- OUTPUT_STAGING (R177): the output entries evaluated, the retentive lines captured, the FORCED tussock requested. -/
def State.doOutputStaging (s : State) (p : Nat) : State :=
  let g := s.prog p
  if g.state ≠ 6 ∨ s.turnOf p = false then s
  else
    let set := (s.retainSetOf p (s.imageBase p)).getD []
    let full := g.firstScan || g.exchanged || set != g.lastSet
    let im := s.stage p
    let c := s.capture p set full
    let s1 := c.2.setProg p
      { g with
        state := 7, staged := some { im with lines := c.1, full := full }, retain := some (c.1, full), lastSet := set,
        commitFired := false, released := false }
    let s2 := s1.setCle { s1.cle with boundary := false }
    s2.forceTussock (.program (Fin.ofNat 8 p))

def execOutputStaging (p : Fin 8) (s : State) : Result := .next (s.doOutputStaging p.val)

/-! ## Release and write-out (R178 to R180, R190, R191) -/

/-- The answer of the FORCED tussock that program `p` waits for. -/
def State.forcedAnswer (s : State) (p : Nat) : Option Bool :=
  ((s.clu.forcedBy.find? fun q : ForcedBy × DWord × Option Bool => q.1 == ForcedBy.program (Fin.ofNat 8 p)).bind (·.2.2))
def State.dropForced (s : State) (p : Nat) : State :=
  let keep : ForcedBy × DWord × Option Bool → Bool := fun q => q.1 != ForcedBy.program (Fin.ofNat 8 p)
  { s with clu := { s.clu with forcedBy := s.clu.forcedBy.filter keep } }

/-- A station at the release (R190): timed out ONLINE becomes RETURNING, live RETURNING becomes ONLINE. -/
def State.releaseStation (s : State) (e : StationEntry) : Bool × State :=
  let d := s.readMailbox e.inBox
  let s1 := d.2
  let out := s1.timedOut e d.1
  let st := s1.stationState e.station
  let und := s1.stationUndelivered e.station
  if out ∧ st = 2 then (out, (s1.setStation e.station 1 false und d.1).bump 0x051 1 1)
  else if !out ∧ st = 1 then (out, (s1.setStation e.station 2 false und d.1).bump 0x051 2 1)
  else (out, s1)

/-- The staged part of a station decided at release (R180, R191): live outputs only for a station ONLINE at staging and
not timed out now; UNDELIVERED unless OUTPUT_PERMIT was 0. -/
def State.decideStation (s : State) (permit : Bool) (q : StagedStation) (out : Bool) : StagedStation × State :=
  let live := q.useLive && !out
  let und := permit && !live
  let s1 := s.ledgerUndelivered q.station und
  let w := memLe s1.dm (stationOff q.station) 4
  let w' := w % 8 + (if und then 8 else 0)
  ({ q with useLive := live }, if w = w' then s1 else s1.dataWord (stationOff q.station) w')

/-- The first `n` bytes of the newest delivery of a station, none where it is not configured or timed out. -/
def State.stationPayload (s : State) (t : ScanTables) (k n : Nat) : Option (List Byte) × State :=
  match findStation t.stations k with
  | none => (none, s)
  | some e =>
    let d := s.readMailbox e.inBox
    if d.2.timedOut e d.1 then (none, d.2) else (d.1.map fun x => padTo n x.bytes, d.2)

/-- A byte list under a mask. -/
def masked (l m : List Byte) : List Byte := l.zipWith (· &&& ·) m

/-- The runs of the output comparison: ACTIVE_FAIL in [7:0], SELF_FAIL in [15:8], FIELD_MISMATCHES in [31:16]. -/
def State.setRuns (s : State) (a f mis : Nat) : State :=
  s.setReg 0x181 Reg.causeway.outcmpCounts (at' (min a 255) 0 ||| at' (min f 255) 8 ||| at' (min mis 65535) 16)

/-- What a run that reaches OUTCMP_CONFIRM does (R448). -/
def State.runReached (s : State) (a f : Nat) : State :=
  let confirm := s.field 0x181 Reg.causeway.cwayConfig 23 16
  if a = confirm ∧ 0 < a then { s with fail := { s.fail with withdrawReq := true } }
  else if f = confirm ∧ 0 < f ∧ !s.fail.faulty then { s with fail := { s.fail with faulty := true } }.raise 0x181 3 []
  else s

/-- OUTPUT_COMPARE (R447, R448): the standby judges the active by the declared outputs D, the field read-back F and its
own staged block O, under the mask. -/
def State.outputCompare (s : State) (p : Nat) (block : List Byte) : State :=
  let cfg := s.reg 0x181 Reg.causeway.cwayConfig
  if !(bitOf cfg 0) ∨ s.fail.role ≠ .standby ∨ fieldOf cfg 26 24 ≠ p then s
  else
    let st := s.reg 0x181 Reg.causeway.outcmpStations
    let n := fieldOf st 24 16
    let t := s.scanTables p
    let d := s.stationPayload t (fieldOf st 7 0) n
    let f := d.2.stationPayload t (fieldOf st 15 8) n
    let mk := f.2.portRead (s.field 0x181 Reg.causeway.outcmpMask 24 0) n
    match d.1, f.1 with
    | some db, some fb =>
      let s1 := mk.2.bump 0x181 4 1
      let o := masked (padTo n block) mk.1
      let d' := masked db mk.1
      let f' := masked fb mk.1
      let w := s1.reg 0x181 Reg.causeway.outcmpCounts
      let mis := fieldOf w 31 16
      if f' = d' ∧ d' = o then s1.setRuns 0 0 mis
      else if f' = o then (s1.setRuns (fieldOf w 7 0 + 1) 0 mis).runReached (fieldOf w 7 0 + 1) 0
      else if f' = d' then (s1.setRuns 0 (fieldOf w 15 8 + 1) mis).runReached 0 (fieldOf w 15 8 + 1)
      else (s1.setRuns 0 0 (mis + 1)).bump 0x181 5 1
    | _, _ => mk.2

/-- The outputs of a scan not released: the staged image goes, no retentive commit follows, housekeeping is next. -/
def State.discardOutputs (s : State) (p : Nat) : State :=
  s.setProg p { s.prog p with state := 9, staged := none, retain := none, retainSeq := none }

/-- The outputs of a scan released. -/
def State.releaseOutputs (s : State) (p : Nat) (im : Staged) : State :=
  let t := s.scanTables p
  let order := (List.range 256).filterMap fun k => findStation t.stations k
  let r := order.foldl (fun (a : List (Nat × Bool) × State) e =>
    let d := a.2.releaseStation e
    (a.1 ++ [(e.station, d.1)], d.2)) ([], s)
  let outOf : Nat → Bool := fun k => match r.1.find? fun q => q.1 == k with | some q => q.2 | none => true
  let d := im.stations.foldl (fun (a : List StagedStation × State) q =>
    let x := a.2.decideStation im.permit q (outOf q.station)
    (a.1 ++ [x.1], x.2)) ([], r.2)
  let s1 := (d.2.outputCompare p im.block).bump (progPage p) 4 1
  s1.setProg p { s1.prog p with staged := some { im with stations := d.1 }, released := true }

/-- OUTPUT_RELEASE (R178). -/
def State.doOutputRelease (s : State) (p : Nat) : State :=
  let g := s.prog p
  match g.state == 7 && !g.released, g.staged, (if s.simplex then some true else s.forcedAnswer p) with
  | true, some im, some ok =>
    if !ok then (s.dropForced p).discardOutputs p
    else if bitOf (s.reg (progPage p) Reg.program.progConfig) 1 && !g.commitFired then s
    else (s.dropForced p).releaseOutputs p im
  | _, _, _ => s

def execOutputRelease (p : Fin 8) (s : State) : Result := .next (s.doOutputRelease p.val)

/-- COMMIT_INSTANT (R178, R225): a firing after the verdict pair was formed. -/
def State.commitInstantOf (s : State) (arg : Word) : State :=
  let p := arg.toNat
  let g := s.prog p
  if g.state = 7 ∧ (s.simplex ∨ s.forcedAnswer p = some true) then s.setProg p { g with commitFired := true } else s

def execCommitInstant (n : Fin 64) (s : State) : Result := .next (s.takeAction n.val 3 State.commitInstantOf)

/-- OUTPUT_WRITE_OUT (R179): the write-out, the ledger, and the retentive lines handed over (R195). -/
def State.doOutputWriteOut (s : State) (p : Nat) : State :=
  let g := s.prog p
  if !g.released then s
  else
    let s1 := s.writeOut p
    match g.retain with
    | none => s1.setProg p { s1.prog p with state := 9 }
    | some (lines, full) =>
      let s2 := s1.handOver p g.lastSet lines full
      s2.setProg p { s2.prog p with state := 8, retain := none, retainSeq := some (s2.chain p).seq }

def execOutputWriteOut (p : Fin 8) (s : State) : Result := .next (s.doOutputWriteOut p.val)

/-! ## Starting (R185, R197) -/

/-- An instance as START writes it: 0, with the identifier and kind filled in. -/
def State.zeroInstance (s : State) (e : Instance) : State :=
  let w := at' e.ident 0 ||| at' e.kind 24
  if 1 ≤ e.kind ∧ e.kind ≤ 3 then s.votedData (timerOff e.addr) (zeros 16 ++ leBytes 4 w.toNat ++ zeros 12)
  else if e.kind = 4 then s.votedData (counterOff e.addr) (zeros 8 ++ leBytes 4 w.toNat ++ zeros 4)
  else s.votedData (bitBase 3 + e.addr / 8) (putBit [memByte s.dm (bitBase 3 + e.addr / 8)] (e.addr % 8) false)

def State.zeroInstances (s : State) (l : List Instance) : State := l.foldl State.zeroInstance s

/-- Lines of data memory set to given bytes. -/
def State.putLines (s : State) (l : List (Nat × List Byte)) : State :=
  l.foldl (fun t q => (t.votedData (64 * q.1) (q.2.take 32)).votedData (64 * q.1 + 32) (q.2.drop 32)) s

/-- The newest complete retentive commit of a program, none where its chain holds no BASE (R375). -/
def State.commitFound (s : State) (p : Nat) : Option Chain :=
  let c := tblRead chainReset s.ps.nv.chains p
  if c.based then some c else none

/-- The retentive set at a start (R197), `warm` for START_WARM. -/
def State.startSet (s : State) (p : Nat) (set : List Nat) (warm : Bool) (insts : List Instance) : State :=
  match warm, s.commitFound p with
  | true, some c =>
    s.putLines (set.map fun l => (l, if c.set.contains l then tblRead (fun _ => zeros 64) c.image l else zeros 64))
  | true, none => s.putLines (set.map fun l => (l, zeros 64))
  | false, _ =>
    let s1 := s.putLines (set.map fun l => (l, zeros 64))
    if s.compat p then s1.zeroInstances insts else s1

/-- A station LOST, a pair armed (R185 step 3). -/
def State.stationFresh (s : State) (k : Nat) : State :=
  s.setStation k 0 false (s.stationUndelivered k) none
def State.pairFresh (s : State) (n : Nat) : State :=
  s.setPairWord n (flag true 17 ||| flag (bitOf (s.pairWord n) 19) 19)

/-- Stations and pairs that active images of other programs configure. -/
def State.otherStations (s : State) (p : Nat) : List Nat :=
  (s.activeImages.filter fun q => q.1 != p).flatMap fun q => (((header s.pm q.2.1).scan s.pm q.2.1).stations.map (·.station))
def State.otherPairs (s : State) (p : Nat) : List Nat :=
  (s.activeImages.filter fun q => q.1 != p).flatMap fun q => (((header s.pm q.2.1).scan s.pm q.2.1).pairs.map (·.pair))

/-- Does the module refuse a START with STOP_CAUSE CONFIG (R185)? -/
def State.startRefused (s : State) (p : Nat) : Bool :=
  let b := s.imageBase p
  let h := s.imageHeader p
  let wd := s.field (progPage p) Reg.program.watchdogTime 19 0
  if !(s.imageValid p) || h.program != p || h.check != s.reg (progPage p) Reg.program.activeCheck
      || (s.scheduled p && wd == 0) || (wd != 0 && (wd < 250 || 1000000 < wd)) then true
  else if !(s.compat p) && !(h.mapOk s.pm b) then true
  else if (s.retainSetOf p b).isNone then true
  else if !(scanErrors s.pm b h).isEmpty then true
  else if !(scanCrossErrors s.pm b h).isEmpty then true
  else
    let t := h.scan s.pm b
    t.stations.any (fun e => (s.otherStations p).contains e.station) || t.pairs.any fun e => (s.otherPairs p).contains e.pair

/-- START_WARM and START_COLD (R185): accepted only while STOPPED. -/
def State.start (s : State) (p : Nat) (warm : Bool) : State :=
  let g := s.prog p
  if g.state ≠ 0 then s
  else if s.startRefused p then s.setProg p { g with stopCause := 0x12 }
  else
    let h := s.imageHeader p
    let insts := h.instances s.pm (s.imageBase p)
    let t := s.scanTables p
    let set := (s.retainSetOf p (s.imageBase p)).getD []
    let s1 := (s.zeroInstances insts).startSet p set warm insts
    let s2 := t.stations.foldl (fun u e => u.stationFresh e.station) s1
    let s3 := t.pairs.foldl (fun u e => u.pairFresh e.pair) s2
    let found := (s.commitFound p).isSome
    s3.setProg p
      { g with
        state := 1, stopCause := 0, firstScan := true, warm := warm && found, noRetain := warm && !found,
        noRetainLast := if warm then !found else g.noRetainLast, exchanged := false, stopPending := false,
        exchPending := false, nextTrigger := BitVec.ofNat 64 ((s.time.lt.toNat / 250 + 1) * 250) }

/-! ## Stopping (R182 to R184) -/

/-- OVERRUN (R182): the watchdog of a program whose scan is open has reached its limit. -/
def State.doOverrun (s : State) (p : Nat) : State :=
  if 2 ≤ (s.prog p).state then (s.bump (progPage p) 7 1).stopProgram p 0x10 0 else s

def execOverrun (p : Fin 8) (s : State) : Result := .next (s.doOverrun p.val)

/-- STOP (R184): at once while WAITING or PENDING, otherwise at the end of the scan. -/
def State.stopCommand (s : State) (p : Nat) : State :=
  let g := s.prog p
  if g.state = 0 then s
  else if g.state ≤ 2 then s.haltProgram p 0x11
  else s.setProg p { g with stopPending := true }

/-! ## Online exchange (R198 to R201) -/

/-- Is an instance of one image matched in a list (identifier and kind)? -/
def matchOf (l : List Instance) (e : Instance) : Option Instance := l.find? fun o => o.ident == e.ident && o.kind == e.kind

/-- The bytes of an instance's record, or its bit as one byte. -/
def instanceBytes (m : Tbl Byte) (e : Instance) : List Byte :=
  if 1 ≤ e.kind ∧ e.kind ≤ 3 then memBytes m (timerOff e.addr) 32
  else if e.kind = 4 then memBytes m (counterOff e.addr) 16
  else [if dataBit m 3 e.addr then 1#8 else 0#8]
/-- An instance location written with such bytes. -/
def State.putInstance (s : State) (e : Instance) (l : List Byte) : State :=
  if 1 ≤ e.kind ∧ e.kind ≤ 3 then s.votedData (timerOff e.addr) l
  else if e.kind = 4 then s.votedData (counterOff e.addr) l
  else s.votedData (bitBase 3 + e.addr / 8) (putBit [memByte s.dm (bitBase 3 + e.addr / 8)] (e.addr % 8) (l.head? == some 1#8))

/-- New edge detectors of an exchange. -/
def newEdges (old new : List Instance) : List Instance :=
  new.filter fun e => (e.kind == 5 || e.kind == 6) && (matchOf old e).isNone

/-- The fresh-edge set holds exactly these M bits (R206). -/
def State.setFresh (s : State) (l : List Nat) : State :=
  (List.range 64).foldl (fun t k =>
    t.votedData (freshOff (16 * k)) (((List.range 16).map fun i => leBytes 4 (l.getD (16 * k + i) 0xffffffff)).flatten)) s

/-- A pending exchange applied (R200). -/
def State.applyExchange (s : State) (p : Nat) : State :=
  let pg := progPage p
  let b := s.field pg Reg.program.exchImage 17 0
  let h := header s.pm b
  let old := if s.imageValid p then (s.imageHeader p).instances s.pm (s.imageBase p) else []
  let new := h.instances s.pm b
  let tOld := s.scanTables p
  let tNew := h.scan s.pm b
  let kept := new.filterMap fun e => (matchOf old e).map fun o => (e, instanceBytes s.dm o)
  let s1 := old.foldl (fun t e => t.putInstance e (zeros (instanceBytes s.dm e).length)) s
  let s2 := kept.foldl (fun t q => t.putInstance q.1 q.2) s1
  let s3 := (new.filter fun e => (matchOf old e).isNone).foldl State.zeroInstance s2
  let s4 := s3.setFresh ((newEdges old new).map (·.addr))
  let s5 := ((s4.setReg pg Reg.program.activeImage (at' b 0 ||| flag true 31)).setReg pg Reg.program.activeCheck
    (s4.reg pg Reg.program.exchCheck)).setReg pg Reg.program.exchStatus 2#32
  let s6 := (tNew.stations.filter fun e => (findStation tOld.stations e.station).isNone).foldl
    (fun t e => t.stationFresh e.station) s5
  let s7 := (tNew.pairs.filter fun e => !(tOld.pairs.any fun o => o.pair == e.pair)).foldl (fun t e => t.pairFresh e.pair) s6
  let s8 := (s7.setProg p { s7.prog p with exchPending := false, exchanged := true }).bump pg 8 1
  s8.setCle { s8.cle with firstAfter := some p }

/-- The first check of R199 that an EXCHANGE command fails. -/
def State.exchangeRefusal (s : State) (p : Nat) : Option Nat :=
  let pg := progPage p
  let b := s.field pg Reg.program.exchImage 17 0
  let chk := s.reg pg Reg.program.exchCheck
  let h := header s.pm b
  let t := h.scan s.pm b
  let confirmed := match s.cle.confirmed with | some q => q.1 == b && q.2.2 == chk | none => false
  let old := (s.imageHeader p).instances s.pm (s.imageBase p)
  let setOk := h.mapOk s.pm b && (setOfRanges (h.retainMap s.pm b)).isSome
  if !confirmed then some 0x10
  else if h.program ≠ p then some 0x11
  else if t.pairs.any fun e => (s.otherPairs p).contains e.pair then some 0x12
  else if t.stations.any fun e => (s.otherStations p).contains e.station then some 0x13
  else if 1024 < (newEdges old (h.instances s.pm b)).length then some 0x14
  else if !setOk then some 0x15
  else if (s.prog p).state = 0 then some 0x16
  else if (List.range 8).any (fun q => (s.prog q).exchPending) || s.cle.firstAfter.isSome then some 0x17
  else none

/-- EXCHANGE (R199, R200). -/
def State.exchangeCommand (s : State) (p : Nat) : State :=
  match s.exchangeRefusal p with
  | some c => (s.setReg (progPage p) Reg.program.exchStatus (BitVec.ofNat 32 c)).bump (progPage p) 9 1
  | none =>
    let g := s.prog p
    let s1 := (s.setReg (progPage p) Reg.program.exchStatus 1#32).setProg p { g with exchPending := true }
    if g.state ≤ 2 then s1.applyExchange p else s1

/-! ## PROG_CMD (R207) -/

/-- A write of PROG_CMD as performed. -/
def State.progCommand (s : State) (p : Nat) (v : Word) : State :=
  if fieldOf v 3 0 = 1 then s.start p true
  else if fieldOf v 3 0 = 2 then s.start p false
  else if fieldOf v 3 0 = 3 then s.stopCommand p
  else if fieldOf v 3 0 = 4 then s.exchangeCommand p
  else s

/-- PROG_CMD by a master: R19's rights, then the command. -/
def State.progCommandBy (s : State) (m : Master) (p : Nat) (v : Word) : State :=
  if !(s.mayWritePage m (progPage p) Reg.program.progCmd) then
    s.violation m (0x18000000 + 0x1000 * progPage p + Reg.program.progCmd)
  else (s.progCommand p v).answer .none

def execStartWarm (m : Master) (p : Fin 8) (s : State) : Result := .next (s.progCommandBy m p.val 1#32)
def execStartCold (m : Master) (p : Fin 8) (s : State) : Result := .next (s.progCommandBy m p.val 2#32)
def execStop (m : Master) (p : Fin 8) (s : State) : Result := .next (s.progCommandBy m p.val 3#32)
def execExchange (m : Master) (p : Fin 8) (s : State) : Result := .next (s.progCommandBy m p.val 4#32)

/-! ## Housekeeping (R177, R184, R200) -/

/-- Has the retentive commit of the scan its valid mark? -/
def State.retainDone (s : State) (p : Nat) : Bool :=
  match (s.prog p).retainSeq with
  | some q => decide (q ≤ (tblRead chainReset s.ps.nv.chains p).seq)
  | none => true

/-- May the housekeeping work of program `p` run: the mark is there, the engines are free and nobody of higher priority
waits for them? -/
def State.mayHousekeep (s : State) (p : Nat) : Bool :=
  let g := s.prog p
  (g.state == 9 || (g.state == 8 && s.retainDone p)) && s.cle.running.isNone
    && (List.range p).all fun q => !(s.prog q).waitsEngines

/-- HOUSEKEEPING: the statistics, then a pending STOP or exchange; the scan ends here, a scan boundary. -/
def State.doHousekeeping (s : State) (p : Nat) : State :=
  if !(s.mayHousekeep p) then s
  else
    let pg := progPage p
    let g := s.prog p
    let us := (s.time.lt - g.triggerLt).toNat / 250
    let s1 := (((s.setReg pg Reg.program.lastScanUs (BitVec.ofNat 32 us)).maxReg pg Reg.program.maxScanUs us).bump pg 1 1).recScan p
      us (s.field pg Reg.program.watchdogTime 19 0)
    let s2 := if g.exchanged then
        (s1.setFresh []).setCle { (s1.setFresh []).cle with firstAfter := if s1.cle.firstAfter = some p then none else s1.cle.firstAfter }
      else s1
    let s3 := s2.setProg p
      { s2.prog p with
        state := 1, firstScan := false, warm := false, noRetain := false, exchanged := false, began := false,
        retainSeq := none, errTasks := [] }
    let s4 := if g.stopPending then s3.haltProgram p 0x11 else if g.exchPending then s3.applyExchange p else s3
    s4.setCle { s4.cle with boundary := true }

def execHousekeeping (p : Fin 8) (s : State) : Result := .next (s.doHousekeeping p.val)

/-! ## Dual-channel inputs (R186 to R188) -/

/-- The newest delivery of a mailbox whose LT_STAMP is not after now. -/
def State.tickDelivery (s : State) (e : StationEntry) : Option Delivery × State :=
  let d := s.readMailbox e.inBox
  match d.1 with
  | none => d
  | some x =>
    if x.lt ≤ s.time.lt then d
    else if x.seq ≤ 1 then (none, d.2)
    else
      let y := d.2.readBuffer e.inBox (x.seq - 1) ((x.seq - 1) % 2)
      if y.1.lt ≤ s.time.lt then (some y.1, y.2) else (none, y.2)

/-- A channel of a pair: 0 while its station is timed out. -/
def State.channel (s : State) (t : ScanTables) (k bit : Nat) : Bool × State :=
  match findStation t.stations k with
  | none => (false, s)
  | some e =>
    let d := s.tickDelivery e
    (match d.1 with
      | some x => !(d.2.timedOut e (some x)) && x.bit bit
      | none => false, d.2)

/-- The tick of a pair (R187): the new state word, and whether it begins a disagreement or faults. -/
def pairStep (w : Word) (a b : Bool) (ticks : Nat) : Word × Bool × Bool :=
  let frozen := flag (bitOf w 19) 19
  let build : Bool → Bool → Bool → Nat → Word := fun v armed dis n =>
    at' (n % 32768) 0 ||| flag v 16 ||| flag armed 17 ||| flag dis 18 ||| frozen
  let count := fieldOf w 14 0
  if !(bitOf w 17) then
    (if !a && !b then (build false true false 0, false, false) else (w, false, false))
  else if a = b then (build a true false 0, false, false)
  else if !(bitOf w 18) then (build (bitOf w 16) true true 0, true, false)
  else if count + 1 = ticks then (build false false false (count + 1), false, true)
  else (build (bitOf w 16) true true (count + 1), false, false)

def State.tickPair (s : State) (t : ScanTables) (e : PairEntry) : State :=
  let a := s.channel t e.aStation e.aBit
  let b := a.2.channel t e.bStation e.bBit
  let r := pairStep (b.2.pairWord e.pair) a.1 (b.1 ^^ e.anti) e.ticks
  let s1 := (b.2.setPairWord e.pair r.1).bump 0x050 0 1
  let s2 := if r.2.1 then s1.bump 0x050 1 1 else s1
  if r.2.2 then
    ((s2.satReg 0x050 Reg.dual.discEvents 1).bump 0x050 2 1).raise 0x050 0 [BitVec.ofNat 32 e.pair]
  else s2

/-- PAIR_TICK (R187): every pair that a running program's active image configures. -/
def State.doPairTick (s : State) : State :=
  ((List.range 8).filter fun p => (s.prog p).state != 0 && s.imageValid p).foldl (fun t p =>
    let tb := t.scanTables p
    tb.pairs.foldl (fun u e => u.tickPair tb e) t) s

def execPairTick (s : State) : Result := .next s.doPairTick

/-! ## Insertions and views (R138, R141 to R143) -/

/-- A stall cycle of an insertion counts against the execute time of the running program. -/
def State.insertionStall (s : State) : State :=
  match s.cle.running with
  | some p => s.setProg p { s.prog p with cycles := (s.prog p).cycles + 1 }
  | none => s

/-- Bytes written into program memory through view 0: each word touched takes its new bytes. -/
def State.putProgBytes (s : State) (off : Nat) (bs : List Byte) : State :=
  (spanWords 4 off bs.length).foldl (fun t i =>
    let old := leBytes 4 (t.pm i).toNat
    let new := (List.range 4).map fun k =>
      let a := 4 * i + k
      if off ≤ a ∧ a < off + bs.length then bs.getD (a - off) 0#8 else old.getD k 0#8
    t.putProg i (BitVec.ofNat 32 (ofLeBytes new))) s

/-- A voted write through view 0 or 1 (R141, R143); an address beyond the backed size is unmapped. -/
def State.viewWrite (s : State) (view off : Nat) (bs : List Byte) : State :=
  let a := 0x0c000000 + view * 0x400000 + off
  if view = 0 then
    if 0x100000 < off + bs.length then s.violation .cluster a
    else if (spanWords 4 off bs.length).any s.inActiveImage then (s.violation .cluster a).raise 0x044 0 []
    else
      let s1 := (s.putProgBytes off bs).insertionStall
      let s2 := (s1.setReg64 0x040 Reg.cle.extWritesLo (s1.reg64 0x040 Reg.cle.extWritesLo + 1)).bump 0x040 1 1
      let inside := match s2.cle.confirmed with
        | some q => (spanWords 4 off bs.length).any fun i => decide (q.1 ≤ i ∧ i < q.1 + q.2.1)
        | none => false
      (if inside then s2.setCle { s2.cle with confirmed := none } else s2).answer .none
  else if view = 1 then
    if 0x80000 < off + bs.length then s.violation .cluster a else ((s.insertData off bs).insertionStall).answer .none
  else s.violation .cluster a

/-- EXTERNAL_WRITE_INSERTION (R138). -/
def State.doInsertion (s : State) (w : Insertion) : State :=
  match w with
  | .view0 off bs => s.viewWrite 0 off bs
  | .view1 off bs => s.viewWrite 1 off bs
  | .delivery off bs => if 0x80000 < off + bs.length then s else (s.insertData off bs).insertionStall

def execExternalWriteInsertion (w : Insertion) (s : State) : Result := .next (s.doInsertion w)

/-- The bytes of an engine's program memory. -/
def State.progBytes (s : State) (e : Engine) (off n : Nat) : List Byte :=
  (List.range n).map fun i => (leBytes 4 (s.progMem e ((off + i) / 4)).toNat).getD ((off + i) % 4) 0#8

/-- A read of the Benmi image views (R141, R142): none where the address is unmapped. -/
def State.viewBytes (s : State) (view off n : Nat) : Option (List Byte) × State :=
  if view = 0 then
    if 0x100000 < off + n then (none, s)
    else
      let l := s.engines.map fun e =>
        (e, if eccBad (s.mem.progEcc.eng e) 4 off n then none else some (s.progBytes e off n))
      let r := (s.bump 0x040 5 1).compareRead 2 n l
      (some r.1, r.2)
  else if view = 1 then
    if 0x80000 < off + n then (none, s)
    else
      let r := (s.bump 0x040 5 1).readData off n
      (some r.1, r.2)
  else if view = 2 then
    (if 0x300000 < off + n then none
      else
        let e := if off < 0x100000 then Engine.e0 else if off < 0x200000 then .e1 else .e2
        some (s.progBytes e (off % 0x100000) n), s)
  else
    (if 0x180000 < off + n then none
      else
        let e := if off < 0x80000 then Engine.e0 else if off < 0x100000 then .e1 else .e2
        some (memBytes (s.dataMem e) (off % 0x80000) n), s)

/-- VIEW_READ (R141, R142): a word read by the safety cluster. -/
def State.doViewRead (s : State) (view off : Nat) : State :=
  match s.viewBytes view off 4 with
  | (some l, s1) => s1.answer (.value (BitVec.ofNat 64 (ofLeBytes l)))
  | (none, s1) => s1.violation .cluster (0x0c000000 + view * 0x400000 + off)

def execViewRead (view : Fin 4) (off : Nat) (s : State) : Result := .next (s.doViewRead view.val off)

/-! ## Scrub, reseed, self-test, IMAGE_CHECK (R140, R164 to R166, R170, R172) -/

/-- BENMI_SCRUB (R140). -/
def State.doBenmiScrub (s : State) (e : Engine) (prog data : Option Upset) : State :=
  let mp := eccUpset (s.mem.progEcc.eng e) prog
  let md := eccUpset (s.mem.dataEcc.eng e) data
  let pg := enginePage e
  let np := eccSingles mp
  let nd := eccSingles md
  let s1 := { s with mem := { s.mem with
    progEcc := s.mem.progEcc.setEng e (eccScrubbed mp), dataEcc := s.mem.dataEcc.setEng e (eccScrubbed md) } }
  let s2 := if np = 0 then s1 else (s1.satReg pg Reg.engine.eccCorrProg np).bump pg 9 np
  let s3 := if nd = 0 then s2 else (s2.satReg pg Reg.engine.eccCorrData nd).bump pg 10 nd
  let s4 := if eccAnyBad mp ∧ !(s3.hasCause pg 2) then s3.engineCause e 2 else s3
  if eccAnyBad md ∧ !(s4.hasCause pg 3) then s4.engineCause e 3 else s4

def execBenmiScrub (e : Engine) (prog data : Option Upset) (s : State) : Result := .next (s.doBenmiScrub e prog data)

/-- A scan boundary (R164): a housekeeping has just ended, or no scan is executing or preempted. -/
def State.atBoundary (s : State) : Bool := s.cle.boundary || !s.executing

/-- ENGINE_RESEED (R164, R172): at a scan boundary the odd engine takes the lowest participant's memories and state and
rejoins; an uncorrectable word of the source fails it (R165). -/
def State.doEngineReseed (s : State) : State :=
  match s.cle.odd with
  | none => s
  | some e =>
    if !s.cle.waiting ∨ !s.atBoundary then s
    else
      let src := s.lowEngine
      let pg := enginePage e
      let whole := s.hasCause pg 2
      let cyc : Nat := if whole then 24612 else 8228
      let s0 := s.setCle { s.cle with waiting := false, begun := (e, s.time.lt) :: s.cle.begun }
      if eccAnyBad (s.mem.dataEcc.eng src) ∨ (whole ∧ eccAnyBad (s.mem.progEcc.eng src)) then s0.lockoutCause 0x040 4 []
      else
        let m :=
          { s0.mem with
            data := s0.mem.data.setEng e (s0.dataMem src), dataEcc := s0.mem.dataEcc.setEng e [],
            prog := if whole then s0.mem.prog.setEng e (s0.mem.prog.eng src) else s0.mem.prog,
            progEcc := if whole then s0.mem.progEcc.setEng e [] else s0.mem.progEcc }
        let s1 := { s0 with mem := m }
        let ctx : Tbl ProgState := s1.cle.progs.map fun q => (q.1, { q.2 with context := q.2.context.setEng e (q.2.context.eng src) })
        let s2 := s1.setCle
          { s1.cle with
            regs := s1.cle.regs.setEng e (s1.cle.regs.eng src), participating := s1.cle.participating.setEng e true,
            odd := none, progs := ctx }
        let s3 := s2.setReg pg 0x010 (s2.causes pg &&& ~~~0xf#32)
        let s4 := (s3.setReg 0x040 Reg.cle.lastReseedCycles (BitVec.ofNat 32 cyc)).maxReg 0x040 Reg.cle.maxReseedCycles cyc
        let i := engineIndex e
        (s4.setReg 0x040 Reg.cle.reseedsTotal (satField (s4.reg 0x040 Reg.cle.reseedsTotal) (10 * i + 9) (10 * i) 1)).bump
          0x040 3 cyc

def execEngineReseed (s : State) : Result := .next s.doEngineReseed

/-- ENGINE_RESEED_FAILED (R165). -/
def State.doEngineReseedFailed (s : State) (why : EngineReseedFailure) : State :=
  if s.cle.odd.isNone ∨ !s.cle.waiting then s
  else
    let s1 := (s.setCle { s.cle with waiting := false }).lockoutCause 0x040 4 []
    if why = .differ then s1.engineMismatch else s1

def execEngineReseedFailed (why : EngineReseedFailure) (s : State) : Result := .next (s.doEngineReseedFailed why)

/-- CLE_SELFTEST (R166): a run that completed in time advances SELFTEST_RUNS; a wrong result or a run not complete at
the next mark latches CLE_SELFTEST_FAIL. -/
def State.doCleSelftest (s : State) (r : CleSelftest) : State :=
  let s1 := s.setCle { s.cle with selftestRun := s.cle.selftestRun + 1 }
  let s2 := if r = .overdue then s1 else (s1.satReg 0x040 Reg.cle.selftestRuns 1).bump 0x040 4 1
  if r = .pass then s2 else s2.lockoutCause 0x040 5 []

def execCleSelftest (r : CleSelftest) (s : State) : Result := .next (s.doCleSelftest r)

/-- Words of an image, counted from its first, in which the participants' program memories differ. -/
def State.differingWords (s : State) (base n : Nat) : List Nat :=
  (List.range n).filter fun i => s.engines.any fun e => s.progMem e (base + i) != s.pm (base + i)

/-- IMAGE_CHECK (R170), performed whole: its result, CHECK_CRC, CHECK_INDEX and CHECK_WORDS. -/
def State.doImageCheck (s : State) : State :=
  if !(s.opActive 0x044 1) then s
  else
    let o := s.op 0x044
    let base := o.arg0.toNat
    let n := (header s.pm base).imageWords
    let r := imageCheck s.pm (s.differingWords base (min n 262144)) base o.arg1
    let s1 := (((s.setReg 0x044 Reg.cleImage.checkCrc r.crc).setReg 0x044 Reg.cleImage.checkWords (BitVec.ofNat 32 n)).bump
      0x044 0 1).bump 0x044 1 (min n 262144)
    match r.error with
    | some (code, i) =>
      ((s1.setReg 0x044 Reg.cleImage.checkIndex (BitVec.ofNat 32 i)).setOp 0x044 (o.advance (i + 1) 0)).opFail 0x044
        (BitVec.ofNat 32 code)
    | none =>
      ((s1.setOp 0x044 (o.advance n 1)).opDone 0x044).setCle
        { s1.cle with confirmed := some (base, n, r.crc) }

def execImageCheck (s : State) : Result := .next s.doImageCheck

/-! ## Registers computed from other state -/

/-- A bit mask of 32 indexes from `lo`. -/
def mask32 (lo : Nat) (f : Nat → Bool) : Word :=
  (List.range 32).foldl (fun w i => if f (lo + i) then setBit w i true else w) 0#32

/-- CLE_STATUS (R171). -/
def State.cleStatus (s : State) : Word :=
  let part := flag (s.cle.participating.a) 0 ||| flag (s.cle.participating.b) 1 ||| flag (s.cle.participating.c) 2
  let odd := match s.cle.odd with | some e => flag true (4 + engineIndex e) | none => 0#32
  part ||| odd ||| at' (if s.cle.waiting then 1 else 0) 8 ||| flag (!s.executing) 16 ||| at' (s.cle.running.getD 15) 20

def State.engineView (s : State) (e : Engine) (off : Nat) : Option Word :=
  let r := s.cle.regs.eng e
  let part := s.cle.participating.eng e
  if off = Reg.engine.engineStatus then
    some (flag part 0 ||| flag (s.cle.odd == some e) 1 ||| flag (!part) 2 ||| flag (part && s.cle.running.isSome) 3)
  else if off = Reg.engine.enginePc then some (at' (r.pc % 262144) 0 ||| at' (s.cle.running.getD 0) 20)
  else if off = Reg.engine.engineAcc then some r.acc
  else if off = Reg.engine.engineFlags then
    some (at' r.br.length 0 ||| at' r.calls.length 8 ||| flag r.ba 16 ||| flag r.ov 18)
  else none

/-- PROG_STATUS (R207). -/
def State.progStatus (s : State) (p : Nat) : Word :=
  let g := s.prog p
  let wait := g.waitsEngines
  at' g.state 0 ||| flag g.exchPending 4 ||| flag g.stopPending 5 ||| flag g.noRetainLast 6 ||| flag wait 7
    ||| at' g.stopCause 8

/-- Stations and pairs that active images configure. -/
def State.activeStations (s : State) : List Nat :=
  s.activeImages.flatMap fun q => ((header s.pm q.2.1).scan s.pm q.2.1).stations.map (·.station)
def State.activePairs (s : State) : List Nat :=
  s.activeImages.flatMap fun q => ((header s.pm q.2.1).scan s.pm q.2.1).pairs.map (·.pair)

/-- Registers of pages 0x040 to 0x051 that are computed. -/
def State.scanView (s : State) (p off : Nat) : Option Word :=
  if p = 0x040 then
    if off = Reg.cle.cleStatus then some s.cleStatus
    else if off = Reg.cle.reseedsHour then
      some (at' (min 15 (s.engineReseeds .e0)) 0 ||| at' (min 15 (s.engineReseeds .e1)) 8 ||| at' (min 15 (s.engineReseeds .e2)) 16)
    else none
  else if 0x041 ≤ p ∧ p ≤ 0x043 then s.engineView (if p = 0x041 then .e0 else if p = 0x042 then .e1 else .e2) off
  else if 0x048 ≤ p ∧ p ≤ 0x04f then
    let n := p - 0x048
    if off = Reg.program.progStatus then some (s.progStatus n)
    else if off = Reg.program.scanNumLo then some (loWord (tblRead zeroDword s.ledger.scanNum n))
    else if off = Reg.program.scanNumHi then some (hiWord (tblRead zeroDword s.ledger.scanNum n))
    else if off = Reg.program.commitNumLo then some (loWord (tblRead zeroDword s.ledger.commitNum n))
    else if off = Reg.program.commitNumHi then some (hiWord (tblRead zeroDword s.ledger.commitNum n))
    else if off = Reg.program.progCmd then some 0#32
    else none
  else if p = 0x050 then
    if Reg.dual.pairDisarmed ≤ off ∧ off < Reg.dual.pairDisagree then
      some (mask32 (8 * (off - Reg.dual.pairDisarmed)) fun n =>
        !(bitOf (s.pairWord n) 17) && fieldOf (s.pairWord n) 14 0 != 0)
    else if Reg.dual.pairDisagree ≤ off ∧ off < Reg.dual.pairValue then
      some (mask32 (8 * (off - Reg.dual.pairDisagree)) fun n => bitOf (s.pairWord n) 18)
    else if Reg.dual.pairValue ≤ off ∧ off < Reg.dual.discEvents then
      some (mask32 (8 * (off - Reg.dual.pairValue)) fun n => bitOf (s.pairWord n) 16)
    else if off = Reg.dual.pairsConfigured then some (BitVec.ofNat 32 s.activePairs.length)
    else none
  else if p = 0x051 then
    let on := s.activeStations
    if Reg.stations.stationOnline ≤ off ∧ off < Reg.stations.stationLost then
      some (mask32 (8 * (off - Reg.stations.stationOnline)) fun k => on.contains k && s.stationState k == 2)
    else if Reg.stations.stationLost ≤ off ∧ off < Reg.stations.undelivered then
      some (mask32 (8 * (off - Reg.stations.stationLost)) fun k => on.contains k && s.stationState k == 0)
    else if Reg.stations.undelivered ≤ off ∧ off < Reg.stations.lossEvents then
      some (mask32 (8 * (off - Reg.stations.undelivered)) fun k => s.ledger.undelivered.getLsbD k)
    else none
  else none

end Sys2Proof.Machine
end

