-- ==== Sys2Proof/Machine/Supervisor.lean ====
section
/-!
DEFINITION. The supervisor die (R424 to R438), the safe state and the lock-out (R432 to R434), the reset request (R435),
the causeway (R441 to R448), stack membership and mastership (R449, R450); the meanings of their commands, but for those
that reset or start the module.
-/
namespace Sys2Proof.Machine

def State.setSup (s : State) (u : Supervisor) : State := { s with sup := u }
def State.setFail (s : State) (f : Failover) : State := { s with fail := f }

/-! ## The outputs (R430) -/

/-- CWAY_EN. -/
def State.cwayEn (s : State) : Bool := bitOf (s.reg 0x181 Reg.causeway.cwayConfig) 0
/-- Condition 14: the causeway lets the outputs be live (R430, R442). -/
def State.claimOk (s : State) : Bool :=
  !s.cwayEn || (s.fail.role == .active && s.fail.lineOn && (s.fail.frozen || !s.fail.toggling))

/-- ENABLE_BLOCK: bit k is condition 8 + k of R430 failing. -/
def State.enableBlock (s : State) : Nat :=
  let b (ok : Bool) (k : Nat) : Nat := if ok then 0 else 2 ^ k
  b (s.sup.startMode == 0) 0 + b (s.clu.mode != .simplexThree) 1 + b s.sup.safeState.isNone 2 + b (!s.sup.latch.locked) 3
    + b (!s.obs.wsOpened) 4 + b (bitOf (s.reg 0x180 Reg.supervisor.safeRequest) 0) 5 + b s.claimOk 6 + b (!s.sup.pfwLow) 7

/-- The outputs follow the conditions of R430: live with SAFE_TX_GRANT while all hold, otherwise off. -/
def State.review (s : State) : State :=
  if s.enableBlock = 0 then
    (if s.sup.live then s else (s.setSup { s.sup with live := true, grant := true }).bump 0x180 1 1)
  else s.setSup { s.sup with live := false, grant := false }

/-! ## Giving up the claim (R444) -/

/-- A unit that claims stops: the role becomes STANDBY; the line goes on toggling until CLAIM_LINE_RELEASE. -/
def State.giveUpClaim (s : State) : State :=
  if s.fail.role = .claiming ∨ s.fail.role = .active then
    s.setFail { s.fail with role := .standby, stopping := true }
  else s

/-! ## Safe state and lock-out (R432, R433) -/

/-- The programs that run: STATE is not STOPPED. -/
def State.runningPrograms (s : State) : List Nat := (List.range 8).filter fun p => (s.prog p).state != 0

/-- The safe state entered (R432): outputs off, the class and origin kept, every OUTPUT_PERMIT 0, the safe values of the
running programs written, the announcement published, the claim given up. -/
def State.enterSafe (s : State) (cls origin : Nat) : State :=
  if s.sup.safeState.isSome then s.safeOff cls origin
  else
    let s1 := s.safeOff cls origin
    let s2 := s1.runningPrograms.foldl (fun t p => t.writeSafe p) s1
    (s2.giveUpClaim.announce).bump 0x180 3 1

/-- The supervisor's lock-out report (R433); `lockPosted` says whether the FIFO has accepted it. -/
def State.lockReport (s : State) : State :=
  let l := s.sup.latch
  let room := decide ((s.faults.fifo .control).length < 32) && !s.sup.socReset
  let s1 := (s.latch 0x180 0).post .control 0x180 l.cls 5 [BitVec.ofNat 32 l.cls, BitVec.ofNat 32 l.origin]
  s1.setSup { s1.sup with lockPosted := room }

/-- Lock-out (R433, R434): the latch is written (a latch already set is kept), the safe state set, the report posted, a
reseed in progress abandoned. -/
def State.enterLockout (s : State) (cls origin : Nat) : State :=
  if s.sup.latch.locked then s.enterSafe cls origin
  else
    let s1 := s.setSup { s.sup with latch := ⟨true, cls, origin, false, 0#32, true⟩, lockPosted := false }
    ((s1.enterSafe cls origin).markLockout.abandonReseed).lockReport

/-- A finding of the supervisor itself: the cause of page 0x180, and lock-out with its class. -/
def State.supervisorFault (s : State) (bit cls : Nat) : State := (s.raise 0x180 bit []).enterLockout cls 0x180

/-- A reaction of R428 carried out: 4 the safe state, 5 lock-out. -/
def State.react (s : State) (reaction cls origin : Nat) : State :=
  if reaction = 4 then s.enterSafe cls origin else if reaction = 5 then s.enterLockout cls origin else s

/-! ## Summary bits (R429) -/

/-- The heaviest reaction of the asserted MEAS_TRIP lines. -/
def State.linesReaction (s : State) : Nat :=
  (List.range 8).foldl (fun r n => if s.sup.tripLines.getLsbD n then max r (s.tripReaction n) else r) 0

/-- The reaction of a class as the supervisor applies it (R428, R429). -/
def State.classReaction (s : State) (c : Nat) : Nat :=
  if c = 2 then 1 else if c = 3 then 2 else if c = 4 ∨ c = 5 then 3
  else if c = 6 ∨ c = 8 then (if s.simplex then 0 else 5)
  else if c = 7 then 5
  else if c = 9 then (if s.red.lockout then 5 else 4)
  else if c = 10 then 4
  else if c = 11 ∨ c = 12 ∨ c = 13 ∨ c = 15 ∨ c = 31 then 5
  else if c = 14 then s.linesReaction
  else if c = 16 then (if s.hasCause 0x181 2 then 4 else 0)
  else 0

/-- The page of the newest report of a class that a FIFO holds; where it is lost, the page that owns the class. -/
def State.classOrigin (s : State) (c : Nat) : Nat :=
  match ((s.faults.control ++ s.faults.data ++ s.faults.management).filter fun r => r.cls == c).getLast? with
  | some r => r.origin
  | none =>
    if c = 7 ∨ c = 10 then 0x010 else if c = 8 then 0x040 else if c = 6 ∨ c = 9 then 0x016
    else if c = 16 then 0x181 else 0x180

/-- SUMMARY_TAKE (R429): the lowest summary bit not taken yet, or the second reaction of class 9 (R120). -/
def State.doSummaryTake (s : State) : State :=
  match (List.range 32).find? fun c =>
      bitOf (s.reg 0x004 Reg.faultMgr.classSummary) c && !(bitOf s.sup.taken c) with
  | some c =>
    ((s.setSup { s.sup with taken := setBit s.sup.taken c true }).bump 0x180 4 1).react (s.classReaction c) c (s.classOrigin c)
  | none => if s.red.lockout ∧ !s.sup.latch.locked ∧ bitOf s.sup.taken 9 then s.enterLockout 9 0x016 else s

def execSummaryTake (s : State) : Result := .next s.doSummaryTake

/-- LOCKOUT_REPORT_RETRY (R433). -/
def execLockoutReportRetry (s : State) : Result :=
  .next (if s.sup.latch.locked ∧ !s.sup.latch.committed ∧ !s.sup.lockPosted then s.lockReport else s)

/-! ## Monitors (R425 to R427, R431, R438) -/

/-- RAIL_TRIP: no monitor trips before the first release, nor once PFW_N has been seen low (R427). -/
def State.doRailTrip (s : State) (rail : Nat) : State :=
  if !s.sup.released ∨ s.sup.pfwSeen then s
  else
    let s1 := s.setReg 0x180 Reg.supervisor.railTripped (setBit (s.reg 0x180 Reg.supervisor.railTripped) rail true)
    (s1.setSup { s1.sup with railsIn := s1.sup.railsIn &&& ~~~(1#8 <<< rail) }).supervisorFault 2 12

def execRailTrip (rail : Fin 8) (s : State) : Result := .next (s.doRailTrip rail.val)

/-- CLOCK_TRIP and OSC_TRIP (R425). -/
def State.clockTripped (s : State) (bit cause : Nat) : State :=
  if !s.sup.released then s
  else
    (s.setReg 0x180 Reg.supervisor.clkTripped (setBit (s.reg 0x180 Reg.supervisor.clkTripped) bit true)).supervisorFault
      cause 13

def execClockTrip (domain : Fin 11) (s : State) : Result := .next (s.clockTripped domain.val 3)
def execOscTrip (s : State) : Result := .next (s.clockTripped 11 4)

/-- MONITOR_TEST (R426). -/
def State.doMonitorTest (s : State) (tripped : Bool) : State :=
  let s1 := s.bump 0x180 2 1
  if tripped then s1 else s1.supervisorFault 6 12

def execMonitorTest (tripped : Bool) (s : State) : Result := .next (s.doMonitorTest tripped)

/-- SAFE_EN_SENSE (R431): a ball that differs in 3 consecutive samples. -/
def State.doSafeEnSense (s : State) (a b : Bool) : State :=
  let x := if a then min (s.sup.staticOff + 1) 3 else 0
  let y := if b then min (s.sup.dynOff + 1) 3 else 0
  let s1 := (s.setSup { s.sup with staticOff := x, dynOff := y }).bump 0x180 5 1
  if (x = 3 ∧ s.sup.staticOff < 3) ∨ (y = 3 ∧ s.sup.dynOff < 3) then s1.supervisorFault 5 15 else s1

def execSafeEnSense (staticDiffers dynDiffers : Bool) (s : State) : Result :=
  .next (s.doSafeEnSense staticDiffers dynDiffers)

/-- NO_VERDICT (R438): 5 ms without a CMP_Y verdict; held while no participant remains and in SIMPLEX_THREE. -/
def State.doNoVerdict (s : State) : State :=
  if !s.simplex ∧ s.participants.any (fun k => !(s.cp k).inWfi && !(s.cp k).halted) then s.supervisorFault 1 11 else s

def execNoVerdict (s : State) : Result := .next s.doNoVerdict

/-! ## SAFE_REQUEST and the reset request (R430, R435 to R437) -/

/-- SAFE_REQUEST: a commit-class write performed. -/
def State.safeRequest (s : State) (v : Word) : State := (s.setReg 0x180 Reg.supervisor.safeRequest (v &&& 1#32)).review
def execSafeRequest (m : Master) (v : Word) (s : State) : Result :=
  .next (s.written m 0x180 Reg.supervisor.safeRequest fun t => t.safeRequest v)

/-- RESTART_CMD: 0x0000_00A5 asks for a module reset; other values are ignored. -/
def State.restartCmd (s : State) (v : Word) : State :=
  if v = 0xa5#32 then s.setSup { s.sup with resetAsked := some 1 } else s
def execRestartCmd (m : Master) (v : Word) (s : State) : Result :=
  .next (s.written m 0x003 Reg.reset.restartCmd fun t => t.restartCmd v)

/-- RESET_PRESS_START: a recognised falling edge; the press counts only while the input is armed. -/
def State.doPressStart (s : State) : State :=
  s.setSup
    { s.sup with
      pressLevel := false, pressing := s.sup.armed, pressStuck := false }

def execResetPressStart (s : State) : Result := .next s.doPressStart

/-- The press has lasted longer than 5,000 ms. -/
def State.pressIsStuck (s : State) : State :=
  (s.setSup { s.sup with pressStuck := true, armed := false }).raise 0x003 1 []

/-- RESET_STUCK (R435). -/
def execResetStuck (s : State) : Result :=
  .next (if s.sup.pressing ∧ !s.sup.pressStuck then s.pressIsStuck else s)

/-- An accepted press (R435): a committed lock-out is cleared (with class 9 the retirement record too, R121) and the
module reset; an uncommitted one refuses the press. -/
def State.acceptPress (s : State) : State :=
  let s1 := s.setReg 0x003 Reg.reset.presses (satField (s.reg 0x003 Reg.reset.presses) 15 0 1)
  let l := s1.sup.latch
  if !l.locked then s1.setSup { s1.sup with resetAsked := some 2 }
  else if l.committed then
    let s2 := s1.setSup { s1.sup with latch := ⟨false, 0, 0, false, 0#32, true⟩, resetAsked := some 2 }
    if l.cls = 9 then s2.commitRetirement none else s2
  else s1.raise 0x003 2 []

/-- RESET_PRESS_RELEASE after `us` microseconds (R435, R436). -/
def State.doPressRelease (s : State) (us : Nat) : State :=
  let s0 := s.setSup { s.sup with pressLevel := true, pressing := false, armed := true }
  if !s.sup.pressing then s0
  else
    let s1 := (s0.setReg 0x003 Reg.reset.lastPressMs (BitVec.ofNat 32 (min (us / 1000) 0xffffffff))).bump 0x003 0 1
    if s.sup.pressStuck then s1
    else if 5000000 < us then (s1.pressIsStuck).setSup { (s1.pressIsStuck).sup with armed := true }
    else if us < 500000 then
      (s1.setReg 0x003 Reg.reset.presses (satField (s1.reg 0x003 Reg.reset.presses) 31 16 1)).bump 0x003 1 1
    else s1.acceptPress

def execResetPressRelease (us : Nat) (s : State) : Result := .next (s.doPressRelease us)

/-! ## The causeway (R441 to R446, R448) -/

/-- The peer's stack ID. -/
def State.peerId (s : State) : Nat := s.field 0x181 Reg.causeway.cwayConfig 10 8

/-- A contest (R443): the peer claims by causeway and heartbeat while this unit claims. -/
def State.contest (s : State) : Bool :=
  s.cwayEn && s.fail.toggling && s.fail.hbClaiming && (s.fail.role == .claiming || s.fail.role == .active)

/-- The effect of a change that may begin a contest: side 1 stops claiming and latches CWAY_CONTEST; side 0 keeps its
claim. The outputs follow. -/
def State.judgeContest (before : State) (s : State) : State :=
  let s1 :=
    if s.contest ∧ !before.contest then
      let t := s.bump 0x181 2 1
      if t.fail.unitSide then t.giveUpClaim.raise 0x181 1 [] else t
    else s
  s1.review

/-- CLAIM_CTRL_WRITE (R442): CLAIM_EN; clearing it ends a claim. -/
def State.claimCtrl (s : State) (v : Word) : State :=
  let s1 := s.setReg 0x181 Reg.causeway.claimCtrl (v &&& 1#32)
  (if bitOf v 0 then s1 else s1.giveUpClaim).review

def execClaimCtrlWrite (m : Master) (v : Word) (s : State) : Result :=
  .next (s.written m 0x181 Reg.causeway.claimCtrl fun t => t.claimCtrl v)

/-- May a unit start claiming (R442, R444, R448)? -/
def State.mayClaim (s : State) : Bool :=
  s.cwayEn && s.fail.role == .standby && !s.fail.lineOn && bitOf (s.reg 0x181 Reg.causeway.claimCtrl) 0
    && !s.fail.faulty && !s.fail.frozen && s.sup.safeState.isNone && !s.fail.toggling && !s.fail.noWithdraw

/-- CLAIM_START (R442). -/
def State.doClaimStart (s : State) : State :=
  if s.mayClaim then
    let s1 := s.setFail { s.fail with role := .claiming, lineOn := true, stopping := false }
    State.judgeContest s ((s1.incReg 0x181 Reg.causeway.claimStarts 1).bump 0x181 0 1)
  else s

def execClaimStart (s : State) : Result := .next s.doClaimStart

/-- CLAIM_ACTIVE (R442): WITHDRAW_REQ clears when the unit becomes ACTIVE (R448). -/
def State.doClaimActive (s : State) : State :=
  if s.cwayEn ∧ s.fail.role = .claiming ∧ !s.fail.toggling then
    ((s.setFail { s.fail with role := .active, withdrawReq := false }).bump 0x181 1 1).review
  else s

def execClaimActive (s : State) : Result := .next s.doClaimActive

/-- CWAY_CLAIM_IN_EDGE (R441), `ns` after the edge before it: two intervals of 40 to 60 µs in a row make the peer's claim
toggling. -/
def State.doClaimInEdge (s : State) (ns : Nat) : State :=
  let f := s.fail
  let good := f.everEdge && decide (40000 ≤ ns ∧ ns ≤ 60000)
  let gaps := if good then min (f.goodGaps + 1) 2 else 0
  State.judgeContest s (s.setFail { f with everEdge := true, goodGaps := gaps, toggling := gaps == 2 })

def execCwayClaimInEdge (ns : Nat) (s : State) : Result := .next (s.doClaimInEdge ns)

/-- PEER_CLAIM_STOPPED (R441): 150 µs without an edge; the next edge ends no interval within bounds. -/
def State.doPeerStopped (s : State) : State :=
  (s.setFail { s.fail with toggling := false, goodGaps := 0, everEdge := false }).review

def execPeerClaimStopped (s : State) : Result := .next s.doPeerStopped

/-- CLAIM_LINE_RELEASE (R444): the outputs have been off for 200 µs. -/
def State.doLineRelease (s : State) : State :=
  if s.fail.stopping ∧ s.fail.lineOn ∧ !s.sup.live then
    (s.setFail { s.fail with stopping := false, lineOn := false }).incReg 0x181 Reg.causeway.claimEnds 1
  else s

def execClaimLineRelease (s : State) : Result := .next s.doLineRelease

/-- CWAY_DISAGREE (R445): 1 ms of disagreement freezes; a CLAIMING unit goes back to STANDBY (R442). -/
def State.doCwayDisagree (s : State) : State :=
  if s.cwayEn ∧ s.fail.toggling ≠ s.fail.hbClaiming ∧ !s.fail.frozen then
    let s1 := ((s.setFail { s.fail with frozen := true }).raise 0x181 0 []).bump 0x181 3 1
    (if s1.fail.role = .claiming then s1.giveUpClaim else s1).review
  else s

def execCwayDisagree (s : State) : Result := .next s.doCwayDisagree

/-- FROZEN_CLEAR (R445): 1 s of unbroken agreement. -/
def State.doFrozenClear (s : State) : State :=
  if s.fail.toggling = s.fail.hbClaiming then (s.setFail { s.fail with frozen := false }).review else s

def execFrozenClear (s : State) : Result := .next s.doFrozenClear

/-- PEER_NO_WITHDRAW (R448): the claim still toggles 10 ms after the request. -/
def State.doPeerNoWithdraw (s : State) : State :=
  if s.fail.withdrawReq ∧ s.fail.toggling ∧ !s.fail.noWithdraw then
    (s.setFail { s.fail with noWithdraw := true }).raise 0x181 4 []
  else s

def execPeerNoWithdraw (s : State) : Result := .next s.doPeerNoWithdraw

/-- A write of CWAY_CONFIG performed (R442): with CWAY_EN 0 the role is DISABLED and the line is held low; with CWAY_EN 1
a DISABLED unit is STANDBY. -/
def State.cwayConfigured (s : State) : State :=
  if s.cwayEn then
    (if s.fail.role = .disabled then s.setFail { s.fail with role := .standby } else s).review
  else
    let s1 := if s.fail.lineOn then s.incReg 0x181 Reg.causeway.claimEnds 1 else s
    (s1.setFail { s1.fail with role := .disabled, lineOn := false, stopping := false }).review

/-! ## Stack (R449, R450) -/

/-- The heartbeat of this module; ACTIVE_OUTPUTS are its live outputs. -/
def State.heartbeat (s : State) : Heartbeat :=
  { id := s.fail.stackId, nt := s.ntRead, master := s.fail.master, claiming := s.fail.lineOn,
    activeOutputs := s.sup.live && s.fail.lineOn,
    withdraw := if s.fail.withdrawReq then some ⟨s.peerId % 8, Nat.mod_lt _ (by decide)⟩ else none }

/-- MEMBERS and TREE_GEN after a change of membership (R45, R46). -/
def State.setPresent (s : State) (l : List Nat) : State :=
  (s.setFail { s.fail with present := l }).incReg 0x000 Reg.root.treeGen 1

/-- An ID put into an ascending list. -/
def insertId (n : Nat) : List Nat → List Nat
  | [] => [n]
  | m :: t => if n = m then m :: t else if n < m then n :: m :: t else m :: insertId n t

/-- Mastership passes to an ID. -/
def State.setMaster (s : State) (id : Fin 8) : State :=
  ((s.setFail { s.fail with master := id }).satReg 0x1c0 Reg.stackLink.masterChanges 1).bump 0x1c0 3 1

/-- HEARTBEAT_SEND (R449, R450): the lowest surviving ID becomes master at its heartbeat after the loss of the master. -/
def State.doHeartbeatSend (s : State) : State :=
  if !s.fail.strapsValid then s
  else
    let s1 := s.bump 0x1c0 0 1
    if !(s1.fail.present.contains s1.fail.master.val) ∧ s1.fail.present.head? = some s1.fail.stackId.val then
      (s1.setMaster s1.fail.stackId).raise 0x1c0 2 []
    else s1

def execHeartbeatSend (s : State) : Result := .next s.doHeartbeatSend

/-- Presence after a heartbeat of another module: present after 3 in a row. -/
def State.admitMember (s : State) (id : Nat) : State :=
  if s.fail.present.contains id then s
  else
    let n := tblRead zeroNat s.fail.seen id + 1
    if n < 3 then s.setFail { s.fail with seen := tblWrite zeroNat s.fail.seen id n }
    else (s.setFail { s.fail with seen := tblErase s.fail.seen id }).setPresent (insertId id s.fail.present)

/-- MASTER of a present module's heartbeat (R450): a module that names itself is followed where its ID is lower or the
master is lost; a module with a lower ID whose NT is not valid follows the stack it returns to. -/
def State.followMaster (s : State) (hb : Heartbeat) : State :=
  if hb.master ≠ hb.id ∨ hb.id = s.fail.master ∨ !(s.fail.present.contains hb.id.val) then s
  else if hb.id < s.fail.master ∨ !(s.fail.present.contains s.fail.master.val) then s.setMaster hb.id
  else if s.fail.master = s.fail.stackId ∧ !s.time.ntValid then
    (s.setMaster hb.id).setFail { (s.setMaster hb.id).fail with returning := some s.fail.stackId.val }
  else s

/-- The peer's claim and its request to withdraw (R441, R443). -/
def State.hearPeer (s : State) (hb : Heartbeat) : State :=
  if hb.id.val ≠ s.peerId then s
  else
    let s1 := State.judgeContest s
      (s.setFail { s.fail with hbClaiming := hb.claiming, hbActive := hb.activeOutputs })
    if hb.withdraw = some s1.fail.stackId ∧ s1.fail.role = .active then
      ((s1.raise 0x181 2 []).enterSafe 16 0x181).giveUpClaim
    else s1

/-- HEARTBEAT_RECEIVED (R212, R449, R450). -/
def State.doHeartbeatReceived (s : State) (hb : Heartbeat) : State :=
  if !s.fail.strapsValid then s
  else if hb.id = s.fail.stackId then s.raise 0x1c0 3 []
  else
    let s1 := (((s.bump 0x1c0 1 1).followMaster hb).admitMember hb.id.val).hearPeer hb
    if !s1.isMaster ∧ hb.id = s1.fail.master ∧ s1.fail.present.contains hb.id.val then s1.ntMeasure hb.nt 2 else s1

def execHeartbeatReceived (hb : Heartbeat) (s : State) : Result := .next (s.doHeartbeatReceived hb)

/-- MEMBER_LOST (R449): 30 µs, three heartbeats missed. A lost peer counts as not claiming (R441). -/
def State.doMemberLost (s : State) (id : Nat) : State :=
  if !(s.fail.present.contains id) ∨ id = s.fail.stackId.val then s
  else
    let s1 := (((s.setPresent (s.fail.present.filter (· != id))).satReg 0x1c0 Reg.stackLink.hbMissed 3).bump 0x1c0 2 3).raise
      0x1c0 1 []
    if id = s1.peerId then (s1.setFail { s1.fail with hbClaiming := false, hbActive := false }).review else s1

def execMemberLost (id : Fin 8) (s : State) : Result := .next (s.doMemberLost id.val)

/-- MASTERSHIP_TAKEOVER (R450): NT_VALID has held for 1 s on a returning module with the lowest ID. -/
def State.doTakeover (s : State) : State :=
  if s.fail.returning = some s.fail.stackId.val ∧ s.time.ntValid ∧ s.fail.present.head? = some s.fail.stackId.val then
    let s1 := s.setMaster s.fail.stackId
    s1.setFail { s1.fail with returning := none }
  else s

def execMastershipTakeover (s : State) : Result := .next s.doTakeover

/-- Is a Vaoskad port up? -/
def State.vaoskadUp (s : State) (port : Fin 2) : Bool := if port = 0 then s.fail.port0 else s.fail.port1
def State.setVaoskad (s : State) (port : Fin 2) (b : Bool) : State :=
  s.setFail (if port = 0 then { s.fail with port0 := b } else { s.fail with port1 := b })

/-- RING_OPEN (R452): a port loses its link. -/
def State.doRingOpen (s : State) (port : Fin 2) : State :=
  if !(s.vaoskadUp port) then s
  else
    let s1 := s.setVaoskad port false
    if s.fail.ringClosed then (s1.setFail { s1.fail with ringClosed := false }).raise 0x1c0 0 [] else s1

def execRingOpen (port : Fin 2) (s : State) : Result := .next (s.doRingOpen port)

/-- PORT_UP (R452): a port gains its link; with both up the ring is closed (DEDUCED, log entry 35). -/
def State.doPortUp (s : State) (port : Fin 2) : State :=
  let s1 := s.setVaoskad port true
  s1.setFail { s1.fail with ringClosed := s1.fail.port0 && s1.fail.port1 }

def execPortUp (port : Fin 2) (s : State) : Result := .next (s.doPortUp port)

/-! ## Registers computed from the supervisor's state -/

def roleCode : Role → Nat
  | .disabled => 0 | .standby => 1 | .claiming => 2 | .active => 3

/-- The computed registers of pages 0x003, 0x180, 0x181 and 0x1C0. -/
def State.supView (s : State) (p off : Nat) : Option Word :=
  let u := s.sup
  let f := s.fail
  if p = 0x003 then
    (if off = Reg.reset.resetCause then some (BitVec.ofNat 32 u.resetCause)
     else if off = Reg.reset.resetInput then some (flag u.pressLevel 0 ||| flag u.armed 1 ||| flag u.pressing 2) else none)
  else if p = 0x180 then
    (if off = Reg.supervisor.supStatus then
      some (flag u.live 0 ||| flag u.grant 1 ||| flag u.safeState.isSome 2 ||| flag u.latch.locked 3
        ||| flag u.latch.committed 4 ||| at' s.enableBlock 8 ||| at' u.latch.cls 16 ||| at' (u.safeState.getD 0) 24)
     else if off = Reg.supervisor.lockoutSeq then some u.latch.seq
     else if off = Reg.supervisor.lockoutOrigin then some (BitVec.ofNat 32 u.latch.origin) else none)
  else if p = 0x181 then
    (if off = Reg.causeway.cwayStatus then
      some (at' (roleCode f.role) 0 ||| flag f.toggling 4 ||| flag f.hbClaiming 5 ||| flag f.frozen 6 ||| flag f.faulty 7
        ||| flag f.withdrawReq 8 ||| flag f.unitSide 9) else none)
  else if p = 0x1c0 then
    (if off = Reg.stackLink.linkStatus then
      some (at' f.stackId.val 0 ||| flag f.strapsValid 3 ||| at' f.master.val 8 ||| flag f.port0 16 ||| flag f.port1 17
        ||| flag f.ringClosed 18) else none)
  else none

/-- Does a capture of page 0x181 break an invariant of R446? -/
def State.cwayImbalance (s : State) : Bool :=
  let claiming := s.fail.lineOn.toNat
  let act := (s.sup.live && s.fail.lineOn).toNat
  decide (s.reg 0x181 Reg.causeway.claimStarts ≠ s.reg 0x181 Reg.causeway.claimEnds + BitVec.ofNat 32 claiming)
    || decide (claiming < act) || decide (1 < act + s.fail.hbActive.toNat)

/-- The capture of page 0x181 (R61, R446). -/
def State.captureCway (s : State) : State :=
  ((s.setReg 0x181 Reg.causeway.snapClaimStarts (s.reg 0x181 Reg.causeway.claimStarts)).setReg 0x181
    Reg.causeway.snapClaimEnds (s.reg 0x181 Reg.causeway.claimEnds)).setReg 0x181 Reg.causeway.snapState
      (flag s.fail.lineOn 0 ||| flag (s.sup.live && s.fail.lineOn) 1 ||| flag s.fail.hbActive 2)

end Sys2Proof.Machine
end

