-- ==== Sys2Proof/Machine/Observe.lean ====
section
/-!
DEFINITION. Chapter 15: programmable counters (R454, R455), bandwidth windows (R456), samplers (R457), the TAP and the
debug module (R458, R459), workshop access (R460, R461), the perturbation controls (R462).
-/
namespace Sys2Proof.Machine

def State.setObs (s : State) (o : Observe) : State := { s with obs := o }

/-! ## Programmable counters, windows, samplers -/

/-- PMC_SEL_WRITE (R455): the count goes to 0, the new selection counts from now on. Counter `k` is 16·set + n. -/
def State.doPmcSel (s : State) (k : Nat) (v : Word) : State :=
  let s1 := s.storeReg 0x191 (Reg.pmc.pmcSel + 4 * k) v
  let on := s1.obs.pmcOn.filter (· != k)
  s1.setObs
    { s1.obs with
      pmc := tblWrite zeroDword s1.obs.pmc k 0#64, pmcOn := if bitOf (s1.pmcSel k) 31 then k :: on else on }

def execPmcSelWrite (m : Master) (k : Fin 112) (v : Word) (s : State) : Result :=
  .next (s.written m 0x191 (Reg.pmc.pmcSel + 4 * k.val) fun t => t.doPmcSel k.val v)

/-- BW_WINDOW_END (R456): at a multiple of BW_WINDOW, a window in progress is closed and the next one begins. -/
def State.doBwWindowEnd (s : State) : State :=
  if s.obs.bwValid then
    ((s.setObs { s.obs with bwReg := s.obs.bwAcc, bwAcc := [] }).incReg 0x192 Reg.bandwidth.bwSeq 1).bump 0x192 0 1
  else s.setObs { s.obs with bwAcc := [], bwValid := true }

def execBwWindowEnd (s : State) : Result := .next s.doBwWindowEnd

/-- BW_WINDOW_WRITE (R456): the window in progress is discarded. -/
def State.doBwWindow (s : State) (v : Word) : State :=
  let s1 := s.storeReg 0x192 Reg.bandwidth.bwWindow v
  s1.setObs { s1.obs with bwAcc := [], bwValid := false }
def execBwWindowWrite (m : Master) (v : Word) (s : State) : Result :=
  .next (s.written m 0x192 Reg.bandwidth.bwWindow fun t => t.doBwWindow v)

/-- SMP_CTRL_WRITE (R457): setting EN seeds the LFSR from LT; the sampler takes the next retired instruction. -/
def State.doSmpCtrl (s : State) (n : Nat) (v : Word) : State :=
  let off := samplerReg Reg.sampler.smpCtrl n
  let s1 := s.storeReg 0x193 off v
  if bitOf (s1.reg 0x193 off) 31 ∧ !(bitOf (s.reg 0x193 off) 31) then s1.setSampler n ⟨loWord s.time.lt, 0⟩ else s1

def execSmpCtrlWrite (m : Master) (n : Fin 5) (v : Word) (s : State) : Result :=
  .next (s.written m 0x193 (samplerReg Reg.sampler.smpCtrl n.val) fun t => t.doSmpCtrl n.val v)

/-! ## The TAP (R458) -/

/-- A TAP instruction selected. -/
def State.tap (s : State) (ir : BitVec 5) : State := s.setObs { s.obs with tapIr := ir }

/-- The bypass register: one bit, captured 0, so a scan comes out one bit later. -/
def State.bypassScan (s : State) (scan : DWord) : State := s.answer (.value (scan <<< 1))

/-- A scan of the boundary chain: what its cells captured is a free value; under workshop access only. -/
def State.boundaryScan (s : State) (scan : DWord) : State :=
  if s.obs.wsOpen then
    let d := s.drawDword
    d.2.answer (.value d.1)
  else s.bypassScan scan

/-- EXTEST. The chain holds no ball of the supervisor die, so it changes nothing of the safe outputs. -/
def execExtest (scan : DWord) (s : State) : Result := .next ((s.tap 0x00#5).boundaryScan scan)
/-- SAMPLE/PRELOAD. -/
def execSamplePreload (scan : DWord) (s : State) : Result := .next ((s.tap 0x02#5).boundaryScan scan)
/-- IDCODE. -/
def execIdcode (s : State) : Result := .next ((s.tap 0x01#5).answer (.value 0x13860e2b#64))
/-- BYPASS, and every instruction that R458 does not list. -/
def execBypass (ir : BitVec 5) (scan : DWord) (s : State) : Result := .next ((s.tap ir).bypassScan scan)
/-- DTMCS: VERSION 1 (External Debug 0.13.2), DMISTAT 0; a write resets nothing that outlasts a DMI access here. -/
def execDtmcs (_v : Word) (s : State) : Result :=
  .next ((s.tap 0x10#5).answer (.value ((1#32 ||| (Config.dtmInfo &&& 0x73f0#32)).zeroExtend 64)))

/-! ## The debug module (R459) -/

def State.dmReg (s : State) (a : Nat) : Word := tblRead zeroWord s.obs.dmi a
def State.setDm (s : State) (a : Nat) (v : Word) : State :=
  s.setObs { s.obs with dmi := tblWrite zeroWord s.obs.dmi a v }
/-- HARTSEL of dmcontrol. -/
def State.hartSel (s : State) : Nat := fieldOf (s.dmReg 0x10) 25 16
/-- Is a hart halted? Hart 0 is copy A, and halts with all participants (R129). -/
def State.hartHalted (s : State) (h : Nat) : Bool :=
  if h = 0 then (s.cp .a).halted else s.obs.appHalted.getLsbD (h - 1)
/-- Is a hart unavailable: hart 0 while copy A is held, retired or no participant? -/
def State.hartGone (s : State) (h : Nat) : Bool := decide (h = 0) && !(s.cp .a).participant

/-- The key under which a hart's resume acknowledge is kept, above every DMI address in use. -/
def ackKey (h : Nat) : Nat := 0x1000 + h

/-- dmstatus: VERSION 2, AUTHENTICATED, the ANY and ALL pairs of the selected hart. -/
def State.dmStatus (s : State) : Word :=
  let h := s.hartSel
  let two (b : Bool) (n : Nat) : Word := flag b n ||| flag b (n + 1)
  let there := decide (h < 5)
  let up := there && !(s.hartGone h)
  2#32 ||| flag true 7 ||| two (up && s.hartHalted h) 8 ||| two (up && !(s.hartHalted h)) 10 ||| two (there && s.hartGone h) 12
    ||| two (!there) 14 ||| two (there && s.dmReg (ackKey h) == 1#32) 16

/-- abstractcs: 8 program-buffer words, 2 data words, CMDERR. -/
def State.abstractCs (s : State) : Word := at' 8 24 ||| (s.dmReg 0x16 &&& 0x700#32) ||| 2#32

/-- A DMI read. -/
def State.dmRead (s : State) (a : Nat) : Word :=
  if a = 0x11 then s.dmStatus
  else if a = 0x12 then Config.hartInfo
  else if a = 0x16 then s.abstractCs
  else if a = 0x04 ∨ a = 0x05 ∨ a = 0x10 ∨ (0x20 ≤ a ∧ a < 0x28) then s.dmReg a
  else 0#32

/-- A command that fails sets CMDERR. -/
def State.cmdErr (s : State) (e : Nat) : State := s.setDm 0x16 (at' e 8)

/-- The register a REGNO names. -/
def debugRegOf (n : Nat) : Option DebugReg :=
  if n = 0x7b1 then some .dpc
  else if n < 0x1000 then some (.csr (BitVec.ofNat 12 n))
  else if n < 0x1020 then some (.x (Fin.ofNat 32 (n - 0x1000)))
  else if n < 0x1040 then some (.f (Fin.ofNat 32 (n - 0x1020)))
  else none

/-- A register of a copy as the debugger reads it. -/
def CopyState.debugGet (c : CopyState) : DebugReg → DWord
  | .x n => if n.val = 0 then 0#64 else tblRead zeroDword c.x n.val
  | .f n => tblRead zeroDword c.f n.val
  | .csr n => tblRead zeroDword c.csr n.toNat
  | .dpc => c.pc

/-- Access Register with transfer, `wide` for 64 bits: on hart 0 a write is replayed in every participant (R130), a read
comes from copy A; the registers of an application core are no part of this model, so that a read of one is a free
value. -/
def State.accessRegister (s : State) (r : DebugReg) (write wide : Bool) : State :=
  if s.hartSel = 0 then
    (if write then
      let lo := s.dmReg 4
      let hi := if wide then s.dmReg 5 else hiWord ((s.cp .a).debugGet r)
      s.doDebugRegisterWrite r (dword hi lo)
    else
      let v := (s.cp .a).debugGet r
      if wide then (s.setDm 4 (loWord v)).setDm 5 (hiWord v) else s.setDm 4 (loWord v))
  else if write then s
  else
    let d := s.drawDword
    if wide then (d.2.setDm 4 (loWord d.1)).setDm 5 (hiWord d.1) else d.2.setDm 4 (loWord d.1)

/-- A write of `command`: Access Register only (R459); ignored while CMDERR stands; the hart must be halted. -/
def State.dmCommand (s : State) (v : Word) : State :=
  let size := fieldOf v 22 20
  if s.dmReg 0x16 ≠ 0#32 then s
  else if fieldOf v 31 24 ≠ 0 ∨ (bitOf v 17 ∧ size ≠ 2 ∧ size ≠ 3) then s.cmdErr 2
  else if 5 ≤ s.hartSel ∨ s.hartGone s.hartSel ∨ !(s.hartHalted s.hartSel) then s.cmdErr 4
  else if !(bitOf v 17) then s
  else match debugRegOf (fieldOf v 15 0) with
    | some r => s.accessRegister r (bitOf v 16) (size == 3)
    | none => s.cmdErr 2

/-- A hart asked to halt. -/
def State.hartHalt (s : State) (h : Nat) : State :=
  if h = 0 then s.doDebugHaltRequest
  else if h < 5 then s.setObs { s.obs with appHalted := s.obs.appHalted ||| (1#4 <<< (h - 1)) } else s

/-- A hart asked to resume; it acknowledges. -/
def State.hartResume (s : State) (h : Nat) : State :=
  if 5 ≤ h ∨ s.hartGone h ∨ !(s.hartHalted h) then s
  else
    let s1 := if h = 0 then s.debugAction State.unhalt
      else s.setObs { s.obs with appHalted := s.obs.appHalted &&& ~~~(1#4 <<< (h - 1)) }
    s1.setDm (ackKey h) 1#32

/-- A write of dmcontrol: HARTSEL and DMACTIVE stay; DMACTIVE 0 resets the debug module; ndmreset and hartreset are
ignored. -/
def State.dmControl (s : State) (v : Word) : State :=
  if !(bitOf v 0) then s.setObs { s.obs with dmi := [] }
  else
    let s1 := s.setDm 0x10 (v &&& 0x03ff0001#32)
    let h := s1.hartSel
    if bitOf v 31 then s1.hartHalt h
    else if bitOf v 30 then (s1.setDm (ackKey h) 0#32).hartResume h else s1

/-- A DMI write: while DMACTIVE is 0 only dmcontrol takes one. -/
def State.dmWrite (s : State) (a : Nat) (v : Word) : State :=
  if a = 0x10 then s.dmControl v
  else if s.dmReg 0x10 &&& 1#32 = 0#32 then s
  else if a = 0x04 ∨ a = 0x05 ∨ (0x20 ≤ a ∧ a < 0x28) then s.setDm a v
  else if a = 0x16 then s.setDm 0x16 (s.dmReg 0x16 &&& ~~~(v &&& 0x700#32))
  else if a = 0x17 then s.dmCommand v
  else s

/-- DMI (R459): while workshop access is closed reads return 0 and writes are ignored. -/
def State.doDmi (s : State) (op : DmiOp) (a : Nat) (v : Word) : State :=
  if !s.obs.wsOpen then s.answer (.value 0#64)
  else match op with
    | .nop => s.answer .none
    | .read => s.answer (.value ((s.dmRead a).zeroExtend 64))
    | .write => (s.dmWrite a v).answer .none

def execDmi (op : DmiOp) (addr : Nat) (data : Word) (s : State) : Result := .next ((s.tap 0x11#5).doDmi op addr data)

/-! ## Workshop access (R460, R461) -/

/-- The value that the unlock sequence expects at a step. -/
def State.unlockWord (s : State) (step : Nat) : Word :=
  if step = 0 then 0x5745524b#32 else if step = 1 then loWord s.ps.nv.otp.unitId
  else if step = 2 then hiWord s.ps.nv.otp.unitId else 0x4f50454e#32

/-- The conditions at the fourth write (R460). -/
def State.mayUnlock (s : State) : Bool :=
  s.obs.testEnPowerUp && s.obs.testEnLow && (s.time.standstill || s.field 0x142 Reg.axles.axConfig 3 0 == 0)
    && decide (s.obs.unlockFails < 8)

/-- A failure: the sequence starts again; the eighth latches UNLOCK_REFUSED. -/
def State.unlockFailed (s : State) : State :=
  let s1 := (s.setObs { s.obs with unlockStep := 0, unlockFails := s.obs.unlockFails + 1 }).bump 0x19f 1 1
  if s1.obs.unlockFails = 8 then s1.raise 0x19f 1 [] else s1

/-- Workshop access opens, by the page (route 0) or the TAP (route 1); the outputs go off (R461). -/
def State.workshopOpens (s : State) (route : Nat) : State :=
  (((s.setObs { s.obs with unlockStep := 0, wsOpen := true, wsOpened := true }).bump 0x19f 0 1).raise 0x19f 0
    [BitVec.ofNat 32 route]).review

/-- A write of the unlock sequence (R460); while access is open it has no effect (DEDUCED, log entry 40). -/
def State.unlockWrite (s : State) (route : Nat) (v : Word) : State :=
  if s.obs.wsOpen then s
  else if v ≠ s.unlockWord s.obs.unlockStep then s.unlockFailed
  else if s.obs.unlockStep < 3 then s.setObs { s.obs with unlockStep := s.obs.unlockStep + 1 }
  else if s.mayUnlock then s.workshopOpens route else s.unlockFailed

def execWsUnlock (m : Master) (v : Word) (s : State) : Result :=
  .next (s.written m 0x19f Reg.workshop.wsUnlock fun t => t.unlockWrite 0 v)

/-- WORKSHOP: the TAP's own way to WS_UNLOCK. -/
def execWorkshop (v : Word) (s : State) : Result := .next (((s.tap 0x18#5).unlockWrite 1 v).answer .none)

/-- UNLOCK_GAP (R460). -/
def execUnlockGap (s : State) : Result := .next (if s.obs.unlockStep = 0 then s else s.unlockFailed)

/-- Does closing clear a register (R461): FAULT_INJECT of a page, a control of page 0x1A0? -/
def clearedAtClosing (key : Nat) : Bool :=
  key % 0x1000 == 0x018 || decide (regKey 0x1a0 0x100 ≤ key ∧ key < regKey 0x1a0 Reg.perturb.ptApplied)

/-- FREEZE cleared in every page that has a state of its own; a page that is then as after reset goes from the table. -/
def State.thawAll (s : State) : State :=
  s.pages.foldl (fun t e => t.setPage e.1 { t.page e.1 with freeze := false }) s

/-- Workshop access closes (R461). -/
def State.workshopCloses (s : State) : State :=
  if !s.obs.wsOpen then s
  else
    let s1 := { s with regs := tblDrop clearedAtClosing s.regs }.thawAll
    (s1.setObs { s1.obs with wsOpen := false }).unhalt

/-- WS_CLOSE. -/
def execWsClose (m : Master) (v : Word) (s : State) : Result :=
  .next (s.written m 0x19f Reg.workshop.wsClose fun t => if bitOf v 0 then t.workshopCloses else t)

/-- TEST_EN_HIGH: TEST_EN_N has read high for 1 ms. -/
def execTestEnHigh (s : State) : Result :=
  .next ((s.setObs { s.obs with testEnLow := false }).workshopCloses)

/-- WS_STATUS. -/
def State.wsStatus (s : State) : Word :=
  let o := s.obs
  flag o.wsOpen 0 ||| flag o.wsOpened 1 ||| flag o.testEnPowerUp 2 ||| flag o.testEnLow 3 ||| at' o.unlockStep 4
    ||| at' (min o.unlockFails 255) 8

/-- The computed registers of pages 0x191, 0x192 and 0x19F. -/
def State.obsView (s : State) (p off : Nat) : Option Word :=
  let half (t : Tbl DWord) (base : Nat) : Word :=
    let v := tblRead zeroDword t ((off - base) / 8)
    if off % 8 = 0 then loWord v else hiWord v
  if p = 0x191 ∧ Reg.pmc.pmc ≤ off ∧ off < 0x780 then some (half s.obs.pmc Reg.pmc.pmc)
  else if p = 0x192 ∧ Reg.bandwidth.bw ≤ off ∧ off < 0x500 then some (half s.obs.bwReg Reg.bandwidth.bw)
  else if p = 0x19f ∧ off = Reg.workshop.wsStatus then some s.wsStatus
  else none

/-! ## Perturbation controls (R462, R464) -/

/-- Does a control of page 0x1A0 take a value? Those that name a copy or an engine ignore the value 3. -/
def ptOk (off : Nat) (v : Word) : Bool :=
  if off = Reg.perturb.ptCkpt ∨ off = Reg.perturb.ptSig ∨ off = Reg.perturb.ptVote then fieldOf v 29 28 != 3
  else if off = Reg.perturb.ptCle then fieldOf v 1 0 != 3
  else true
/-- A control of page 0x1A0 written. -/
def State.ptWrite (s : State) (m : Master) (off : Nat) (v : Word) : State :=
  s.written m 0x1a0 off fun t => if ptOk off v then t.storeReg 0x1a0 off v else t

def execPtCkpt (m : Master) (v : Word) (s : State) : Result := .next (s.ptWrite m Reg.perturb.ptCkpt v)
def execPtSig (m : Master) (v : Word) (s : State) : Result := .next (s.ptWrite m Reg.perturb.ptSig v)
def execPtVote (m : Master) (v : Word) (s : State) : Result := .next (s.ptWrite m Reg.perturb.ptVote v)
def execPtEgress (m : Master) (v : Word) (s : State) : Result := .next (s.ptWrite m Reg.perturb.ptEgress v)
def execPtDrop (m : Master) (v : Word) (s : State) : Result := .next (s.ptWrite m Reg.perturb.ptDrop v)
def execPtDtack (m : Master) (v : Word) (s : State) : Result := .next (s.ptWrite m Reg.perturb.ptDtack v)
def execPtMp (m : Master) (v : Word) (s : State) : Result := .next (s.ptWrite m Reg.perturb.ptMp v)
def execPtCle (m : Master) (v : Word) (s : State) : Result := .next (s.ptWrite m Reg.perturb.ptCle v)
def execPtMem (m : Master) (v : Word) (s : State) : Result := .next (s.ptWrite m Reg.perturb.ptMem v)

/-- PT_DELAYED_REPORT_RELEASE (R462): the delayed reports of a copy go on to their comparators; those of a copy that has
left the participants are discarded. -/
def State.doReportRelease (s : State) (k : Copy) : State :=
  let fly := if (s.cp k).participant then
      s.clu.flying.map fun f => if f.report.copy = k then { f with delayed := false } else f
    else s.clu.flying.filter fun f => !(f.delayed && f.report.copy == k)
  { s with clu := { s.clu with flying := fly } }

def execPtDelayedReportRelease (cp : Copy) (s : State) : Result := .next (s.doReportRelease cp)

end Sys2Proof.Machine
end

