-- ==== Sys2Proof/Machine/Pstate.lean ====
section
/-!
DEFINITION. Chapter 12: the start of the engine, marks, the commit ports (R369 to R371), retention (R377 to R382), the
power-fail warning (R386, R387) and the event recorder (R389 to R394).
-/
namespace Sys2Proof.Machine

/-! ## Commit ports (R369 to R371) -/

/-- Lines of the user NV area. -/
def userLines : Nat := 224 * 0x100000 / 64
/-- The code of R369 for a request, 0 where it passes. -/
def State.cpCode (s : State) (r : CpReq) : Nat :=
  let readable : Nat → Bool := fun n => decide (r.src + n ≤ 0x2000000) && !(eccBad s.mem.sramEcc 16 r.src n)
  if r.cmd = 1 then
    (if userLines < r.dst + r.lines then 1
     else if r.lines = 0 ∨ 1024 < r.lines then 2
     else if readable (64 * r.lines) then 0 else 3)
  else if !(readable 64) then 3
  else
    let kind := (memByte s.mem.sram r.src).toNat
    if kind = 0 ∨ 0x1f < kind then 4 else 0

/-- The request at a port's head refused (R369): it completes with its code and without a JSEQ. -/
def State.cpRefused (s : State) (mgmt : Bool) (code : Nat) : State :=
  let done := cpReg mgmt Reg.commitPorts.cpDone
  let num := (s.reg 0x161 done + 1).toNat % 65536
  let s1 := (((s.setPort mgmt (s.portQueue mgmt).tail).incReg 0x161 done 1).setReg 0x161 (cpReg mgmt Reg.commitPorts.cpError)
    (at' code 0 ||| at' num 16)).bump 0x161 2 1
  (if code = 3 then s1.latch 0x161 1 else s1).raise 0x161 0 []

/-- The request at a port's head comes to its turn: a refused one completes at once and the next one comes, a JOURNAL is
handed over as a record of the port's class. A port has at most 8 requests. -/
def State.servePortN (s : State) (mgmt : Bool) : Nat → State
  | 0 => s
  | n + 1 =>
    match s.portQueue mgmt with
    | [] => s
    | r :: rest =>
      if !s.ps.startDone ∨ s.ps.stopped then s
      else
        let code := s.cpCode r
        if code ≠ 0 then (s.cpRefused mgmt code).servePortN mgmt n
        else if r.cmd = 2 ∧ !r.submitted then
          let s1 := s.setPort mgmt ({ r with submitted := true } :: rest)
          let k := s1.ps.nv.journalPos
          ((s1.setNv { s1.ps.nv with journalPos := k + 1 }).submit
            { cls := if mgmt then 4 else 2, place := .offset (mramJournal k),
              body := (memBytes s.mem.sram r.src 64).take 48, effect := .journalPort mgmt }).bw 85 64
        else s
def State.servePort (s : State) (mgmt : Bool) : State := s.servePortN mgmt 9

/-- A CP_CMD write: the request is accepted with its latched arguments, or refused at 8 pending. -/
def State.cpCommand (s : State) (mgmt : Bool) (cmd : Nat) : State :=
  if 8 ≤ (s.portQueue mgmt).length then (s.satReg 0x161 (cpReg mgmt Reg.commitPorts.cpRefused) 1).raise 0x161 0 []
  else
    let r : CpReq :=
      { cmd := cmd, src := (s.reg 0x161 (cpReg mgmt Reg.commitPorts.cpSrc)).toNat,
        dst := (s.reg 0x161 (cpReg mgmt Reg.commitPorts.cpDst)).toNat,
        lines := (s.reg 0x161 (cpReg mgmt Reg.commitPorts.cpLines)).toNat, submitted := false }
    (((s.setPort mgmt (s.portQueue mgmt ++ [r])).incReg 0x161 (cpReg mgmt Reg.commitPorts.cpIssued) 1).bump 0x161
      mgmt.toNat 1).servePort mgmt

/-- COMMIT and JOURNAL: the CP_CMD writes of a port, `mgmt` for the management port. -/
def execCommit (m : Master) (mgmt : Bool) (s : State) : Result :=
  .next (s.written m 0x161 (cpReg mgmt Reg.commitPorts.cpCmd) fun t => t.cpCommand mgmt 1)
def execJournal (m : Master) (mgmt : Bool) (s : State) : Result :=
  .next (s.written m 0x161 (cpReg mgmt Reg.commitPorts.cpCmd) fun t => t.cpCommand mgmt 2)

/-- One line of a user commit: compared with MRAM and written only where it differs (R370). -/
def State.userLine (s : State) (cls src line : Nat) : State :=
  let bs := memBytes s.mem.sram src 64
  let off := mramUser line
  let s1 := s.bw 85 64
  if memBytes s.mem.mram off 64 = bs ∧ !(eccBad s.mem.mramEcc 8 off 64) then s1.bump 0x160 3 1 else s1.mramWrite cls off bs

/-- The COMMIT at a port's head written, its lines in ascending order; it takes its JSEQ with its last line (R366). -/
def State.userCommit (s : State) (mgmt : Bool) (r : CpReq) : State :=
  let cls := if mgmt then 4 else 2
  let s1 := (List.range r.lines).foldl (fun t i => t.userLine cls (r.src + 64 * i) (r.dst + i)) s
  let j := s1.ps.nv.nextJseq
  ((s1.setNv { s1.ps.nv with nextJseq := j + 1 }).journalSeqIs j).cpDone mgmt j

/-- Was a port's request begun before the warning (R386)? -/
def State.begunBefore (s : State) (mgmt : Bool) : Bool := if mgmt then s.ps.portBegun.2 else s.ps.portBegun.1

/-- What a stopped engine still has to do before the power-fail record: nothing of it left (R386)? -/
def State.stepsDone (s : State) : Bool :=
  s.ps.inFlight.isNone && s.ps.waiting.isEmpty && !s.ps.portBegun.1 && !s.ps.portBegun.2
    && s.faults.control.isEmpty && s.faults.data.isEmpty && s.faults.management.isEmpty

/-- The power-fail record of a warning, the last record, once all before it is complete (R386 step 3). -/
def State.pfNext (s : State) : State :=
  if s.ps.stopped ∧ !s.ps.pfIssued ∧ s.stepsDone then
    let s1 := (s.setPs { s.ps with final := true, pfIssued := true }).commitPowerFail 0
    s1.setPs { s1.ps with final := false }
  else s

/-- RECORD_MARK (R366). -/
def State.doRecordMark (s : State) : State :=
  let s1 := s.completeMark
  ((s1.servePort false).servePort true).pfNext

def execRecordMark (s : State) : Result := .next s.doRecordMark

/-- COMMIT_REQUEST_DONE (R370): the head request's last line, or the mark of its journal entry. -/
def State.doCommitRequestDone (s : State) (mgmt : Bool) : State :=
  match s.portQueue mgmt with
  | [] => s
  | r :: _ =>
    if !s.ps.startDone ∨ (s.ps.stopped ∧ !(s.begunBefore mgmt)) then s
    else if r.cmd = 2 then
      (match s.ps.inFlight with
        | some (q, _) => if q.effect = .journalPort mgmt then s.doRecordMark else s
        | none => s)
    else
      let code := s.cpCode r
      let s1 := if code = 0 then s.userCommit mgmt r else s.cpRefused mgmt code
      let s2 := s1.setPs
        { s1.ps with portBegun := if mgmt then (s1.ps.portBegun.1, false) else (false, s1.ps.portBegun.2) }
      (s2.servePort mgmt).pfNext

def execCommitRequestDone (mgmt : Bool) (s : State) : Result := .next (s.doCommitRequestDone mgmt)

/-! ## Retention (R377 to R382) -/

/-- The whole retention of the cells, in the units of `Budgets`. -/
def fullBudget : Nat := 2 ^ 64

/-- Every block's budget changed by a function. -/
def Budgets.mapAll (b : Budgets) (f : Nat → Nat) : Budgets :=
  { b with common := f b.common, own := b.own.foldl (fun t e => tblWrite (fun _ => f b.common) t e.1 (f e.2)) [] }

def Budgets.any (b : Budgets) (p : Nat → Bool) : Bool := (List.range 496).any fun n => p (b.of n)

/-- Budgets changed; one that reaches 2^32 latches BUDGET_OVERDUE (R380). -/
def State.setBudgets (s : State) (f : Nat → Nat) : State :=
  let b := s.ps.budgets.mapAll fun n => min (f n) fullBudget
  let full := (List.range 496).any fun n => decide (s.ps.budgets.of n < fullBudget) && b.of n == fullBudget
  let s1 := s.setPs { s.ps with budgets := b }
  if full then s1.raise 0x160 2 [] else s1

/-- RETENTION_CHARGE (R377): one second of powered time at the highest junction temperature. -/
def execRetentionCharge (milliC : Int) (s : State) : Result :=
  .next (s.setBudgets fun n => n + Config.retentionCharge milliC 1)

/-- OFF_TEMP in m°C. -/
def State.offTemp (s : State) : Int := ((fieldOf s.ps.offCfg 23 16 * 1000 : Nat) : Int)

/-- The off interval charged: `secs` seconds, or the worst case (R378). -/
def State.offCharge (s : State) (source : Nat) (secs : Option Nat) : State :=
  let s1 := s.setPs { s.ps with offSource := source }
  match secs with
  | some n =>
    (s1.setReg 0x160 Reg.pstate.offInterval (BitVec.ofNat 32 (min n 0xffffffff))).setBudgets fun b =>
      b + Config.retentionCharge s.offTemp n
  | none => (s1.setReg 0x160 Reg.pstate.offInterval 0xffffffff#32).setBudgets fun b => max b (2 ^ 63)

/-- OFF_TIME_ASSUMED is charged (R378 item 3); a newest record written periodically latches PF_MISSED. -/
def State.assumeOff (s : State) : State :=
  let missed := match s.ps.nv.powerFail with | some (_, c) => c == 1 | none => false
  let s1 := (if missed then s.raise 0x160 5 [] else s).raise 0x160 4 []
  let n := s.ps.offAssumed.toNat
  s1.offCharge (if missed then 3 else 2) (if n = 0xffffffff then none else some n)

/-- OFF_TIME_CHARGE (R378 item 2): NT has become valid within OFF_WAIT. -/
def State.doOffTimeCharge (s : State) : State :=
  if s.ps.offSource ≠ 0 ∨ !s.time.ntValid then s
  else match s.ps.nv.powerFail with
    | some (ntOff, cause) =>
      let ns : Int := s.time.nt.toNat - ntOff.toNat - 4 * s.time.lt.toNat
      if cause = 1 ∨ ntOff = 0#64 ∨ ns < 0 then s.assumeOff else s.offCharge 1 (some (ns.toNat / 10 ^ 9))
    | none => s.assumeOff

def execOffTimeCharge (s : State) : Result := .next s.doOffTimeCharge

/-- OFF_WAIT (R378 item 3): OFF_WAIT has passed without valid NT. -/
def execOffWait (s : State) : Result := .next (if s.ps.offSource = 0 then s.assumeOff else s)

/-- RETENTION_TABLE_COMMIT (R379). -/
def execRetentionTableCommit (s : State) : Result := .next (if s.ps.stopped then s else s.commitTable)

/-- The block with the highest budget; of equal ones the lowest. -/
def Budgets.highest (b : Budgets) : Nat :=
  (List.range 496).foldl (fun m n => if b.of m < b.of n then n else m) 0

/-- A count of a block raised. -/
def bumpBlock (t : Tbl Nat) (n k : Nat) : Tbl Nat := tblWrite zeroNat t n (tblRead zeroNat t n + k)

/-- REFRESH (R380): the block with the highest budget, of those that have reached 2^31, is rewritten whole. -/
def State.doRefresh (s : State) : State :=
  let n := s.ps.budgets.highest
  if s.ps.stopped ∨ s.ps.budgets.of n < 2 ^ 63 then s
  else
    let inBlock : Nat × Nat → Bool := fun e => e.2 == 1 && e.1 / 0x20000 == n
    let ecc := s.mem.mramEcc.filter fun e => !(inBlock e)
    let b := s.ps.budgets
    let b1 : Budgets :=
      { b with
        own := tblWrite (fun _ => b.common) b.own n 0, refreshes := bumpBlock b.refreshes n 1,
        refreshNt := tblWrite zeroDword b.refreshNt n (BitVec.ofNat 64 s.ntStamp) }
    let s1 := ({ s with mem := { s.mem with mramEcc := ecc } }.countWrites (n * 0x100000) 16384).bump 0x160 5 16384
    (s1.setPs { s1.ps with budgets := { b1 with writes := s1.ps.budgets.writes } }).satReg 0x160 Reg.pstate.refreshes 1

def execRefresh (s : State) : Result := .next s.doRefresh

/-- Free spare lines of a die (R361, R381). -/
def State.spareFree (s : State) (die : Nat) : Nat := 65536 - tblRead zeroNat s.ps.nv.spareUsed die

/-- A line remapped to a spare line of its die (R381); with none free it stays. -/
def State.remap (s : State) (off : Nat) : State :=
  let d := mramDie off
  if s.spareFree d = 0 then s
  else
    let s1 := ((s.setNv { s.ps.nv with spareUsed := bumpBlock s.ps.nv.spareUsed d 1 }).countWrites off 1).bump 0x160 7 1
    if s1.spareFree d < 1024 ∧ 1024 ≤ s.spareFree d then s1.raise 0x160 1 [] else s1

/-- A word that an engine read corrects (R364), by its index. -/
def State.mramCorrected (s : State) (w : Nat) : State :=
  ((s.satReg 0x160 Reg.pstate.corrected 1).bump 0x160 8 1).recAdd (0x5a0 + 4 * (18 + mramDie (8 * w))) 1
/-- A word that cannot be corrected (R364). -/
def State.mramBad (s : State) : State := ((s.satReg 0x160 Reg.pstate.uncorrectable 1).bump 0x160 9 1).raise 0x160 0 []

/-- One corrected word met by a scrub: its line is rewritten; where the word reads corrected `again` the line is
remapped. -/
def State.scrubSingle (s : State) (again : Bool) (w : Nat) : State :=
  let off := w / 8 * 64
  let s1 := ({ s.mramCorrected w with mem := { s.mem with mramEcc := tblErase s.mem.mramEcc w } }).countWrites off 1
  if again then s1.remap off else s1

/-- MRAM_SCRUB (R381): one pass over every addressable line, after an upset that befell a word. -/
def State.doMramScrub (s : State) (u : Option Upset) (again : Bool) : State :=
  if s.ps.stopped then s
  else
    let ecc := eccUpset s.mem.mramEcc u
    let s0 := { s with mem := { s.mem with mramEcc := ecc } }.bump 0x160 6 (496 * 0x100000 / 64)
    let s1 := (ecc.filter fun e => e.2 == 1).foldl (fun t e => t.scrubSingle again e.1) s0
    (ecc.filter fun e => e.2 == 2).foldl (fun t e => (t.mramBad).remap (e.1 / 8 * 64)) s1

def execMramScrub (u : Option Upset) (again : Bool) (s : State) : Result := .next (s.doMramScrub u again)

/-! ## Power-fail records and the warning (R384, R386, R387) -/

/-- POWER_FAIL_RECORD_PERIODIC (R384). -/
def execPowerFailRecordPeriodic (s : State) : Result := .next (if s.ps.stopped then s else s.commitPowerFail 1)

/-- Is a port's head request begun? It is once the port may serve it. -/
def State.portBusy (s : State) (mgmt : Bool) : Bool :=
  match s.portQueue mgmt with
  | r :: _ => s.ps.startDone && r.cmd == 1
  | [] => false

/-- The engine sees a warning (R386): nothing new begins; what is begun goes on to its end; the retirement record of
duckboard operation, the running record and a retention table follow, and the power-fail record last. -/
def State.pfWarn (s : State) : State :=
  if s.ps.stopped then s
  else
    let s1 := s.setPs
      { s.ps with
        stopped := true, pfDone := false, pfIssued := false, held := s.ps.waiting, waiting := [], final := true,
        portBegun := (s.portBusy false, s.portBusy true) }
    let s2 := match s1.red.retired with
      | some k => s1.commitRetirement (some (k, (s1.reg 0x016 Reg.redundancy.duckboardElapsed).toNat))
      | none => s1
    let s3 := s2.commitRunning.commitTable
    (s3.setPs { s3.ps with final := false }).pfNext

/-- POWER_FAIL_WARNING: PFW_N low; the outputs go off with condition 15 of R430. -/
def State.doPowerFailWarning (s : State) : State :=
  let s1 := s.setSup { s.sup with pfwLow := true, pfwSeen := true, pgCount := false }
  (if s1.sup.socReset then s1 else s1.pfWarn).review

def execPowerFailWarning (s : State) : Result := .next s.doPowerFailWarning

/-- PF_DONE (R386 step 4). -/
def execPfDone (s : State) : Result :=
  .next (if s.ps.stopped ∧ s.ps.pfIssued ∧ s.stepsDone then s.setPs { s.ps with pfDone := true } else s)

/-- PFW_RELEASE (R387): PFW_N is high again; the held work goes on. -/
def State.doPfwRelease (s : State) : State :=
  let s1 := s.setSup { s.sup with pfwLow := false }
  let s2 := if s1.ps.stopped ∧ !s1.sup.socReset then
      let t := (s1.setPs
        { s1.ps with
          stopped := false, pfDone := false, waiting := s1.ps.waiting ++ s1.ps.held, held := [],
          portBegun := (false, false) }).issueNext
      (t.servePort false).servePort true
    else s1
  s2.review

def execPfwRelease (s : State) : Result := .next s.doPfwRelease

/-! ## The event recorder (R389 to R392) -/

/-- The counts of the units that the recorder takes, by field (R390, R391). -/
def State.recCounts (s : State) : List (Nat × Nat) :=
  let c : Nat → Nat → Nat := fun p n => (s.counter p n).toNat
  [(0x028, c 0x180 3), (0x590, c 0x016 4), (0x6a8, c 0x1b0 5), (0x6ac, c 0x050 2), (0x6b0, c 0x051 0),
   (0xd44, (s.reg 0x160 Reg.pstate.refreshes).toNat), (0xd48, c 0x160 7),
   (0xd50, c 0x160 0 + c 0x160 1 + c 0x160 2 + c 0x160 5 + c 0x160 7)]
  ++ (List.range 3).map (fun k => (0x564 + 8 * k, (s.reg 0x016 (Reg.redundancy.reseedsTotal + 4 * k)).toNat))
  ++ (List.range 3).map (fun e => (0x57c + 8 * e, s.field 0x040 Reg.cle.reseedsTotal (10 * e + 9) (10 * e)))
  ++ (List.range 3).map (fun k => (0x5a0 + 4 * k, c (0x011 + k) 11))
  ++ (List.range 3).map (fun k => (0x5ac + 4 * k, c (0x011 + k) 12))
  ++ (List.range 3).map (fun e => (0x5c0 + 4 * e, c (0x041 + e) 9))
  ++ (List.range 3).map (fun e => (0x5cc + 4 * e, c (0x041 + e) 10))
  ++ (List.range 8).map (fun p => (0x38c + 64 * p, c (0x048 + p) 7))
  ++ (List.range 8).map (fun p => (0x390 + 64 * p, c (0x048 + p) 2))
  ++ (List.range 8).map (fun p => (0x620 + 16 * p, c (0x081 + p) 0))
  ++ (List.range 8).map (fun p => (0x628 + 16 * p, c (0x081 + p) 1))

/-- A count taken: what it has grown by since it was last taken goes into the open epoch. -/
def State.takeCount (s : State) (e : Nat × Nat) : State :=
  let old := tblRead zeroNat s.ps.recTaken e.1
  if e.2 ≤ old then s
  else
    let s1 := s.recAdd e.1 (e.2 - old)
    s1.setPs { s1.ps with recTaken := tblWrite zeroNat s1.ps.recTaken e.1 e.2 }
def State.takeCounts (s : State) : State := s.recCounts.foldl State.takeCount s

/-- |DIST| in metres (R216, R390). -/
def State.distMetres (s : State) : Nat := s.time.dist.natAbs / 2 ^ 32 / 1000

/-- Nominal voltages of the rails in mV, in the order of R390. -/
def railNominal (r : Nat) : Nat :=
  if r = 0 then 800 else if r = 1 then 850 else if r = 2 then 900 else if r = 3 then 1800 else if r = 4 then 3300
  else if r = 5 then 1100 else if r = 6 then 3300 else 800
/-- The bin of a deviation: each bin includes its lower bound. -/
def railBin (r mv : Nat) : Nat :=
  let n := railNominal r
  let ge : Nat → Bool := fun pc => decide (pc * n ≤ 100 * mv)
  (ge 90).toNat + (ge 95).toNat + (ge 98).toNat + (ge 100).toNat + (ge 102).toNat + (ge 105).toNat + (ge 110).toNat

/-- One second of a rail. -/
def State.recRail (s : State) (first : Bool) (r mv : Nat) : State :=
  let b := 0x160 + 64 * r
  ((s.recAdd (b + 4 * railBin r mv) 1).recMin (b + 0x20) (b + 0x28) first mv).recMax (b + 0x24) (b + 0x30) first mv

/-- The highest SPEED of the enabled axles. -/
def State.topSpeed (s : State) : Nat :=
  (enabledAxles s).foldl (fun m n => max m (s.reg 0x142 (Reg.axles.speed + 4 * n)).toNat) 0

/-- The fields that a second of powered time adds to (R391). -/
def State.recordSecond (s : State) (milliC : Int) (rails : List Nat) : State :=
  let r := s.ps.nv.recorder
  let first := r.seconds == 0
  let s1 := (if first then s.recSet 0x010 s.ntStamp else s).recSet 0x018 s.ntStamp
  let bin := (((milliC + 40000) * 64) / 190000).toNat
  let s2 := (((s1.recAdd 0x020 1).recAdd (0x040 + 4 * min bin 63) 1).recMin 0x140 0x148 first milliC).recMax 0x144 0x150
    first milliC
  let s3 := (rails.take 8).zipIdx.foldl (fun t q => t.recRail first q.2 q.1) s2
  let v := s3.topSpeed
  let s4 := (s3.recAdd (0xcc0 + 4 * min 15 (v / 6944)) 1).recMax 0xd00 0xd08 false v
  let s5 := s4.recSet 0xd10 (s4.ps.distBase + (s4.distMetres - s4.ps.distFrom))
  let s6 := s5.recSet 0xd40 (max (s5.recField 0xd40) (budgetWord (s5.ps.budgets.of s5.ps.budgets.highest)))
  let spare := (List.range 4).foldl (fun m d => min m (s6.spareFree d)) 65536
  let s7 := if first ∨ spare < s6.recField 0xd4c then s6.recSet 0xd4c spare else s6
  let s8 := s7.takeCounts
  s8.setNv { s8.ps.nv with recorder := { s8.ps.nv.recorder with seconds := r.seconds + 1 } }

/-! A LIFETIME record: sums of counts, extremes over the module's life (R392). -/

/-- An extreme: its field, the fields that go with it, and the count that says whether the epoch has a value. -/
abbrev ExtremeGroup := Nat × List Nat × Option Nat

def maxGroups : List ExtremeGroup :=
  [(0x144, [0x150], none), (0xd00, [0xd08], none), (0xd40, [], none)]
  ++ (List.range 8).map (fun r => (0x184 + 64 * r, [0x190 + 64 * r], none))
  ++ (List.range 8).map (fun p => (0x380 + 64 * p, [0x384 + 64 * p], none))
  ++ (List.range 8).map (fun n => (0x6e4 + 64 * n, [0x6f0 + 64 * n], some (0x6f8 + 64 * n)))
  ++ (List.range 64).map (fun k => (0x8c4 + 16 * k, [0x8c0 + 16 * k, 0x8c8 + 16 * k], none))
def minGroups : List ExtremeGroup :=
  [(0x140, [0x148], none), (0xd4c, [], none)]
  ++ (List.range 8).map (fun r => (0x180 + 64 * r, [0x188 + 64 * r], none))
  ++ (List.range 8).map (fun n => (0x6e0 + 64 * n, [0x6e8 + 64 * n], some (0x6f8 + 64 * n)))

/-- Is a field an extreme, goes with one, or is an NT bound of the record? -/
def isExtreme (off : Nat) : Bool :=
  off == 0x010 || off == 0x018 || (maxGroups ++ minGroups).any fun g => g.1 == off || g.2.1.contains off

/-- The extreme of a group taken over, with its companions, where it is the first or lies strictly beyond. -/
def takeExtreme (first : Bool) (life epoch : Tbl Nat) (isMax : Bool) (t : Tbl Nat) (g : ExtremeGroup) : Tbl Nat :=
  let rd : Tbl Nat → Nat → Nat := tblRead zeroNat
  let has (x : Tbl Nat) : Bool := match g.2.2 with | some w => rd x w != 0 | none => true
  let none_ := first || !(has life)
  let a := signedOf 32 (rd epoch g.1)
  let b := signedOf 32 (rd life g.1)
  if has epoch ∧ (none_ ∨ (if isMax then b < a else a < b)) then
    (g.1 :: g.2.1).foldl (fun u o => tblWrite zeroNat u o (rd epoch o)) t
  else t

/-- The LIFETIME fields after an epoch, the first one where none has closed before. -/
def lifeMerge (first : Bool) (life epoch : Tbl Nat) : Tbl Nat :=
  let sums := epoch.foldl (fun t e =>
    if isExtreme e.1 then t
    else tblWrite zeroNat t e.1 (satAdd (2 ^ (8 * recWidth e.1) - 1) (tblRead zeroNat t e.1) e.2)) life
  let m := maxGroups.foldl (takeExtreme first life epoch true) sums
  let n := minGroups.foldl (takeExtreme first life epoch false) m
  let n1 := if first then tblWrite zeroNat n 0x010 (tblRead zeroNat epoch 0x010) else n
  tblWrite zeroNat n1 0x018 (tblRead zeroNat epoch 0x018)

/-- EPOCH_CLOSE (R389): the epoch's record, the next epoch, the LIFETIME record. -/
def State.closeEpoch (s : State) : State :=
  let r := s.ps.nv.recorder
  let s1 := s.submit
    { cls := 4, place := .offset (mramEpoch r.epoch), body := recordBody 1 r.epoch r.fields, effect := .epoch }
  let r1 := s1.ps.nv.recorder
  let s2 := s1.setNv
    { s1.ps.nv with
      recorder := { r1 with epoch := r.epoch + 1, seconds := 0, fields := [], life := lifeMerge (r.epoch == 0) r.life r.fields } }
  ((s2.setPs { s2.ps with distFrom := s2.distMetres, distBase := 0 }).setReg 0x162 Reg.recorder.curEpoch
    (BitVec.ofNat 32 (r.epoch + 1))).commitLifetime

def State.doEpochClose (s : State) : State := if 3600 ≤ s.ps.nv.recorder.seconds then s.closeEpoch else s

def execEpochClose (s : State) : Result := .next s.doEpochClose

/-- RECORDER_SECOND (R391): an epoch of 3,600 s closes before its successor's first second; a second with the outputs
live counts in page 0x180 (R453). -/
def State.doRecorderSecond (s : State) (milliC : Int) (rails : List Nat) : State :=
  let s1 := s.doEpochClose.recordSecond milliC rails
  let s2 := s1.setPs { s1.ps with poweredSince := s1.ps.poweredSince + 1 }
  if s2.sup.live then s2.bump 0x180 0 1 else s2

def execRecorderSecond (milliC : Int) (railsMv : List Nat) (s : State) : Result :=
  .next (s.doRecorderSecond milliC railsMv)

/-- RUNNING_RECORD (R392). -/
def execRunningRecord (s : State) : Result := .next (if s.ps.stopped then s else s.commitRunning)

/-! ## EXPORT (R394) -/

/-- Does a record of `n` bytes at an MRAM offset exist (R365): its MARK matches its JSEQ, and its CRC checks? -/
def State.recordExists (s : State) (off n : Nat) : Bool :=
  let bs := memBytes s.mem.mram off n
  let jseq := ofLeBytes ((bs.drop (n - 16)).take 4)
  !(eccBad s.mem.mramEcc 8 off n) && ofLeBytes (bs.drop (n - 4)) == (BitVec.ofNat 32 jseq ^^^ 0xa5a5a5a5#32).toNat
    && ofLeBytes ((bs.drop (n - 8)).take 4) == (crc32 (bs.take (n - 8))).toNat

/-- Is epoch `e` held: closed, not overwritten in the moss, its record complete? -/
def State.epochHeld (s : State) (e : Nat) : Bool :=
  decide (e < s.ps.nv.recorder.epoch) && s.recordExists (mramEpoch e) 0x1000
    && memLe s.mem.mram (mramEpoch e + 8) 8 == e

/-- One record written to shared SRAM at an offset, and counted. -/
def State.exportOne (s : State) (dst : Nat) (bs : List Byte) : State :=
  let s1 := ((s.sramWrite dst bs).bw 85 0x1000).bump 0x162 3 1
  s1.setOp 0x162 ((s1.op 0x162).advance 1 1)

/-- A refused destination: FAILED with 0x101, ACCESS_ERROR. -/
def State.exportRefused (s : State) : State := (s.opFail 0x162 0x101#32).raise 0x162 0 []

/-- The epochs of an EXPORT, one after the other; it stops at a refused destination. -/
def State.exportEpochs (s : State) (first dst : Nat) : Nat → State
  | 0 => s.opDone 0x162
  | n + 1 =>
    if 0x2000000 < dst + 0x1000 then s.exportRefused
    else if s.epochHeld first then
      (s.exportOne dst (memBytes s.mem.mram (mramEpoch first) 0x1000)).exportEpochs (first + 1) (dst + 0x1000) n
    else
      let s1 := s.exportOne dst (zeros 0x1000)
      (s1.setOp 0x162 ((s1.op 0x162).note 0x100#32)).exportEpochs (first + 1) (dst + 0x1000) n

/-- EXPORT; a count outside 1 to 4,096 or a destination that is not 4 KiB-aligned is an argument out of range (R53). -/
def State.doExport (s : State) : State :=
  if !(s.opActive 0x162 1) then s
  else
    let o := s.op 0x162
    if o.arg1 = 0#32 ∨ 4096 < o.arg1.toNat ∨ o.arg2.toNat % 0x1000 ≠ 0 then s.opFail 0x162 2#32
    else s.exportEpochs o.arg0.toNat o.arg2.toNat o.arg1.toNat

def execExportEpochs (s : State) : Result := .next s.doExport

/-- EXPORT_LIFETIME: the newest LIFETIME record; with none written, 4 KiB of 0 and 0x100. -/
def State.doExportLifetime (s : State) : State :=
  if !(s.opActive 0x162 2) then s
  else
    let dst := (s.op 0x162).arg2.toNat
    if dst % 0x1000 ≠ 0 then s.opFail 0x162 2#32
    else if 0x2000000 < dst + 0x1000 then s.exportRefused
    else match s.ps.nv.recorder.lifeAt with
      | some a => (s.exportOne dst (memBytes s.mem.mram a 0x1000)).opDone 0x162
      | none =>
        let s1 := s.exportOne dst (zeros 0x1000)
        (s1.setOp 0x162 ((s1.op 0x162).note 0x100#32)).opDone 0x162

def execExportLifetime (s : State) : Result := .next s.doExportLifetime

/-! ## Registers computed from the engine's state, books -/

/-- Pool slots allocated in the live table (R372). -/
def State.allocSlots (s : State) : Nat := (s.ps.slots.filter fun e => e.2.alloc).length

/-- PS_STATUS. -/
def State.psStatus (s : State) : Word :=
  let p := s.ps
  flag s.sup.pfwLow 0 ||| flag p.pfDone 1 ||| flag p.startDone 2 ||| at' p.offSource 4
    ||| at' ((List.range 496).filter fun n => decide (2 ^ 63 ≤ p.budgets.of n)).length 16

/-- The computed registers of pages 0x160 and 0x162. -/
def State.psView (s : State) (p off : Nat) : Option Word :=
  let b := s.ps.budgets
  let r := s.ps.nv.recorder
  if p = 0x160 then
    (if off = Reg.pstate.psStatus then some s.psStatus
     else if off = Reg.pstate.maxBudget then some (BitVec.ofNat 32 (budgetWord (b.of b.highest)))
     else if off = Reg.pstate.maxBudgetBlock then some (BitVec.ofNat 32 b.highest)
     else if Reg.pstate.spareFree ≤ off ∧ off < Reg.pstate.freeSlots then
      some (BitVec.ofNat 32 (s.spareFree ((off - Reg.pstate.spareFree) / 4)))
     else if off = Reg.pstate.freeSlots then some (BitVec.ofNat 32 (512 - s.allocSlots))
     else if off = Reg.pstate.journalSeqLo then some (loWord s.ledger.journalSeq)
     else if off = Reg.pstate.journalSeqHi then some (hiWord s.ledger.journalSeq)
     else if Reg.pstate.blockBudget ≤ off ∧ off < 0xbc0 then
      some (BitVec.ofNat 32 (budgetWord (b.of ((off - Reg.pstate.blockBudget) / 4)))) else none)
  else if p = 0x162 then
    (if off = Reg.recorder.epochSeconds then some (BitVec.ofNat 32 (min r.seconds 3599))
     else if off = Reg.recorder.peatCount then some (BitVec.ofNat 32 (min r.epoch 4096))
     else if off = Reg.recorder.mossOldest then
      some (if r.epoch ≤ 4096 then 0xffffffff#32 else BitVec.ofNat 32 (max 4096 (r.epoch - 8192)))
     else if off = Reg.recorder.lifePos then some (BitVec.ofNat 32 (r.lifePos % 4096))
     else if off = Reg.recorder.runPos then some (BitVec.ofNat 32 (r.runPos % 4096)) else none)
  else none

/-- The capture of page 0x160 (R61, R395). -/
def State.capturePs (s : State) : State :=
  let a := s.allocSlots
  (((s.setReg 0x160 Reg.pstate.snapFreeSlots (BitVec.ofNat 32 (512 - a))).setReg 0x160 Reg.pstate.snapAllocSlots
    (BitVec.ofNat 32 a)).setReg64 0x160 Reg.pstate.snapIssuedLo s.ps.issued).setReg64 0x160 Reg.pstate.snapMarkedLo s.ps.marked

/-- Does a capture of page 0x160 find a book out of balance? -/
def State.psImbalance (s : State) : Bool :=
  decide (512 < s.allocSlots) || s.ps.issued != s.ps.marked + (if s.ps.inFlight.isSome then 1 else 0)

end Sys2Proof.Machine
end

