-- ==== Sys2Proof/Machine/Update.lean ====
section
/-!
DEFINITION. Chapter 13 in operation: bundles and their checks (R397 to R402), the husk (R403 to R406), CONFIRM and
FALLBACK (R409 to R411), settings generations and the check value (R414 to R417), commissioning (R418), the journal
kinds (R421).
-/
namespace Sys2Proof.Machine

/-! ## Bundles in image slots -/

/-- `n` bytes of MRAM as the engine reads them: a word that cannot be corrected reads 0 (R364). -/
def State.mramBytes (s : State) (off n : Nat) : List Byte :=
  let bs := memBytes s.mem.mram off n
  if eccBad s.mem.mramEcc 8 off n then
    bs.zipIdx.map fun q => if tblRead noEcc s.mem.mramEcc ((off + q.2) / 8) = 2 then 0#8 else q.1
  else bs
/-- Bytes of the bundle in an image slot, and a little-endian field of it. -/
def State.bundleBytes (s : State) (slot off n : Nat) : List Byte := s.mramBytes (mramImage slot + off) n
def State.bundleLe (s : State) (slot off n : Nat) : Nat := ofLeBytes (s.bundleBytes slot off n)

/-- A component entry (R398): TYPE, OFFSET, LENGTH. -/
structure Component where
  index : Nat
  type : Nat
  off : Nat
  len : Nat
  deriving DecidableEq, Repr

def State.components (s : State) (slot : Nat) : List Component :=
  (List.range 6).map fun i =>
    let b := 0x100 + 64 * i
    ⟨i, s.bundleLe slot b 1, s.bundleLe slot (b + 4) 4, s.bundleLe slot (b + 8) 4⟩

/-- Check 9 of R401. -/
def layoutOk (total : Nat) (l : List Component) : Bool :=
  ((List.range 6).all fun t => (l.filter fun c => c.type == t + 1).length == 1)
    && (l.all fun c => decide (4096 ≤ c.off) && c.off % 4096 == 0 && decide (64 ≤ c.len) && decide (c.off + c.len ≤ total))
    && l.all fun c => l.all fun d =>
      c.index == d.index || decide (c.off + c.len ≤ d.off) || decide (d.off + d.len ≤ c.off)

/-- Check 8 of R401. Which depot slots a fleet bundle may not name the spec does not say; the clause is left out (log
entry 44). -/
def State.revokeOk (s : State) (key revoke : Nat) : Bool :=
  if 2 ≤ key then revoke == 0
  else !(revoke.testBit key) && (s.ps.nv.otp.revoked.toNat ||| revoke) % 4 != 3

/-- The checks of R401 over the bundle in a slot, in order: the OP_ERROR of the first that fails. `received` is the
length received, where the bundle was received. -/
def State.verifyBundle (s : State) (slot : Nat) (received : Option Nat) : Option Word :=
  let f : Nat → Nat → Nat := s.bundleLe slot
  let o := s.ps.nv.otp
  let key := f 0x014 1
  let unit := f 0x018 8
  let total := f 0x024 4
  let pub := s.bundleBytes slot 0xe00 97
  if f 0 4 ≠ 0x42585048 ∨ f 4 2 ≠ 1 ∨ (received.isSome ∧ received ≠ some total) then some 0x110#32
  else if f 0x010 4 ≠ 0x3860 then some 0x111#32
  else if 4 ≤ key ∨ !(o.programmed.getLsbD key) ∨ o.revoked.getLsbD key ∨ Config.sha384 pub ≠ o.keyHashes.getD key [] then
    some 0x112#32
  else if !((unit == 0 && decide (key < 2)) || (unit != 0 && decide (2 ≤ key))) then some 0x113#32
  else if unit ≠ 0 ∧ unit ≠ o.unitId.toNat then some 0x114#32
  else if !(Config.ecdsaVerifies pub (s.bundleBytes slot 0xf00 48) (s.bundleBytes slot 0xf30 48)
      (Config.sha384 (s.bundleBytes slot 0 0xf00))) then some 0x115#32
  else if unit = 0 ∧ f 0x020 4 < o.counter then some 0x116#32
  else if !(s.revokeOk key (f 0x015 1)) then some 0x117#32
  else if !(layoutOk total (s.components slot)) then some 0x118#32
  else if !((s.components slot).all fun c =>
      Config.sha384 (s.bundleBytes slot c.off c.len) == s.bundleBytes slot (0x100 + 64 * c.index + 0x10) 48) then some 0x119#32
  else none

def State.passesR401 (s : State) (slot : Nat) : Bool := (s.verifyBundle slot none).isNone

/-- The encoding of the split mode in MODES (CLUSTER_STATUS MODE). -/
def modeBit : SplitMode → Nat
  | .triplex => 0 | .duplexPlusOne => 1 | .simplexThree => 2

/-- A settings generation's record. -/
def State.gen (s : State) (g : Nat) : Option GenRec := if g = 0 then s.ps.nv.gen0 else s.ps.nv.gen1
/-- WORK_GEN and its record. -/
def State.workGen (s : State) : Option GenRec := s.gen s.ps.nv.boot.workGen

/-- The findings of R402: STEPPING, MODE, SCHEMA (against a generation), ORIGIN. -/
def State.steppingFinding (s : State) (slot : Nat) : Bool :=
  let n := Config.stepping.toNat
  ((s.bundleBytes slot 0x028 32).getD (n / 8) 0#8).getLsbD (n % 8)
def State.modeFinding (s : State) (slot : Nat) : Bool := (s.bundleLe slot 0x048 1).testBit (modeBit s.clu.mode)
def State.schemaFinding (s : State) (slot : Nat) (g : Option GenRec) : Bool :=
  match g with
  | some r => decide (s.bundleLe slot 0x050 4 ≤ r.schema.toNat ∧ r.schema.toNat ≤ s.bundleLe slot 0x054 4)
  | none => false
def State.originFinding (s : State) (slot : Nat) : Bool :=
  (s.components slot).all fun c => s.bundleLe slot (c.off + 8) 8 == s.bundleLe slot 0x008 8

/-! ## Boot control records and journal kinds (R403, R404, R421) -/

/-- The body of a boot control record. -/
def bootBody (b : BootRec) : List Byte :=
  let opt : Option Nat → Nat := fun o => o.getD 0xff
  padTo 0x3f0
    (leBytes 2 1 ++ leBytes 2 0x400 ++ leBytes 1 b.active ++ leBytes 1 (opt b.previous) ++ leBytes 1 b.husk
      ++ leBytes 1 b.huskState ++ leBytes 8 b.activeId.toNat ++ leBytes 8 b.previousId.toNat ++ leBytes 8 b.huskId.toNat
      ++ leBytes 4 b.huskLen ++ leBytes 1 b.trialLeft ++ leBytes 1 b.workGen ++ leBytes 1 (opt b.prevGen)
      ++ leBytes 1 b.lastFallback)

/-- A new boot control record committed, in the next of 32 positions. -/
def State.commitBoot (s : State) (b : BootRec) : State :=
  let k := s.ps.nv.bootPos
  (s.setNv { s.ps.nv with bootPos := k + 1 }).commitNow
    { cls := 4, place := .offset (mramBoot k), body := bootBody b, effect := .boot b }

/-- Journal kinds with an identifier at bytes 8 to 15. -/
def journalBody (kind b1 b2 b3 w id : Nat) : List Byte :=
  leBytes 1 kind ++ leBytes 1 b1 ++ leBytes 1 b2 ++ leBytes 1 b3 ++ leBytes 4 w ++ leBytes 8 id

/-- A boot control record that changes HUSK_STATE, and its journal entry of kind 0x01. -/
def State.huskTo (s : State) (b : BootRec) : State :=
  let old := s.ps.nv.boot.huskState
  (s.commitBoot b).journal (journalBody 1 b.huskState old 0 0 b.huskId.toNat) none

/-! ## The operations of page 0x170 (R405, R406, R409, R410) -/

/-- Does the operation of an opcode run now? Nothing new begins under a power-fail warning (R386). -/
def State.updateRuns (s : State) (op : Nat) : Bool := s.opActive 0x170 op && !s.ps.stopped
/-- HUSK_STATE. -/
def State.huskState (s : State) : Nat := s.ps.nv.boot.huskState
/-- An operation that counts 1 and ends DONE. -/
def State.updateDone (s : State) : State := (s.setOp 0x170 ((s.op 0x170).advance 1 0)).opDone 0x170

/-- BEGIN. -/
def State.doBegin (s : State) : State :=
  if !(s.updateRuns 1) then s
  else
    let n := (s.op 0x170).arg0.toNat
    let h := s.huskState
    if h ≠ 0 ∧ h ≠ 2 ∧ h ≠ 4 ∧ h ≠ 8 then s.opFail 0x170 0x100#32
    else if n < 4096 ∨ 50331648 < n then s.opFail 0x170 2#32
    else
      let s1 := s.huskTo { s.ps.nv.boot with huskState := 1, huskLen := n, huskId := 0#64 }
      (s1.setPs { s1.ps with huskReceived := 0 }).updateDone

def execBeginHusk (s : State) : Result := .next s.doBegin

/-- The husk's bytes written from an offset on; all received makes it RECEIVED. -/
def State.huskTake (s : State) (at_ : Nat) (bs : List Byte) : State :=
  let s1 := ((s.mramWrite 4 (mramImage s.ps.nv.boot.husk + at_) bs).bw 85 bs.length).bump 0x170 0 ((bs.length + 63) / 64)
  let s2 := s1.setPs { s1.ps with huskReceived := at_ + bs.length }
  let s3 := s2.setOp 0x170 ((s2.op 0x170).advance bs.length 0)
  (if at_ + bs.length = s3.ps.nv.boot.huskLen then s3.huskTo { s3.ps.nv.boot with huskState := 2 } else s3).opDone 0x170

/-- WRITE (R406). -/
def State.doHuskWrite (s : State) : State :=
  if !(s.updateRuns 2) then s
  else
    let o := s.op 0x170
    let src := o.arg0.toNat
    let dst := o.arg1.toNat
    let n := o.arg2.toNat
    let len := s.ps.nv.boot.huskLen
    let bad := dst ≠ s.ps.huskReceived ∨ src % 64 ≠ 0 ∨ dst % 64 ≠ 0 ∨ (n % 64 ≠ 0 ∧ dst + n ≠ len) ∨ len < dst + n
    if s.huskState ≠ 1 then s.opFail 0x170 0x100#32
    else if bad then s.opFail 0x170 0x102#32
    else if 0x2000000 < src + n ∨ eccBad s.mem.sramEcc 16 src n then (s.opFail 0x170 0x102#32).raise 0x170 3 []
    else s.huskTake dst (memBytes s.mem.sram src n)

def execHuskWrite (s : State) : Result := .next s.doHuskWrite

/-- ABANDON. -/
def State.doAbandon (s : State) : State :=
  if !(s.updateRuns 3) then s
  else
    let h := s.huskState
    if h ≠ 1 ∧ h ≠ 2 ∧ h ≠ 4 then s.opFail 0x170 0x100#32
    else (s.huskTo { s.ps.nv.boot with huskState := 0, huskId := 0#64 }).updateDone

def execAbandon (s : State) : Result := .next s.doAbandon

/-- VERIFY begins: HUSK_ID is taken from the manifest; the operation runs on until VERIFY_DONE. -/
def State.startVerify (s : State) : State :=
  let id := BitVec.ofNat 64 (s.bundleLe s.ps.nv.boot.husk 0x008 8)
  s.huskTo { s.ps.nv.boot with huskState := 3, huskId := id }
def State.doVerify (s : State) : State :=
  if !(s.updateRuns 4) ∨ s.huskState = 3 then s
  else if s.huskState ≠ 2 then s.opFail 0x170 0x100#32
  else
    let s1 := s.startVerify
    s1.setOp 0x170 { s1.op 0x170 with phase := .running }

def execVerify (s : State) : Result := .next s.doVerify

/-- The checks of R401 have ended with the OP_ERROR of the first that failed, or with none (R402, R405). -/
def State.verified (s : State) (r : Option Word) : State :=
  let b := s.ps.nv.boot
  let s0 := (s.setOp 0x170 ((s.op 0x170).advance b.huskLen 0)).bump 0x170 1 1
  match r with
  | some e => ((s0.huskTo { b with huskState := 0, huskId := 0#64 }).raise 0x170 0 []).opFail 0x170 e
  | none =>
    let compat := s.modeFinding b.husk && s.schemaFinding b.husk s.workGen && s.originFinding b.husk
    let s1 := s0.huskTo { b with huskState := 4 }
    (s1.setPs { s1.ps with steppingOk := s.steppingFinding b.husk, compatOk := compat }).opDone 0x170

/-- VERIFY_DONE (R401, R402, R405). -/
def State.doVerifyDone (s : State) : State :=
  if !(s.updateRuns 4) ∨ s.huskState ≠ 3 then s
  else s.verified (s.verifyBundle s.ps.nv.boot.husk (some s.ps.nv.boot.huskLen))

def execVerifyDone (s : State) : Result := .next s.doVerifyDone

/-- PSET_CONFIRMED: PCV_OK of WORK_GEN. -/
def State.psetConfirmed (s : State) : Bool := match s.workGen with | some r => r.pcvOk | none => false

/-- ARM. -/
def State.doArm (s : State) : State :=
  if !(s.updateRuns 5) then s
  else if s.huskState ≠ 4 then s.opFail 0x170 0x100#32
  else if !(s.ps.steppingOk && s.ps.compatOk && s.psetConfirmed) then s.opFail 0x170 0x121#32
  else (s.huskTo { s.ps.nv.boot with huskState := 5 }).updateDone

def execArm (s : State) : Result := .next s.doArm

/-- DISARM. -/
def State.doDisarm (s : State) : State :=
  if !(s.updateRuns 6) then s
  else if s.huskState ≠ 5 then s.opFail 0x170 0x100#32
  else (s.huskTo { s.ps.nv.boot with huskState := 4 }).updateDone

def execDisarm (s : State) : Result := .next s.doDisarm

/-- OTP made to agree with a confirmed fleet bundle in the ACTIVE slot (R411). -/
def State.agreeOtp (s : State) : State :=
  let slot := s.ps.nv.boot.active
  let o := s.ps.nv.otp
  let o1 : Otp :=
    { o with
      counter := max o.counter (min 64 (s.bundleLe slot 0x020 4)),
      revoked := o.revoked ||| BitVec.ofNat 4 (s.bundleLe slot 0x015 1) }
  if s.bundleLe slot 0x018 8 ≠ 0 ∨ o1 = o then s
  else (s.setNv { s.ps.nv with otp := o1 }).journal (journalBody 6 o1.counter o1.revoked.toNat 0 0 0) none

/-- Does WORK_GEN belong to the ACTIVE bundle (R409)? -/
def State.genIsActive (s : State) : Bool :=
  match s.workGen with
  | some r => r.writer == s.ps.nv.boot.activeId && r.schema.toNat == s.bundleLe s.ps.nv.boot.active 0x04c 4
  | none => false

/-- CONFIRM (R409, R411). -/
def State.doConfirm (s : State) : State :=
  if !(s.updateRuns 7) then s
  else if s.huskState ≠ 7 then s.opFail 0x170 0x100#32
  else if s.sup.startMode ≠ 0 ∨ s.ps.commissioning then s.opFail 0x170 0x101#32
  else if !s.genIsActive then s.opFail 0x170 0x120#32
  else (s.huskTo { s.ps.nv.boot with huskState := 8, trialLeft := 0, prevGen := none }).agreeOtp.updateDone

def execConfirm (s : State) : Result := .next s.doConfirm

/-- A fallback's record and journal entry (R410). -/
def State.fallBack (s : State) (reason : Nat) : State :=
  let b := s.ps.nv.boot
  let b1 : BootRec :=
    { b with
      active := b.previous.getD b.active, activeId := b.previousId, previous := none, previousId := 0#64, huskState := 0,
      workGen := b.prevGen.getD b.workGen, prevGen := none, lastFallback := reason }
  ((((s.huskTo b1).journal (journalBody 7 reason 0 0 0 b.activeId.toNat) none).bump 0x170 2 1)).raise 0x170 2 []

/-- FALLBACK. -/
def State.doFallback (s : State) : State :=
  if !(s.updateRuns 8) then s
  else if s.huskState ≠ 7 then s.opFail 0x170 0x100#32
  else (s.fallBack 2).updateDone

def execFallback (s : State) : Result := .next s.doFallback

/-! ## Settings generations (R414 to R417) -/

/-- A register entry (R415): PAGE, OFFSET, VALUE. -/
structure RegEntry where
  page : Nat
  off : Nat
  value : Word
  deriving DecidableEq, Repr

/-- The entries that bytes spell, at most `n`. -/
def regEntries : Nat → List Byte → List RegEntry
  | 0, _ => []
  | n + 1, l =>
    if l.length < 8 then []
    else ⟨ofLeBytes (l.take 2), ofLeBytes ((l.drop 2).take 2), BitVec.ofNat 32 (ofLeBytes ((l.drop 4).take 4))⟩
      :: regEntries n (l.drop 8)

/-- Is an entry well-formed (R415)? -/
def RegEntry.ok (e : RegEntry) : Bool :=
  if e.off = 0x008 then decide (e.value.toNat ≤ 1) else decide (0x100 ≤ e.off ∧ e.off ≤ 0xffc) && e.off % 4 == 0
/-- May the participants write its page (R19, R32)? -/
def State.entryAllowed (s : State) (e : RegEntry) : Bool :=
  decide (e.page < 0x800) && (pageUnit e.page).isSome && s.mayWritePage .cluster e.page e.off

/-- The check value of a parameter set (R417). -/
def checkValue (entries appLen : Nat) (setBytes app : List Byte) : Word :=
  crc32 (leBytes 4 entries ++ setBytes ++ leBytes 4 appLen ++ app)

/-- PSET_ENTRIES, PSET_APP_LEN, the entries' bytes and the application block of an image of R414. -/
def psetOf (img : List Byte) : Nat × Nat × List Byte × List Byte :=
  let n := ofLeBytes ((img.drop 0x1c).take 4)
  let a := ofLeBytes ((img.drop 0x20).take 4)
  (n, a, (img.drop 0x40).take (8 * n), ((img.drop 0x40).drop (8 * n)).take a)

/-- PCV of an image. -/
def imagePcv (img : List Byte) : Word := let p := psetOf img; checkValue p.1 p.2.1 p.2.2.1 p.2.2.2

/-- One above the higher GEN_SEQ of the two generations. -/
def State.nextGenSeq (s : State) : DWord :=
  let q : Option GenRec → DWord := fun o => match o with | some r => r.seq | none => 0#64
  let a := q s.ps.nv.gen0
  let b := q s.ps.nv.gen1
  (if a < b then b else a) + 1

/-- The target generation of R416. -/
def State.genTarget (s : State) : Nat := if s.huskState = 7 then s.ps.nv.boot.workGen else 1 - s.ps.nv.boot.workGen

/-- A generation written (R416): the image with its module-set fields; outside TRIAL a boot control record then names it
WORK_GEN. -/
def State.putGen (s : State) (img : List Byte) (r : GenRec) : State :=
  let g := s.genTarget
  let head := padTo 64
    (leBytes 2 1 ++ zeros 2 ++ leBytes 4 r.len ++ leBytes 8 r.seq.toNat ++ leBytes 8 r.writer.toNat ++ leBytes 4 r.schema.toNat
      ++ (img.drop 0x1c).take 8 ++ leBytes 4 r.pcv.toNat ++ leBytes 4 r.pcvConfirmed.toNat ++ leBytes 1 r.pcvOk.toNat)
  let s1 := s.commitNow
    { cls := 4, place := .offset (mramGen g), body := padTo (r.len - 16) (head ++ img.drop 64), effect := .gen g r }
  if s.huskState = 7 then s1 else s1.commitBoot { s1.ps.nv.boot with workGen := g }

/-- The OP_ERROR of an image for WRITE_GEN, 0 where it is well-formed. -/
def State.genError (s : State) (img : List Byte) (len : Nat) : Nat :=
  let gl := ofLeBytes ((img.drop 4).take 4)
  let p := psetOf img
  if len ≠ gl ∨ len % 64 ≠ 0 ∨ len < 128 ∨ 8388608 < len ∨ ofLeBytes (img.take 2) ≠ 1 then 0x100
  else if len < 0x40 + 8 * p.1 + (p.2.1 + 7) / 8 * 8 + 64 then 0x101
  else if !((regEntries p.1 p.2.2.1).all fun e => e.ok && s.entryAllowed e) then 0x102
  else 0

/-- The record of a generation that WRITE_GEN writes from an image of `len` bytes with check value `pcv` (R414, R416). -/
def State.newGen (s : State) (len : Nat) (pcv : Word) : GenRec :=
  let ok := s.ps.appliedConfirmed == some pcv
  ⟨s.nextGenSeq, s.ps.nv.boot.activeId, BitVec.ofNat 32 (s.bundleLe s.ps.nv.boot.active 0x04c 4), len, pcv,
    if ok then pcv else 0#32, ok⟩

/-- A well-formed image taken by WRITE_GEN: the generation, its journal entry of kind 0x04, the operation DONE. -/
def State.takeGen (s : State) (img : List Byte) (r : GenRec) : State :=
  let s1 := (s.bw 85 r.len).putGen img r
  let s2 := s1.journal (journalBody 4 s.genTarget 0 0 r.pcv.toNat r.seq.toNat) none
  (s2.setOp 0x171 ((s2.op 0x171).advance 1 0)).opDone 0x171

/-- WRITE_GEN (R416). -/
def State.doWriteGen (s : State) : State :=
  if !(s.opActive 0x171 1) ∨ s.ps.stopped then s
  else
    let o := s.op 0x171
    let src := o.arg0.toNat
    let len := o.arg1.toNat
    if src % 64 ≠ 0 then s.opFail 0x171 2#32
    else if 0x2000000 < src + len ∨ eccBad s.mem.sramEcc 16 src len then (s.opFail 0x171 0x103#32).raise 0x171 0 []
    else
      let img := memBytes s.mem.sram src len
      let e := s.genError img len
      if e ≠ 0 then s.opFail 0x171 (BitVec.ofNat 32 e) else s.takeGen img (s.newGen len (imagePcv img))

def execWriteGen (s : State) : Result := .next s.doWriteGen

/-! ## Commissioning (R418) -/

/-- A confirmed parameter set: the working generation copied with its confirmation; COMMISSIONING ends. -/
def State.confirmPset (s : State) (r : GenRec) (v : Word) : State :=
  let img := s.mramBytes (mramGen s.ps.nv.boot.workGen) r.len
  let r1 : GenRec := { r with seq := s.nextGenSeq, pcvConfirmed := v, pcvOk := true }
  let s1 := (s.putGen img r1).journal (journalBody 5 0 0 0 v.toNat r1.seq.toNat) none
  let s2 := s1.setPs { s1.ps with commissioning := false, appliedConfirmed := some v }
  ((s2.setSup { s2.sup with startMode := 0 }).setReg 0x001 Reg.ident.startStatus
    (setField (s2.reg 0x001 Reg.ident.startStatus) 1 0 0)).review

/-- A PCV_CONFIRM write judged. -/
def State.judgePcv (s : State) (v : Word) : State :=
  let computed := s.reg 0x172 Reg.commissioning.pcvComputed
  if !s.ps.commissioning then s
  else match s.workGen with
    | none => s.setPs { s.ps with stale := true }
    | some r =>
      if r.pcv ≠ computed then s.setPs { s.ps with stale := true }
      else if v ≠ computed then
        ((s.satReg 0x172 Reg.commissioning.pcvMismatches 1).bump 0x172 1 1).raise 0x172 0 []
      else s.confirmPset r v

/-- Is a WRITE_GEN QUEUED or RUNNING? -/
def State.genBusy (s : State) : Bool := (s.op 0x171).phase == .queued || (s.op 0x171).phase == .running

/-- A write of PCV_CONFIRM: while a WRITE_GEN runs it is held. -/
def State.doPcvConfirm (s : State) (v : Word) : State :=
  let s1 := s.bump 0x172 0 1
  if !s1.ps.commissioning then s1
  else if s1.genBusy then s1.setPs { s1.ps with confirmHeld := some v }
  else s1.judgePcv v

def execPcvConfirm (m : Master) (v : Word) (s : State) : Result :=
  .next (s.written m 0x172 Reg.commissioning.pcvConfirm fun t => t.doPcvConfirm v)

/-- PCV_CONFIRM_DEFERRED: the WRITE_GEN has ended. -/
def State.doPcvDeferred (s : State) : State :=
  match s.ps.confirmHeld with
  | some v => if s.genBusy then s else (s.setPs { s.ps with confirmHeld := none }).judgePcv v
  | none => s

def execPcvConfirmDeferred (s : State) : Result := .next s.doPcvDeferred

/-! ## Registers computed from this state -/

/-- The computed registers of pages 0x001 and 0x170 to 0x172. -/
def State.updView (s : State) (p off : Nat) : Option Word :=
  let b := s.ps.nv.boot
  let o := s.ps.nv.otp
  let g : GenRec := s.workGen.getD ⟨0#64, 0#64, 0#32, 0, 0#32, 0#32, false⟩
  if p = 0x001 then
    (if off = Reg.ident.hwType then some 0x3860#32
     else if off = Reg.ident.unitIdLo then some (loWord o.unitId)
     else if off = Reg.ident.unitIdHi then some (hiWord o.unitId)
     else if off = Reg.ident.secCounter then some (BitVec.ofNat 32 o.counter)
     else if off = Reg.ident.keyStatus then some (at' o.programmed.toNat 0 ||| at' o.revoked.toNat 8) else none)
  else if p = 0x170 then
    (if off = Reg.update.huskStatus then
      some (at' b.huskState 0 ||| at' b.husk 4 ||| at' b.active 6 ||| at' (b.previous.getD 3) 8 ||| at' b.trialLeft 12
        ||| flag s.ps.steppingOk 16 ||| flag s.ps.compatOk 17 ||| flag s.ps.verifyRestarted 18 ||| flag s.ps.activateFailed 19)
     else if off = Reg.update.huskLen then some (BitVec.ofNat 32 b.huskLen)
     else if off = Reg.update.huskReceived then some (BitVec.ofNat 32 s.ps.huskReceived)
     else if off = Reg.update.huskIdLo then some (loWord b.huskId)
     else if off = Reg.update.huskIdHi then some (hiWord b.huskId)
     else if off = Reg.update.prevIdLo then some (loWord b.previousId)
     else if off = Reg.update.prevIdHi then some (hiWord b.previousId)
     else if off = Reg.update.lastFallback then some (BitVec.ofNat 32 b.lastFallback) else none)
  else if p = 0x171 then
    (if off = Reg.settings.genStatus then
      some (at' b.workGen 0 ||| flag b.prevGen.isSome 1 ||| at' (b.prevGen.getD 0) 2 ||| flag s.ps.nv.gen0.isSome 4
        ||| flag s.ps.nv.gen1.isSome 5)
     else if off = Reg.settings.workSeqLo then some (loWord g.seq)
     else if off = Reg.settings.workSeqHi then some (hiWord g.seq)
     else if off = Reg.settings.workSchema then some g.schema
     else if off = Reg.settings.workWriterLo then some (loWord g.writer)
     else if off = Reg.settings.workWriterHi then some (hiWord g.writer) else none)
  else if p = 0x172 then
    (if off = Reg.commissioning.commStatus then
      some (flag s.ps.commissioning 0 ||| flag s.ps.confirmHeld.isSome 1 ||| flag s.psetConfirmed 2 ||| flag s.ps.stale 3)
     else if off = Reg.commissioning.pcvStored then some g.pcvConfirmed else none)
  else none

end Sys2Proof.Machine
end

