-- ==== Sys2Proof/Machine/Meas.lean ====
section
/-!
DEFINITION. Chapter 10: the decimation chain of a channel (R305 to R313), FIR banks and swaps (R314 to R319), the resampler
(R320, R321), SYNC (R322), the detectors (R324 to R329), the tracker (R330 to R333), the interpolating outputs (R334,
R335), starting and stopping (R336).
-/
namespace Sys2Proof.Machine

def State.setMeas (s : State) (v : MeasState) : State := { s with meas := v }

/-! ## Channels -/

def bank0 : Bank := ⟨0, 0, 0, 0, 0, [], false, false, 0#32⟩
/-- A channel after module reset. -/
def chReset (_ : Nat) : ChState :=
  { bank0 := bank0, bank1 := bank0, active := false, swapFail := 0, armed := false, swapPending := false, integ := [],
    comb := [], cic := [], half := [], fir := [], outs := [], rsTaken := false, unsettled := 0, lastUnsettled := false,
    stuck := false, rateLimited := false, lastOut := 0, lastLt := 0, winCfg := 0#32, winN := 0, winMin := 0, winMax := 0,
    winSq := 0, winCycle := 0, cycle := 0, brmsBuf := [], above := false, runFrom := none, trip := false,
    streamStopped := false }
def State.ch (s : State) (c : Nat) : ChState := tblRead chReset s.meas.chs c
def State.setCh (s : State) (c : Nat) (v : ChState) : State :=
  s.setMeas { s.meas with chs := tblWrite chReset s.meas.chs c v }
def chPage (c : Nat) : Nat := 0x108 + c
def grpPage (c : Nat) : Nat := 0x101 + c / 8
def State.chOn (s : State) (c : Nat) : Bool := s.working (chPage c)
/-- CH_CONFIG. -/
def State.chCfg (s : State) (c : Nat) : Word := s.reg (chPage c) Reg.ch.chConfig
def ChState.act (c : ChState) : Bank := if c.active then c.bank1 else c.bank0
def ChState.inact (c : ChState) : Bank := if c.active then c.bank0 else c.bank1
def ChState.setInact (c : ChState) (b : Bank) : ChState := if c.active then { c with bank0 := b } else { c with bank1 := b }

/-- K, D1, HB, D_tot and CLK_DIV of a channel. -/
def State.orderK (s : State) (c : Nat) : Nat := fieldOf (s.chCfg c) 2 0
def State.decim (s : State) (c : Nat) : Nat := 2 ^ fieldOf (s.chCfg c) 6 4
def State.halfBands (s : State) (c : Nat) : Nat := fieldOf (s.chCfg c) 9 8
def State.decimTotal (s : State) (c : Nat) : Nat := s.decim c * 2 ^ s.halfBands c
def State.clkDiv (s : State) (c : Nat) : Nat := s.field (grpPage c) Reg.chGroup.grpClk 10 0
def State.rsMode (s : State) (c : Nat) : Nat := fieldOf (s.chCfg c) 13 12
def State.firEn (s : State) (c : Nat) : Bool := bitOf (s.chCfg c) 10
def State.scs (s : State) (c : Nat) : Bool := bitOf (s.chCfg c) 11

/-- Twice T_dec in modulator clocks (R312). -/
def twiceTdec (k d1 hb : Nat) : Nat := k * (d1 - 1) + (if 1 ≤ hb then 46 * d1 else 0) + (if 2 ≤ hb then 92 * d1 else 0)
/-- Twice delay_mc without the resampler's term (R313). -/
def State.twiceDelay (s : State) (c : Nat) : Nat :=
  twiceTdec (s.orderK c) (s.decim c) (s.halfBands c)
    + (if s.firEn c then ((s.ch c).act.taps - 1) * s.decimTotal c else 0)
/-- GROUP_DELAY in ns (R313). -/
def State.groupDelay (s : State) (c : Nat) : Nat :=
  let rs := s.rsMode c != 0
  let d2 := s.twiceDelay c + (if rs then 15 * s.decimTotal c else 0)
  (5 * d2 * s.clkDiv c + 2) / 4 + 20 + (if rs then 30 else 0)
/-- The number of FIR outputs to flag UNSETTLED after a restart (R322). -/
def State.unsettledCount (s : State) (c : Nat) : Nat := (s.twiceDelay c + s.decimTotal c - 1) / s.decimTotal c

/-- A rate as an exact quotient, or as a free value where the division leaves a remainder. -/
def rate (num den : Nat) : Nat := if den = 0 then 0 else if num % den = 0 then num / den else Config.rateRound num den
/-- OUT_RATE in mS/s. -/
def State.outRate (s : State) (c : Nat) : Nat :=
  let mode := s.rsMode c
  if mode = 0 then rate 400000000000 (s.clkDiv c * (if s.scs c then s.orderK c * s.decim c else s.decimTotal c))
  else if mode = 1 then (s.reg 0x141 Reg.time.mpFreq).toNat * 2 ^ fieldOf (s.chCfg c) 19 16
  else if mode = 2 then 0
  else s.field (chPage c) Reg.ch.rsRate 15 0 * 1000

/-! ## Samples -/

/-- A quotient rounded to the nearest value, ties away from zero (R310). -/
def roundDiv (a : Int) (d : Nat) : Int :=
  let n := (2 * a.natAbs + d) / (2 * d)
  if a < 0 then -(n : Int) else (n : Int)
/-- A 24-bit sample, and whether it was limited (R310). -/
def sat24 (v : Int) : Int × Bool :=
  if v < -8388608 then (-8388608, true) else if 8388607 < v then (8388607, true) else (v, false)
/-- The signed value of a 24-bit coefficient or sample in a word. -/
def signed24 (w : Word) : Int := signedOf 24 (w.toNat % 2 ^ 24)
/-- The square root rounded down of a number below 2^(2·bits). -/
def isqrtFrom : Nat → Nat → Nat → Nat
  | 0, _, r => r
  | b + 1, n, r => isqrtFrom b n (if (r + 2 ^ b) * (r + 2 ^ b) ≤ n then r + 2 ^ b else r)
def isqrt (n : Nat) : Nat := isqrtFrom 26 n 0

/-- One modulator bit into the integrators (R307). -/
def cicBit (integ : List Int) (x : Int) : List Int :=
  (integ.foldl (fun (a : List Int × Int) i => (a.1 ++ [i + a.2], i + a.2)) ([], x)).1
/-- One output of the combs: their new state and the value. -/
def cicComb (comb : List Int) (y : Int) : List Int × Int :=
  comb.foldl (fun (a : List Int × Int) z => (a.1 ++ [a.2], a.2 - z)) ([], y)
/-- D1 bits through the CIC: the new states and the output in units of its gain. -/
def cicRun (k : Nat) (integ comb : List Int) (bits : List Bool) : List Int × List Int × Int :=
  let i0 := if integ.isEmpty then List.replicate k 0 else integ
  let c0 := if comb.isEmpty then List.replicate k 0 else comb
  let i1 := bits.foldl (fun l b => cicBit l (if b then 1 else -1)) i0
  let c1 := cicComb c0 (i1.getLastD 0)
  (i1, c1.1, c1.2)

/-- What a chain run has found: the channel, the newest value, how many values were limited. -/
structure ChainRun where
  ch : ChState
  value : Int
  sats : Nat

/-- One CIC output, as a 24-bit sample (R307, R310). -/
def ChainRun.cicOut (r : ChainRun) (k d1 : Nat) (bits : List Bool) : ChainRun :=
  let x := cicRun k r.ch.integ r.ch.comb bits
  let v := sat24 (roundDiv (x.2.2 * 2 ^ 23) (d1 ^ k))
  ⟨{ r.ch with integ := x.1, comb := x.2.1, cic := (v.1 :: r.ch.cic).take 47 }, v.1, r.sats + v.2.toNat⟩

/-- The half-band stages after two CIC outputs, and again after two of the first stage's. -/
def ChainRun.halfOut (r : ChainRun) (second : Bool) : ChainRun :=
  let v := sat24 (Config.halfBand (if second then r.ch.half else r.ch.cic))
  ⟨if second then r.ch else { r.ch with half := (v.1 :: r.ch.half).take 47 }, v.1, r.sats + v.2.toNat⟩

/-- The bits of one FIR input through CIC and half-band stages (R306). -/
def ChainRun.decimate (r : ChainRun) (k d1 : Nat) : Nat → List Bool → ChainRun
  | 0, bits => r.cicOut k d1 bits
  | hb + 1, bits =>
    let n := bits.length / 2
    let r1 := (r.decimate k d1 hb (bits.take n)).decimate k d1 hb (bits.drop n)
    r1.halfOut (hb == 1)

/-- An SCS conversion: cleared, then K · D1 bits; the output is the CIC response at the last one (R311). -/
def ChainRun.convert (r : ChainRun) (k d1 : Nat) (bits : List Bool) : ChainRun :=
  let step : List Int × List Int × Int → Nat → List Int × List Int × Int := fun a i =>
    cicRun k a.1 a.2.1 ((bits.drop (i * d1)).take d1)
  let x := (List.range k).foldl step ([], [], 0)
  let v := sat24 (roundDiv (x.2.2 * 2 ^ 23) (d1 ^ k))
  ⟨{ r.ch with integ := x.1, comb := x.2.1 }, v.1, r.sats + v.2.toNat⟩

/-- The FIR's sum (R309): c / 2^22 per coefficient. -/
def firSum (coefs : List Word) (xs : List Int) : Int :=
  (coefs.zip xs).foldl (fun a q => a + signed24 q.1 * q.2) 0

/-! ## Trip lines (R327) -/

/-- Does channel `c` drive line `n`? -/
def State.drivesLine (s : State) (c n : Nat) : Bool :=
  let w := s.reg (chPage c) Reg.ch.brmsCfg
  (s.ch c).trip && bitOf w 1 && fieldOf w 6 4 == n
/-- MEAS_TRIP lines as the channels drive them. -/
def State.tripLinesNow (s : State) : BitVec 8 :=
  (List.range 8).foldl (fun l n =>
    if (List.range 32).any fun c => s.drivesLine c n then l ||| (1#8 <<< n) else l) 0#8
def State.settleLines (s : State) : State := s.setSup { s.sup with tripLines := s.tripLinesNow }

/-- MEAS_TRIP_LINE (R429): the supervisor takes an asserted line. -/
def State.doMeasTripLine (s : State) (n : Nat) : State :=
  if s.sup.tripLines.getLsbD n then s.react (s.tripReaction n) 14 (s.classOrigin 14) else s
def execMeasTripLine (line : Fin 8) (s : State) : Result := .next (s.doMeasTripLine line.val)

/-! ## Detectors (R324 to R326, R329) -/

/-- BRMS_MAX of a channel and bank in the recorder (R390). -/
def State.recBand (s : State) (c v : Nat) : State :=
  let b := 0x8c0 + 32 * c + 16 * (s.ch c).active.toNat
  if s.recField (b + 4) < v then
    ((s.recSet b (s.ch c).act.crc.toNat).recSet (b + 4) v).recSet (b + 8) s.ntStamp
  else s

/-- A trip declared (R326): its report carries the reaction of its line (R327). -/
def State.declareTrip (s : State) (c : Nat) : State :=
  let w := s.reg (chPage c) Reg.ch.brmsCfg
  let s1 := ((s.setCh c { s.ch c with trip := true }).satReg (chPage c) Reg.ch.trips 1).bump (chPage c) 6 1
  ((s1.latch (chPage c) 0).post .data (chPage c) 14 (if bitOf w 1 then s.tripReaction (fieldOf w 6 4) else 0) []).settleLines

/-- The band-RMS detector takes a FIR output (R326); the value's rounding is not stated (a free value between the
neighbours). -/
def State.bandRms (s : State) (c : Nat) (x t : Int) : State :=
  if !(bitOf (s.reg (chPage c) Reg.ch.brmsCfg) 0) then s
  else
    let h := s.ch c
    let b := h.act
    let buf := (x :: h.brmsBuf).take b.win
    let sum := buf.foldl (fun a y => a + y.natAbs * y.natAbs) 0
    let f := isqrt (sum / b.win)
    let d := if f * f * b.win = sum then ((f : Int), s) else s.drawIn f (f + 1)
    let v := min d.1.toNat 0x7fffff
    let above := decide (b.threshold ≤ v)
    let from_ := if above then (if h.above then h.runFrom else some t) else none
    let due := match from_ with
      | some t0 => above && !h.trip && decide (((b.tripTime * 250 : Nat) : Int) ≤ t - t0)
      | none => false
    let s1 := d.2.setCh c
      { h with
        brmsBuf := buf, above := above, runFrom := from_, trip := h.trip && !(decide (v < b.release)) }
    let s2 := ((s1.setReg (chPage c) Reg.ch.brms (BitVec.ofNat 32 v)).recBand c v).settleLines
    if due then s2.declareTrip c else s2

/-- The envelope takes a chain output (R325). -/
def State.envelope (s : State) (c : Nat) (x : Int) : State :=
  let cfg := s.reg (chPage c) Reg.ch.envCfg
  let e := (s.reg (chPage c) Reg.ch.env).toNat
  let a := x.natAbs
  let e1 := if e < a then e + (a - e) / 2 ^ fieldOf cfg 4 0 else e - (e - a) / 2 ^ fieldOf cfg 12 8
  s.setReg (chPage c) Reg.ch.env (BitVec.ofNat 32 e1)

/-- The peak and RMS window opens, with the setting of now, in an MP cycle. -/
def ChState.openWindow (h : ChState) (cfg : Word) (cycle : Nat) : ChState :=
  { h with winCfg := cfg, winN := 0, winMin := 0, winMax := 0, winSq := 0, winCycle := cycle }
/-- A chain output in the window. -/
def ChState.windowTake (h : ChState) (x : Int) : ChState :=
  { h with
    winN := h.winN + 1, winMin := if h.winN = 0 ∨ x < h.winMin then x else h.winMin,
    winMax := if h.winN = 0 ∨ h.winMax < x then x else h.winMax, winSq := h.winSq + x.natAbs * x.natAbs }

/-- The window closes (R324). -/
def State.closeWindow (s : State) (c cycle : Nat) : State :=
  let h := s.ch c
  let p := chPage c
  let s1 := ((s.setReg p Reg.ch.peakMin (wordOfInt h.winMin)).setReg p Reg.ch.peakMax (wordOfInt h.winMax)).setReg p Reg.ch.rms
    (BitVec.ofNat 32 (isqrt (h.winSq / h.winN)))
  ((s1.setCh c (h.openWindow (s.reg p Reg.ch.winCfg) cycle)).incReg p Reg.ch.winCount 1).bump p 5 1

/-- The window takes a chain output whose instant lies in MP cycle `cycle`: in mode 1 the first sample at or after the
boundary opens the next window. -/
def State.window (s : State) (c : Nat) (x : Int) (cycle : Nat) : State :=
  let h0 := s.ch c
  let h := if h0.winN = 0 then h0.openWindow (s.reg (chPage c) Reg.ch.winCfg) (max cycle h0.winCycle) else h0
  let len := fieldOf h.winCfg 15 0
  if bitOf h.winCfg 31 then
    let s1 := if h.winCycle + len ≤ cycle ∧ 0 < h.winN then (s.setCh c h).closeWindow c cycle else s.setCh c h
    s1.setCh c ((s1.ch c).windowTake x)
  else
    let h1 := h.windowTake x
    if len ≤ h1.winN then (s.setCh c h1).closeWindow c cycle else s.setCh c h1

/-- A stream record (R329). -/
def State.streamRecord (s : State) (c : Nat) (x t : Int) (flags : Nat) : State :=
  let p := chPage c
  let cfg := s.reg p Reg.ch.streamCfg
  if !(bitOf cfg 0) ∨ (s.ch c).streamStopped then s
  else
    let n := (s.reg p Reg.ch.streamSeq).toNat
    let off := (s.reg p Reg.ch.streamBase).toNat + 16 * (n % 2 ^ fieldOf cfg 12 8)
    if 0x2000000 < off + 16 then (s.setCh c { s.ch c with streamStopped := true }).raise p 4 []
    else
      let bs := leBytes 4 (wordOfInt x).toNat ++ leBytes 4 flags ++ leBytes 8 (BitVec.ofInt 64 t).toNat
      (((s.sramWrite off bs).bw 84 16).incReg p Reg.ch.streamSeq 1).bump p 8 1

/-- The MP cycle of an instant: not before that of the last sample and not after now's (a free value between them). -/
def State.cycleOf (s : State) (c : Nat) : Nat × State :=
  let now : Nat := s.time.mp.toNat / 2 ^ 32
  let first : Nat := min (s.ch c).cycle now
  let d := s.drawIn first now
  (d.1.toNat, d.2)

/-- A chain output (R306): envelope, window, stream; snapshots find it. -/
def State.chainOut (s : State) (c : Nat) (x t : Int) (flags : Nat) : State :=
  let k := s.cycleOf c
  let s1 := (k.2.setCh c { k.2.ch c with lastOut := x, lastLt := t, cycle := k.1 }).bump (chPage c) 1 1
  ((s1.envelope c x).window c x k.1).streamRecord c x t flags

/-! ## The tracker's input (R330, R332) -/

/-- Is the tracker watching channel `c`? -/
def State.tracks (s : State) (c : Nat) : Bool :=
  s.working 0x106 && s.field 0x106 Reg.tracker.trkConfig 8 8 == 1
    && s.field 0x106 Reg.tracker.trkConfig 4 0 == c
def State.setTrk (s : State) (v : Tracker) : State := s.setMeas { s.meas with trk := v }

/-- A FIR output of TRACK_CH: the window's sums, arming, and a crossing that waits for ZERO_CROSSING. Its interpolated
instant in whole LT ticks is free between the neighbours. -/
def State.trackSample (s : State) (x t : Int) : State :=
  let k := s.meas.trk
  let k1 := { k with sum := k.sum + x, sumSq := k.sumSq + x.natAbs * x.natAbs, n := k.n + 1, prev := some (x, t) }
  let low := decide (2 * x ≤ -((s.field 0x106 Reg.tracker.trackMin 23 0 : Nat) : Int))
  match k.prev with
  | some (x0, t0) =>
    if k.armed ∧ x0 < 0 ∧ 0 ≤ x then
      let num := (t - t0) * (-x0)
      let lo := t0 + num / (x - x0)
      let d := if num % (x - x0) = 0 then (lo, s) else s.drawIn lo (lo + 1)
      d.2.setTrk { k1 with armed := false, crossing := some d.1 }
    else s.setTrk { k1 with armed := k.armed || low }
  | none => s.setTrk { k1 with armed := k.armed || low }

/-! ## CHAIN_OUTPUT -/

/-- The instant of an output in LT ticks (R313): the LT copy is accurate to ±1 tick, and the delay is no whole number of
ticks; free within those bounds. -/
def State.instant (s : State) (c : Nat) : Int × State :=
  let t : Int := s.time.lt.toNat
  let g : Int := s.groupDelay c
  s.drawIn (t - 1 - (g + 3) / 4) (t + 1 - g / 4)

/-- The stage after the FIR: the output with its flags goes to the detectors, the tracker, and, with no resampler, to the
chain output. -/
def State.firOut (s : State) (c : Nat) (x : Int) (sats : Nat) : State :=
  let p := chPage c
  let i := s.instant c
  let h := i.2.ch c
  let un := decide (0 < h.unsettled)
  let h1 := { h with outs := ((x, i.1) :: h.outs).take 32, rsTaken := false, unsettled := h.unsettled - 1, lastUnsettled := un }
  let s1 := ((i.2.setCh c h1).bump p 0 1).satReg p Reg.ch.satCount sats
  let s2 := if 0 < sats then s1.bump p 2 sats else s1
  let s3 := if un then s2.bump p 11 1 else s2
  let s4 := s3.bandRms c x i.1
  let s5 := if s4.tracks c then s4.trackSample x i.1 else s4
  if s5.rsMode c = 0 then
    s5.chainOut c x i.1 (un.toNat + 2 * (decide (0 < sats)).toNat + 4 * h.stuck.toNat)
  else s5

/-- The modulator bits of one output: D_tot, or K · D1 in SCS mode. -/
def State.bitsPerOutput (s : State) (c : Nat) : Nat :=
  if s.scs c then s.orderK c * s.decim c else s.decimTotal c

/-- CHAIN_OUTPUT (R306 to R311): the bits that the modulator has given since the last output, oldest first, through the
stages. A sum beyond the FIR's 48 bits has no stated value (a free sample). -/
def State.doChainOutput (s : State) (c : Nat) (bits : List Bool) : State :=
  if !(s.chOn c) ∨ bits.length ≠ s.bitsPerOutput c then s
  else
    let k := s.orderK c
    let d1 := s.decim c
    let r0 : ChainRun := ⟨s.ch c, 0, 0⟩
    let r := if s.scs c then r0.convert k d1 bits else r0.decimate k d1 (s.halfBands c) bits
    if !(s.firEn c) then (s.setCh c r.ch).firOut c r.value r.sats
    else
      let fir := (r.value :: r.ch.fir).take 256
      let sum := firSum r.ch.act.coefs fir
      let s1 := s.setCh c { r.ch with fir := fir }
      if sum < -(2 ^ 47) ∨ 2 ^ 47 ≤ sum then
        let d := s1.drawIn (-8388608) 8388607
        d.2.firOut c d.1 r.sats
      else
        let v := sat24 (roundDiv sum (2 ^ 22))
        s1.firOut c v.1 (r.sats + v.2.toNat)

def execChainOutput (ch : Fin 32) (bits : List Bool) (s : State) : Result := .next (s.doChainOutput ch.val bits)

/-- MOD_STUCK (R305). -/
def State.doModStuck (s : State) (c : Nat) : State :=
  if s.chOn c ∧ !(s.ch c).stuck then
    ((s.setCh c { s.ch c with stuck := true }).bump (chPage c) 10 1).raise (chPage c) 2 []
  else s
def execModStuck (ch : Fin 32) (s : State) : Result := .next (s.doModStuck ch.val)
/-- MOD_STUCK_CLEAR (R305). -/
def execModStuckClear (ch : Fin 32) (s : State) : Result := .next (s.setCh ch.val { s.ch ch.val with stuck := false })

/-! ## RESAMPLER_OUTPUT (R320, R321) -/

/-- The 16 FIR samples whose instants lie nearest to an instant: of the newest 32, the run of 16 whose ends are closest
on both sides. -/
def nearest16 (outs : List (Int × Int)) (t : Int) : List (Int × Int) :=
  let later := (outs.takeWhile fun q => decide (t < q.2)).length
  (outs.drop (later - 8)).take 16

/-- RESAMPLER_OUTPUT: at most one output per FIR sample; an instant beyond that is dropped. -/
def State.doResampler (s : State) (c : Nat) (t : Int) : State :=
  let h := s.ch c
  let p := chPage c
  if !(s.chOn c) ∨ s.rsMode c = 0 then s
  else if h.rsTaken then
    let s1 := (s.setCh c { h with rateLimited := true }).bump p 7 1
    if h.rateLimited then s1 else s1.raise p 3 []
  else
    let v := sat24 (Config.resample (nearest16 h.outs t) t)
    let s1 := (s.setCh c { h with rsTaken := true, rateLimited := false }).satReg p Reg.ch.satCount v.2.toNat
    let s2 := if v.2 then s1.bump p 2 1 else s1
    let hold := s.rsMode c == 1 && s.time.mpHoldover
    s2.chainOut c v.1 t (h.lastUnsettled.toNat + 2 * v.2.toNat + 4 * h.stuck.toNat + 8 * hold.toNat)

def execResamplerOutput (ch : Fin 32) (at_ : DWord) (s : State) : Result := .next (s.doResampler ch.val at_.toNat)

/-! ## Banks (R314 to R319) -/

/-- The image of a bank (R314). -/
def Bank.image (b : Bank) : List Byte :=
  leBytes 2 b.taps ++ leBytes 2 b.win ++ leBytes 4 b.threshold ++ leBytes 4 b.release ++ leBytes 4 b.tripTime
    ++ wordBytes b.coefs
def Bank.imageCrc (b : Bank) : Word := crc32 b.image

/-- The bank that words spell. -/
def bankOf (w : List Word) : Bank :=
  let g : Nat → Word := fun i => w.getD i 0#32
  ⟨fieldOf (g 0) 15 0, fieldOf (g 0) 31 16, (g 1).toNat, (g 2).toNat, (g 3).toNat, w.drop 4, false, false, 0#32⟩
/-- A coefficient whose bits [31:24] are the sign extension of bit 23. -/
def coefOk (w : Word) : Bool := fieldOf w 31 23 == 0 || fieldOf w 31 23 == 511
/-- A bank's fields in range (R314, code 0x101 of R315). -/
def Bank.ok (b : Bank) : Bool :=
  decide (1 ≤ b.taps ∧ b.taps ≤ 256 ∧ 1 ≤ b.win ∧ b.win ≤ 4096 ∧ b.threshold < 2 ^ 24 ∧ b.release ≤ b.threshold
    ∧ b.tripTime ≤ 10000000) && b.coefs.all coefOk
def Bank.isSymmetric (b : Bank) : Bool := b.coefs == b.coefs.reverse

/-- `n` words of shared SRAM; none where the read is refused (R32, R490). -/
def State.sramWords (s : State) (off n : Nat) : Option (List Word) :=
  if 0x2000000 < off + 4 * n then none
  else (s.sramRead off (4 * n)).map fun bs => (List.range n).map fun i => BitVec.ofNat 32 (ofLeBytes ((bs.drop (4 * i)).take 4))

/-- A BANK_LOAD that fails leaves INACTIVE_CHECKED at 0. -/
def State.bankFail (s : State) (c : Nat) (e : Word) : State :=
  let h := s.ch c
  (s.setCh c (h.setInact { h.inact with checked := false })).opFail (chPage c) e

/-- BANK_LOAD (R315). -/
def State.doBankLoad (s : State) (c : Nat) : State :=
  let p := chPage c
  if !(s.opActive p 1) then s
  else
    let h := s.ch c
    let o := s.op p
    let base := o.arg0.toNat
    if h.swapPending ∨ h.armed then s.opFail p 0x100#32
    else match s.sramWords base 4 with
      | none => (s.bankFail c 0x104#32).raise p 4 []
      | some head =>
        let b0 := bankOf head
        if !b0.ok then s.bankFail c 0x101#32
        else match s.sramWords base (4 + b0.taps) with
          | none => (s.bankFail c 0x104#32).raise p 4 []
          | some ws =>
            let b := bankOf ws
            let s1 := ((s.bw 84 (4 * ws.length)).setCh c (h.setInact b)).setOp p (o.advance ws.length 0)
            if !b.ok then s1.bankFail c 0x101#32
            else if b.imageCrc ≠ o.arg1 then s1.bankFail c 0x102#32
            else if bitOf (s.chCfg c) 24 ∧ !b.isSymmetric then s1.bankFail c 0x103#32
            else
              let b1 := { b with checked := true, symmetric := b.isSymmetric, crc := b.imageCrc }
              (((s1.setCh c (h.setInact b1)).setOp p ((s1.op p).advance 0 1)).bump p 9 1).opDone p

def execBankLoad (ch : Fin 32) (s : State) : Result := .next (s.doBankLoad ch.val)

/-- A swap refused (R317). -/
def State.swapRefused (s : State) (c fail : Nat) : State :=
  ((s.setCh c { s.ch c with swapFail := fail, swapPending := false }).bump (chPage c) 4 1).raise (chPage c) 1 []

/-- A swap request (R317 steps 1 and 2, R318). -/
def State.swapRequest (s : State) (c : Nat) : State :=
  let h := s.ch c
  let o := s.op (chPage c)
  if h.swapPending then s
  else if !h.inact.checked then s.swapRefused c 1
  else if o.opcode.val = 1 ∧ (o.phase = .queued ∨ o.phase = .running) then s.swapRefused c 3
  else s.setCh c { h with swapPending := true }

/-- A command of a channel's page written. -/
def chCommand (m : Master) (c : Nat) (s : State) (act : State → State) : State :=
  s.written m (chPage c) Reg.ch.bankCmd act
/-- SWAP_ON_SYNC armed, or disarmed by CANCEL (R317). -/
def State.armSwap (s : State) (c : Nat) (b : Bool) : State := s.setCh c { s.ch c with armed := b }
/-- SWAP. -/
def execSwap (m : Master) (ch : Fin 32) (s : State) : Result := .next (chCommand m ch.val s fun t => t.swapRequest ch.val)
/-- SWAP_ON_SYNC. -/
def execSwapOnSync (m : Master) (ch : Fin 32) (s : State) : Result :=
  .next (chCommand m ch.val s fun t => t.armSwap ch.val true)
/-- CANCEL. -/
def execCancel (m : Master) (ch : Fin 32) (s : State) : Result :=
  .next (chCommand m ch.val s fun t => t.armSwap ch.val false)

/-- The band-RMS window restarts empty; the trip run is reset (R319, R322). -/
def ChState.restartBand (h : ChState) : ChState := { h with brmsBuf := [], above := false, runFrom := none, trip := false }
/-- The peak and RMS window restarts. -/
def ChState.restartWindow (h : ChState) (cfg : Word) (cycle : Nat) : ChState := h.openWindow cfg cycle

/-- BANK_SWAP_APPLY (R317 steps 3 and 4, R319). -/
def State.doBankSwapApply (s : State) (c : Nat) : State :=
  let h := s.ch c
  let p := chPage c
  if !h.swapPending then s
  else if h.inact.imageCrc ≠ h.inact.crc then s.swapRefused c 2
  else
    let h1 := (({ h with active := !h.active, swapPending := false }).restartBand).restartWindow (s.reg p Reg.ch.winCfg)
      (s.time.mp.toNat / 2 ^ 32)
    ((s.setCh c h1).bump p 3 1).settleLines

def execBankSwapApply (ch : Fin 32) (s : State) : Result := .next (s.doBankSwapApply ch.val)

/-- The channels of a mask. -/
def maskChannels (w : Word) : List Nat := (List.range 32).filter fun c => bitOf w c

/-- BANK_SWAP (R225, R317). -/
def execBankSwap (n : Fin 64) (s : State) : Result :=
  .next (s.takeAction n.val 7 fun t arg => (maskChannels arg).foldl State.swapRequest t)

/-- A channel captured (R328). -/
def State.snapChannel (s : State) (c : Nat) : State :=
  let p := chPage c
  if !(s.chOn c) then s
  else
    let s1 := (s.setReg p Reg.ch.snapSample (wordOfInt (s.ch c).lastOut)).setReg64 p Reg.ch.snapLtLo (BitVec.ofInt 64 (s.ch c).lastLt)
    let s2 := [Reg.ch.peakMin, Reg.ch.peakMax, Reg.ch.rms, Reg.ch.env, Reg.ch.brms].zipIdx.foldl (fun t q =>
      t.setReg p (Reg.ch.snapDet + 4 * q.2) (t.reg p q.1)) s1
    s2.incReg p Reg.ch.snapSeq 1

/-- MEAS_SNAPSHOT (R225, R328). -/
def execMeasSnapshot (n : Fin 64) (s : State) : Result :=
  .next (s.takeAction n.val 2 fun t arg =>
    (((maskChannels arg).foldl State.snapChannel t).satReg 0x100 Reg.meas.snapshots 1).bump 0x100 1 1)

/-! ## SYNC (R322) -/

/-- Histories and detectors of a channel restarted, as SYNC and a start do (R322, R336). -/
def State.restartChannel (s : State) (c : Nat) : State :=
  let h := s.ch c
  let h1 := (({ h with integ := [], comb := [], cic := [], half := [], fir := [], outs := [], rsTaken := false }).restartBand).restartWindow
    (s.reg (chPage c) Reg.ch.winCfg) (s.time.mp.toNat / 2 ^ 32)
  (s.setCh c { h1 with unsettled := s.unsettledCount c }).settleLines

def State.syncEn (s : State) (c : Nat) : Bool := bitOf (s.chCfg c) 25

/-- A channel takes SYNC; an armed one requests its swap. -/
def State.syncChannel (s : State) (c : Nat) : State :=
  if !(s.syncEn c) then s
  else
    let s1 := s.restartChannel c
    if (s1.ch c).armed then (s1.setCh c { s1.ch c with armed := false }).swapRequest c else s1

/-- MEAS_SYNC (R322): an applied SYNC reaches the chain. -/
def State.doMeasSync (s : State) : State :=
  if s.measSync = 0 then s
  else
    let s1 := (List.range 32).foldl State.syncChannel { s with measSync := s.measSync - 1 }
    let s2 := (List.range 4).foldl (fun t g =>
      if (List.range 8).any fun i => s.syncEn (8 * g + i) then t.satReg (0x101 + g) Reg.chGroup.syncApplied 1 else t) s1
    (s2.setReg64 0x100 Reg.meas.lastSyncLtLo s.time.lt).bump 0x100 0 1

def execMeasSync (s : State) : Result := .next s.doMeasSync

/-! ## The tracker (R330 to R333) -/

def State.trkOn (s : State) : Bool := s.working 0x106 && s.field 0x106 Reg.tracker.trkConfig 8 8 == 1

/-- Loss of lock (R331). -/
def State.loseLock (s : State) : State :=
  let s1 := ((s.setTrk { s.meas.trk with locked := false, periods := [] }).setReg 0x106 Reg.tracker.trkFreq 0#32).bump 0x106 2 1
  s1.enterMpHoldover.raise 0x106 0 []

/-- A period from 1/70 s to 1/14 s, and within ±5 % of a mean given as the sum of four. -/
def periodOk (p : Int) : Bool := decide (250000000 ≤ 70 * p) && decide (14 * p ≤ 250000000)
def nearMean (p sum4 : Int) : Bool := decide ((4 * p - sum4).natAbs * 20 ≤ sum4.natAbs)
def sum4 (l : List Int) : Int := l.foldl (· + ·) 0

/-- TRK_FREQ from the last four periods: the reciprocal of their mean in mHz, rounding not stated. -/
def State.trackFreq (s : State) : State :=
  let sum := sum4 s.meas.trk.periods
  if sum ≤ 0 then s
  else
    let n := 1000 * 4 * 250000000
    let d := if n % sum = 0 then (n / sum, s) else s.drawIn (n / sum) (n / sum + 1)
    d.2.setReg 0x106 Reg.tracker.trkFreq (wordOfInt d.1)

/-- ZERO_CROSSING (R330, R331): the crossing that TRACK_CH's samples have shown. -/
def State.doZeroCrossing (s : State) : State :=
  let k := s.meas.trk
  match k.crossing with
  | none => s
  | some t =>
    if !s.trkOn then s
    else
      let s1 := s.bump 0x106 0 1
      match k.last with
      | none => s1.setTrk { k with crossing := none, last := some t }
      | some t0 =>
        let p := t - t0
        let k1 := { k with crossing := none, last := some t, periods := (p :: k.periods).take 4 }
        if k.locked then
          (if nearMean p (sum4 k.periods) then (s1.setTrk k1).trackFreq else (s1.setTrk { k1 with periods := [] }).loseLock)
        else if k1.periods.length = 4 ∧ k1.periods.all (fun q => periodOk q && nearMean q (sum4 k1.periods)) then
          ((s1.setTrk { k1 with locked := true }).bump 0x106 1 1).trackFreq
        else s1.setTrk k1

def execZeroCrossing (s : State) : Result := .next s.doZeroCrossing

/-- TRACKER_UPDATE (R331): the update of R213, withheld while PT_MP is set (R462). -/
def State.doTrackerUpdate (s : State) : State :=
  if !s.trkOn ∨ !s.meas.trk.locked then s
  else if bitOf (s.pt Reg.perturb.ptMp) 0 then s.ptApplied
  else
    let s1 := s.trackFreq.bump 0x106 3 1
    s1.doMpUpdate (s1.reg 0x106 Reg.tracker.trkFreq)

def execTrackerUpdate (s : State) : Result := .next s.doTrackerUpdate

/-- LOCK_LOST (R331): 1.5 mean periods without a crossing. -/
def execLockLost (s : State) : Result := .next (if s.trkOn ∧ s.meas.trk.locked then s.loseLock else s)

/-- TRK_AC_RMS or |TRK_MEAN| within LO and HI of a system entry, and the rest of R332. -/
def State.systemMatches (s : State) (n : Nat) : Bool :=
  let cfg := s.reg 0x106 (Reg.tracker.sysCfg + 12 * n)
  let lo := s.field 0x106 (Reg.tracker.sysLo + 12 * n) 23 0
  let hi := s.field 0x106 (Reg.tracker.sysHi + 12 * n) 23 0
  let nom := fieldOf cfg 19 0
  let freq := (s.reg 0x106 Reg.tracker.trkFreq).toNat
  let rms := (s.reg 0x106 Reg.tracker.trkAcRms).toNat
  let mean := (signedOf 32 (s.reg 0x106 Reg.tracker.trkMean).toNat).natAbs
  let within : Nat → Bool := fun v => decide (lo ≤ v ∧ v ≤ hi)
  bitOf cfg 31 &&
    (if bitOf cfg 30 then
      s.meas.trk.locked && decide (((freq : Int) - nom).natAbs * 25 ≤ nom) && within rms
    else !s.meas.trk.locked && within mean)

/-- The recorder's CATENARY fields of the system entry in force (R390). -/
def State.recCatenary (s : State) (n : Nat) : State :=
  let b := 0x6c0 + 64 * n
  let cfg := s.reg 0x106 (Reg.tracker.sysCfg + 12 * n)
  let lo : Int := s.field 0x106 (Reg.tracker.sysLo + 12 * n) 23 0
  let hi : Int := s.field 0x106 (Reg.tracker.sysHi + 12 * n) 23 0
  let v : Int := if bitOf cfg 30 then (s.reg 0x106 Reg.tracker.trkAcRms).toNat
    else (signedOf 32 (s.reg 0x106 Reg.tracker.trkMean).toNat).natAbs
  let bin := min 7 ((8 * (v - lo)) / (hi - lo)).toNat
  let first := s.recField (b + 0x38) == 0
  (((s.recAdd (b + 4 * bin) 1).recMin (b + 0x20) (b + 0x28) first v).recMax (b + 0x24) (b + 0x30) first v).recAdd (b + 0x38) 1

/-- SYSTEM becomes an entry or none (R332, R333). -/
def State.systemIs (s : State) (n : Nat) : State :=
  let s1 := ((s.setTrk { s.meas.trk with system := n })).satReg 0x106 Reg.tracker.sysChanges 1
  let cfg := s1.reg 0x106 (Reg.tracker.sysCfg + 12 * n)
  if n < 8 ∧ bitOf cfg 30 then s1.setReg 0x141 Reg.time.mpNominal (BitVec.ofNat 32 (fieldOf cfg 19 0)) else s1

/-- Mean and AC RMS of the window that ends; the roundings, and both values of an empty window, are not stated. -/
def State.windowValues (s : State) : State :=
  let k := s.meas.trk
  let n : Int := k.n
  let mean := if k.n = 0 then s.drawIn (-8388608) 8388607
    else if k.sum % n = 0 then (k.sum / n, s) else s.drawIn (k.sum / n) (k.sum / n + 1)
  let var := (k.sumSq * k.n : Int) - k.sum * k.sum
  let f := isqrt (var.toNat / (k.n * k.n))
  let t := mean.2
  let rms := if k.n = 0 then t.drawIn 0 8388607
    else if f * f * (k.n * k.n) = var.toNat then ((f : Int), t) else t.drawIn f (f + 1)
  ((rms.2.setReg 0x106 Reg.tracker.trkMean (wordOfInt mean.1)).setReg 0x106 Reg.tracker.trkAcRms (wordOfInt rms.1)).setTrk
    { k with sum := 0, sumSq := 0, n := 0 }

/-- DETECTION_WINDOW (R331, R332). -/
def State.doDetectionWindow (s : State) : State :=
  if !s.trkOn then s
  else
    let s1 := s.windowValues.bump 0x106 4 1
    let low := decide ((s1.reg 0x106 Reg.tracker.trkAcRms).toNat < s1.field 0x106 Reg.tracker.trackMin 23 0)
    let s2 := if low ∧ s1.meas.trk.locked then s1.loseLock else s1
    let k := s2.meas.trk
    let cand := ((List.range 8).find? fun n => s2.systemMatches n).getD 15
    let count := if cand = k.candidate then satAdd 255 k.count 1 else 1
    let s3 := s2.setTrk { k with candidate := cand, count := count }
    let s4 := if count = s3.field 0x106 Reg.tracker.trkConfig 23 16 ∧ cand ≠ k.system then s3.systemIs cand else s3
    if s4.meas.trk.system < 8 then s4.recCatenary s4.meas.trk.system else s4

def execDetectionWindow (s : State) : Result := .next s.doDetectionWindow

/-! ## Interpolating outputs (R334, R335) -/

def outPage (n : Nat) : Nat := 0x128 + n
def outReset (_ : Nat) : OutState := ⟨0, [], [], 0⟩
def State.out (s : State) (n : Nat) : OutState := tblRead outReset s.meas.outs n
def State.setOut (s : State) (n : Nat) (v : OutState) : State :=
  s.setMeas { s.meas with outs := tblWrite outReset s.meas.outs n v }

/-- The next input value of an output, before clipping, and the state that has taken it. -/
def State.outInput (s : State) (n : Nat) : Int × State :=
  let p := outPage n
  let cfg := s.reg p Reg.out.outConfig
  if fieldOf cfg 13 12 = 0 then
    let seq := s.reg p Reg.out.outSeq
    if seq = s.reg p Reg.out.outPosted then
      ((s.out n).prev, ((s.satReg p Reg.out.outUnderruns 1).bump p 1 1).raise p 0 [])
    else
      let off := (s.reg p Reg.out.outRingBase).toNat + 4 * (seq.toNat % 2 ^ s.field p Reg.out.outRingCfg 4 0)
      let s1 := (s.incReg p Reg.out.outSeq 1).bw 84 4
      match s.sramWords off 1 with
      | some ws => (signed24 (ws.getD 0 0#32), s1)
      | none => (0, s1.raise p 2 [])
  else if fieldOf cfg 13 12 = 1 then
    ((match (s.ch (fieldOf cfg 20 16)).outs with | q :: _ => q.1 | [] => 0), s)
  else (signed24 (s.reg p Reg.out.outConst), s)

/-- OUTPUT_INPUT_SAMPLE (R334): the value clipped and through the FIR; the stages after it end in a bitstream that the
spec does not fix. -/
def State.doOutputSample (s : State) (n : Nat) : State :=
  let p := outPage n
  if (s.page p).run ≠ .on then s
  else
    let i := s.outInput n
    let v : Int := if i.1 < -6291456 then -6291456 else if 6291456 < i.1 then 6291456 else i.1
    let s1 := i.2.bump p 0 1
    let s2 := if v = i.1 then s1 else (s1.satReg p Reg.out.outClips 1).bump p 2 1
    let o := s2.out n
    let line := (v :: o.line).take 128
    if bitOf (s2.reg p Reg.out.outConfig) 10 then
      let sum := firSum o.coefs line
      if sum < -(2 ^ 47) ∨ 2 ^ 47 ≤ sum then
        let d := s2.drawIn (-8388608) 8388607
        d.2.setOut n { o with prev := v, line := line, fed := d.1 }
      else s2.setOut n { o with prev := v, line := line, fed := (sat24 (roundDiv sum (2 ^ 22))).1 }
    else s2.setOut n { o with prev := v, line := line, fed := v }

def execOutputInputSample (out : Fin 8) (s : State) : Result := .next (s.doOutputSample out.val)

/-- OUT_POSTED_WRITE (R334, R250): a refused write is ignored. -/
def State.postOut (s : State) (n : Nat) (v : Word) : State :=
  let p := outPage n
  if postOk v (s.reg p Reg.out.outPosted) (s.reg p Reg.out.outSeq) (s.field p Reg.out.outRingCfg 4 0) then
    s.setReg p Reg.out.outPosted v
  else s
def execOutPostedWrite (m : Master) (out : Fin 8) (v : Word) (s : State) : Result :=
  .next (s.written m (outPage out.val) Reg.out.outPosted fun t => t.postOut out.val v)

/-- COEF_LOAD (R335). -/
def State.doCoefLoad (s : State) (n : Nat) : State :=
  let p := outPage n
  if !(s.opActive p 1) ∨ (s.page p).run ≠ .off then s
  else
    let o := s.op p
    let k := o.arg1.toNat
    if k = 0 ∨ 128 < k then s.opFail p 0x101#32
    else match s.sramWords o.arg0.toNat k with
      | none => (s.opFail p 0x104#32).raise p 2 []
      | some ws =>
        if !(ws.all coefOk) then s.opFail p 0x101#32
        else if crc32 (wordBytes ws) ≠ o.arg2 then s.opFail p 0x102#32
        else
          let s1 := ((s.bw 84 (4 * k)).setOut n { s.out n with coefs := ws }).setReg p Reg.out.outTaps (BitVec.ofNat 32 k)
          ((s1.setOp p (o.advance k 1)).bump p 3 1).opDone p

def execCoefLoad (out : Fin 8) (s : State) : Result := .next (s.doCoefLoad out.val)

/-! ## Starting and stopping (R336) -/

/-- Does the STARTING check refuse a channel? -/
def State.chRefused (s : State) (c : Nat) : Bool :=
  let brms := bitOf (s.reg (chPage c) Reg.ch.brmsCfg) 0
  let per (hz : Nat) : Nat := hz * s.clkDiv c * s.decimTotal c
  (s.scs c && (s.halfBands c != 0 || s.firEn c || s.rsMode c != 0 || brms))
    || (s.firEn c && (s.ch c).act.taps == 0)
    || (brms && (!(s.firEn c) || decide (400000000 < per 2000)))
    || (s.rsMode c == 3 && decide (400000000 < per (s.field (chPage c) Reg.ch.rsRate 15 0)))

/-- Does an output's input rate differ from its channel's FIR rate (R334)? -/
def State.outRefused (s : State) (n : Nat) : Bool :=
  let cfg := s.reg (outPage n) Reg.out.outConfig
  let c := fieldOf cfg 20 16
  let mine := s.clkDiv (8 * (n / 2)) * 2 ^ fieldOf cfg 6 4 * 2 ^ fieldOf cfg 9 8
  fieldOf cfg 13 12 == 1 && mine != s.clkDiv c * s.bitsPerOutput c

/-- The STARTING check of unit page `p`: refused, it goes FAULTED (class 2, R428); passed, its histories are cleared. -/
def State.startCheck (s : State) (p : Nat) : State :=
  if 0x108 ≤ p ∧ p < 0x128 then
    (if s.chRefused (p - 0x108) then s.raiseStop p 5 []
     else
      let t := s.restartChannel (p - 0x108)
      t.setCh (p - 0x108) { t.ch (p - 0x108) with streamStopped := false })
  else if 0x128 ≤ p ∧ p < 0x130 then
    (if s.outRefused (p - 0x128) then s.raiseStop p 1 [] else s.setOut (p - 0x128) { s.out (p - 0x128) with line := [] })
  else if p = 0x106 then
    s.setTrk
      { s.meas.trk with
        prev := none, armed := false, crossing := none, last := none, periods := [], locked := false, sum := 0, sumSq := 0,
        n := 0, system := 15, candidate := 15, count := 0 }
  else s

/-- CHANNEL_START_CHECK: unit k is channel k, or output k − 32. -/
def State.doStartCheck (s : State) (u : Nat) : State :=
  if (s.page (0x108 + u)).run = .starting then s.startCheck (0x108 + u) else s
def execChannelStartCheck (unit : Fin 40) (s : State) : Result := .next (s.doStartCheck unit.val)

/-- A channel that has left ON: a pending swap is discarded, SWAP_ON_SYNC disarmed; a tracker stopped reads SYSTEM
0xF. -/
def State.measStopped (s : State) (p : Nat) : State :=
  if 0x108 ≤ p ∧ p < 0x128 then
    s.setCh (p - 0x108) { s.ch (p - 0x108) with armed := false, swapPending := false }
  else if p = 0x106 then
    (s.setTrk { s.meas.trk with locked := false, system := 15, periods := [], last := none, crossing := none }).setReg 0x106
      Reg.tracker.trkFreq 0#32
  else s
/-- A channel that is OFF: its trip line is released. -/
def State.measOff (s : State) (p : Nat) : State :=
  if 0x108 ≤ p ∧ p < 0x128 then (s.setCh (p - 0x108) { s.ch (p - 0x108) with trip := false }).settleLines else s

/-! ## Registers computed from the chain's state -/

def coefAt (l : List Word) (i : Nat) : Word := l.getD i 0#32
/-- BANK_STATUS and CH_STATUS. -/
def ChState.bankStatus (h : ChState) : Word :=
  flag h.active 0 ||| flag h.swapPending 1 ||| flag h.armed 2 ||| flag h.inact.checked 3 ||| flag h.inact.symmetric 4
    ||| at' h.swapFail 8 ||| at' h.act.taps 16
def ChState.status (h : ChState) : Word :=
  flag h.lastUnsettled 0 ||| flag h.trip 1 ||| flag h.above 2 ||| flag h.stuck 3 ||| flag h.rateLimited 4

/-- The computed registers of pages 0x100 to 0x12F. -/
def State.measView (s : State) (p off : Nat) : Option Word :=
  if p = 0x100 then
    (if off = Reg.meas.measStatus then
      some ((List.range 4).foldl (fun w g => setBit w g (s.isOn (0x101 + g))) 0#32) else none)
  else if 0x101 ≤ p ∧ p < 0x105 then
    (if off = Reg.chGroup.fMod then some (BitVec.ofNat 32 (rate 400000000 (s.field p Reg.chGroup.grpClk 10 0)))
     else if off = Reg.chGroup.grpStatus then some (flag (s.isOn p) 0) else none)
  else if p = 0x106 then
    (let k := s.meas.trk
     if off = Reg.tracker.trkStatus then
      some (flag k.locked 0 ||| at' k.system 8 ||| at' k.candidate 16 ||| at' k.count 24) else none)
  else if 0x108 ≤ p ∧ p < 0x128 then
    (let c := p - 0x108
     let h := s.ch c
     if off = Reg.ch.bankStatus then some h.bankStatus
     else if off = Reg.ch.groupDelay then some (if s.isOn p then BitVec.ofNat 32 (s.groupDelay c) else 0#32)
     else if off = Reg.ch.outRate then some (if s.isOn p then BitVec.ofNat 32 (s.outRate c) else 0#32)
     else if off = Reg.ch.chStatus then some h.status
     else if off = Reg.ch.actThreshold then some (BitVec.ofNat 32 h.act.threshold)
     else if off = Reg.ch.actRelease then some (BitVec.ofNat 32 h.act.release)
     else if off = Reg.ch.actTripTime then some (BitVec.ofNat 32 h.act.tripTime)
     else if off = Reg.ch.actBrmsWin then some (BitVec.ofNat 32 h.act.win)
     else if off = Reg.ch.actCrc then some h.act.crc
     else if off = Reg.ch.inactCrc then some h.inact.crc
     else if 0x400 ≤ off ∧ off < 0x800 then some (coefAt h.act.coefs ((off - 0x400) / 4))
     else if 0x800 ≤ off ∧ off < 0xc00 then some (coefAt h.inact.coefs ((off - 0x800) / 4)) else none)
  else if 0x128 ≤ p ∧ p < 0x130 then
    (let n := p - 0x128
     let cfg := s.reg p Reg.out.outConfig
     if off = Reg.out.outInRate then
      some (if s.isOn p then
        BitVec.ofNat 32 (rate 400000000000 (s.clkDiv (8 * (n / 2)) * 2 ^ fieldOf cfg 6 4 * 2 ^ fieldOf cfg 9 8)) else 0#32)
     else if 0x400 ≤ off ∧ off < 0x600 then some (coefAt (s.out n).coefs ((off - 0x400) / 4)) else none)
  else none

end Sys2Proof.Machine
end

