-- ==== Sys2Proof/Machine/Vme.lean ====
section
/-!
DEFINITION. Chapter 11: the VME bridge. Outbound windows, byte lanes, the read buffer, posted writes with their failure
log and fence, locked sequences, inbound windows, the bus request, interrupts (R339 to R360, R478). What stands on the
bus is no part of the block: the commands bring what the bus answers.
-/
namespace Sys2Proof.Machine

def vmePage : Nat := 0x150
def State.setVme (s : State) (v : VmeState) : State := { s with vme := v }
def State.vmeOn (s : State) : Bool := (s.page vmePage).run == .on
def State.vmeBump (s : State) (n amt : Nat) : State := if amt = 0 then s else s.bump vmePage n amt

/-! ## Outbound windows (R342 to R345) -/

/-- An outbound window as its registers give it: number, CTRL, first local address, size, VME_BASE. -/
structure OutWin where
  n : Nat
  ctrl : Word
  base : Nat
  size : Nat
  vme : Nat
  deriving DecidableEq, Repr

def State.outWin (s : State) (n : Nat) : OutWin :=
  ⟨n, s.reg vmePage (Reg.vme.owinCtrl + 0x20 * n),
   0x40000000 + 65536 * s.field vmePage (Reg.vme.owinLocal + 0x20 * n) 13 0,
   2 ^ s.field vmePage (Reg.vme.owinSize + 0x20 * n) 4 0, (s.reg vmePage (Reg.vme.owinVme + 0x20 * n)).toNat⟩

/-- Bits of an address space code: A16, A24, A32. -/
def spaceBits (space : Nat) : Nat := if space = 0 then 16 else if space = 1 then 24 else 32
/-- Bytes of a WIDTH code: D08(EO), D16, D32. -/
def widthBytes (w : Nat) : Nat := if w = 0 then 1 else if w = 1 then 2 else 4
def OutWin.width (w : OutWin) : Nat := widthBytes (fieldOf w.ctrl 5 4)
def OutWin.space (w : OutWin) : Nat := fieldOf w.ctrl 9 8

/-- May a window be enabled with this CTRL value (R343)? -/
def State.outWinOk (s : State) (n : Nat) (v : Word) : Bool :=
  let w := s.outWin n
  let sp := fieldOf v 9 8
  w.base % w.size == 0 && w.vme % w.size == 0 && decide (w.base + w.size ≤ 0x80000000)
    && !(sp == 0 && decide (0x10000 < w.size)) && !(sp == 1 && decide (0x1000000 < w.size))
    && !(bitOf v 2 && (fieldOf v 5 4 == 0 || sp == 0))

/-- The lowest-numbered enabled window that contains an address (R342). -/
def State.windowOf (s : State) (a : Nat) : Option OutWin :=
  ((List.range 8).map s.outWin).find? fun w => bitOf w.ctrl 0 && decide (w.base ≤ a ∧ a < w.base + w.size)

/-- The address modifier of a single cycle (R340). -/
def modifierOf (space : Nat) (super : Bool) : Nat :=
  (if space = 0 then 0x29 else if space = 1 then 0x39 else 0x09) + (if super then 4 else 0)
/-- The modifier of a BLT is that of the single cycle plus 2. -/
def isBlt (am : Nat) : Bool := am % 4 == 3

/-- The address of the cycle that carries `n` bytes at offset `x` through a unit of `w` bytes (R345): the same offset, or
the mirrored one within the unit. -/
def laneAddr (dataInvariant : Bool) (w n x : Nat) : Nat :=
  if dataInvariant then x / w * w + (w - n - x % w) else x
/-- The bytes of a cycle in ascending VME address, from those in ascending internal address, and back. -/
def laneBytes (dataInvariant : Bool) (l : List Byte) : List Byte := if dataInvariant then l.reverse else l

/-- The data of a cycle as driven on D31 to D0, unused lanes 0. -/
def laneWord (a : Nat) (l : List Byte) : Word :=
  if l.length = 1 ∧ a % 2 = 0 then BitVec.ofNat 32 (ofBeBytes l * 256) else BitVec.ofNat 32 (ofBeBytes l)

/-- Bytes of each cycle of an access (R344), and their number. -/
def OutWin.part (w : OutWin) (size : Nat) : Nat := min size w.width
def OutWin.parts (w : OutWin) (size : Nat) : Nat := size / w.part size

/-- VME address of the cycle for internal address `a`. -/
def OutWin.vmeAddr (w : OutWin) (size a : Nat) : Nat :=
  (w.vme + laneAddr (bitOf w.ctrl 1) w.width (w.part size) (a - w.base)) % 2 ^ spaceBits w.space

/-- The value of a read from the bytes of its cycles, each in ascending VME address. -/
def OutWin.value (w : OutWin) (size : Nat) (bs : List Byte) : DWord :=
  let n := w.part size
  BitVec.ofNat 64 (ofLeBytes ((List.range (w.parts size)).flatMap fun i =>
    laneBytes (bitOf w.ctrl 1) (padTo n (bs.drop (i * n)))))

/-- The originator code of the failure log (R349). -/
def vmeOriginator : Master → Nat
  | .cluster => 0
  | .core .a => 0 | .core .b => 1 | .core .c => 2
  | .app n => 4 + n.val
  | .debug h => if h.val = 0 then 0 else 3 + h.val
  | _ => 3

/-! ## Whether an outbound access is taken -/

/-- What becomes of an outbound access before the bridge looks at it: misaligned (R488), refused (R31, R342, R358), or it
is decoded by a window. -/
inductive Decoded where
  | misaligned
  | foreign
  | refused
  | window (w : OutWin)
  deriving DecidableEq, Repr

def State.vmeDecode (s : State) (m : Master) (a size : Nat) (write : Bool) : Decoded :=
  if a % size ≠ 0 then .misaligned
  else if regionOf a ≠ .vme ∨ !(regionAllows (columnOf m) .vme write) then .foreign
  else match s.windowOf a with
  | some w => if s.vmeOn then .window w else .refused
  | none => .refused

/-- An outbound access refused by the bridge: ACCESS_ERROR, and the violation of R32. -/
def State.vmeRefuse (s : State) (m : Master) (a : Nat) : State := (s.raise vmePage 0 []).violation m a

/-- An access answered RETRY (R346). -/
def State.retry (s : State) : State := (s.vmeBump 8 1).answer .wait
/-- An access that waits for a semaphore. -/
def State.lockWait (s : State) : State := (s.vmeBump 11 1).retry

/-- An outbound access: `act` where a window decodes it. -/
def State.outbound (s : State) (m : Master) (a size : Nat) (write : Bool) (act : State → OutWin → State) : State :=
  match s.vmeDecode m a size write with
  | .misaligned => s.answer .misaligned
  | .foreign => s.violation m a
  | .refused => s.vmeRefuse m a
  | .window w => act s w

/-! ## The bus -/

/-- Has the bridge a cycle to run? -/
def VmeState.work (v : VmeState) : Bool :=
  !v.fifo.isEmpty || (v.reads.any fun r => r.ahead == 0 && r.filled.isNone) || (v.sems.any fun q => q.kind == .amo)
/-- Does the bridge request the bus? -/
def VmeState.wants (v : VmeState) : Bool := !v.owned && v.work

/-- Entries that follow `w` in its BLT, `k` left in the 256-byte block (R348). -/
def runFrom (win bytes next : Nat) : List VmeWrite → Nat
  | [] => 0
  | x :: t => if x.window = win ∧ x.bytes = bytes ∧ x.addr = next ∧ x.addr % 256 ≠ 0 then
      runFrom win bytes (next + bytes) t + 1 else 0

/-- Entries at the head that form one cycle, or one BLT where BLT_EN and R339 let them. -/
def State.runLength (s : State) (l : List VmeWrite) : Nat :=
  match l with
  | [] => 0
  | w :: t => if bitOf (s.outWin w.window).ctrl 2 ∧ 2 ≤ w.bytes then runFrom w.window w.bytes (w.addr + w.bytes) t + 1 else 1

/-- The modifier of a write that goes out in a BLT. -/
def asBlt (w : VmeWrite) : VmeWrite := { w with am := w.am + 2 }

/-- The head of the FIFO goes out on a bus that the bridge owns. -/
def State.issue (s : State) : State :=
  let v := s.vme
  if v.owned ∧ v.block = 0 ∧ !v.fifo.isEmpty ∧ !(s.frozen vmePage) then
    let n := s.runLength v.fifo
    if 1 < n then
      (s.setVme { v with block := n, fifo := (v.fifo.take n).map asBlt ++ v.fifo.drop n }).vmeBump 9 n
    else s.setVme { v with block := n }
  else s

/-- The arbiter's choice among requesting levels (R341): PRI the highest; RRS the next one downwards from the level
granted last. -/
def arbitrate (rrs : Bool) (last : Fin 4) (br : BitVec 4) : Option (Fin 4) :=
  let order : List Nat := if rrs then (List.range 4).map fun i => (last.val + 3 - i) % 4 else [3, 2, 1, 0]
  (order.find? fun n => br.getLsbD n).map (Fin.ofNat 4)

def State.reqLevel (s : State) : Fin 4 := Fin.ofNat 4 (s.field vmePage Reg.vme.vmeCtrl 1 0)

/-- As system controller the bridge grants the free bus (R341); the bridge's own grant is the command VME_BUS_GRANT. -/
def State.arbiter (s : State) : State :=
  let v := s.vme
  if !v.syscon ∨ v.owned ∨ v.granted.isSome then s
  else
    let own : BitVec 4 := if v.wants then 1#4 <<< s.reqLevel.val else 0#4
    match arbitrate (s.field vmePage Reg.vme.vmeCtrl 3 3 == 1) v.lastLevel (v.brOthers ||| own) with
    | none => s
    | some l =>
      if own.getLsbD l.val then s
      else s.setVme { v with granted := some l, lastLevel := l, brOthers := v.brOthers &&& ~~~(1#4 <<< l.val) }

/-- Between two cycles the bridge releases the bus (R341): when done (RWD), or on another master's request (ROR). -/
def State.betweenCycles (s : State) : State :=
  let v := s.vme
  if !v.owned ∨ v.block ≠ 0 then s
  else
    let ror := s.field vmePage Reg.vme.vmeCtrl 2 2 == 1
    if (ror && v.brOthers != 0#4) || (!ror && !v.work) then (s.setVme { v with owned := false }).arbiter else s.issue

/-- VME_BUS_GRANT (R341, R356): the bridge has the bus; its waiting cycles start. -/
def State.doBusGrant (s : State) : State :=
  if s.vme.wants then
    ((s.setVme { s.vme with owned := true, granted := none, lastLevel := s.reqLevel }).vmeBump 13 1).issue
  else s

def execVmeBusGrant (s : State) : Result := .next s.doBusGrant

/-- VME_BUS_REQUEST (R341). -/
def State.doBusRequest (s : State) (l : Fin 4) : State :=
  (s.setVme { s.vme with brOthers := s.vme.brOthers ||| (1#4 <<< l.val) }).betweenCycles.arbiter

def execVmeBusRequest (l : Fin 4) (s : State) : Result := .next (s.doBusRequest l)

/-- VME_DAISY_CHAIN_INPUT (R478): from power good on the outputs follow, except BGOUT on the bridge's own level. -/
def State.doDaisyChain (s : State) (iackIn : Bool) (bgIn : BitVec 4) : State :=
  let keep : BitVec 4 := 1#4 <<< s.reqLevel.val
  s.setVme { s.vme with iackOut := iackIn, bgOut := (bgIn &&& ~~~keep) ||| (s.vme.bgOut &&& keep) }

def execVmeDaisyChainInput (iackIn : Bool) (bgIn : BitVec 4) (s : State) : Result := .next (s.doDaisyChain iackIn bgIn)

/-! ## Outbound reads (R346, R347) -/

def VmeRead.isFor (r : VmeRead) (m : Master) (a : BitVec 40) (size : Nat) : Bool :=
  r.master == m && r.addr == a && r.size == size

/-- An outbound read that a window decodes: its filled entry is claimed, an entry that still waits answers RETRY, a new
read takes one of 8 entries. -/
def State.bufferedRead (s : State) (m : Master) (a : BitVec 40) (size : Nat) : State :=
  let v := s.vme
  match v.reads.find? fun r => r.isFor m a size with
  | some r =>
    match r.filled with
    | none => s.retry
    | some x =>
      let s1 := s.setVme { v with reads := v.reads.filter fun q => !(q.isFor m a size) }
      match x with
      | some d => s1.answer (.value d)
      | none => s1.answer (violationReply m)
  | none =>
    if v.reads.length < 8 then
      (s.setVme { v with reads := v.reads ++ [⟨m, a, size, v.fifo.length, none⟩] }).retry
    else s.retry

def State.vmeRead (s : State) (m : Master) (a : BitVec 40) (size : Nat) : State :=
  s.outbound m a.toNat size false fun t _ => t.bufferedRead m a size

/-- VME_OUTBOUND_READ (R346). -/
def execVmeOutboundRead (m : Master) (a : BitVec 40) (size : Nat) (s : State) : Result := .next (s.vmeRead m a size)
/-- VME_READ_REISSUE (R346): the same request again. -/
def execVmeReadReissue (m : Master) (a : BitVec 40) (size : Nat) (s : State) : Result := .next (s.vmeRead m a size)

/-- A stretched DTACK of workshop access is one application of PT_DTACK (R462). -/
def State.stretched (s : State) (bit : Nat) : State :=
  if bitOf (s.pt Reg.perturb.ptDtack) bit ∧ fieldOf (s.pt Reg.perturb.ptDtack) 9 0 ≠ 0 then s.ptApplied else s

/-- A fetch whose cycle ends (R346, R347): the entry is filled; a failure latches READ_FAILED. -/
def State.fetched (s : State) (m : Master) (a : BitVec 40) (size : Nat) (r : VmeAnswer) (berr : Bool) : State :=
  match s.vme.owned, s.vme.reads.find? (fun q => q.isFor m a size && q.ahead == 0 && q.filled.isNone), s.windowOf a.toNat with
  | true, some q, some w =>
    let put (x : Option DWord) : State := s.setVme
      { s.vme with reads := s.vme.reads.map fun y => if y = q then { q with filled := some x } else y }
    (match r with
    | some bs => (((put (some (w.value size bs))).vmeBump 0 (w.parts size)).bw 94 size).stretched 16
    | none => (((put none).satReg vmePage Reg.vme.readFails 1).vmeBump 12 berr.toNat).raise vmePage 2 []).betweenCycles
  | _, _, _ => s

/-- VME_READ_FETCH_DONE: DTACK with data, or BERR. -/
def execVmeReadFetchDone (m : Master) (a : BitVec 40) (size : Nat) (r : VmeAnswer) (s : State) : Result :=
  .next (s.fetched m a size r true)

/-! ## Posted writes (R348 to R351) -/

/-- The FIFO entries of a store: one for each cycle, with consecutive numbers. -/
def State.postedParts (s : State) (m : Master) (w : OutWin) (a size : Nat) (data : DWord) : List VmeWrite :=
  let n := w.part size
  (List.range (w.parts size)).map fun i =>
    let va := w.vmeAddr size (a + i * n)
    ⟨s.vme.accepted + BitVec.ofNat 32 (i + 1), vmeOriginator m, w.n, va, n, modifierOf w.space (bitOf w.ctrl 10),
     laneWord va (laneBytes (bitOf w.ctrl 1) ((leBytes size data.toNat).drop (i * n) |>.take n))⟩

/-- A semaphore's granule of an address. -/
def granuleOf (a : BitVec 40) : Nat := a.toNat / 64
/-- Does another originator hold the granule? -/
def State.lockedBy (s : State) (m : Master) (a : BitVec 40) : Bool :=
  s.vme.sems.any fun q => q.granule == granuleOf a && q.master != m

/-- A store that a window decodes (R348): into the FIFO, or RETRY while not all its cycles find an entry. -/
def State.accept (s : State) (m : Master) (w : OutWin) (a : BitVec 40) (size : Nat) (data : DWord) : State :=
  if s.lockedBy m a then s.lockWait
  else if 16 < s.vme.fifo.length + w.parts size then s.retry
  else
    let l := s.postedParts m w a.toNat size data
    ((s.setVme
      { s.vme with
        fifo := s.vme.fifo ++ l, accepted := s.vme.accepted + BitVec.ofNat 32 l.length }).issue).answer .none

def State.vmeWrite (s : State) (m : Master) (a : BitVec 40) (size : Nat) (data : DWord) : State :=
  s.outbound m a.toNat size true fun t w => t.accept m w a size data

/-- VME_POSTED_WRITE (R348). -/
def execVmePostedWrite (m : Master) (a : BitVec 40) (size : Nat) (data : DWord) (s : State) : Result :=
  .next (s.vmeWrite m a size data)

/-- The masters for which R18 holds values apart. -/
def allMasterKeys : List Nat := List.range 17
/-- A waiting fence read sees one write fewer ahead. -/
def stepFences (t : Tbl Nat) : Tbl Nat :=
  allMasterKeys.foldl (fun u k => let n := tblRead noEcc t k
    if 2 ≤ n then tblWrite noEcc u k (n - 1) else u) t

/-- The head of the FIFO reaches its final result (R349): it leaves, COMPLETED and VME_POSTED_SEQ take its number, and
whatever waited for it sees it gone. -/
def State.headLeaves (s : State) (w : VmeWrite) : State :=
  let v := s.vme
  { s with
    ledger := { s.ledger with vmePosted := w.seq },
    vme :=
      { v with
        fifo := v.fifo.tail, block := v.block - 1, completed := w.seq,
        reads := v.reads.map fun r => { r with ahead := r.ahead - 1 },
        sems := v.sems.map fun q => { q with ahead := q.ahead - 1 }, fences := stepFences v.fences } }

/-- The failure-log entry of a write (R349). -/
def failEntry (w : VmeWrite) (cause : Nat) : List Word :=
  [w.seq, BitVec.ofNat 32 w.addr, w.data,
   at' w.originator 0 ||| at' (if w.bytes = 1 then 0 else if w.bytes = 2 then 1 else 2) 4 ||| at' w.am 8 ||| at' cause 16
     ||| flag true 31]

/-- A posted write that fails: VME_FAILED, every master's count, the log, POSTED_WRITE_FAILED. -/
def State.headFails (s : State) (w : VmeWrite) (cause : Nat) : State :=
  let e := failEntry w cause
  let s1 := s.headLeaves w
  let one (t : Tbl Word) (k : Nat) : Tbl Word := tblWrite zeroWord t k (satWord (tblRead zeroWord t k) 1)
  let s2 :=
    { s1 with
      ledger := { s1.ledger with vmeFailed := satWord s1.ledger.vmeFailed 1 },
      vme := { s1.vme with failed := allMasterKeys.foldl one s1.vme.failed } }
  let idx := (s2.reg vmePage Reg.vme.logIndex).toNat % 16
  let s3 := (List.range 4).foldl (fun t i => t.setReg vmePage (Reg.vme.failLog + 16 * idx + 4 * i) (e.getD i 0#32)) s2
  (s3.incReg vmePage Reg.vme.logIndex 1).raise vmePage 1 e

/-- The write at the head, and with it the rest of its block, fails. -/
def State.blockFails (s : State) (cause : Nat) : State :=
  (s.vme.fifo.take s.vme.block).foldl (fun t w => t.headFails w cause) s

/-- The cycle or beat of the head ends: with DTACK, or with a failure by cause. -/
def State.writeEnds (s : State) (failure : Option Nat) : State :=
  if s.vme.block = 0 then s
  else match s.vme.fifo with
  | [] => s
  | w :: _ =>
    (match failure with
    | none =>
      (((s.headLeaves w).vmeBump (if isBlt w.am then 2 else 1) 1).bw 94 w.bytes).stretched 16
    | some c => (s.vmeBump 12 (if c = 2 then 0 else 1)).blockFails c).betweenCycles

/-- VME_WRITE_RESULT (R349): DTACK or BERR. -/
def execVmeWriteResult (dtack : Bool) (s : State) : Result := .next (s.writeEnds (if dtack then none else some 0))

/-- A cycle of the bridge that ran out of time: cause 1 the bus timer, 2 MASTER_TIMEOUT. -/
def State.cycleTimesOut (s : State) (c : VmeCycle) (cause : Nat) : State :=
  match c with
  | .posted => s.writeEnds (some cause)
  | .read m a size => s.fetched m a size none (cause == 1)
  | .other => s

/-- BUS_TIMER (R341): the system controller asserts BERR. -/
def execBusTimer (c : VmeCycle) (s : State) : Result :=
  .next (if s.vme.syscon then s.cycleTimesOut c 1 else s)

/-- MASTER_TIMEOUT (R341). -/
def execMasterTimeout (c : VmeCycle) (s : State) : Result := .next (s.cycleTimesOut c 2)

/-- BRIDGE_FENCE (R350). -/
def State.doFence (s : State) (m : Master) : State :=
  if !(regionAllows (columnOf m) .localPages false) then s.violation m (0x18150000 + Reg.vme.bridgeFence)
  else
    let k := masterKey m
    let v := s.vme
    let n := tblRead noEcc v.fences k
    let ahead := if n = 0 then v.fifo.length else n - 1
    if ahead = 0 then
      (s.setVme
        { v with
          fences := tblWrite noEcc v.fences k 0, failed := tblWrite zeroWord v.failed k 0#32 }).answer
        (.value ((tblRead zeroWord v.failed k).zeroExtend 64))
    else (s.setVme { v with fences := tblWrite noEcc v.fences k (ahead + 1) }).retry

def execBridgeFence (m : Master) (s : State) : Result := .next (s.doFence m)

/-! ## Locked sequences (R352) -/

def Semaphore.is (q : Semaphore) (g : Nat) (m : Master) : Bool := q.granule == g && q.master == m
/-- The semaphores without those of granule `g` held by `m`. -/
def VmeState.unlock (v : VmeState) (g : Nat) (m : Master) : List Semaphore := v.sems.filter fun q => !(q.is g m)
/-- Semaphores held, an inbound RMW's included. -/
def VmeState.held (v : VmeState) : Nat := v.sems.length + v.rmw.isSome.toNat

/-- An AMO that a window decodes: its semaphore, the FIFO drained ahead of it, one RMW cycle. -/
def State.amoCycle (s : State) (m : Master) (w : OutWin) (a : BitVec 40) (size : Nat) (r : VmeAnswer) : State :=
  let g := granuleOf a
  let v := s.vme
  if w.width < size ∨ 8 ≤ size then s.vmeRefuse m a.toNat
  else if s.lockedBy m a then s.lockWait
  else
    let mine := v.sems.find? fun q => q.is g m && q.kind == .amo
    let rest := v.unlock g m
    let ahead := match mine with | some q => q.ahead | none => v.fifo.length
    if mine.isNone ∧ 16 ≤ rest.length + v.rmw.isSome.toNat then s.retry
    else if ahead ≠ 0 then (s.setVme { v with sems := rest ++ [⟨g, m, .amo, ahead⟩] }).retry
    else
      let s1 := (s.setVme { v with sems := rest }).vmeBump 3 1
      match r with
      | some bs => ((s1.bw 94 (2 * size)).stretched 16).answer (.value (w.value size bs))
      | none => (s1.vmeBump 12 1).answer (violationReply m)

def State.vmeAmo (s : State) (m : Master) (a : BitVec 40) (size : Nat) (r : VmeAnswer) : State :=
  s.outbound m a.toNat size true fun t w => t.amoCycle m w a size r

/-- VME_AMO (R352). What the operation makes of the old value goes out on the bus. -/
def execVmeAmo (m : Master) (a : BitVec 40) (size : Nat) (_f5 : BitVec 5) (_src : DWord) (r : VmeAnswer) (s : State) : Result :=
  .next (s.vmeAmo m a size r)

/-- An LR that a window decodes: it takes its granule's semaphore, giving up the originator's earlier one, and reads. -/
def State.lrRead (s : State) (m : Master) (a : BitVec 40) (size : Nat) : State :=
  let g := granuleOf a
  let v := s.vme
  if v.reads.any fun r => r.isFor m a size then s.bufferedRead m a size
  else if s.lockedBy m a then s.lockWait
  else
    let rest := v.sems.filter fun q => !(q.is g m) && !(q.master == m && q.kind == .lr)
    if 16 ≤ rest.length + v.rmw.isSome.toNat then (s.setVme { v with sems := rest }).retry
    else (s.setVme { v with sems := rest ++ [⟨g, m, .lr, 0⟩] }).bufferedRead m a size

def State.vmeLr (s : State) (m : Master) (a : BitVec 40) (size : Nat) : State :=
  s.outbound m a.toNat size false fun t _ => t.lrRead m a size

/-- VME_LR (R352). -/
def execVmeLr (m : Master) (a : BitVec 40) (size : Nat) (s : State) : Result := .next (s.vmeLr m a size)

/-- Does `m` hold the semaphore of the granule by an LR? -/
def State.holdsLr (s : State) (m : Master) (a : BitVec 40) : Bool :=
  s.vme.sems.any fun q => q.is (granuleOf a) m && q.kind == .lr

/-- An SC that a window decodes: an unposted single cycle while the semaphore is held, or 1. -/
def State.scCycle (s : State) (m : Master) (a : BitVec 40) (size : Nat) (dtack : Bool) : State :=
  if s.holdsLr m a then
    let s1 := (s.setVme { s.vme with sems := s.vme.unlock (granuleOf a) m }).vmeBump 1 1
    if dtack then ((s1.bw 94 size).stretched 16).answer (.value 0#64)
    else (s1.vmeBump 12 1).answer (violationReply m)
  else s.answer (.value 1#64)

def State.vmeSc (s : State) (m : Master) (a : BitVec 40) (size : Nat) (dtack : Bool) : State :=
  s.outbound m a.toNat size true fun t _ => t.scCycle m a size dtack

/-- VME_SC (R352). -/
def execVmeSc (m : Master) (a : BitVec 40) (size : Nat) (_data : DWord) (dtack : Bool) (s : State) : Result :=
  .next (s.vmeSc m a size dtack)

/-- LR_SEMAPHORE_TIMEOUT (R352): at 100 µs the originator's LR semaphore is released. -/
def State.doLrTimeout (s : State) (m : Master) : State :=
  s.setVme { s.vme with sems := s.vme.sems.filter fun q => !(q.master == m && q.kind == .lr) }

def execLrSemaphoreTimeout (m : Master) (s : State) : Result := .next (s.doLrTimeout m)

/-! ## Inbound cycles (R353 to R355) -/

/-- What an address modifier says (R340): space code, BLT, supervisory; none for any other modifier. -/
def amOf (am : BitVec 6) : Option (Nat × Bool × Bool) :=
  match am.toNat with
  | 0x09 => some (2, false, false) | 0x0d => some (2, false, true) | 0x0b => some (2, true, false) | 0x0f => some (2, true, true)
  | 0x39 => some (1, false, false) | 0x3d => some (1, false, true) | 0x3b => some (1, true, false) | 0x3f => some (1, true, true)
  | 0x29 => some (0, false, false) | 0x2d => some (0, false, true)
  | _ => none

def State.inCtrl (s : State) (n : Nat) : Word := s.reg vmePage (Reg.vme.iwinCtrl + 0x10 * n)
/-- VME_BASE, size and offset in shared SRAM of inbound window `n`. -/
def State.inBase (s : State) (n : Nat) : Nat := (s.reg vmePage (Reg.vme.iwinVme + 0x10 * n)).toNat
def State.inSize (s : State) (n : Nat) : Nat := 2 ^ s.field vmePage (Reg.vme.iwinSize + 0x10 * n) 4 0
def State.inLocal (s : State) (n : Nat) : Nat := 4096 * s.field vmePage (Reg.vme.iwinLocal + 0x10 * n) 12 0

/-- May an inbound window be enabled with this CTRL value (R354)? -/
def State.inWinOk (s : State) (n : Nat) (v : Word) : Bool :=
  let sp := fieldOf v 9 8
  let b := s.inBase n
  let z := s.inSize n
  b % z == 0 && s.inLocal n % z == 0 && decide (s.inLocal n + z ≤ 0x2000000)
    && !(sp == 0 && decide (0x10000 < z)) && !(sp == 1 && decide (0x1000000 < z))
    && ((List.range 4).all fun k => k == n || !(bitOf (s.inCtrl k) 0) || fieldOf (s.inCtrl k) 9 8 != sp
      || decide (b + z ≤ s.inBase k) || decide (s.inBase k + s.inSize k ≤ b))

/-- The window that decodes an inbound cycle, the cycle's offset in shared SRAM, and whether it is a BLT beat. A cycle
type that R339 does not list is not answered. -/
def State.inDecode (s : State) (c : InboundCycle) : Option (Nat × Bool) :=
  match amOf c.am with
  | none => none
  | some (sp, blt, super) =>
    let a := c.addr.toNat % 2 ^ spaceBits sp
    let hit (n : Nat) : Bool :=
      let w := s.inCtrl n
      bitOf w 0 && fieldOf w 9 8 == sp && bitOf w (if super then 3 else 2) && (!blt || (bitOf w 4 && c.bytes != 1))
        && decide (s.inBase n ≤ a ∧ a < s.inBase n + s.inSize n)
    if !(s.working vmePage) ∨ !([1, 2, 4].contains c.bytes) then none
    else ((List.range 4).find? hit).map fun n =>
      (s.inLocal n + laneAddr (bitOf (s.inCtrl n) 1) 4 c.bytes (a - s.inBase n), blt)

/-- Is the window's lane rule DATA_INVARIANT? -/
def State.inInvariant (s : State) (c : InboundCycle) : Bool :=
  match amOf c.am with
  | none => false
  | some (sp, _, _) =>
    let a := c.addr.toNat % 2 ^ spaceBits sp
    (List.range 4).any fun n => bitOf (s.inCtrl n) 0 && fieldOf (s.inCtrl n) 9 8 == sp && bitOf (s.inCtrl n) 1
      && decide (s.inBase n ≤ a ∧ a < s.inBase n + s.inSize n)

/-- An inbound cycle: not decoded (no DTACK), unaligned (BERR, R339), or `act` on its shared-SRAM offset. -/
def State.inboundCycle (s : State) (c : InboundCycle) (act : State → Nat → Bool → State) : State :=
  match s.inDecode c with
  | none => s.answer .none
  | some (off, blt) => if c.addr.toNat % c.bytes ≠ 0 then s.answer .busError else act s off blt

/-- DTACK. -/
def State.dtack (s : State) (v : DWord) : State := (s.stretched 17).answer (.value v)

/-- The inbound write buffer drains into shared SRAM; a write to a granule that an RMW holds waits (R353). -/
def drainInbound (rmw : Option Nat) : List (Nat × List Byte) → State → State
  | [], s => s.setVme { s.vme with inbound := [] }
  | e :: t, s =>
    if rmw = some (e.1 / 64) then s.setVme { s.vme with inbound := e :: t } else drainInbound rmw t (s.sramWrite e.1 e.2)
def State.inboundDrain (s : State) : State :=
  if s.vme.inbound.isEmpty then s else drainInbound s.vme.rmw s.vme.inbound s

/-- VME_INBOUND_WRITE (R355): into the buffer with DTACK; DTACK withheld while it holds 8. -/
def State.doInboundWrite (s : State) (c : InboundCycle) (data : List Byte) : State :=
  s.inboundCycle c fun t off blt =>
    if t.vme.inbound.length < 8 then
      (((t.setVme
        { t.vme with inbound := t.vme.inbound ++ [(off, laneBytes (t.inInvariant c) (padTo c.bytes data))] }).vmeBump
          (if blt then 6 else 5) 1).bw 95 c.bytes).dtack 0#64
    else t.answer .wait

def execVmeInboundWrite (c : InboundCycle) (data : List Byte) (s : State) : Result := .next (s.doInboundWrite c data)

/-- Data from shared SRAM as driven on D31 to D0; BERR and INBOUND_ECC on an uncorrectable word. -/
def State.inboundData (s : State) (c : InboundCycle) (off : Nat) (act : State → Word → State) : State :=
  match s.sramRead off c.bytes with
  | some l => act s (laneWord c.addr.toNat (laneBytes (s.inInvariant c) l))
  | none => (s.raise vmePage 4 []).answer .busError

/-- VME_INBOUND_READ (R355): once the buffer has drained. -/
def State.doInboundRead (s : State) (c : InboundCycle) : State :=
  s.inboundCycle c fun t off blt =>
    let t1 := t.inboundDrain
    if !t1.vme.inbound.isEmpty then t1.answer .wait
    else t1.inboundData c off fun u w => ((u.vmeBump (if blt then 6 else 4) 1).bw 95 c.bytes).dtack (w.zeroExtend 64)

def execVmeInboundRead (c : InboundCycle) (s : State) : Result := .next (s.doInboundRead c)

/-- VME_INBOUND_RMW (R353): the read takes the granule's semaphore; the write is performed while it is held, and answered
BERR once the lock is broken. -/
def State.doInboundRmw (s : State) (c : InboundCycle) (data : Option (List Byte)) : State :=
  s.inboundCycle c fun t off _ =>
    match data with
    | none =>
      let t1 := t.inboundDrain
      if !t1.vme.inbound.isEmpty then t1.answer .wait
      else if t1.vme.rmw.isNone ∧ 16 ≤ t1.vme.sems.length then (t1.vmeBump 11 1).answer .wait
      else t1.inboundData c off fun u w =>
        ((u.setVme { u.vme with rmw := some (off / 64) }).bw 95 c.bytes).dtack (w.zeroExtend 64)
    | some bs =>
      if t.vme.rmw = some (off / 64) then
        ((((t.sramWrite off (laneBytes (t.inInvariant c) (padTo c.bytes bs))).setVme { t.vme with rmw := none }).vmeBump
          7 1).bw 95 c.bytes).dtack 0#64
      else t.answer .busError

def execVmeInboundRmw (c : InboundCycle) (data : Option (List Byte)) (s : State) : Result := .next (s.doInboundRmw c data)

/-- The RMW lock breaks (R353): LOCK_BROKEN. -/
def State.breakLock (s : State) : State :=
  if s.vme.rmw.isSome then (s.setVme { s.vme with rmw := none }).raise vmePage 5 [] else s

/-- LOCK_BROKEN: a control-plane write to the granule, or no write 10 µs after the read. -/
def execLockBroken (s : State) : Result := .next s.breakLock

/-- A span of shared SRAM that a master wants to write: the control plane breaks an RMW's lock on it, the other planes
wait (R353). -/
def State.sramLocked (s : State) (off n : Nat) : Bool :=
  match s.vme.rmw with | some g => (spanWords 64 off n).contains g | none => false

/-! ## Interrupts (R357) -/

def irqFailsOf (s : State) (l : Nat) : Nat := tblRead noEcc s.vme.irqFails l
/-- IRQ_DISABLED of a level. -/
def State.irqOff (s : State) (l : Nat) : Bool := bitOf (s.reg vmePage Reg.vme.irqState) l

/-- The IACK cycle of a level and what follows from it. -/
def State.iack (s : State) (l : Nat) (ack : Option Word) : State :=
  let s1 := s.vmeBump 10 1
  let put (t : State) (n : Nat) : State := t.setVme { t.vme with irqFails := tblWrite noEcc t.vme.irqFails l n }
  match ack with
  | some id =>
    let cfg := s.reg vmePage (Reg.vme.irqCfg + 4 * (l - 1))
    (put s1 0).messageTo (fieldOf cfg 10 8) (BitVec.ofNat 16 (fieldOf cfg 31 16 + id.toNat % 256))
  | none =>
    let n := irqFailsOf s l + 1
    if n < 3 then put s1 n
    else ((put s1 0).setReg vmePage Reg.vme.irqState (setBit (s1.reg vmePage Reg.vme.irqState) l true)).raise vmePage 6 []

/-- IRQ_POLL (R357): the levels asserted, from the highest down; `acks` holds what each level's IACK cycle ends with, a
status/ID or a failure, at the level's index. -/
def State.doIrqPoll (s : State) (asserted : BitVec 8) (acks : List (Option Word)) : State :=
  if !(s.working vmePage) then s
  else
    let s0 := s.setReg vmePage Reg.vme.irqState
      (setField (s.reg vmePage Reg.vme.irqState) 15 9 (asserted.toNat / 2))
    [7, 6, 5, 4, 3, 2, 1].foldl (fun t l =>
      if asserted.getLsbD l ∧ bitOf (t.reg vmePage Reg.vme.irqEnable) l ∧ !(t.irqOff l) then t.iack l (acks.getD l none)
      else t) s0

def execIrqPoll (asserted : BitVec 8) (acks : List (Option Word)) (s : State) : Result := .next (s.doIrqPoll asserted acks)

/-- IRQ_ENABLE_WRITE (R357): IRQ_DISABLED clears for the levels written 1, and their failures count anew. -/
def State.doIrqEnable (s : State) (v : Word) : State :=
  let s1 := s.storeReg vmePage Reg.vme.irqEnable v
  let s2 := s1.setReg vmePage Reg.vme.irqState (s1.reg vmePage Reg.vme.irqState &&& ~~~(v &&& 0xfe#32))
  s2.setVme
    { s2.vme with
      irqFails := (List.range 8).foldl (fun t l => if bitOf v l then tblWrite noEcc t l 0 else t) s2.vme.irqFails }

def execIrqEnableWrite (m : Master) (v : Word) (s : State) : Result :=
  .next (s.written m vmePage Reg.vme.irqEnable fun t => t.doIrqEnable v)

/-! ## Register writes, run states, books, views -/

/-- Is `off` one of the registers that ignore writes while the bridge is not OFF (R358)? -/
def vmeFixed (off : Nat) : Bool :=
  off == Reg.vme.vmeCtrl || off == Reg.vme.vmeTimeouts || decide (0x200 ≤ off ∧ off < 0x340)

/-- A write of a register of page 0x150 other than IRQ_ENABLE (R343, R354, R358; the codes of WIDTH, SPACE, IACK_WIDTH
and TARGET have a range, R359). -/
def State.vmeRegWrite (s : State) (off : Nat) (v : Word) : State :=
  if vmeFixed off ∧ (s.page vmePage).run ≠ .off then s
  else if 0x200 ≤ off ∧ off < 0x300 ∧ off % 0x20 = 0 then
    let n := (off - 0x200) / 0x20
    if fieldOf v 5 4 = 3 ∨ fieldOf v 9 8 = 3 ∨ s.locked vmePage then s
    else if bitOf v 0 ∧ !(s.outWinOk n v) then s.raise vmePage 3 []
    else s.storeReg vmePage off v
  else if 0x300 ≤ off ∧ off < 0x340 ∧ off % 0x10 = 0 then
    let n := (off - 0x300) / 0x10
    if fieldOf v 9 8 = 3 ∨ s.locked vmePage then s
    else if bitOf v 0 ∧ !(s.inWinOk n v) then s.raise vmePage 3 []
    else s.storeReg vmePage off v
  else if Reg.vme.irqCfg ≤ off ∧ off < 0x160 ∧ (fieldOf v 13 12 = 3 ∨ 4 < fieldOf v 10 8) then s
  else s.storeReg vmePage off v

/-- Leaving ON (R358): filled and waiting read-buffer entries are freed, semaphores released. -/
def State.vmeStops (s : State) : State :=
  s.setVme { s.vme with reads := [], sems := [], rmw := none }
/-- Has the bridge drained (R358): no posted write without its final result, no inbound write buffered? -/
def State.vmeDrained (s : State) : Bool := s.vme.fifo.isEmpty && s.vme.inbound.isEmpty

/-- LOCAL_RESET of the bridge (R358), its registers returned to reset already: the FIFO discarded, its numbers recorded. -/
def State.vmeLocalReset (s : State) : State :=
  let v := s.vme
  let first := match v.fifo.head? with | some w => w.seq | none => 0#32
  let last := match v.fifo.getLast? with | some w => w.seq | none => 0#32
  ((s.setVme
    { v with
      owned := false, completed := v.accepted, fifo := [], block := 0, reads := [], failed := [], fences := [], sems := [],
      inbound := [], rmw := none, irqFails := [] }).setReg vmePage Reg.vme.abandonedFirst first).setReg vmePage
      Reg.vme.abandonedLast last

/-- SNAP of page 0x150 (R351). -/
def State.captureVme (s : State) : State :=
  ((s.setReg vmePage Reg.vme.snapAccepted s.vme.accepted).setReg vmePage Reg.vme.snapCompleted s.vme.completed).setReg
    vmePage Reg.vme.snapLevel (at' s.vme.fifo.length 0)
/-- Do the captured books break their invariant? -/
def State.vmeImbalance (s : State) : Bool :=
  s.reg vmePage Reg.vme.snapAccepted != s.reg vmePage Reg.vme.snapCompleted + s.reg vmePage Reg.vme.snapLevel

/-- The registers of page 0x150 that other state holds. -/
def State.vmeView (s : State) (off : Nat) : Option Word :=
  let v := s.vme
  if off = Reg.vme.vmeStatus then
    some (flag v.syscon 0 ||| flag v.owned 1 ||| at' v.fifo.length 8 ||| at' v.reads.length 16 ||| at' v.held 24)
  else if off = Reg.vme.acceptedSeq then some v.accepted
  else if off = Reg.vme.completedSeq then some s.ledger.vmePosted
  else if off = Reg.vme.failedTotal then some s.ledger.vmeFailed
  else none

end Sys2Proof.Machine
end

