-- ==== Sys2Proof/Machine/Pages.lean ====
section
/-!
DEFINITION. Register pages as units (chapters 01 and 02): run states, LOCK and LOCAL_RESET, long operations, audit
snapshots, the ledger's captures, the fault records' way out of their FIFOs, the clock page.
-/
namespace Sys2Proof.Machine

/-! ## The tree -/

/-- Is page `q` page `p` or a page below it (R43 to R45)? Pages lie at most four deep. -/
def isUnder (p q : Nat) : Bool :=
  let up (r : Option Nat) : Option Nat := r.bind pageParent
  let q1 := pageParent q
  let q2 := up q1
  let q3 := up q2
  q == p || q1 == some p || q2 == some p || q3 == some p

/-- A page and every page below it, in ascending order. -/
def subtree (p : Nat) : List Nat := allPages.filter (isUnder p)
/-- The pages below a page. -/
def below (p : Nat) : List Nat := (subtree p).filter fun q => q != p

/-- Does the page's unit follow the run states of R39? -/
def followsRuns (p : Nat) : Bool := match pageUnit p with | some (k, _) => followsRunStates k | none => false

/-! ## Run states (R39 to R42) -/

/-- What a unit that leaves ON stops at once: its operation in progress (R51), a port's queued frames and a CAN
controller's fetched descriptor (R265, R301), a channel's swaps (R336), the bridge's reads and semaphores (R358). -/
def State.leaveOn (s0 : State) (p : Nat) : State :=
  let s := s0.opAborted p 4#32
  match pageUnit p with
  | some (.port, n) => s.dropEgress n
  | some (.can, n) => s.canStop n
  | some (.ch, _) | some (.tracker, _) => s.measStopped p
  | some (.vme, _) => s.vmeStops
  | _ => s

/-- A unit follows its effective enable (R39, R40). -/
def State.follow (s : State) (p : Nat) : State :=
  if !followsRuns p then s
  else
    let g := s.page p
    let e := s.effEnable p
    match g.run with
    | .off => if e then s.setPage p { g with run := .starting } else s
    | .on => if e then s else (s.setPage p { g with run := .stopping, pending := false }).leaveOn p
    | .stopping => s.setPage p { g with pending := e }
    | .starting | .faulted => s

/-- A page and every page below it follow their effective enables. -/
def State.followAll (s : State) (p : Nat) : State := (subtree p).foldl State.follow s

/-- ENABLE written (R39, R40): a FAULTED unit written 0 stops; LOCK bars the write. -/
def State.doEnable (s : State) (p : Nat) (b : Bool) : State :=
  if s.locked p ∨ !followsRuns p then s
  else
    let g := s.page p
    let g1 := { g with enable := b }
    (s.setPage p (if g.run = .faulted ∧ !b then { g1 with run := .stopping, pending := false } else g1)).followAll p

/-- ENABLE_WRITE. -/
def execEnableWrite (m : Master) (page : Nat) (b : Bool) (s : State) : Result :=
  .next (s.written m page 0x008 fun t => t.doEnable page b)

/-- FREEZE written (R35): the bit is stored; it acts while workshop access is open (`State.frozen`). -/
def State.doFreeze (s : State) (p : Nat) (b : Bool) : State :=
  if s.locked p ∨ !followsRuns p then s else s.setPage p { s.page p with freeze := b }

/-- FREEZE_WRITE. -/
def execFreezeWrite (m : Master) (page : Nat) (b : Bool) (s : State) : Result :=
  .next (s.written m page 0x008 fun t => t.doFreeze page b)

/-- LOCK written (R9, R44): it stays set until module reset; on page 0x010 the four comparator values go to the
supervisor, which echoes them (R102). -/
def State.doLock (s : State) (p : Nat) : State :=
  let s1 := s.setPage p { s.page p with lock := true }
  if p = 0x010 ∧ !s.locked p then
    s1.setEcho (s.reg 0x010 Reg.cluster.ckptInterval) (s.reg 0x010 Reg.cluster.ckptTimeout)
      (s.reg 0x010 Reg.cluster.ckptGap) (s.reg 0x010 Reg.cluster.voteTimeout)
  else s1

/-- LOCK. -/
def execLock (m : Master) (page : Nat) (s : State) : Result :=
  .next (s.written m page 0x008 fun t => t.doLock page)

/-! ## LOCAL_RESET (R42, R44) -/

/-- The registers of a page at their reset values, FAULT_STATUS and FAULT_COUNT kept. -/
def State.resetRegs (s : State) (p : Nat) : State :=
  { s with
    regs := tblDrop (fun k => k / 0x1000 == p && k % 0x1000 != 0x010 && k % 0x1000 != 0x014) s.regs }

/-- The long operation of a page under LOCAL_RESET: one in progress ends ABORTED with code 5, any other state becomes
IDLE; OP_RESULT is kept. -/
def State.resetOp (s : State) (p : Nat) : State :=
  if (s.op p).inProgress then s.opAborted p 5#32
  else s.setOp p { opReset p with result := (s.op p).result }

/-- The tracker without a history. -/
def trkReset : Tracker := ⟨none, false, none, none, [], false, 0, 0, 0, 15, 15, 0⟩

/-- What a unit itself loses: frames, histories, filters. The forwarding database, the PRP tables and the stream filters
go with FDB_COUNT, PRP_NODES, SEQ_TX and CB_STREAMS, whose reset values are 0 (log entry 51). -/
def State.resetOwn (s : State) (p : Nat) : State :=
  match pageUnit p with
  | some (.port, n) =>
    let s1 := s.dropEgress n
    let g := s1.swPort n
    let s2 := s1.setSwPort n { portReset n with link := g.link, speed := g.speed }
    s2.setNet { s2.net with credits := tblDrop (fun k => k / 4 == n) s2.net.credits }
  | some (.queue, n) => s.queueReset n
  | some (.bridge, _) => s.setNet { s.net with fdb := [] }
  | some (.prp, _) => s.setNet { s.net with nodes := [], proxies := [], prpSeq := 0#16 }
  | some (.streams, _) => s.setNet { s.net with streams := [], recovery := [] }
  | some (.trdp, _) => s.trdpRestart p
  | some (.mvb, n) => s.setMvb n { mvbReset n with ports := (s.mvb n).ports, polls := (s.mvb n).polls, newPolls := (s.mvb n).newPolls }
  | some (.can, n) => s.setCan n (canReset n)
  | some (.ch, n) => (s.setCh n (chReset n)).settleLines
  | some (.out, n) => s.setOut n (outReset n)
  | some (.tracker, _) => s.setTrk trkReset
  | some (.vme, _) => s.vmeLocalReset
  | _ => s

/-- One unit reset; a unit whose own LOCK is set, or that has no run states, is left alone. -/
def State.resetUnit (s : State) (p : Nat) : State :=
  if s.locked p ∨ !followsRuns p then s
  else
    let s1 := ((s.resetRegs p).resetOp p).resetOwn p
    s1.setPage p { s1.page p with enable := false, freeze := false, run := .off, pending := false }

/-- LOCAL_RESET written: the unit and every unit below it; units whose effective enable falls with it stop. -/
def State.doLocalReset (s : State) (p : Nat) : State :=
  if s.locked p ∨ !followsRuns p then s else ((subtree p).foldl State.resetUnit s).followAll p

/-- LOCAL_RESET. -/
def execLocalReset (m : Master) (page : Nat) (s : State) : Result :=
  .next (s.written m page 0x008 fun t => t.doLocalReset page)

/-- PAGE_CTRL written whole: LOCAL_RESET discards whatever meets it (R41); else FREEZE, ENABLE, then LOCK. -/
def State.pageCtrl (s : State) (p : Nat) (v : Word) : State :=
  if bitOf v 2 ∧ !s.locked p ∧ followsRuns p then s.doLocalReset p
  else
    let s1 := (s.doFreeze p (bitOf v 1)).doEnable p (bitOf v 0)
    if bitOf v 3 then s1.doLock p else s1

/-! ## Starting and draining -/

/-- May a start complete (R44): a group waits for every unit below it whose effective enable is 1? -/
def State.startReady (s : State) (p : Nat) : Bool :=
  (below p).all fun q =>
    !followsRuns q || !(s.effEnable q) || (s.page q).run == .on || (s.page q).run == .faulted

/-- What a unit does as it starts: the checks of R336, the entries of R257. -/
def State.starts (s : State) (p : Nat) : State :=
  match pageUnit p with
  | some (.trdp, _) => s.trdpRestart p
  | _ => s.startCheck p

/-- START_COMPLETES (R39): ON, or STOPPING where the effective enable has fallen. -/
def State.doStartCompletes (s : State) (p : Nat) : State :=
  if (s.page p).run ≠ .starting ∨ !(s.startReady p) then s
  else
    let s1 := s.starts p
    if (s1.page p).run ≠ .starting then s1
    else s1.setPage p { s1.page p with run := if s1.effEnable p then .on else .stopping, pending := false }

def execStartCompletes (page : Nat) (s : State) : Result := .next (s.doStartCompletes page)

/-- Has a stopping unit drained (R44, R265, R358)? A transmit queue has once every descriptor read is written back, the
bridge once every write has its result. -/
def State.drained (s : State) (p : Nat) : Bool :=
  ((below p).all fun q => !followsRuns q || (s.page q).run == .off || (s.page q).run == .faulted) &&
  match pageUnit p with
  | some (.queue, n) => decide (n < 32) || (s.ring n).active.isEmpty
  | some (.vme, _) => s.vmeDrained
  | _ => true

/-- DRAIN_COMPLETES (R39, R40): OFF, and one cycle later STARTING where ENABLE_PENDING is 1. -/
def State.doDrainCompletes (s : State) (p : Nat) : State :=
  if (s.page p).run ≠ .stopping ∨ !(s.drained p) then s
  else
    let g := s.page p
    (s.measOff p).setPage p { g with run := if g.pending then .starting else .off, pending := false }

def execDrainCompletes (page : Nat) (s : State) : Result := .next (s.doDrainCompletes page)

/-! ## Long operations (R50 to R53) -/

/-- The opcodes that a unit implements: RESEED_REPORT (R133), IMAGE_CHECK (R169), BANK_LOAD (R315) and COEF_LOAD (R335),
EXPORT and EXPORT_LIFETIME (R394), the eight of R405, WRITE_GEN (R416). -/
def opcodes : UnitKind → List Nat
  | .redundancy | .cleImage | .ch | .out | .settings => [1]
  | .recorder => [1, 2]
  | .update => [1, 2, 3, 4, 5, 6, 7, 8]
  | _ => []

/-- Is an opcode one of unit page `p`? -/
def hasOpcode (p n : Nat) : Bool := match pageUnit p with | some (k, _) => (opcodes k).contains n | none => false
/-- Does the page run long operations (HAS_OPS)? -/
def runsOps (p : Nat) : Bool := match pageUnit p with | some (k, _) => hasOps k | none => false
/-- May the opcode start while the unit is OFF? Channels and outputs load their banks in OFF too (R315, R335). -/
def opInOff (p n : Nat) : Bool := decide (0x108 ≤ p ∧ p < 0x130) && n == 1

/-- Is a START accepted (R51)? -/
def State.startAccepted (s : State) (p n : Nat) : Bool :=
  runsOps p && !(s.op p).inProgress && (s.isOn p || ((s.page p).run == .off && opInOff p n))

/-- START (R51): the arguments latched, the counts cleared, the operation QUEUED; an opcode that the unit does not
implement fails with code 1 (R53). IMAGE_CHECK clears its results (R169). -/
def State.doOpStart (s : State) (p : Nat) (n : Fin 16) : State :=
  if !(s.startAccepted p n.val) then s
  else
    let a (i : Nat) : Word := s.reg p (0x020 + 4 * i)
    let s1 := s.setOp p ⟨.queued, n, 0, 0#32, 0#32, a 0, a 1, a 2, a 3, false⟩
    if !(hasOpcode p n.val) then s1.opFail p 1#32
    else if p = 0x044 then (s1.setReg p Reg.cleImage.checkCrc 0#32).setReg p Reg.cleImage.checkIndex 0xffffffff#32
    else s1

/-- OP_START. -/
def execOpStart (m : Master) (page : Nat) (opcode : Fin 16) (s : State) : Result :=
  .next (s.written m page 0x038 fun t => t.doOpStart page opcode)

/-- ABORT: an operation in progress ends ABORTED with code 3. -/
def execOpAbort (m : Master) (page : Nat) (s : State) : Result :=
  .next (s.written m page 0x038 fun t => t.opAborted page 3#32)

/-- SUSPEND: a RUNNING operation. -/
def State.doOpSuspend (s : State) (p : Nat) : State :=
  if (s.op p).phase = .running then s.setOp p { s.op p with phase := .suspended, selfSuspended := false } else s
def execOpSuspend (m : Master) (page : Nat) (s : State) : Result :=
  .next (s.written m page 0x038 fun t => t.doOpSuspend page)

/-- RESUME: a SUSPENDED operation that the unit has not suspended itself. -/
def State.doOpResume (s : State) (p : Nat) : State :=
  let o := s.op p
  if o.phase = .suspended ∧ !o.selfSuspended then s.setOp p { o with phase := .running } else s
def execOpResume (m : Master) (page : Nat) (s : State) : Result :=
  .next (s.written m page 0x038 fun t => t.doOpResume page)

/-- OP_CMD written (R50). -/
def State.opCmd (s : State) (p : Nat) (v : Word) : State :=
  let a := fieldOf v 31 28
  if a = 1 then s.doOpStart p ⟨fieldOf v 27 24 % 16, Nat.mod_lt _ (by decide)⟩
  else if a = 2 then s.opAborted p 3#32
  else if a = 3 then s.doOpSuspend p
  else if a = 4 then s.doOpResume p
  else s

/-- OP_RUN_BEGIN: the unit's resource is free; a frozen unit begins no item (R35). -/
def execOpRunBegin (page : Nat) (s : State) : Result :=
  .next (if (s.op page).phase = .queued ∧ !(s.frozen page) then s.setOp page { s.op page with phase := .running } else s)

/-- Does the chapter declare the operation error-tolerant? EXPORT alone (R394). -/
def opTolerant (p n : Nat) : Bool := p == 0x162 && n == 1

/-- OP_ITEM_COMPLETE (R52, R53): one item of a RUNNING operation, its result counted, its error noted; the operation ends
FAILED at an error it does not tolerate, DONE with its last item. -/
def State.doItemComplete (s : State) (p : Nat) (result : Bool) (error : Word) (last : Bool) : State :=
  let o := s.op p
  if o.phase ≠ .running then s
  else if error ≠ 0#32 ∧ !(opTolerant p o.opcode.val) then s.opFail p error
  else
    let o1 := (o.note error).advance 1 result.toNat
    s.setOp p (if last then { o1 with phase := .done } else o1)

def execOpItemComplete (page : Nat) (result : Bool) (error : Word) (last : Bool) (s : State) : Result :=
  .next (s.doItemComplete page result error last)

/-- OP_SELF_SUSPEND and OP_SELF_RESUME: the unit's own. -/
def execOpSelfSuspend (page : Nat) (s : State) : Result :=
  .next (if (s.op page).phase = .running then s.setOp page { s.op page with phase := .suspended, selfSuspended := true }
    else s)
def execOpSelfResume (page : Nat) (s : State) : Result :=
  .next (if (s.op page).phase = .suspended ∧ (s.op page).selfSuspended then
      s.setOp page { s.op page with phase := .running, selfSuspended := false }
    else s)

/-! ## Audit snapshots (R61, R62) -/

/-- The capture of page 0x010 (R98). -/
def State.captureCluster (s : State) : State :=
  let c := s.clu
  let lv (k : Copy) : Nat := (s.cp k).fifo.length
  let s1 := s.setReg64 0x010 Reg.cluster.snapPerformedLo c.performed
  let s2 := allCopies.foldl (fun t k => t.setReg64 0x010 (Reg.cluster.snapConsumed + 8 * copyIndex k) (s.cp k).consumed) s1
  ((s2.setReg 0x010 Reg.cluster.snapLevels (at' (lv .a) 0 ||| at' (lv .b) 10 ||| at' (lv .c) 20)).setReg 0x010
    Reg.cluster.snapVoter s.voterLevel).setReg 0x010 Reg.cluster.snapParticipants
      (flags3 (c.copies.map fun k => k.participant) 0)
/-- Does the cluster's replay book or voter book break its invariant? -/
def State.clusterImbalance (s : State) : Bool :=
  s.participants.any (fun k => s.clu.performed != (s.cp k).consumed + BitVec.ofNat 64 (s.cp k).fifo.length)
    || decide (64 < s.slotsOpen + s.slotsCommitted)

/-- A unit's book captured, whether it breaks its invariant, and the bit of BOOK_IMBALANCE in its FAULT_STATUS. -/
def State.captureBook (s : State) (p : Nat) : State × Bool × Nat :=
  match pageUnit p with
  | some (.cluster, _) => (s.captureCluster, s.clusterImbalance, 4)
  | some (.switch, _) => (s.captureCells, s.cellImbalance, 0)
  | some (.port, n) => (s.capturePort n, s.portImbalance n, 2)
  | some (.queue, n) => (s.captureQueue n, s.queueImbalance n, 2)
  | some (.safeData, _) => (s.captureSafe, decide (256 < s.net.twins.length), 5)
  | some (.vme, _) => (s.captureVme, s.captureVme.vmeImbalance, 7)
  | some (.pstate, _) => (s.capturePs, s.psImbalance, 6)
  | some (.causeway, _) => (s.captureCway, s.cwayImbalance, 5)
  | _ => (s, false, 0)

/-- AUDIT_STATUS after a completed capture. -/
def State.auditStatus (s : State) (p : Nat) (bad : Bool) : State :=
  s.setReg p 0x054 (flag true 31 ||| flag bad 30 ||| at' ((s.field p 0x054 15 0 + 1) % 65536) 0)

/-- One unit's book taken: its snapshot, its AUDIT_STATUS, BOOK_IMBALANCE where the invariant is broken. -/
def State.auditUnit (s : State) (p : Nat) : State × Bool :=
  let c := s.captureBook p
  let s1 := c.1.auditStatus p c.2.1
  (if c.2.1 then (if p = 0x010 then s1.lockoutCause p c.2.2 [] else s1.raise p c.2.2 []) else s1, c.2.1)

/-- The pages with books at or below a page. -/
def bookPages (p : Nat) : List Nat :=
  (subtree p).filter fun q => match pageUnit q with | some (k, _) => hasBooks k | none => false

/-- Every book at or below a page taken; IMBALANCE of the page itself shows any of them broken, and a page that keeps no
book advances its AUDIT_STATUS with the last. -/
def State.auditAll (s : State) (p : Nat) : State :=
  let r := (bookPages p).foldl (fun (t : State × Bool) q =>
    let u := t.1.auditUnit q
    (u.1, t.2 || u.2)) (s, false)
  if (bookPages p).contains p then
    (if r.2 then r.1.setReg p 0x054 (setBit (r.1.reg p 0x054) 30 true) else r.1)
  else r.1.auditStatus p r.2

/-- SNAP (R61): the books kept in one clock domain are taken at once; those below page 0x000, in several, by
AUDIT_CAPTURE_COMPLETE, and a SNAP written meanwhile merges. Page 0x1C7 and pages without books below ignore it. -/
def State.doSnap (s : State) (p : Nat) : State :=
  if p = 0x000 then (if s.auditBusy.contains p then s else { s with auditBusy := p :: s.auditBusy })
  else if (bookPages p).isEmpty then s
  else s.auditAll p

/-- AUDIT_SNAP. -/
def execAuditSnap (m : Master) (page : Nat) (s : State) : Result :=
  .next (s.written m page 0x050 fun t => t.doSnap page)

/-- AUDIT_CAPTURE_COMPLETE. -/
def State.doCaptureComplete (s : State) (p : Nat) : State :=
  if s.auditBusy.contains p then
    ({ s with auditBusy := s.auditBusy.filter fun q => q != p }).auditAll p
  else s
def execAuditCaptureComplete (page : Nat) (s : State) : Result := .next (s.doCaptureComplete page)

/-! ## The ledger and the fault records (R55 to R60) -/

def noLedger (_ : Nat) : Option Ledger := none
/-- LEDGER_SNAP (R58): the whole ledger captured for the writing master. -/
def State.doLedgerSnap (s : State) (m : Master) : State :=
  let k := masterKey m
  { s with
    ledgerSnaps := tblWrite noLedger s.ledgerSnaps k (some s.frozenLedger),
    ledgerSeqs := tblWrite zeroWord s.ledgerSeqs k (tblRead zeroWord s.ledgerSeqs k + 1#32) }.bump 0x005 0 1

def execLedgerSnap (m : Master) (s : State) : Result :=
  .next (s.written m 0x005 Reg.workLedger.ledgerSnap fun t => t.doLedgerSnap m)

/-- The supervisor learns that its lock-out report's record is valid (R433). -/
def State.lockoutRecorded (s : State) (r : FaultReport) : State :=
  if r.origin = 0x180 ∧ r.reaction = 5 ∧ s.sup.latch.locked then
    s.setSup { s.sup with latch := { s.sup.latch with committed := true, seq := BitVec.ofNat 32 r.seq } }
  else s

/-- FAULT_RECORD_VALID (R59, R60): the oldest report of a FIFO becomes a record, its valid mark completes, the entry is
freed. Nothing is written once the engine has reported the end of a power-fail sequence (R386). -/
def State.doFaultRecord (s : State) (pl : Plane) : State :=
  match s.faults.fifo pl with
  | [] => s
  | r :: _ =>
    if s.ps.pfDone then s
    else
      let s1 := (s.mramWrite 1 (mramFault r.seq) (faultRecordBytes r)).bump 0x004 3 1
      let s2 := { s1 with faults := s1.faults.setFifo pl ((s1.faults.fifo pl).drop 1) }
      let s3 := s2.setNv { s2.ps.nv with faultSeq := max s2.ps.nv.faultSeq r.seq }
      (s3.lockoutRecorded r).pfNext

def execFaultRecordValid (fifo : Plane) (s : State) : Result := .next (s.doFaultRecord fifo)

/-! ## The clock page (R27, R28) -/

/-- CK_MEAS_UPDATE (R27): the measured frequencies of the twelve domains. -/
def State.doCkMeas (s : State) (khz : List Word) : State :=
  (List.range 12).foldl (fun t i => t.setReg 0x002 (Reg.clock.ckMeas + 4 * i) (khz.getD i 0#32)) s
def execCkMeasUpdate (khz : List Word) (s : State) : Result := .next (s.doCkMeas khz)

/-- PLL_UNLOCK (R28): the live lock bit falls, the cause is latched with REACTION 0. -/
def State.doPllUnlock (s : State) (pll : Nat) : State :=
  (s.setReg 0x002 Reg.clock.clkStatus (setBit (s.reg 0x002 Reg.clock.clkStatus) pll false)).raise 0x002 0 []
def execPllUnlock (pll : Fin 8) (s : State) : Result := .next (s.doPllUnlock pll.val)

/-- REMOTE_ACCESS_TIMEOUT (R48): an access to another module that is not answered in time is an access violation; the
own slot of the window is an alias and needs no link. -/
def State.doRemoteTimeout (s : State) (m : Master) (stack page off : Nat) : State :=
  if stack = s.fail.stackId.val then s
  else s.violation m (0x1c000000 + stack * 0x800000 + page * 0x1000 + off)
def execRemoteAccessTimeout (m : Master) (stack : Fin 8) (page off : Nat) (_write : Bool) (s : State) : Result :=
  .next (s.doRemoteTimeout m stack.val page off)

end Sys2Proof.Machine
end

