-- ==== Sys2Proof/Machine/Inject.lean ====
section
/-!
DEFINITION. FAULT_INJECT (R36, R463): ECC injection armed, synthetic causes with the unit's own reaction.
-/
namespace Sys2Proof.Machine

/-- The cause bits that a unit's FAULT_STATUS defines (the chapters' cause tables), CHILD_FAULT left out. -/
def causeBits (p : Nat) : Word :=
  match pageUnit p with
  | some (.clock, _) | some (.prp, _) | some (.commitPorts, _) | some (.ident, _) | some (.workshop, _) => 0x3#32
  | some (.reset, _) | some (.program, _) | some (.sched, _) | some (.port, _) | some (.queue, _) | some (.mvb, _)
  | some (.can, _) | some (.out, _) => 0x7#32
  | some (.cluster, _) | some (.cle, _) | some (.safeData, _) | some (.ch, _) | some (.causeway, _) => 0x3f#32
  | some (.copy, _) | some (.pstate, _) | some (.supervisor, _) => 0x7f#32
  | some (.cmp, n) => if n = 0 then 0x3f00#32 else 0x3f03#32
  | some (.redundancy, _) => 0x7ff#32
  | some (.engine, _) | some (.time, _) | some (.axles, _) | some (.update, _) | some (.stackLink, _) => 0xf#32
  | some (.switch, _) => 0x3#32
  | some (.vme, _) => 0xff#32
  | some (.debugReplay, _) | some (.cleImage, _) | some (.dual, _) | some (.stations, _) | some (.trdp, _)
  | some (.tracker, _) | some (.recorder, _) | some (.settings, _) | some (.commissioning, _) => 0x1#32
  | _ => 0#32

/-- How many memories a page offers to ECC injection (R463). -/
def injectMemories (p : Nat) : Nat :=
  match pageUnit p with
  | some (.cluster, _) | some (.pstate, _) => 4
  | some (.copy, _) => 3
  | some (.engine, _) => 2
  | some (.switch, _) => 1
  | _ => 0

/-- A copy's synthetic cause: that of R105 with its consequence, where the copy is a participant. -/
def State.syntheticCopy (s : State) (k : Copy) (bit : Nat) : State :=
  if 2 ≤ bit ∧ (s.cp k).participant then s.copyCause k bit else s.raise (copyPage k) bit []

/-- A cause of the supervisor as if it had found it (R425, R426, R431, R438): lock-out with the cause's class. -/
def State.syntheticSup (s : State) (bit : Nat) : State :=
  if bit = 0 then s.raise 0x180 0 []
  else s.supervisorFault bit (if bit = 1 then 11 else if bit = 2 ∨ bit = 6 then 12 else if bit = 5 then 15 else 13)

/-- A program's synthetic cause: OVERRUN and PROGRAM_FAULT stop it (the code of R161 is a free value), TRIGGER_MISSED is
recorded. -/
def State.syntheticProgram (s : State) (p bit : Nat) : State :=
  if bit = 0 then s.stopProgram p 0x10 0
  else if bit = 1 then s.drawWord.2.stopProgram p (s.drawWord.1.toNat % 16) 1
  else s.raise (progPage p) bit []

/-- A cause classed as stopping its unit (CONFIG_REFUSED, RATE_MISMATCH). -/
def State.syntheticStop (s : State) (p bit : Nat) : State :=
  let s1 := s.raiseStop p bit []
  if s.isOn p then s1.leaveOn p else s1

/-- A synthetic cause (R463): the cause latched, the report posted, the unit's own reaction. -/
def State.synthetic (s : State) (p bit : Nat) : State :=
  if !(bitOf (causeBits p) bit) then s
  else match pageUnit p with
  | some (.cluster, _) => if bit = 0 then s.noMajority else s.lockoutCause p bit []
  | some (.copy, n) => s.syntheticCopy (if n = 0 then .a else if n = 1 then .b else .c) bit
  | some (.cmp, _) => if 8 ≤ bit then (s.latch p bit).lockoutCause 0x016 10 [] else s.lockoutCause p bit []
  | some (.redundancy, _) | some (.cle, _) => s.lockoutCause p bit []
  | some (.engine, n) => s.engineCause (if n = 0 then .e0 else if n = 1 then .e1 else .e2) bit
  | some (.program, n) => s.syntheticProgram n bit
  | some (.supervisor, _) => s.syntheticSup bit
  | some (.ch, n) => if bit = 5 then s.syntheticStop p 5 else if bit = 0 then s.declareTrip n else s.raise p bit []
  | some (.out, _) => if bit = 1 then s.syntheticStop p 1 else s.raise p bit []
  | _ => s.raise p bit []

/-- FAULT_INJECT written (R36, R463): ignored while workshop access is closed; the codes 4 to 7, and ECC injection into a
memory that the page does not have, are ignored. A synthetic cause is made at once, and ARM clears. -/
def State.doInject (s : State) (p : Nat) (v : Word) : State :=
  let w := v &&& 0xf0ffffff#32
  let kind := fieldOf v 30 28
  if !s.obs.wsOpen ∨ 4 ≤ kind then s
  else if kind = 1 ∨ kind = 2 then (if fieldOf v 23 16 < injectMemories p then s.setReg p 0x018 w else s)
  else if kind = 3 ∧ bitOf v 31 then (s.setReg p 0x018 (setBit w 31 false)).synthetic p (fieldOf v 23 16)
  else s.setReg p 0x018 w

/-- FAULT_INJECT_WRITE. -/
def execFaultInjectWrite (m : Master) (page : Nat) (v : Word) (s : State) : Result :=
  .next (s.written m page 0x018 fun t => t.doInject page v)

end Sys2Proof.Machine
end

