-- ==== Sys2Proof/Machine/View.lean ====
section
/-!
DEFINITION. Register pages as a read sees them: the registers that are computed from other state, the _LO and _HI
snapshots (R18, R38, R100), the reads with a side effect (R58, R350, R491).
-/
namespace Sys2Proof.Machine

/-! ## The module root (R45, R46, R55) -/

/-- The registers of pages 0x004 and 0x1C7 that other state holds. -/
def State.rootView (s : State) (p off : Nat) : Option Word :=
  let level (pl : Plane) : Nat := (s.faults.fifo pl).length
  if p = 0x004 then
    (if off = Reg.faultMgr.fifoLevel then
      some (at' (level .control) 0 ||| at' (level .data) 8 ||| at' (level .management) 16)
     else if off = Reg.faultMgr.lastRecordSeq then some (BitVec.ofNat 32 s.ps.nv.faultSeq)
     else if off = Reg.faultMgr.recordsPending then
      some (BitVec.ofNat 32 (level .control + level .data + level .management))
     else none)
  else if p = 0x1c7 then
    (if off = Reg.stackGroup.treeGen then some (s.reg 0x000 Reg.root.treeGen)
     else if off = Reg.stackGroup.members then some (s.fail.present.foldl (fun w i => setBit w i true) 0#32) else none)
  else none

/-! ## The safety cluster (R100, R132) -/

def modeCode : SplitMode → Nat
  | .triplex => 0 | .duplexPlusOne => 1 | .simplexThree => 2

/-- One word of a 64-bit value: the low one at `base`, the high one 4 bytes on. -/
def wordHalf (v : DWord) (off base : Nat) : Word := if off = base then loWord v else hiWord v
/-- Is an offset one of the two words at `base`? -/
def inPair (off base : Nat) : Bool := off == base || off == base + 4

/-- IN_WFI: the copy waits as the first one at WFI. -/
def CopyState.firstWfi (c : CopyState) : Bool := c.inWfi && c.waitRead.isNone

/-- Page 0x010. -/
def State.groupView (s : State) (off : Nat) : Option Word :=
  let c := s.clu
  if off = Reg.cluster.clusterStatus then
    some (at' (modeCode c.mode) 8 ||| flags3 (c.copies.map fun k => k.participant) 4 ||| flags3 (c.copies.map CopyState.firstWfi) 0)
  else if off = Reg.cluster.irqStatus then
    some (at' s.heldChanges.length 0 ||| flag (s.participants.any fun k => (s.cp k).inWfi) 8)
  else if off = Reg.cluster.voterLevel then some s.voterLevel
  else if inPair off Reg.cluster.performedLo then some (wordHalf c.performed off Reg.cluster.performedLo)
  else if off = Reg.cluster.msgStatus then some (at' c.messages.length 0 ||| at' c.discarded 16)
  else none

/-- A copy's page. -/
def State.copyView (s : State) (k : Copy) (off : Nat) : Option Word :=
  let c := s.cp k
  if off = Reg.copy.copyStatus then
    some (at' c.stall 8 ||| flag c.firstWfi 2 ||| flag (decide (s.leading = some k)) 1 ||| flag c.participant 0)
  else if inPair off Reg.copy.instretLo then some (wordHalf c.instret off Reg.copy.instretLo)
  else if off = Reg.copy.replayLevel then some (at' c.fifo.length 0)
  else if off = Reg.copy.lead then some (BitVec.ofNat 32 (if c.participant then min (s.lead k) 0xffffffff else 0))
  else none

/-- OPERATION of RED_STATUS. -/
def State.operation (s : State) : Nat :=
  if s.inLockout then 5
  else match s.clu.mode with
  | .simplexThree => 4
  | .duplexPlusOne => 3
  | .triplex => if s.red.retired.isSome then 2 else if s.red.odd.isSome ∨ s.red.reseed.isSome then 1 else 0

/-- Pages 0x016 and 0x017. -/
def State.redView (s : State) (p off : Nat) : Option Word :=
  let bitFor (o : Option Copy) (lo : Nat) : Word := match o with | some k => flag true (lo + copyIndex k) | none => 0#32
  let hour (k : Copy) : Nat := min 15 (s.reseedsHour k)
  if p = 0x016 then
    (if off = Reg.redundancy.redStatus then
      let r : Nat × Nat := match s.red.reseed with | some r => (if r.phase = 2 then r.pass else 0, r.phase) | none => (0, 0)
      some (at' r.1 16 ||| at' r.2 12 ||| bitFor s.red.retired 8 ||| bitFor s.red.odd 4 ||| at' s.operation 0)
     else if off = Reg.redundancy.reseedsHour then some (at' (hour .a) 0 ||| at' (hour .b) 8 ||| at' (hour .c) 16)
     else if off = Reg.redundancy.strapMode then
      some (at' s.clu.strapSample.toNat 0 ||| at' s.ps.nv.otp.modeAllowed.toNat 4)
     else none)
  else if off = Reg.debugReplay.dbgStatus then
    some (flag s.allHalted 0 ||| flag s.red.halting 1 ||| flag s.red.deferred 3)
  else none

/-! ## The timebase (R227) -/

/-- A signed domain value as its 64-bit register pair. -/
def pairOfInt (v : Int) : DWord := BitVec.ofInt 64 v

/-- Pages 0x140 to 0x142. -/
def State.timeView (s : State) (p off : Nat) : Option Word :=
  let t := s.time
  if p = 0x140 then
    (if off = Reg.timebase.tbStatus then
      some (at' s.ntSource 0 ||| flag t.ntValid 2 ||| flag t.mpHoldover 3 ||| flag t.standstill 4 ||| flag s.isMaster 5)
     else none)
  else if p = 0x141 then
    (if inPair off Reg.time.ltLo then some (wordHalf t.lt off Reg.time.ltLo)
     else if inPair off Reg.time.ntLo then some (wordHalf s.ntRead off Reg.time.ntLo)
     else if inPair off Reg.time.mpLo then some (wordHalf t.mp off Reg.time.mpLo) else none)
  else
    (if Reg.axles.ax ≤ off ∧ off < Reg.axles.ax + 0x20 then
      let n := (off - Reg.axles.ax) / 8
      some (wordHalf (pairOfInt (s.axValue n)) off (Reg.axles.ax + 8 * n))
     else if inPair off Reg.axles.distLo then some (wordHalf (pairOfInt s.distValue) off Reg.axles.distLo) else none)

/-- SLOT_CTRL and NEXT of the slots of schedule page `i`: the applied values. -/
def State.schedView (s : State) (i off : Nat) : Option Word :=
  if off < 0x100 ∨ 0x300 ≤ off then none
  else
    let t := s.slot (16 * i + (off - 0x100) / 0x20)
    let o := (off - 0x100) % 0x20
    if o = 0 then some (flag t.enable 31 ||| at' t.domain 24 ||| at' t.action 16)
    else if o = 0x18 then some (loWord (pairOfInt t.next))
    else if o = 0x1c then some (hiWord (pairOfInt t.next)) else none

/-! ## Every page -/

def copyOf (n : Nat) : Copy := if n = 0 then .a else if n = 1 then .b else .c

/-- A register that other state holds, by the unit that owns the page. -/
def State.unitView (s : State) (p off : Nat) : Option Word :=
  match pageUnit p with
  | none => none
  | some (k, n) =>
    match k with
    | .faultMgr | .stackGroup => s.rootView p off
    | .cluster => s.groupView off
    | .copy => s.copyView (copyOf n) off
    | .redundancy | .debugReplay => s.redView p off
    | .cle | .engine | .program | .dual | .stations => s.scanView p off
    | .switch | .port | .bridge | .trdp | .prp | .streams | .queue => s.switchView p off
    | .safeData => s.safeView off
    | .mvb => s.mvbView n off
    | .can => s.canView n off
    | .meas | .chGroup | .tracker | .ch | .out => s.measView p off
    | .timebase | .time | .axles => s.timeView p off
    | .sched => s.schedView n off
    | .vme => s.vmeView off
    | .pstate | .commitPorts | .recorder => s.psView p off
    | .ident | .update | .settings | .commissioning => s.updView p off
    | .reset | .supervisor | .causeway | .stackLink => s.supView p off
    | .pmc | .bandwidth | .workshop => s.obsView p off
    | .root | .clock | .workLedger | .cmp | .cleImage | .gptp | .queues | .outputs | .observe | .sampler | .perturb
    | .fieldbus => none

/-- The word at an offset of an allocated page, _HI snapshots and side effects apart; what no table lists reads 0 (R10,
R34). -/
def State.pageWord (s : State) (p off : Nat) : Word :=
  if off < 0x100 then s.commonRead p off
  else match s.unitView p off with
  | some v => v
  | none => if (regDesc p off).isSome then s.reg p off else 0#32

/-! ## Snapshots of high words -/

/-- The _LO registers of a unit whose _HI is snapshotted for the reading master (R100 and the chapters that apply its
rule): first offset, number, stride. Pairs that software itself writes are read as they stand (DEDUCED, log entry 52). -/
def loRegs : UnitKind → List (Nat × Nat × Nat)
  | .cluster => [(0x120, 1, 8), (0x130, 1, 8), (0x140, 1, 8), (0x148, 3, 8)]
  | .copy => [(0x108, 1, 8), (0x110, 1, 8), (0x118, 1, 8), (0x120, 1, 8)]
  | .cmp => [(0x104, 1, 8)]
  | .debugReplay => [(0x108, 1, 8)]
  | .cle => [(0x118, 1, 8), (0x120, 1, 8)]
  | .engine => [(0x110, 1, 8)]
  | .program => [(0x140, 3, 8)]
  | .timebase => [(0x110, 1, 8)]
  | .time => [(0x100, 1, 8), (0x110, 1, 8), (0x130, 1, 8)]
  | .axles => [(0x130, 4, 8), (0x150, 1, 8), (0x16c, 1, 8)]
  | .sched => [(0x118, 16, 0x20)]
  | .trdp => [(0x148, 1, 8)]
  | .meas => [(0x104, 1, 8)]
  | .ch => [(0x174, 1, 8)]
  | .pstate => [(0x13c, 1, 8), (0x14c, 2, 8)]
  | .commitPorts => [(0x118, 2, 0x40)]
  | .update => [(0x10c, 2, 8)]
  | .settings => [(0x104, 1, 8), (0x110, 1, 8)]
  | .ident => [(0x104, 1, 8), (0x118, 1, 8)]
  | .pmc => [(0x400, 112, 8)]
  | .bandwidth => [(0x200, 96, 8)]
  | _ => []

/-- Is `off` a _LO register with a snapshotted _HI? Every event counter is (R38). -/
def isLo (p off : Nat) : Bool :=
  (decide (0x080 ≤ off ∧ off < 0x100) && off % 8 == 0) ||
  match pageUnit p with
  | some (k, _) => (loRegs k).any fun r => decide (r.1 ≤ off) && (off - r.1) % r.2.2 == 0 && decide ((off - r.1) / r.2.2 < r.2.1)
  | none => false
/-- Is `off` the _HI of such a pair? -/
def isHi (p off : Nat) : Bool := decide (4 ≤ off) && isLo p (off - 4)

/-- Where a master's snapshot of a _HI register is kept (R18). -/
def snapKey (m : Master) (p off : Nat) : Nat := masterKey m * 0x200000 + regKey p off

/-- A _LO register read: its word, and the high word of the same instant kept for the reading master. -/
def State.readLo (s : State) (m : Master) (p off : Nat) : State :=
  { s with hiSnap := tblWrite zeroWord s.hiSnap (snapKey m p (off + 4)) (s.pageWord p (off + 4)) }.answer
    (.value ((s.pageWord p off).zeroExtend 64))
/-- A _HI register read: the reading master's snapshot. -/
def State.readHi (s : State) (m : Master) (p off : Nat) : State :=
  s.answer (.value ((tblRead zeroWord s.hiSnap (snapKey m p off)).zeroExtend 64))

/-- LEDGER_SNAP_SEQ and LEDGER_IMAGE of page 0x005, the reading master's own (R58). -/
def State.ledgerWord (s : State) (m : Master) (off : Nat) : Word :=
  if off = Reg.workLedger.ledgerSnapSeq then tblRead zeroWord s.ledgerSeqs (masterKey m)
  else match tblRead noLedger s.ledgerSnaps (masterKey m) with
  | some l => BitVec.ofNat 32 (ofLeBytes (((ledgerImage l).drop (off - Reg.workLedger.ledgerImage)).take 4))
  | none => 0#32

/-- A read of an aligned word of an allocated page by a master that may read it. -/
def State.pageRead (s : State) (m : Master) (p off : Nat) : State :=
  if p = 0x010 ∧ off = Reg.cluster.msgClaim then s.doMsgClaim m
  else if p = vmePage ∧ off = Reg.vme.bridgeFence then s.doFence m
  else if p = 0x005 ∧ (off = Reg.workLedger.ledgerSnapSeq ∨ (Reg.workLedger.ledgerImage ≤ off ∧ off < 0x400)) then
    s.answer (.value ((s.ledgerWord m off).zeroExtend 64))
  else if p = 0x180 ∧ Reg.supervisor.railMv ≤ off ∧ off < Reg.supervisor.railMv + 0x20 then
    s.drawWord.2.answer (.value (s.drawWord.1.zeroExtend 64))
  else if isLo p off then s.readLo m p off
  else if isHi p off then s.readHi m p off
  else s.answer (.value ((s.pageWord p off).zeroExtend 64))

end Sys2Proof.Machine
end

