-- ==== Sys2Proof/Machine/PageWrite.lean ====
section
/-!
DEFINITION. Writes of register pages as performed: the common registers, and per unit the registers whose write does
more than store its fields.
-/
namespace Sys2Proof.Machine

/-- A write that is stored where `b` holds and ignored otherwise. -/
def State.storeIf (s : State) (b : Bool) (p off : Nat) (v : Word) : State := if b then s.storeReg p off v else s

/-! ## The common registers (R34 to R36, R50, R51, R61) -/

/-- Offsets 0x000 to 0x0FF. OP_ARG is latched at START; a write while an operation is in progress is ignored (R51). -/
def State.commonWrite (s : State) (p off : Nat) (v : Word) : State :=
  if off = 0x008 then s.pageCtrl p v
  else if off = 0x018 then s.doInject p v
  else if 0x020 ≤ off ∧ off ≤ 0x02c then (if runsOps p ∧ !(s.op p).inProgress then s.setReg p off v else s)
  else if off = 0x038 then s.opCmd p v
  else if off = 0x050 ∧ bitOf v 0 then s.doSnap p
  else s

/-! ## The switch (R229, R237, R238, R249, R274) -/

/-- Does a port have a mode (R229)? -/
def portModeOk (n mode : Nat) : Bool :=
  if n < 2 then decide (mode ≤ 1) else if n < 6 then mode == 0 || decide (2 ≤ mode ∧ mode ≤ 4) else mode == 8

/-- GCL_CTRL written: when QBV_EN becomes 1, bank 0 is operational with GCL_ADMIN_LEN entries (R274). -/
def State.gclCtrlWrite (s : State) (n : Nat) (v : Word) : State :=
  let p := portPage n
  let s1 := (s.settle n).storeReg p Reg.port.gclCtrl v
  if bitOf (s1.reg p Reg.port.gclCtrl) 0 ∧ !(bitOf (s.reg p Reg.port.gclCtrl) 0) then
    let nt := s1.time.nt.toNat
    s1.setSwPort n
      { s1.swPort n with
        bank := 0, operLen := s1.field p Reg.port.gclAdminLen 6 0, swapPending := false, entry := 0, started := nt,
        cycle := nt }
  else s1

/-- An entry of gate bank `bank` written: the operational bank, and the admin bank while a swap is pending, refuse it
(R238). -/
def State.gclBankWrite (s : State) (n bank off : Nat) (v : Word) : State :=
  let g := s.swPort n
  if g.bank = bank ∨ g.swapPending then s.raise (portPage n) 1 [] else s.storeReg (portPage n) off v

/-- A port's page. The shapers and the gates of P6 and P7 do not exist. -/
def State.portRegWrite (s : State) (n off : Nat) (v : Word) : State :=
  let p := portPage n
  if off = Reg.port.portConfig then s.storeIf (portModeOk n (fieldOf v 3 0)) p off v
  else if Reg.port.cbs ≤ off ∧ off < Reg.port.gclCtrl then s.storeIf (decide (n < 6)) p off v
  else if off = Reg.port.gclCtrl then (if n < 6 then s.gclCtrlWrite n v else s)
  else if Reg.port.gclBank0 ≤ off ∧ off < Reg.port.gclBank1 then s.gclBankWrite n 0 off v
  else if Reg.port.gclBank1 ≤ off ∧ off < 0x400 then s.gclBankWrite n 1 off v
  else s.storeReg p off v

/-- The command code of an indirect command register. -/
def cmdOf (v : Word) : Nat := fieldOf v 3 0
/-- READ (1) or WRITE (2) of an indirect table; any other code is ignored. -/
def State.indirect (s : State) (v : Word) (read write : State → State) : State :=
  if cmdOf v = 1 then read s else if cmdOf v = 2 then write s else s

/-- Page 0x089. -/
def State.bridgeWrite (s : State) (off : Nat) (v : Word) : State :=
  if off = Reg.bridge.fdbCmd then
    (if cmdOf v = 1 then s.fdbLookup else if cmdOf v = 2 then s.fdbAdd else if cmdOf v = 3 then s.fdbDelete else s)
  else if off = Reg.bridge.vlanCmd then s.indirect v State.vlanRead State.vlanWrite
  else s.storeReg 0x089 off v

/-- Pages 0x08A and 0x08B: the topology counters are page 0x08A's alone. -/
def State.trdpWrite (s : State) (p off : Nat) (v : Word) : State :=
  if off = Reg.trdp.entryCmd then s.indirect v (fun t => t.entryRead p) fun t => t.entryWrite p
  else if off = Reg.trdp.etbTopocnt ∨ off = Reg.trdp.opTrnTopocnt then s.storeIf (p == 0x08a) p off v
  else s.storeReg p off v

/-- Page 0x08E. -/
def State.streamsWrite (s : State) (off : Nat) (v : Word) : State :=
  if off = Reg.streams.streamCmd then s.indirect v State.streamRead State.streamWrite
  else if off = Reg.streams.meterCmd then s.indirect v State.meterRead State.meterWrite
  else s.storeReg 0x08e off v

/-- A queue page: TWIN_PATH, Q_RULE and the comId range act on receive queues, Q_PORTS on transmit queues (R274). -/
def State.queueWrite (s : State) (q off : Nat) (v : Word) : State :=
  let p := qPage q
  if off = Reg.queue.qPosted then s.postQueue q v
  else if off = Reg.queue.qConfig then s.storeReg p off (if q < 32 then v else setBit v 1 false)
  else if off = Reg.queue.qRule then s.storeIf (decide (q < 32)) p off v
  else if off = Reg.queue.qPorts then s.storeIf (decide (32 ≤ q)) p off v
  else s.storeReg p off v

/-! ## Safe data, MVB, CAN (R297, R302) -/

/-- Divider of a bit rate of 100 MHz, and whether SJW lies above TSEG2, by the fields of NBT and DBT. -/
def nbtDiv (v : Word) : Nat := (fieldOf v 28 24 + 1) * (1 + (fieldOf v 7 0 + 1) + (fieldOf v 14 8 + 1))
def dbtDiv (v : Word) : Nat := (fieldOf v 28 24 + 1) * (1 + (fieldOf v 4 0 + 1) + (fieldOf v 11 8 + 1))
/-- R297 for a value of NBT and of DBT: nominal at most 1 Mbit/s, data at most 5 Mbit/s and not below it. -/
def bitTimingOk (nbt dbt : Word) : Bool :=
  decide (100 ≤ nbtDiv nbt) && decide (20 ≤ dbtDiv dbt) && decide (dbtDiv dbt ≤ nbtDiv nbt)

/-- A CAN page. -/
def State.canWrite (s : State) (n off : Nat) (v : Word) : State :=
  let p := canPage n
  if off = Reg.can.canCmd then (if bitOf v 0 then s.canRecover n else s)
  else if off = Reg.can.rxPosted then s.canPost n false v
  else if off = Reg.can.txPosted then s.canPost n true v
  else if off = Reg.can.nbt then
    s.storeIf (bitTimingOk v (s.reg p Reg.can.dbt) && decide (fieldOf v 22 16 ≤ fieldOf v 14 8)) p off v
  else if off = Reg.can.dbt then
    s.storeIf (bitTimingOk (s.reg p Reg.can.nbt) v && decide (fieldOf v 19 16 ≤ fieldOf v 11 8)) p off v
  else s.storeReg p off v

/-- An MVB page. -/
def State.mvbWrite (s : State) (n off : Nat) (v : Word) : State :=
  if off = Reg.mvb.portCmd then s.indirect v (fun t => t.mvbPortRead n) fun t => t.mvbPortWrite n
  else if off = Reg.mvb.pollCmd then s.indirect v (fun t => t.mvbPollRead n) fun t => t.mvbPollWrite n
  else s.storeReg (mvbPage n) off v

/-! ## The measurement chain (R316, R317, R324, R336, R337) -/

def State.isOff (s : State) (p : Nat) : Bool := (s.page p).run == .off

/-- Does a channel take a CH_CONFIG value: at most two half-band stages, SAFETY on control-plane channels alone? -/
def State.chConfigOk (s : State) (p : Nat) (v : Word) : Bool :=
  decide (fieldOf v 9 8 ≤ 2) && !(bitOf v 24 && tblRead (fun _ => false) s.owners p)

/-- BANK_CMD (R317). -/
def State.bankCmd (s : State) (c : Nat) (v : Word) : State :=
  if cmdOf v = 1 then s.swapRequest c
  else if cmdOf v = 2 then s.armSwap c true
  else if cmdOf v = 3 then s.armSwap c false
  else s

/-- A channel's page. -/
def State.chWrite (s : State) (c off : Nat) (v : Word) : State :=
  let p := chPage c
  if off = Reg.ch.bankCmd then s.bankCmd c v
  else if off = Reg.ch.chConfig then s.storeIf (s.isOff p && s.chConfigOk p v) p off v
  else if off = Reg.ch.rsRate ∨ off = Reg.ch.brmsCfg ∨ off = Reg.ch.streamBase ∨ off = Reg.ch.streamCfg then
    s.storeIf (s.isOff p) p off v
  else if off = Reg.ch.winCfg then
    s.storeIf (decide (1 ≤ fieldOf v 15 0) && (!(bitOf v 31) || decide (fieldOf v 15 0 ≤ 64))) p off v
  else s.storeReg p off v

/-- An output's page. -/
def State.outWrite (s : State) (n off : Nat) (v : Word) : State :=
  let p := outPage n
  if off = Reg.out.outPosted then s.postOut n v
  else if off = Reg.out.outConfig then s.storeIf (s.isOff p && decide (fieldOf v 9 8 ≤ 2)) p off v
  else if off = Reg.out.outRingBase ∨ off = Reg.out.outRingCfg then s.storeIf (s.isOff p) p off v
  else s.storeReg p off v

/-- A channel group's page: CLK_DIV even, SAMPLE_DELAY below it. -/
def State.grpWrite (s : State) (p off : Nat) (v : Word) : State :=
  if off = Reg.chGroup.grpClk then
    s.storeIf (s.isOff p && fieldOf v 10 0 % 2 == 0 && decide (fieldOf v 26 16 < fieldOf v 10 0)) p off v
  else s.storeReg p off v

/-- The tracker's page: NOMINAL of an AC system lies in 10,000 to 100,000 mHz. -/
def State.trkWrite (s : State) (off : Nat) (v : Word) : State :=
  if Reg.tracker.sysCfg ≤ off ∧ (off - Reg.tracker.sysCfg) % 12 = 0 then
    s.storeIf (!(bitOf v 30) || decide (10000 ≤ fieldOf v 19 0 ∧ fieldOf v 19 0 ≤ 100000)) 0x106 off v
  else s.storeReg 0x106 off v

/-! ## Cluster, scan, timebase, supervisor, management -/

/-- A program's page: OUTPUT_PERMIT stays 0 while the safe state holds (R432). -/
def State.progWrite (s : State) (n off : Nat) (v : Word) : State :=
  if off = Reg.program.progCmd then s.progCommand n v
  else if off = Reg.program.outputPermit then s.storeIf s.sup.safeState.isNone (progPage n) off v
  else s.storeReg (progPage n) off v

/-- Page 0x140. -/
def State.timebaseWrite (s : State) (off : Nat) (v : Word) : State :=
  if off = Reg.timebase.syncCmd then (if bitOf v 0 then s.syncRequest else s) else s.storeReg 0x140 off v

/-- A schedule page: a write of SLOT_CTRL applies its slot (R220). -/
def State.schedWrite (s : State) (i off : Nat) (v : Word) : State :=
  if off < 0x300 ∧ off % 0x20 = 0 then s.applySlot (16 * i + (off - 0x100) / 0x20) v else s.storeReg (0x143 + i) off v

/-- Page 0x180: ANNOUNCE_ENTRY names a publish entry with SAFE 0, MAILBOX 0 and DATASET_LEN 32 (R434). -/
def State.supWrite (s : State) (off : Nat) (v : Word) : State :=
  if off = Reg.supervisor.safeRequest then s.safeRequest v
  else if off = Reg.supervisor.announceEntry then
    let e := s.trdp (fieldOf v 10 0)
    s.storeIf (!(bitOf v 31) || (e.valid && e.publish && !e.safe && !e.mailbox && e.len == 32)) 0x180 off v
  else s.storeReg 0x180 off v

/-- Page 0x181. -/
def State.cwayWrite (s : State) (off : Nat) (v : Word) : State :=
  if off = Reg.causeway.claimCtrl then s.claimCtrl v
  else if off = Reg.causeway.cwayConfig then (s.storeReg 0x181 off v).cwayConfigured
  else s.storeReg 0x181 off v

/-- Page 0x161: COMMIT and JOURNAL of the two ports (R369). -/
def State.cpWrite (s : State) (off : Nat) (v : Word) : State :=
  let mgmt := decide (0x140 ≤ off)
  if off = cpReg mgmt Reg.commitPorts.cpCmd then
    (if cmdOf v = 1 ∨ cmdOf v = 2 then s.cpCommand mgmt (cmdOf v) else s)
  else s.storeReg 0x161 off v

/-- Page 0x191. -/
def State.pmcWrite (s : State) (off : Nat) (v : Word) : State :=
  if off < Reg.pmc.pmcSel + 4 * 112 ∧ off % 4 = 0 then s.doPmcSel ((off - Reg.pmc.pmcSel) / 4) v else s.storeReg 0x191 off v

/-- Page 0x193: SMP_BASE is ignored while its sampler runs. -/
def State.samplerWrite (s : State) (off : Nat) (v : Word) : State :=
  let n := (off - 0x100) / 0x20
  if off = samplerReg Reg.sampler.smpCtrl n then (if n < 5 then s.doSmpCtrl n v else s)
  else if off = samplerReg Reg.sampler.smpBase n then
    s.storeIf (!(bitOf (s.reg 0x193 (samplerReg Reg.sampler.smpCtrl n)) 31)) 0x193 off v
  else s.storeReg 0x193 off v

/-- Page 0x19F. -/
def State.workshopWrite (s : State) (off : Nat) (v : Word) : State :=
  if off = Reg.workshop.wsUnlock then s.unlockWrite 0 v
  else if off = Reg.workshop.wsClose then (if bitOf v 0 then s.workshopCloses else s)
  else s

/-! ## Every page -/

/-- A block-specific register (offset 0x100 and above) written by master `m`. -/
def State.unitWrite (s : State) (m : Master) (p off : Nat) (v : Word) : State :=
  match pageUnit p with
  | none => s
  | some (k, n) =>
    match k with
    | .reset => if off = Reg.reset.restartCmd then s.restartCmd v else s.storeReg p off v
    | .workLedger => if off = Reg.workLedger.ledgerSnap ∧ bitOf v 0 then s.doLedgerSnap m else s
    | .cluster => if off = Reg.cluster.ckptInterval then s.doCkptIntervalWrite m v else s.storeReg p off v
    | .redundancy => if off = Reg.redundancy.coreStart then s.doCoreStart m v else s.storeReg p off v
    | .program => s.progWrite n off v
    | .port => s.portRegWrite n off v
    | .bridge => s.bridgeWrite off v
    | .trdp => s.trdpWrite p off v
    | .gptp =>
      if off = Reg.gptp.asConfig then s.storeIf (!((fieldOf v 13 8).testBit (fieldOf v 2 0))) p off v
      else s.storeReg p off v
    | .streams => s.streamsWrite off v
    | .queue => s.queueWrite n off v
    | .safeData =>
      if off = Reg.safeData.chanCmd then s.indirect v State.chanRead State.chanWrite else s.storeReg p off v
    | .mvb => s.mvbWrite n off v
    | .can => s.canWrite n off v
    | .chGroup => s.grpWrite p off v
    | .tracker => s.trkWrite off v
    | .ch => s.chWrite n off v
    | .out => s.outWrite n off v
    | .timebase => s.timebaseWrite off v
    | .sched => s.schedWrite n off v
    | .vme => if off = Reg.vme.irqEnable then s.doIrqEnable v else s.vmeRegWrite off v
    | .commitPorts => s.cpWrite off v
    | .commissioning => if off = Reg.commissioning.pcvConfirm then s.doPcvConfirm v else s.storeReg p off v
    | .supervisor => s.supWrite off v
    | .causeway => s.cwayWrite off v
    | .pmc => s.pmcWrite off v
    | .bandwidth => if off = Reg.bandwidth.bwWindow then s.doBwWindow v else s.storeReg p off v
    | .sampler => s.samplerWrite off v
    | .workshop => s.workshopWrite off v
    | .perturb => s.storeIf (ptOk off v) p off v
    | .root | .ident | .clock | .faultMgr | .copy | .cmp | .debugReplay | .cle | .engine | .cleImage | .dual | .stations
    | .switch | .prp | .queues | .meas | .outputs | .time | .axles | .pstate | .recorder | .update | .settings
    | .stackLink | .stackGroup | .observe | .fieldbus => s.storeReg p off v

/-- An aligned word written to an allocated page by a master that may write it. -/
def State.pageWrite (s : State) (m : Master) (p off : Nat) (v : Word) : State :=
  (if off < 0x100 then s.commonWrite p off v else s.unitWrite m p off v).answer .none

end Sys2Proof.Machine
end

