-- ==== Sys2Proof/Machine/Bus.lean ====
section
/-!
DEFINITION. Accesses over the address map (R7, R29 to R32, R488), and the commands that make one: distributed reads (R71
to R75), performed writes and commit-class releases (R77 to R82), debug accesses (R130), page accesses by any master and
over the Vaoskad link (R47, R48).
-/
namespace Sys2Proof.Machine

/-! ## Accesses -/

/-- Is a master a core (R488)? A debug access is made by its hart (R487). -/
def isCore (m : Master) : Bool := match columnOf m with | .copies | .cores => true | _ => false
/-- The local page that an address reaches, by its own region or through the module's own remote slot (R29, R30). -/
def State.pageAt (s : State) (a : Nat) : Option Nat :=
  match regionOf a with
  | .localPages => some (localPage a)
  | .remotePages => if remoteStack a = s.fail.stackId.val then some (remotePageNo a) else none
  | _ => none

/-- The little-endian value of bytes as an answer. -/
def bytesValue (l : List Byte) : Reply := .value (BitVec.ofNat 64 (ofLeBytes l))

/-- A page access that is no aligned 32-bit one (R7): a bus error, counted by the page. -/
def State.pageBusError (s : State) (a : Nat) : State :=
  (match s.pageAt a with | some p => s.countFault p | none => s).answer .busError

/-- The bandwidth point of a core's shared-SRAM access (R456). -/
def sramPoint (m : Master) : Nat := match columnOf m with | .copies => 80 | _ => 82

/-- A read of shared SRAM: a word that ECC cannot correct is poisoned for the input distributor (R68), a refused read for
every other reader (R490). -/
def State.sramLoad (s : State) (m : Master) (a size : Nat) : State :=
  match s.sramRead (sramOff a) size with
  | some l => (s.bw (sramPoint m) size).answer (bytesValue l)
  | none =>
    match m with
    | .cluster => (s.raise 0x010 5 []).answer .accessFault
    | _ => s.violation m a

/-- A write of shared SRAM: the control plane breaks an RMW's lock on the granule, any other master waits (R353). -/
def State.sramStore (s : State) (m : Master) (a size : Nat) (v : DWord) : State :=
  let off := sramOff a
  if s.sramLocked off size ∧ planeOf m ≠ .control then s.answer .wait
  else
    let s1 := if s.sramLocked off size then s.breakLock else s
    let s2 := (s1.bw (sramPoint m) size).sramWrite off (leBytes size v.toNat)
    (match m, s2.armedEcc 0x010 0 with
      | .cluster, some d =>
        { s2 with mem := { s2.mem with sramEcc := tblWrite noEcc s2.mem.sramEcc (off / 16) d } }.spendInject 0x010
      | _, _ => s2).answer .none

/-- A read of the MRAM window (R364): words corrected are counted; one that cannot be corrected is an access fault. -/
def State.mramLoad (s : State) (m : Master) (a size : Nat) : State :=
  let off := a - 0x20000000
  let words := spanWords 8 off size
  let s1 := (words.filter fun w => tblRead noEcc s.mem.mramEcc w == 1).foldl State.mramCorrected s
  if eccBad s.mem.mramEcc 8 off size then s1.mramBad.answer (violationReply m)
  else (s1.bw (90 + mramDie off) size).answer (bytesValue (memBytes s.mem.mram off size))

/-- A read of a page: R7 for one that is no aligned 32-bit access, the page's own meaning, or what the other module has
answered. -/
def State.pageLoad (s : State) (m : Master) (a size : Nat) (ext : DWord) : State :=
  if size ≠ 4 ∨ a % 4 ≠ 0 then s.pageBusError a
  else match s.pageAt a with
  | some p => s.pageRead m p (pageOffset a)
  | none => s.answer (.value ((loWord ext).zeroExtend 64))

/-- A write of a page; that of another module's page takes its effect there. -/
def State.pageStore (s : State) (m : Master) (a size : Nat) (v : DWord) : State :=
  if size ≠ 4 ∨ a % 4 ≠ 0 then s.pageBusError a
  else match s.pageAt a with
  | some p => s.pageWrite m p (pageOffset a) (loWord v)
  | none => s.answer .none

/-- A read of a view of the CLE's memories; one that the view does not answer is an access violation. -/
def State.viewLoad (s : State) (m : Master) (a view off size : Nat) : State :=
  match s.viewBytes view off size with
  | (some l, t) => t.answer (bytesValue l)
  | (none, t) => t.violation m a

/-- A read by a master (R29, R31, R32, R488); `ext` is what another module answers. -/
def State.busRead (s : State) (m : Master) (addr : BitVec 40) (size : Nat) (ext : DWord) : State :=
  let a := addr.toNat
  if isCore m ∧ misaligned a size then s.answer .misaligned
  else if regionOf a = .vme then s.vmeRead m addr size
  else if s.refuses m a false then s.violation m a
  else match regionOf a with
  | .bootRom => s.answer (bytesValue ((List.range size).map fun i => Config.bootRom (a + i)))
  | .tcm => s.answer (bytesValue (memBytes s.mem.tcm.a (a - 0x08000000) size))
  | .benmi => s.viewLoad m a ((a - 0x0c000000) / 0x400000) ((a - 0x0c000000) % 0x400000) size
  | .sram => s.sramLoad m a size
  | .mgmt => s.answer (bytesValue (memBytes s.mem.mgmt (a - 0x14000000) size))
  | .localPages | .remotePages => s.pageLoad m a size ext
  | .mram => s.mramLoad m a size
  | .mramHole | .vme | .unmapped => s.violation m a

/-- A write by a master. TCM is written by debug accesses alone here, in every participant (R130). -/
def State.busWrite (s : State) (m : Master) (addr : BitVec 40) (size : Nat) (v : DWord) : State :=
  let a := addr.toNat
  if isCore m ∧ misaligned a size then s.answer .misaligned
  else if regionOf a = .vme then s.vmeWrite m addr size v
  else if s.refuses m a true then s.violation m a
  else match regionOf a with
  | .tcm => (s.participants.foldl (fun t k => t.tcmStore k (a - 0x08000000) (leBytes size v.toNat)) s).answer .none
  | .benmi =>
    let o := a - 0x0c000000
    s.viewWrite (o / 0x400000) (o % 0x400000) (leBytes size v.toNat)
  | .sram => s.sramStore m a size v
  | .mgmt =>
    { s with mem := { s.mem with mgmt := memStore s.mem.mgmt (a - 0x14000000) (leBytes size v.toNat) } }.answer .none
  | .localPages | .remotePages => s.pageStore m a size v
  | .bootRom | .mram | .mramHole | .vme | .unmapped => s.violation m a

/-! ## Page accesses by any master -/

/-- The address of an offset of a local page. -/
def pageAddr (p off : Nat) : BitVec 40 := BitVec.ofNat 40 (0x18000000 + 0x1000 * p + off)

/-- NON_ALIGNED_PAGE_ACCESS (R7): a core's misaligned one falls under R488. -/
def State.doNonAligned (s : State) (m : Master) (a size : Nat) (write : Bool) : State :=
  if regionOf a ≠ .localPages ∧ regionOf a ≠ .remotePages then s
  else if isCore m ∧ misaligned a size then s.answer .misaligned
  else if s.refuses m a write then s.violation m a
  else if size = 4 ∧ a % 4 = 0 then s
  else s.pageBusError a

def execNonAlignedPageAccess (m : Master) (addr : BitVec 40) (size : Nat) (write : Bool) (s : State) : Result :=
  .next (s.doNonAligned m addr.toNat size write)

/-- ACCESS_VIOLATION (R32): a refused access; the bridge's own refusals (R342, R358) and reads of a word that ECC cannot
correct (R490) among them. An access that is not refused is none. -/
def State.doAccessViolation (s : State) (m : Master) (a size : Nat) (write : Bool) : State :=
  if isCore m ∧ misaligned a size then s.answer .misaligned
  else if s.vmeDecode m a (max size 1) write = .refused then s.vmeRefuse m a
  else if s.refuses m a write then s.violation m a
  else if regionOf a = .sram ∧ !write ∧ m ≠ .cluster ∧ eccBad s.mem.sramEcc 16 (sramOff a) size then s.violation m a
  else s

def execAccessViolation (m : Master) (addr : BitVec 40) (size : Nat) (write : Bool) (s : State) : Result :=
  .next (s.doAccessViolation m addr.toNat size write)

/-- MISALIGNED_ACCESS (R488). -/
def execMisalignedAccess (m : Master) (addr : BitVec 40) (size : Nat) (_write : Bool) (s : State) : Result :=
  .next (if isCore m ∧ misaligned addr.toNat size then s.answer .misaligned else s)

/-- REGISTER_WRITE (R8, R9, R19). -/
def execRegisterWrite (m : Master) (page off : Nat) (v : Word) (s : State) : Result :=
  .next (s.busWrite m (pageAddr page off) 4 (v.zeroExtend 64))

/-- EVENT_CTR_LO_READ (R38). -/
def execEventCtrLoRead (m : Master) (page : Nat) (n : Fin 16) (s : State) : Result :=
  .next (s.busRead m (pageAddr page (0x080 + 8 * n.val)) 4 0#64)

/-- LO_REGISTER_READ (R100). -/
def execLoRegisterRead (m : Master) (page off : Nat) (s : State) : Result :=
  .next (s.busRead m (pageAddr page off) 4 0#64)

/-! ## Over the Vaoskad link (R47, R48) -/

/-- A group field of the own module as the link rewrites it for a reader in another module. -/
def State.rewritten (s : State) (id p off : Nat) (v : Word) : Word :=
  let own := s.fail.stackId.val
  let ref : Word := if v.toNat < 0x800 then BitVec.ofNat 32 (remoteRef own v.toNat) else v
  if p = 0x000 ∧ off = 0x040 then 0x1c7#32
  else if p = 0x000 ∧ off = 0x048 then
    (match nextAbove (s.fail.present.filter fun i => i != id) own with
      | some i => BitVec.ofNat 32 (remoteRef i 0)
      | none => 0xffff#32)
  else if p = 0x1c7 ∧ off = 0x044 then 0xffff#32
  else if p = 0x1c7 ∧ off = 0x04c then 0#32
  else if 0x040 ≤ off ∧ off < 0x04c then ref
  else v

/-- REMOTE_PAGE_REQUEST. A write of pages 0x1A0 to 0x1AF needs workshop access here (R19). -/
def State.doRemoteRequest (s : State) (id : Fin 8) (p off : Nat) (req : RemoteReq) : State :=
  let m : Master := .remote id
  let a := 0x18000000 + 0x1000 * p + off
  if 0x800 ≤ p ∨ (pageUnit p).isNone ∨ 0x1000 ≤ off then s.violation m a
  else match req with
  | .read =>
    if off % 4 ≠ 0 then s.pageBusError a
    else
      let s1 := s.pageRead m p off
      (match s1.reply with
        | .value v => s1.answer (.value ((s.rewritten id.val p off (loWord v)).zeroExtend 64))
        | _ => s1)
  | .write pl v =>
    if !(s.mayWriteRemote pl p) ∨ (0x1a0 ≤ p ∧ p < 0x1b0 ∧ !s.obs.wsOpen) then s.violation m a
    else if off % 4 ≠ 0 then s.pageBusError a
    else s.pageWrite m p off v

def execRemotePageRequest (id : Fin 8) (page off : Nat) (req : RemoteReq) (s : State) : Result :=
  .next (s.doRemoteRequest id page off req)

/-! ## Distributed reads (R71 to R75) -/

/-- What a replay entry records of an answered read: its value and whether it was refused; none while it waits. -/
def entryOf : Reply → Option (DWord × Bool)
  | .value v => some (v, false)
  | .none => some (0#64, false)
  | .wait => none
  | .busError | .accessFault | .misaligned => some (0#64, true)

/-- The low `size` bytes of a value: what a request narrower than the recorded access gets (R73). -/
def lowBytes (size : Nat) (v : DWord) : DWord := BitVec.ofNat 64 (v.toNat % 2 ^ (8 * size))

/-- A CSR that the distributor serves (R71, R455): time is LT, hpmcounter3 to hpmcounter18 the programmable counters of
set 0, hpmcounter19 to hpmcounter31 read 0; a cycle count is a measured value, brought by the command. -/
def State.csrValue (s : State) (n : Nat) (ext : DWord) : DWord :=
  let hpm (i : Nat) : DWord := if i < 16 then tblRead zeroDword s.obs.pmc i else 0#64
  if n = 0xc01 then s.time.lt
  else if 0xc03 ≤ n ∧ n < 0xc20 then hpm (n - 0xc03)
  else if 0xb03 ≤ n ∧ n < 0xb20 then hpm (n - 0xb03)
  else ext

/-- Is a CSR read distributed? -/
def csrDistributed (n : Nat) : Bool :=
  n == 0xc00 || n == 0xc01 || n == 0xb00 || decide (0xc03 ≤ n ∧ n < 0xc20) || decide (0xb03 ≤ n ∧ n < 0xb20)

/-- LR performed (R75): it also sets the cluster's reservation on the granule; in a VME window the bridge's semaphore
stands for it (R352). Any other region is refused. -/
def State.performLr (s : State) (addr : BitVec 40) (size : Nat) : State :=
  if regionOf addr.toNat = .vme then
    let s1 := s.vmeLr .cluster addr size
    if s1.reply = .wait then s1 else { s1 with clu := { s1.clu with reservation := none } }
  else if regionOf addr.toNat = .sram then
    let s1 := s.busRead .cluster addr size 0#64
    match s1.reply with
    | .value _ => { s1 with clu := { s1.clu with reservation := some (sramOff addr.toNat / 64) } }
    | _ => s1
  else s.violation .cluster addr.toNat

/-- A distributed read performed at its target. -/
def State.performAt (s : State) (q : ReadReq) (ext : DWord) : State :=
  match q.kind with
  | .lr => s.performLr q.addr q.size
  | .csr n => s.answer (.value (s.csrValue n.toNat ext))
  | .load | .result | .wfi => s.busRead .cluster q.addr q.size ext

/-- The first copy's read (R72 item 1): performed, recorded for every other participant. A VME read that answers RETRY
takes no ordinal. -/
def State.firstRead (s : State) (k : Copy) (q : ReadReq) (ext : DWord) : State :=
  let s1 := s.performAt q ext
  match entryOf s1.reply with
  | none => s1
  | some (v0, bad) =>
    let v := match q.kind with | .csr _ => v0 | _ => lowBytes q.size v0
    let s2 := { s1 with clu := { s1.clu with performed := s1.clu.performed + 1 } }
    let s3 := s2.setCp k { s2.cp k with reads := (s2.cp k).reads + 1, consumed := (s2.cp k).consumed + 1 }
    let s4 := (s3.participants.filter fun j => j != k).foldl (fun t j => t.appendEntry j ⟨q.kind, q.addr, q.size, v, bad⟩) s3
    ((s4.bump 0x010 0 1).bump (copyPage k) 9 1).answer (if bad then .accessFault else .value v)

/-- A later copy's read (R72 item 2, R73): the head entry, whatever it holds. -/
def State.replayedRead (s : State) (k : Copy) (q : ReadReq) (e : ReplayEntry) : State :=
  let s1 := s.popEntry k
  let s2 := if e.kind = q.kind ∧ e.addr = q.addr ∧ e.size = q.size then s1 else s1.copyCause k 3
  s2.answer (if e.refused then .accessFault
    else .value (match q.kind with | .csr _ => e.value | _ => lowBytes q.size e.value))

/-- Does an own voted write not yet performed overlap a read (R74)? -/
def State.ownWriteAhead (s : State) (k : Copy) (q : ReadReq) : Bool :=
  match q.kind with
  | .csr _ => false
  | _ => s.clu.slots.any fun t => t.phase != .committed && t.pres.any fun p =>
    p.1 == k && decide (p.2.addr.toNat < q.addr.toNat + q.size ∧ q.addr.toNat < p.2.addr.toNat + p.2.size)

/-- A distributed read of copy `k`. -/
def State.serveRead (s : State) (k : Copy) (q : ReadReq) (ext : DWord) : State :=
  match (s.cp k).fifo with
  | e :: _ => s.replayedRead k q e
  | [] =>
    if s.othersFull k then s.stallRead k 2 q
    else if s.ownWriteAhead k q then s.stallRead k 3 q
    else s.firstRead k q ext

/-- A read that is not distributed: the boot ROM, the copy's own TCM, its own CSRs. A TCM word that ECC cannot correct
holds the copy (R67). -/
def State.privateRead (s : State) (k : Copy) (addr : BitVec 40) (size : Nat) : State :=
  match tcmOff addr with
  | some off =>
    if eccBad (s.mem.tcmEcc.copy k) 8 off size then ((s.setCp k { s.cp k with held := true }).answer .wait).copyCause k 5
    else s.answer (bytesValue (memBytes (s.mem.tcm.copy k) off size))
  | none => s.answer (bytesValue ((List.range size).map fun i => Config.bootRom (addr.toNat + i)))

/-- A read of copy `k` by its kind. -/
def State.copyRead (s : State) (k : Copy) (q : ReadReq) (ext : DWord) : State :=
  match q.kind with
  | .csr n =>
    if n = 0xc02#12 ∨ n = 0xb02#12 then s.answer (.value (s.cp k).instret)
    else if csrDistributed n.toNat then s.serveRead k q ext
    else s.answer (.value (tblRead zeroDword (s.cp k).csr n.toNat))
  | .load | .lr =>
    if misaligned q.addr.toNat q.size then s.answer .misaligned
    else if q.kind = .load ∧ (regionOf q.addr.toNat = .tcm ∨ regionOf q.addr.toNat = .bootRom) then
      s.privateRead k q.addr q.size
    else s.serveRead k q ext
  | .result => s.takeResult k
  | .wfi => s.doWfi k

/-- DISTRIBUTED_READ. -/
def State.doDistributedRead (s : State) (k : Copy) (q : ReadReq) (ext : DWord) : State :=
  if (s.cp k).runs then s.copyRead k q ext else s.answer .wait

def execDistributedRead (k : Copy) (kind : ReadKind) (addr : BitVec 40) (size : Nat) (ext : DWord) (s : State) : Result :=
  .next (s.doDistributedRead k ⟨kind, addr, size⟩ ext)

/-- LOAD_RESERVED (R75). -/
def execLoadReserved (k : Copy) (addr : BitVec 40) (size : Nat) (ext : DWord) (s : State) : Result :=
  .next (s.doDistributedRead k ⟨.lr, addr, size⟩ ext)

/-- DISTRIBUTED_READ_RESUME (R74): a copy stalled on a full FIFO or on its own write repeats its read. -/
def State.doReadResume (s : State) (k : Copy) (ext : DWord) : State :=
  match (s.cp k).waitRead with
  | some q =>
    if (s.cp k).stall = 2 ∨ (s.cp k).stall = 3 then
      (s.setCp k { s.cp k with stall := 0, waitRead := none }).doDistributedRead k q ext
    else s
  | none => s

def execDistributedReadResume (k : Copy) (ext : DWord) (s : State) : Result := .next (s.doReadResume k ext)

/-! ## Voted writes performed (R75, R78, R80, R82) -/

/-- The function of an AMO by its funct5 over the operands' low `size` bytes (the RISC-V A extension). -/
def amoOp (f5 : BitVec 5) (size : Nat) (old src : Nat) : Nat :=
  let m := 2 ^ (8 * size)
  let a := old % m
  let b := src % m
  let lt := decide (signedOf (8 * size) a < signedOf (8 * size) b)
  match f5.toNat with
  | 0x00 => (a + b) % m
  | 0x01 => b
  | 0x04 => a ^^^ b
  | 0x08 => a ||| b
  | 0x0c => a &&& b
  | 0x10 => if lt then a else b
  | 0x14 => if lt then b else a
  | 0x18 => min a b
  | 0x1c => max a b
  | _ => a

/-- An SC performed: the value is stored while the reservation stands, and 0 returned; else 1 (R75). -/
def State.performSc (s : State) (w : WriteReq) (r : VmeAnswer) : State :=
  if regionOf w.addr.toNat = .vme then s.vmeSc .cluster w.addr w.size r.isSome
  else if s.clu.reservation = some (sramOff w.addr.toNat / 64) then
    let s1 := s.busWrite .cluster w.addr w.size w.data
    if s1.reply = .none then { s1 with clu := { s1.clu with reservation := none } }.answer (.value 0#64) else s1
  else { s with clu := { s.clu with reservation := none } }.answer (.value 1#64)

/-- An AMO performed: the old value returned (R75). -/
def State.performAmo (s : State) (f5 : BitVec 5) (w : WriteReq) (r : VmeAnswer) : State :=
  if regionOf w.addr.toNat = .vme then s.vmeAmo .cluster w.addr w.size r
  else
    let s1 := s.busRead .cluster w.addr w.size 0#64
    match s1.reply with
    | .value old =>
      let s2 := s1.busWrite .cluster w.addr w.size (BitVec.ofNat 64 (amoOp f5 w.size old.toNat w.data.toNat))
      if s2.reply = .none then s2.answer (.value old) else s2
    | _ => s1

/-- LR, SC and AMO go to SHARED-class addresses and VME windows only (R75). -/
def atomicRegion (a : BitVec 40) : Bool := regionOf a.toNat == .sram || regionOf a.toNat == .vme

/-- A voted write performed at its target; `r` is what a VME bus answers to an SC or AMO. -/
def State.performWrite (s : State) (w : WriteReq) (r : VmeAnswer) : State :=
  match w.kind with
  | .store => s.busWrite .cluster w.addr w.size w.data
  | .sc => if atomicRegion w.addr then s.performSc w r else s.violation .cluster w.addr.toNat
  | .amo f5 => if atomicRegion w.addr then s.performAmo f5 w r else s.violation .cluster w.addr.toNat

/-- Is an answer that of a write performed? A refused access performs none (R32), nor does an SC that fails. -/
def writeDone (kind : WriteKind) : Reply → Bool
  | .none => true
  | .value v => kind != .sc || v == 0#64
  | _ => false

/-- VOTER_COMMITS counts a performed write (R82). -/
def State.countCommit (s : State) : State :=
  { s with ledger := { s.ledger with voterCommits := s.ledger.voterCommits + 1 } }.bump 0x010 2 1

/-- The result entry of an SC or AMO for every participant; the copies that wait for it take it (R75). -/
def State.giveResult (s : State) (w : WriteReq) (v : DWord) (bad : Bool) : State :=
  let s1 := { s with clu := { s.clu with performed := s.clu.performed + 1 } }.bump 0x010 0 1
  let s2 := s1.participants.foldl (fun t k => t.appendEntry k ⟨.result, w.addr, w.size, v, bad⟩) s1
  (s2.participants.filter fun k => (s2.cp k).waitResult).foldl State.takeResult s2

/-- The slot of a performed write: FREE once every participant has presented it, else COMMITTED (R78). -/
def State.settleSlot (s : State) (t : VoterSlot) : State :=
  if s.participants.all fun k => t.pres.any fun p => p.1 == k then s.dropSlot t.ord
  else s.setSlot { t with phase := .committed }

/-- The event counters of an SC or AMO (R453). -/
def State.countAtomic (s : State) (kind : WriteKind) (done : Bool) : State :=
  match kind with
  | .store => s
  | .sc => if done then s else s.bump 0x010 13 1
  | .amo _ => if done then s.bump 0x010 14 1 else s

/-- A slot's write performed. While a VME window answers RETRY, and while a result entry finds a full FIFO, the slot
keeps waiting. -/
def State.performSlot (s : State) (t : VoterSlot) (w : WriteReq) (r : VmeAnswer) : State :=
  if w.kind ≠ .store ∧ (s.participants.any fun k => decide (512 ≤ (s.cp k).fifo.length)) then s.answer .wait
  else
    let s1 := (s.answer .none).performWrite w r
    match entryOf s1.reply with
    | none => s1
    | some (v, bad) =>
      let done := writeDone w.kind s1.reply
      let s2 := ((if done then s1.countCommit else s1).countAtomic w.kind done).settleSlot t
      if w.kind = .store then s2 else s2.giveResult w v bad

/-- The write whose turn it is: the lowest ordinal not performed and not discarded (R78). -/
def State.nextWrite (s : State) : Option VoterSlot :=
  (s.clu.slots.filter fun t => t.phase != .committed).foldl (fun best t =>
    match best with
    | none => some t
    | some b => if t.ord < b.ord then some t else some b) none

/-- VOTED_WRITE_PERFORMED (R78). -/
def State.doWritePerformed (s : State) (r : VmeAnswer) : State :=
  match s.nextWrite with
  | some t =>
    (match t.phase, t.write with
      | .ready, some w => s.performSlot t w r
      | _, _ => s)
  | none => s

def execVotedWritePerformed (r : VmeAnswer) (s : State) : Result := .next (s.doWritePerformed r)

/-- The copies whose presentations formed a slot's majority. -/
def VoterSlot.majority (t : VoterSlot) : List Copy := (t.pres.filter fun p => some p.2 == t.write).map (·.1)

/-- COMMIT_CLASS_RELEASE (R80, R108): once both comparators have judged the tussock of the held store, the write is
performed where the two copies of its majority agree, and discarded otherwise. -/
def State.doCommitRelease (s : State) (ord : DWord) : State :=
  match s.nextWrite with
  | some t =>
    (match t.phase, t.write, t.majority with
      | .held, some w, k :: l :: _ =>
        (match t.ord == ord, (s.cp k).commitOrd.find? fun q => q.1 == ord with
          | true, some q =>
            (match s.clu.judged.find? fun j => j.1 == q.2 with
              | some (_, some v) =>
                if v.pairBit k l then s.performSlot t w none else (s.dropSlot ord).raise 0x016 6 []
              | some (_, none) => (s.dropSlot ord).raise 0x016 6 []
              | none => s)
          | _, _ => s)
      | _, _, _ => s)
  | none => s

def execCommitClassRelease (ord : DWord) (s : State) : Result := .next (s.doCommitRelease ord)

/-! ## Debug accesses through hart 0 (R130, R487) -/

/-- DEBUG_DEVICE_WRITE: performed once by the voter, counted in VOTER_COMMITS, with no ordinal. -/
def State.doDebugDeviceWrite (s : State) (addr : BitVec 40) (size : Nat) (data : DWord) : State :=
  s.debugAction fun t =>
    let t1 := t.busWrite (.debug 0) addr size data
    if t1.reply = .none then t1.countCommit else t1

def execDebugDeviceWrite (addr : BitVec 40) (size : Nat) (data : DWord) (s : State) : Result :=
  .next (s.doDebugDeviceWrite addr size data)

/-- DEBUG_DEVICE_READ: performed once, its value for the debugger only. -/
def execDebugDeviceRead (addr : BitVec 40) (size : Nat) (ext : DWord) (s : State) : Result :=
  .next (s.debugAction fun t => t.busRead (.debug 0) addr size ext)

end Sys2Proof.Machine
end

