-- ==== Sys2Proof/Machine/Startup.lean ====
section
/-!
DEFINITION. Start-up (R397 to R419): the start scan's end (R368), the selection of the bundle and its activation (R407,
R408), the loads, the register entries, the check value, the locks (R412 to R419). The table has no command for the steps
of R412 by themselves: START_DONE stands for them all (log entry 64).
-/
namespace Sys2Proof.Machine

/-! ## The end of the start scan (R119, R368, R375, R376, R379) -/

/-- The retention table with the higher JSEQ, whether it is table B, and whether the other one is missing. A table that
holds an uncorrectable word does not exist (R364). -/
def State.newestTable (s : State) : Option (RetTable × Bool × Bool) :=
  let ok : Bool → Option RetTable → Option RetTable := fun b o =>
    if eccBad s.mem.mramEcc 8 (mramTable b) 0x7c80 then none else o
  match ok false s.ps.nv.tableA, ok true s.ps.nv.tableB with
  | none, none => none
  | some a, none => some (a, false, true)
  | none, some b => some (b, true, true)
  | some a, some b => if a.jseq < b.jseq then some (b, true, false) else some (a, false, false)

/-- The budgets and settings of the newest table (R379): the register settings, what this start uses of them, and
120 s at 150 °C where the other table is missing. -/
def State.takeTable (s : State) : State :=
  match s.newestTable with
  | none => s
  | some (t, isB, alone) =>
    let s1 := ((s.setReg 0x160 Reg.pstate.offCfg t.offCfg).setReg 0x160 Reg.pstate.offTimeAssumed t.offAssumed).setReg
      0x160 Reg.pstate.scrubHours t.scrubHours
    let s2 := s1.setPs
      { s1.ps with budgets := t.budgets, offCfg := t.offCfg, offAssumed := t.offAssumed, tableB := !isB }
    if alone then s2.setBudgets fun n => n + Config.retentionCharge 150000 120 else s2

/-- The copy of a retirement record starts held (R119), in TRIPLEX only; the elapsed time goes on 60 s later. -/
def State.takeRetirement (s : State) : State :=
  match s.clu.mode, s.ps.nv.retired with
  | .triplex, some (k, el) =>
    let s1 := s.holdCopy k
    let s2 := { s1 with red := { s1.red with retired := some k, lastDuckCommit := el + 60 } }
    (s2.setReg 0x016 Reg.redundancy.duckboardElapsed (BitVec.ofNat 32 (el + 60))).raise 0x016 7 []
  | _, _ => s

/-- A program's chain as restored: RETAIN_SEQ, and the slots that lie wholly before its newest SET freed again (R388). -/
def State.takeChain (s : State) (e : Nat × Chain) : State :=
  (s.setReg64 (0x048 + e.1) Reg.program.retainSeqLo e.2.seq).freeBefore e.1 e.2.setLine

/-- What the start scan sets, START_DONE, the start in the recorder, the requests held since power good. -/
def State.scanEnds (s : State) : State :=
  let s1 := s.setPs { s.ps with startDone := true }
  let s2 := (s1.ps.chains.foldl State.takeChain s1.takeTable).takeRetirement
  let s3 := (s2.recAdd 0x024 1).setReg 0x162 Reg.recorder.curEpoch (BitVec.ofNat 32 s2.ps.nv.recorder.epoch)
  (s3.servePort false).servePort true

/-! ## Activation (R408) -/

/-- A journal entry of the module that is complete before the next step (R404, R408). -/
def State.journalNow (s : State) (body : List Byte) (step : Option (DWord × Nat)) : State :=
  let k := s.ps.nv.journalPos
  (s.setNv { s.ps.nv with journalPos := k + 1 }).commitNow
    { cls := 4, place := .offset (mramJournal k), body := padTo 48 body, effect := .journalOwn step }

/-- The image slot that activation writes: chosen among slots that the copy does not write. -/
def State.activateTarget (s : State) : Nat :=
  let b := s.ps.nv.boot
  if !(s.passesR401 b.active) then b.active
  else match b.previous with
    | some p => p
    | none => ((List.range 3).find? fun n => n != b.active && n != b.husk).getD b.active

/-- Steps of 1 MiB copied from the husk into the target, each with its journal entry. -/
def State.copySteps (s : State) (target i : Nat) : Nat → State
  | 0 => s
  | n + 1 =>
    let b := s.ps.nv.boot
    let at_ := 0x100000 * i
    if b.huskLen ≤ at_ then s
    else
      let bs := s.bundleBytes b.husk at_ (min 0x100000 (b.huskLen - at_))
      let s1 := s.mramWrite 4 (mramImage target + at_) bs
      (s1.journalNow (journalBody 2 0 0 0 i b.huskId.toNat) (some (b.huskId, i))).copySteps target (i + 1) n

/-- The step that a resumed copy begins with. -/
def State.resumeStep (s : State) (resumed : Bool) : Nat :=
  match resumed, s.ps.nv.activateStep with
  | true, some (id, i) => if id = s.ps.nv.boot.huskId then i + 1 else 0
  | _, _ => 0

/-- Does no slot but the target hold a bundle that passes R401? The husk is no slot to fall back to. -/
def State.noFallbackSlot (s : State) (target : Nat) : Bool :=
  (List.range 3).all fun n => n == target || n == s.ps.nv.boot.husk || !(s.passesR401 n)

/-- The boot control record that ends an activation (step 6). `activeLost` says that ACTIVE did not pass R401. -/
def State.trialRecord (s : State) (target : Nat) (activeLost : Bool) : BootRec :=
  let b := s.ps.nv.boot
  if s.noFallbackSlot target then
    { b with
      active := target, activeId := b.huskId, previous := none, previousId := 0#64, huskState := 8, trialLeft := 0,
      prevGen := none }
  else
    let keep := activeLost && (match b.previous with | some p => s.passesR401 p | none => false)
    { b with
      active := target, activeId := b.huskId, previous := if keep then b.previous else some b.active,
      previousId := if keep then b.previousId else b.activeId, huskState := 7, trialLeft := 3, prevGen := some b.workGen,
      workGen := 1 - b.workGen }

/-- Activation. A target that fails R401 leaves the husk VERIFIED, ACTIVATE_FAILED latched. -/
def State.activate (s : State) (resumed : Bool) : State :=
  let s0 := if resumed then s else s.huskTo { s.ps.nv.boot with huskState := 6 }
  let activeLost := !(s0.passesR401 s0.ps.nv.boot.active)
  let target := s0.activateTarget
  let s1 := s0.copySteps target (s0.resumeStep resumed) 48
  if s1.passesR401 target then s1.huskTo (s1.trialRecord target activeLost)
  else
    let s2 := (s1.huskTo { s1.ps.nv.boot with huskState := 4 }).raise 0x170 1 []
    s2.setPs { s2.ps with activateFailed := true }

/-! ## Selection (R407) -/

/-- The trial's part of the selection: a fallback, or one boot fewer left. -/
def State.trialBoot (s : State) : State :=
  let b := s.ps.nv.boot
  if b.huskState ≠ 7 then s
  else if !(s.passesR401 b.active) then s.fallBack 3
  else if b.trialLeft = 0 then s.fallBack 1
  else s.commitBoot { b with trialLeft := b.trialLeft - 1 }

/-- The husk and the trial at a start; `true` where the verification is to start again. -/
def State.selectBoot (s : State) : State × Bool :=
  let b := s.ps.nv.boot
  let r := decide (b.huskState = 3)
  let s1 :=
    if b.huskState = 1 then s.huskTo { b with huskState := 0, huskId := 0#64 }
    else if r then s.huskTo { b with huskState := 2, huskId := 0#64 }
    else if b.huskState = 5 then s.activate false
    else if b.huskState = 6 then s.activate true
    else s
  (s1.trialBoot, r)

/-- What starts: a slot and the reason for MAINTENANCE (0: none so far), or nothing (RECOVERY). -/
def State.bootSlot (s : State) : Option (Nat × Nat) :=
  let b := s.ps.nv.boot
  if s.passesR401 b.active then some (b.active, 0)
  else match b.previous with
    | some p => if s.passesR401 p then some (p, 1) else none
    | none => none

/-! ## The settings generation of a start (R402, R413, R416) -/

/-- A settings generation exists: its record is there and holds no uncorrectable word. -/
def State.genRec (s : State) (g : Nat) : Option GenRec :=
  match s.gen g with
  | some r => if eccBad s.mem.mramEcc 8 (mramGen g) r.len then none else some r
  | none => none

/-- The generation whose parameter set this start applies, and MIGRATION_PENDING. -/
def State.startGen (s : State) : Nat × Bool :=
  let b := s.ps.nv.boot
  if b.huskState ≠ 7 then (b.workGen, false)
  else match s.genRec b.workGen with
    | some r => if r.writer = b.activeId then (b.workGen, false) else (b.prevGen.getD b.workGen, true)
    | none => (b.prevGen.getD b.workGen, true)

/-- The reason for MAINTENANCE that the findings of R402 give a slot, 0 for none; of several the lowest code (log
entry 65). -/
def State.findingReason (s : State) (slot : Nat) (g : Option GenRec) : Nat :=
  if !(s.originFinding slot) then 2
  else if !(s.steppingFinding slot) then 3
  else if !(s.modeFinding slot) then 4
  else if g.isSome ∧ !(s.schemaFinding slot g) then 5
  else if g.isNone then 6
  else 0

/-! ## Components (R398, R399) -/

/-- The component of a type. -/
def State.component (s : State) (slot type : Nat) : Component :=
  ((s.components slot).find? fun c => c.type == type).getD ⟨0, type, 0, 0⟩

/-- A component's header fields and payload. -/
def State.compEntries (s : State) (slot : Nat) (c : Component) : List RegEntry :=
  let n := s.bundleLe slot (c.off + 4) 4
  regEntries n (s.bundleBytes slot (c.off + 64) (min (8 * n) (c.len - 64)))
def State.compPayload (s : State) (slot : Nat) (c : Component) : List Byte :=
  let h := 64 + 8 * s.bundleLe slot (c.off + 4) 4
  s.bundleBytes slot (c.off + h) (c.len - h)
def State.compStart (s : State) (slot : Nat) (c : Component) : DWord := BitVec.ofNat 64 (s.bundleLe slot (c.off + 0x10) 8)
def State.compDest (s : State) (slot : Nat) (c : Component) : Nat := s.bundleLe slot (c.off + 0x18) 8

/-- Register entries applied in stored order as voted writes of the participants (R415), and whether none was refused;
the entries before a refused one stay applied. A commit-class entry is performed with its verdicts agreeing (log
entry 64). -/
def State.applyEntries (s : State) : List RegEntry → State × Bool
  | [] => (s, true)
  | e :: l =>
    if e.ok && s.entryAllowed e then (s.pageWrite .cluster e.page e.off e.value).applyEntries l else (s, false)

/-- A component's entries; a header that counts more entries than its component holds is malformed. -/
def State.applyComponent (s : State) (slot type : Nat) : State × Bool :=
  let c := s.component slot type
  if c.len < 64 + 8 * s.bundleLe slot (c.off + 4) 4 then (s, false) else s.applyEntries (s.compEntries slot c)

/-- An owner byte taken: 0 or 1 control, 2 management; a page that is not allocated takes 0 alone, page 0x1B0 not 2. -/
def ownerOk (p b : Nat) : Bool :=
  if (pageUnit p).isNone then b == 0 else if p = 0x1b0 then decide (b ≤ 1) else decide (b ≤ 2)
def noOwner (_ : Nat) : Bool := false

/-- Are the owner bytes of the pages from `p` on well-formed? -/
def ownersOk (p : Nat) (l : List Byte) : Bool := l.zipIdx.all fun q => ownerOk (p + q.2) q.1.toNat
/-- Owner bytes of the pages from `p` on taken. -/
def State.takeOwners (s : State) (p : Nat) (l : List Byte) : State :=
  { s with owners := l.zipIdx.foldl (fun t q => tblWrite noOwner t (p + q.2) (q.1.toNat == 2)) s.owners }

/-- The NET payload: TRDP_SPLIT and the owners; taken whole or refused. -/
def State.loadNet (s : State) (pl : List Byte) : State × Bool :=
  let split := ofLeBytes (pl.take 4)
  let a := (pl.drop 4).take 128
  let b := (pl.drop 132).take 16
  let c := (pl.drop 148).take 32
  if pl.length < 180 ∨ 2048 < split ∨ !(ownersOk 0x080 a && ownersOk 0x150 b && ownersOk 0x1b0 c) then (s, false)
  else ((((s.setNet { s.net with split := split }).takeOwners 0x080 a).takeOwners 0x150 b).takeOwners 0x1b0 c, true)

/-- The MEAS payload: the owners, and the profile data into shared SRAM at DEST. -/
def State.loadMeas (s : State) (pl : List Byte) (dest : Nat) : State × Bool :=
  if pl.length < 48 ∨ dest % 64 ≠ 0 ∨ 0x2000000 < dest + (pl.length - 48) ∨ !(ownersOk 0x100 (pl.take 48)) then (s, false)
  else ((s.takeOwners 0x100 (pl.take 48)).sramWrite dest (pl.drop 48), true)

/-- One program image written through view 0, and whether it passes IMAGE_CHECK. -/
def State.loadImage (s : State) (first words : Nat) (bs : List Byte) : State × Bool :=
  let s1 := s.putProgBytes (4 * first) bs
  let h := header s1.pm first
  let r := imageCheck s1.pm (s1.differingWords first words) first h.check
  (s1.setCle { s1.cle with confirmed := if r.error.isNone then some (first, h.imageWords, r.crc) else s1.cle.confirmed },
    r.error.isNone)

/-- The program images of the CLE payload, at most `n`, each after its first word and its word count. -/
def State.loadImages (s : State) (pl : List Byte) : Nat → State × Bool
  | 0 => (s, pl.all fun b => b == 0#8)
  | n + 1 =>
    let first := ofLeBytes (pl.take 4)
    let words := ofLeBytes ((pl.drop 4).take 4)
    if pl.length < 8 then (s, pl.all fun b => b == 0#8)
    else if words = 0 ∨ pl.length < 8 + 4 * words ∨ 262144 < first + words then (s, false)
    else
      let x := s.loadImage first words ((pl.drop 8).take (4 * words))
      if x.2 then x.1.loadImages (pl.drop (8 + 4 * words)) n else x

/-- The SAFETY image in the TCM of every participant. -/
def State.loadSafety (s : State) (pl : List Byte) : State :=
  s.participants.foldl (fun t k =>
    { t with mem := { t.mem with
        tcm := t.mem.tcm.setCopy k (memStore (t.mem.tcm.copy k) 0 (pl.take 0x200000)),
        tcmEcc := t.mem.tcmEcc.setCopy k (eccWrite (t.mem.tcmEcc.copy k) 8 0 (min pl.length 0x200000)) } }) s

/-- The MGMT image in management private SRAM. -/
def State.loadMgmt (s : State) (pl : List Byte) : State :=
  { s with mem := { s.mem with mgmt := memStore s.mem.mgmt 0 (pl.take 0x1000000) } }

/-! ## The steps of a start (R412, R413) -/

/-- The supervisor takes SUP where its HASH checks (R399). -/
def State.supAccepted (s : State) (slot : Nat) : Bool :=
  let c := s.component slot 6
  Config.sha384 (s.bundleBytes slot c.off c.len) == s.bundleBytes slot (0x100 + 64 * c.index + 0x10) 48

/-- A component's entries, then its payload; the reason where one of them is refused. -/
def State.stepComponent (s : State) (slot type reason : Nat) (load : State → Component → State × Bool) : State × Nat :=
  let x := s.applyComponent slot type
  if !x.2 then (x.1, 7)
  else
    let y := load x.1 (x.1.component slot type)
    (y.1, if y.2 then 0 else reason)

/-- NET, MEAS and CLE: reason 7 where an entry or payload is refused, 8 where an image fails. -/
def State.stepNet (s : State) (slot : Nat) : State × Nat :=
  s.stepComponent slot 4 7 fun t c => t.loadNet (t.compPayload slot c)
def State.stepMeas (s : State) (slot : Nat) : State × Nat :=
  s.stepComponent slot 5 7 fun t c => t.loadMeas (t.compPayload slot c) (t.compDest slot c)
def State.stepCle (s : State) (slot : Nat) : State × Nat :=
  s.stepComponent slot 3 8 fun t c => t.loadImages (t.compPayload slot c) 8

/-- The parameter set of a generation applied, and its check value (R417). -/
def State.stepParams (s : State) (g : Nat) (r : GenRec) : State × Nat :=
  let p := psetOf (s.mramBytes (mramGen g) r.len)
  let x := s.applyEntries (regEntries p.1 p.2.2.1)
  if !x.2 then (x.1, 7)
  else
    ((x.1.setReg 0x172 Reg.commissioning.pcvComputed (checkValue p.1 p.2.1 p.2.2.1 p.2.2.2)).setReg 0x172
      Reg.commissioning.psetEntries (BitVec.ofNat 32 p.1), 0)

/-- A step taken where no reason for MAINTENANCE has come up. -/
def thenStep (x : State × Nat) (f : State → State × Nat) : State × Nat := if x.2 = 0 then f x.1 else x

/-- Steps 5 to 7 for a slot with the reason known so far; the reason afterwards. NET is loaded in MAINTENANCE too, MEAS,
CLE and the parameter set are not. -/
def State.loadBundle (s : State) (slot reason g : Nat) (r : Option GenRec) : State × Nat :=
  let reason1 := if reason ≠ 0 then reason else if s.supAccepted slot then 0 else 9
  let s1 := s.loadMgmt (s.compPayload slot (s.component slot 2))
  let n := s1.stepNet slot
  let x := (n.1, if reason1 ≠ 0 then reason1 else n.2)
  thenStep (thenStep (thenStep x fun t => t.stepMeas slot) fun t => t.stepCle slot) fun t =>
    match r with
    | some rec_ => t.stepParams g rec_
    | none => (t, 6)

/-- Does R419 lock a page? -/
def State.locksAtStart (s : State) (p : Nat) : Bool :=
  decide (p < 0x080) || decide (0x140 ≤ p ∧ p < 0x150) || decide (0x180 ≤ p ∧ p < 0x190)
    || ((decide (0x080 ≤ p ∧ p < 0x140) || decide (0x150 ≤ p ∧ p < 0x160) || decide (0x1b0 ≤ p ∧ p < 0x1c8))
      && !(tblRead noOwner s.owners p))
/-- LOCK set (R419). -/
def State.lockPages (s : State) : State := (allPages.filter fun p => s.locksAtStart p).foldl State.doLock s

/-! ## The participants at the end of start-up -/

/-- A copy after the boot ROM's instructions, with values drawn from `n` on: the spec does not state how many they are,
what they read and write and what they leave in the registers (log entry 66). The participants agree in all of it. -/
def CopyState.booted (c : CopyState) (n : Nat) : CopyState :=
  let reads := Config.freeDword (n + 4)
  { c with
    x := (List.range 31).foldl (fun t i => tblWrite (fun _ => 0#64) t (i + 1) (Config.freeDword (n + 5 + i))) [],
    instret := Config.freeDword n, sig := Config.freeDword (n + 1), ckptNum := Config.freeDword (n + 2),
    writes := c.writes + Config.freeDword (n + 3), reads := reads, consumed := reads, fifo := [] }

/-- Every participant at the end of start-up: at START, or at WFI in the boot ROM (R412, R413). -/
def State.bootedAll (s : State) (start : Option DWord) : State :=
  let n := s.free
  let put (t : State) (k : Copy) : State :=
    let c := (t.cp k).booted n
    t.setCp k (match start with
      | some pc => { c with pc := pc }
      | none =>
        { c with
          pc := Config.freeDword (n + 36), inWfi := true, reads := c.reads + 1,
          waitRead := if t.firstAtWfi.isSome then some ⟨.wfi, 0#40, 0⟩ else none })
  let s1 := s.participants.foldl put { s with free := n + 37 }
  let s2 := { s1 with
    clu := { s1.clu with performed := Config.freeDword (n + 4), slots := [], lateDiscard := [] },
    ledger := { s1.ledger with voterCommits := s1.ledger.voterCommits + Config.freeDword (n + 3) } }
  let w := (Config.freeDword (n + 3)).toNat
  let r := (Config.freeDword (n + 4)).toNat
  s2.participants.foldl (fun t k => (t.bump (copyPage k) 9 r).bump (copyPage k) 10 w) ((s2.bump 0x010 0 r).bump 0x010 2 w)

/-- START_MODE and what shows it (R413, R423): START_STATUS, the supervisor's copy, NOT_OPERATIONAL, journal kind 0x03;
START_TIME_US is a measured value. The outputs' conditions are
reviewed with the mode (R430). -/
def State.startEnds (s : State) (mode reason : Nat) (id : DWord) (secVer : Nat) : State :=
  let d := s.drawWord
  let s1 := ((d.2.setReg 0x001 Reg.ident.startStatus (at' mode 0 ||| at' reason 8 ||| flag s.ps.migration 16)).setReg64 0x001
    Reg.ident.activeIdLo id).setReg 0x001 Reg.ident.activeSecVer (BitVec.ofNat 32 secVer)
  let s2 := (s1.setReg 0x001 Reg.ident.startTimeUs d.1).setSup { s1.sup with startMode := mode }
  ((if 2 ≤ mode then s2.raise 0x001 0 [] else s2).journal
    (journalBody 3 mode reason s.ps.nv.boot.trialLeft 0 s.ps.nv.boot.activeId.toNat) none).review

/-- The findings of a VERIFIED husk judged again: HUSK_STATUS shows them after a restart too. -/
def State.rejudgeHusk (s : State) : State :=
  let b := s.ps.nv.boot
  if b.huskState ≠ 4 then s
  else s.setPs
    { s.ps with
      steppingOk := s.steppingFinding b.husk,
      compatOk := s.modeFinding b.husk && s.schemaFinding b.husk s.workGen && s.originFinding b.husk }

/-- A VERIFY that the module starts itself once start-up has ended (R407). -/
def State.restartVerify (s : State) : State :=
  let s1 := (s.setOp 0x170 { opReset 0x170 with phase := .running, opcode := 4 }).startVerify
  s1.setPs { s1.ps with verifyRestarted := true }

/-- Steps 4 to 8 of R412 for the slot that the selection gives. -/
def State.startSlot (s : State) (slot reason : Nat) : State :=
  let g := s.startGen
  let r := s.genRec g.1
  let why := if reason ≠ 0 then reason else s.findingReason slot r
  let s1 := s.setPs { s.ps with migration := g.2, appliedGen := g.1 }
  let x := s1.loadBundle slot why g.1 r
  let c := x.1.component slot 1
  let id := BitVec.ofNat 64 (s.bundleLe slot 0x008 8)
  let sec := s.bundleLe slot 0x020 4 % 128
  let s2 := x.1.lockPages
  match x.2, r with
  | 0, some rec_ =>
    let confirmed := rec_.pcvOk && rec_.pcvConfirmed == s2.reg 0x172 Reg.commissioning.pcvComputed
    let s3 := (s2.loadSafety (s2.compPayload slot c)).setPs
      { s2.ps with
        commissioning := !confirmed, appliedConfirmed := if rec_.pcvOk then some rec_.pcvConfirmed else none }
    (s3.bootedAll (some (s3.compStart slot c))).startEnds (if confirmed then 0 else 1) 0 id sec
  | _, _ => (s2.bootedAll none).startEnds 2 x.2 id sec

/-- R411 at a start: the ACTIVE bundle is confirmed where no trial runs. -/
def State.otpAtStart (s : State) : State :=
  if s.ps.nv.boot.huskState ≠ 7 ∧ s.passesR401 s.ps.nv.boot.active then s.agreeOtp else s

/-- A lock-out whose record has not been committed is reported again after START_DONE (R433). -/
def State.repostLockout (s : State) : State :=
  if s.sup.latch.locked ∧ !s.sup.latch.committed ∧ !s.sup.lockPosted then s.lockReport else s

/-- RECOVERY: no component is loaded. -/
def State.startRecovery (s : State) : State := (s.lockPages.bootedAll none).startEnds 3 0 0#64 0

/-- A slot with its reason started, or RECOVERY. -/
def State.startChoice (s : State) : Option (Nat × Nat) → State
  | some q => s.otpAtStart.startSlot q.1 q.2
  | none => s.startRecovery
/-- What the selection gives started. -/
def State.startSelected (s : State) : State := s.startChoice s.bootSlot

/-- Start-up after the start scan. -/
def State.startUp (s : State) : State :=
  let x := s.selectBoot
  let s1 := x.1.startSelected.rejudgeHusk
  (if x.2 then s1.restartVerify else s1).repostLockout.review

/-- START_DONE: the start scan ends, and start-up runs to its end. -/
def State.doStartDone (s : State) : State := if s.ps.startDone ∨ s.sup.socReset then s else s.scanEnds.startUp

def execStartDone (s : State) : Result := .next s.doStartDone

end Sys2Proof.Machine
end

