-- ==== Sys2Proof/Machine/Power.lean ====
section
/-!
DEFINITION. Supply and reset (R24, R28, R125, R424, R427, R433, R436, R437, R472 to R474): VDD_SUP, the rails, power good,
the module reset, and what each of them leaves.
-/
namespace Sys2Proof.Machine

/-! ## What a reset of the SoC and MRAM dies leaves (R366, R368, R387 to R389) -/

/-- Records that have been handed to the engine and whose mark has not completed: a reset discards them. -/
def PState.unmarked (p : PState) : List NvRecord :=
  p.held ++ p.waiting ++ (match p.inFlight with | some (r, _) => [r] | none => [])

/-- How many of them fit a test. -/
def PState.lost (p : PState) (f : NvEffect → Bool) : Nat := (p.unmarked.filter fun r => f r.effect).length

def NvEffect.isJournal : NvEffect → Bool
  | .journalPort _ | .journalOwn _ => true
  | _ => false
def NvEffect.isRetirement : NvEffect → Bool
  | .retirement _ => true
  | _ => false
def NvEffect.isPowerFail : NvEffect → Bool
  | .powerFail _ _ => true
  | _ => false
def NvEffect.isBoot : NvEffect → Bool
  | .boot _ => true
  | _ => false
def NvEffect.isRunLife : NvEffect → Bool
  | .running _ _ _ _ | .lifetime _ => true
  | _ => false

/-- The fields of a recorder record as its bytes show them, walked by their widths from an offset on. -/
def recParse (m : Tbl Byte) (base : Nat) : Nat → Nat → Tbl Nat → Tbl Nat
  | 0, _, t => t
  | n + 1, o, t =>
    if 0xfc0 ≤ o then t
    else recParse m base n (o + recWidth o) (tblWrite zeroNat t o (memLe m (base + o) (recWidth o)))

/-- The recorder at a start (R392): the open epoch is the one after the newest closed one; it resumes from the newest
RUNNING record where that one is of it; the lifetime fields are those of the newest LIFETIME record. -/
def State.recorderAtStart (s : State) : Recorder :=
  let r := s.ps.nv.recorder
  let open_ := if r.epoch = 0 ∨ s.epochHeld (r.epoch - 1) then r.epoch else r.epoch - 1
  let x : Nat × Tbl Nat := match r.running with
    | some (e, secs, fields) => if e = open_ then (secs, fields) else (0, [])
    | none => (0, [])
  { r with
    epoch := open_, seconds := x.1, fields := x.2,
    life := match r.lifeAt with | some a => recParse s.mem.mram a 1000 0x10 [] | none => [],
    pos := r.pos - s.ps.lost NvEffect.isRunLife }

/-! ### Records that hold an uncorrectable word do not exist (R364, R365, R368) -/

/-- Is a word of `n` bytes at an MRAM offset uncorrectable? -/
def State.mramLost (s : State) (off n : Nat) : Bool := eccBad s.mem.mramEcc 8 off n

/-- The newest existing record of a ring that fits a test, below position `k` and at most so many back: its position and
its bytes. -/
def State.newestBelow (s : State) (place : Nat → Nat) (len : Nat) (ok : List Byte → Bool) : Nat → Nat → Option (Nat × List Byte)
  | 0, _ => none
  | _, 0 => none
  | f + 1, k + 1 =>
    let bs := memBytes s.mem.mram (place k) len
    if s.recordExists (place k) len && ok bs then some (k, bs) else s.newestBelow place len ok f k

/-- A retirement record's bytes read (R385). -/
def retirementOf (bs : List Byte) : Option (Copy × Nat) :=
  let el := ofLeBytes ((bs.drop 4).take 4)
  match ofLeBytes (bs.take 1) with
  | 0 => some (.a, el)
  | 1 => some (.b, el)
  | 2 => some (.c, el)
  | _ => none

/-- A boot control record's bytes read (R403). -/
def bootOf (bs : List Byte) : BootRec :=
  let n : Nat → Nat → Nat := fun o k => ofLeBytes ((bs.drop o).take k)
  let opt : Nat → Option Nat := fun v => if v = 0xff then none else some v
  { active := n 4 1, previous := opt (n 5 1), husk := n 6 1, huskState := n 7 1, activeId := BitVec.ofNat 64 (n 8 8),
    previousId := BitVec.ofNat 64 (n 16 8), huskId := BitVec.ofNat 64 (n 24 8), huskLen := n 32 4, trialLeft := n 36 1,
    workGen := n 37 1, prevGen := opt (n 38 1), lastFallback := n 39 1 }

/-- `n` lines of a program's chain, none where one of them is not there or holds an uncorrectable word. -/
def State.chainLines (s : State) (slots : Tbl SlotEntry) (p line n : Nat) : Option (List Byte) :=
  (List.range n).foldl (fun o i =>
    match o, chainOffset slots p (line + i) with
    | some bs, some a => if s.mramLost a 64 then none else some (bs ++ memBytes s.mem.mram a 64)
    | _, _ => none) (some [])

/-- The record at a chain line, its KIND and its bytes, where it exists (R365, R373). -/
def State.chainRecord (s : State) (slots : Tbl SlotEntry) (p line : Nat) : Option (Nat × List Byte) :=
  match s.chainLines slots p line 1 with
  | none => none
  | some h =>
    let n := min (ofLeBytes ((h.drop 4).take 4)) 1062
    match s.chainLines slots p line n with
    | none => none
    | some bs =>
      let j := BitVec.ofNat 64 (ofLeBytes ((bs.drop (64 * n - 16)).take 8))
      if n < 3 ∨ recordWith (bs.take (64 * n - 16)) j ≠ bs then none else some (ofLeBytes ((h.drop 2).take 1), bs)

/-- restore(p) of R375 behind a SET: the BASE and the DELTAs reached, each put into the chain. -/
def State.walkChain (s : State) (slots : Tbl SlotEntry) (p : Nat) (c : Chain) : Nat → Chain
  | 0 => c
  | f + 1 =>
    match s.chainRecord slots p c.endLine with
    | some (kind, bs) =>
      if kind = 2 ∨ (kind = 1 ∧ c.based) then
        let has := (c.set.zipIdx.filter fun q => (ofLeBytes ((bs.drop (64 + q.2 / 8)).take 1)).testBit (q.2 % 8)).map (·.1)
        let lines := has.zipIdx.map fun q => (q.1, (bs.drop (192 + 64 * q.2)).take 64)
        s.walkChain slots p
          { c with
            seq := BitVec.ofNat 64 (ofLeBytes ((bs.drop 8).take 8)), image := c.merge lines,
            endLine := c.endLine + bs.length / 64, based := true } f
      else c
    | none => c

/-- A program's chain where words of its records or of its slots' entries are lost: what its newest SET and the records
after it still give. -/
def State.chainReread (s : State) (slots : Tbl SlotEntry) (p : Nat) (c : Chain) : Chain :=
  let c0 : Chain := { c with seq := 0#64, image := [], endLine := c.setLine, based := false }
  match s.chainRecord slots p c.setLine with
  | some (3, bs) => s.walkChain slots p { c0 with endLine := c.setLine + bs.length / 64 } (c.endLine - c.setLine)
  | _ => c0

/-- The highest RECORD_SEQ whose record exists (R383), at most so many below. -/
def State.faultBelow (s : State) : Nat → Nat → Nat
  | 0, _ => 0
  | _, 0 => 0
  | f + 1, k + 1 => if s.mramLost (mramFault (k + 1)) 0x1000 then s.faultBelow f k else k + 1

/-- A RUNNING record's epoch, seconds and fields (R390). -/
def State.runningAt (s : State) (a : Nat) : Nat × Nat × Tbl Nat :=
  (memLe s.mem.mram (a + 8) 8, memLe s.mem.mram (a + 0x20) 4, recParse s.mem.mram a 1000 0x10 [])

/-- The recorder's records read again. -/
def State.recorderReread (s : State) (r : Recorder) : Recorder :=
  let place : Nat → Nat := fun k => 0x0f800000 + 0x1000 * (k % 4096)
  let newest (kind : Nat) : Option Nat :=
    (s.newestBelow place 0x1000 (fun bs => ofLeBytes ((bs.drop 4).take 1) == kind) 4096 r.pos).map fun q => place q.1
  { r with
    running := if r.running.isSome && s.mramLost (place r.runPos) 0x1000 then (newest 2).map s.runningAt else r.running,
    lifeAt := match r.lifeAt with
      | some a => if s.mramLost a 0x1000 then newest 3 else some a
      | none => none }

/-- The records that govern where MRAM holds lost words: of every ring the newest one that exists; a slot whose entry is
lost is FREE (R372). A factory boot control record stands before position 1. -/
def State.nvReread (s : State) (n : Nv) : Nv :=
  let all : List Byte → Bool := fun _ => true
  let back (place : Nat → Nat) (len ring k : Nat) : Option (Option (Nat × List Byte)) :=
    if 0 < k ∧ s.mramLost (place (k - 1)) len then some (s.newestBelow place len all ring k) else none
  let retire := back mramRetirement 64 64 n.retirePos
  let fail := back mramPowerFail 0x400 64 n.powerFailPos
  let boot := back mramBoot 0x400 32 n.bootPos
  let next (o : Option (Option (Nat × List Byte))) (k : Nat) : Nat :=
    match o with
    | some (some q) => q.1 + 1
    | _ => k
  let slots := n.slots.filter fun e => !(s.mramLost (mramSlotEntry e.1) 64)
  { n with
    retired := match retire with
      | some o => o.bind fun q => retirementOf q.2
      | none => n.retired,
    powerFail := match fail with
      | some o => o.map fun q => (BitVec.ofNat 64 (ofLeBytes ((q.2.drop 0x200).take 8)), ofLeBytes ((q.2.drop 0x214).take 1))
      | none => n.powerFail,
    boot := match boot with
      | some (some q) => bootOf q.2
      | some none => if n.bootPos ≤ 32 then BootRec.factory else n.boot
      | none => n.boot,
    slots := slots,
    chains := n.chains.map fun e =>
      let lost := slots.length != n.slots.length || (List.range (e.2.endLine - e.2.setLine)).any fun i =>
        match chainOffset n.slots e.1 (e.2.setLine + i) with
        | some a => s.mramLost a 64
        | none => false
      (e.1, if lost then s.chainReread slots e.1 e.2 else e.2),
    retirePos := next retire n.retirePos, powerFailPos := next fail n.powerFailPos, bootPos := next boot n.bootPos,
    journalPos := next (back mramJournal 64 128512 n.journalPos) n.journalPos,
    activateStep := n.activateStep.bind fun _ =>
      (s.newestBelow mramJournal 64 (fun bs => ofLeBytes (bs.take 1) == 2) 128512 n.journalPos).map fun q =>
        (BitVec.ofNat 64 (ofLeBytes ((q.2.drop 8).take 8)), ofLeBytes ((q.2.drop 4).take 4)),
    faultSeq := s.faultBelow 2032 n.faultSeq, recorder := s.recorderReread n.recorder }

/-- The records as the next start finds them: the next JSEQ is one above the highest that exists, and each ring goes on
after its newest existing record. -/
def State.nvAtStart (s : State) : Nv :=
  let n := s.ps.nv
  let m : Nv :=
    { n with
      nextJseq := n.lastRecord + 1, journalPos := n.journalPos - s.ps.lost NvEffect.isJournal,
      retirePos := n.retirePos - s.ps.lost NvEffect.isRetirement,
      powerFailPos := n.powerFailPos - s.ps.lost NvEffect.isPowerFail, bootPos := n.bootPos - s.ps.lost NvEffect.isBoot,
      recorder := s.recorderAtStart }
  if s.mem.mramEcc.isEmpty then m else s.nvReread m

/-- The SoC and MRAM dies in reset. MRAM keeps its contents, the supervisor its own state; the straps stay as they were
sampled (R125, R437), and the inputs as they are. -/
def State.socResets (s : State) (cause : Nat) : State :=
  let u :=
    { s.sup with
      socReset := true, resetOut := true, pgCount := s.sup.railsIn == 0xff#8 && !s.sup.pfwLow, pllLocked := true,
      lockPosted := false, safeState := none, safeOrigin := 0, live := false, grant := false, startMode := 3,
      taken := 0#32, staticOff := 0, dynOff := 0, tripLines := 0#8, resetAsked := none, resetCause := cause }
  let f :=
    { Failover.reset s.fail.stackId s.fail.strapsValid s.fail.unitSide with
      toggling := s.fail.toggling, goodGaps := s.fail.goodGaps, everEdge := s.fail.everEdge }
  { State.resetWith (Cluster.reset s.clu.mode s.clu.modeRejected s.clu.strapSample) s.nvAtStart u f
      (Observe.reset s.obs.testEnLow s.obs.testEnPowerUp)
      { VmeState.reset s.vme.syscon with brOthers := s.vme.brOthers }
      { Memories.reset with mram := s.mem.mram, mramEcc := s.mem.mramEcc } with
    free := s.free, pending := s.pending }

/-! ## VDD_SUP (R125, R424, R433, R436, R472) -/

/-- Three samples of a strap that agree. -/
def agreed {α : Type} [DecidableEq α] (a b c : α) : Option α := if a = b ∧ b = c then some a else none

/-- The mode of an encoding; 0b11 is none. -/
def modeOf (n : Nat) : Option SplitMode :=
  if n = 0 then some .triplex else if n = 1 then some .duplexPlusOne else if n = 2 then some .simplexThree else none

/-- The split mode that takes effect (R125), none where the straps or OTP refuse it. -/
def strapMode (a b c : BitVec 2) (allowed : BitVec 3) : Option SplitMode :=
  match agreed a b c with
  | some v => if allowed.getLsbD v.toNat then modeOf v.toNat else none
  | none => none

/-- The latch as read at power-up: without two copies that agree it counts as latched with class 31. -/
def LockLatch.read (l : LockLatch) : LockLatch :=
  if l.readable then l else ⟨true, 31, 0x180, false, 0#32, true⟩

/-- VDD_SUP_UP: the supervisor runs, holds the dies in reset, drives the outputs and RESET_OUT_N low, reads the latch and
samples the straps. A strap whose samples differ takes the value that its rule names: mode SIMPLEX_THREE, side 1, off the
ring, no workshop access; the system controller's strap has no such rule and counts as not strapped (log entry 67). -/
def State.doVddUp (s : State) (s0 s1 s2 : Straps) (resetReqHigh : Bool) : State :=
  if s.sup.vddUp then s
  else
    let mode := strapMode s0.mode s1.mode s2.mode s.ps.nv.otp.modeAllowed
    let stackId := agreed s0.stackId s1.stackId s2.stackId
    let u :=
      { Supervisor.reset with
        socReset := true, resetOut := true, released := false, railsIn := 0x40#8, pfwLow := s.sup.pfwLow,
        latch := s.sup.latch.read, pressLevel := resetReqHigh, armed := resetReqHigh }
    let sampled := State.resetWith
      (Cluster.reset (mode.getD .simplexThree) mode.isNone s0.mode) s.nvAtStart u
      (Failover.reset (Fin.ofNat 8 (stackId.getD 0#3).toNat) stackId.isSome ((agreed s0.side s1.side s2.side).getD true))
      (Observe.reset s2.testEnLow (s0.testEnLow && s1.testEnLow && s2.testEnLow))
      (VmeState.reset (s0.sysconLow && s1.sysconLow && s2.sysconLow))
      { Memories.reset with mram := s.mem.mram, mramEcc := s.mem.mramEcc }
    let t := { sampled with free := s.free, pending := s.pending }
    if resetReqHigh then t else t.latch 0x003 0

def execVddSupUp (s0 s1 s2 : Straps) (resetReqHigh : Bool) (s : State) : Result :=
  .next (s.doVddUp s0 s1 s2 resetReqHigh)

/-- SUPERVISOR_RESET: VDD_SUP below 2.90 V. Both outputs are low; everything but MRAM and the latch is lost at the next
VDD_SUP_UP. A write of the latch that the loss cut may leave no two copies that agree. -/
def State.doSupervisorReset (s : State) (latchCut : Bool) : State :=
  if !s.sup.vddUp then s
  else
    let t := s.socResets 0
    t.setSup { t.sup with vddUp := false, pgCount := false, latch := { t.sup.latch with readable := t.sup.latch.readable && !latchCut } }

def execSupervisorReset (latchCut : Bool) (s : State) : Result := .next (s.doSupervisorReset latchCut)

/-! ## Power good (R24, R28, R125, R427, R472) -/

/-- RAIL_WINDOW_BEFORE_POWER_GOOD: the rails within their windows and PFW_N as they are now; the 10 ms start again while
all are in, no monitor trips, and the outputs stay off. -/
def State.doRailWindow (s : State) (rails : BitVec 8) (pfwHigh : Bool) : State :=
  if !s.sup.vddUp ∨ !s.sup.socReset then s
  else
    s.setSup
      { s.sup with
        railsIn := rails, pfwLow := !pfwHigh, pfwSeen := s.sup.pfwSeen || !pfwHigh, pgCount := rails == 0xff#8 && pfwHigh,
        live := false, grant := false }

def execRailWindowBeforePowerGood (rails : BitVec 8) (pfwHigh : Bool) (s : State) : Result :=
  .next (s.doRailWindow rails pfwHigh)

/-- PLL_RESTART: the PLLs started again, and whether they lock this time. -/
def State.doPllRestart (s : State) (locked : Bool) : State :=
  if s.sup.socReset ∧ s.sup.vddUp then s.setSup { s.sup with pllLocked := locked } else s

def execPllRestart (locked : Bool) (s : State) : Result := .next (s.doPllRestart locked)

/-- CK_SC_OFFSET as OTP gives it (R24): a magnitude of 1,000 to 5,000 ppm, else −3,000 ppm, reported (R28). -/
def State.loadOffset (s : State) : State :=
  let v := s.ps.nv.otp.ckOffset
  let ok := decide (1000 ≤ v.toInt.natAbs ∧ v.toInt.natAbs ≤ 5000)
  let s1 := s.setReg 0x002 Reg.clock.ckScOffset (if ok then v else 0xfffff448#32)
  let s2 := s1.setReg 0x002 Reg.clock.clkStatus (setBit 0xff#32 8 (!ok))
  if ok then s2 else s2.raise 0x002 1 []

/-- The causes that every start shows again: a rejected strap mode (R125), RESET_REQ_N low at power-up (R436). -/
def State.startCauses (s : State) : State :=
  let s1 := if s.clu.modeRejected then s.raise 0x016 9 [] else s
  if s1.hasCause 0x003 0 then s1.raise 0x003 0 [] else s1

/-- POWER_GOOD: every rail in its window and PFW_N high for 10 ms, every PLL locked: the SoC die leaves reset, RESET_OUT_N
goes high, start-up begins. -/
def State.doPowerGood (s : State) : State :=
  if s.sup.vddUp ∧ s.sup.socReset ∧ s.sup.pgCount ∧ s.sup.pllLocked ∧ !s.sup.pfwLow ∧ s.sup.railsIn = 0xff#8 then
    (s.setSup
      { s.sup with
        socReset := false, resetOut := false, pgCount := false, released := true, pfwSeen := false, safeState := none,
        safeOrigin := 0, live := false, grant := false }).loadOffset.startCauses
  else s

def execPowerGood (s : State) : Result := .next s.doPowerGood

/-! ## Rails that fall after the warning, module reset (R427, R437) -/

/-- RAIL_DROP_AFTER_WARNING: no trip; the safe state is set, class 12 (log entry 68), and the dies are held in reset until
the rails are back. -/
def State.doRailDrop (s : State) (rail : Nat) : State :=
  if !s.sup.released ∨ !s.sup.pfwSeen ∨ s.sup.socReset then s
  else
    let s1 := (s.enterSafe 12 0x180).setSup { (s.enterSafe 12 0x180).sup with railsIn := s.sup.railsIn &&& ~~~(1#8 <<< rail) }
    let s2 := s1.socResets 3
    s2.setSup { s2.sup with safeState := s1.sup.safeState, safeOrigin := s1.sup.safeOrigin }

def execRailDropAfterWarning (rail : Fin 8) (s : State) : Result := .next (s.doRailDrop rail.val)

/-- Marks completed until none is in flight, at most `n`. -/
def State.drainMarks (s : State) : Nat → State
  | 0 => s
  | n + 1 => if s.ps.inFlight.isNone then s else s.doRecordMark.drainMarks n

/-- Every fault record already accepted (R386). -/
def State.drainFaults (s : State) : State :=
  (List.replicate 32 ()).foldl (fun t _ =>
    ((t.doFaultRecord .control).doFaultRecord .data).doFaultRecord .management) s

/-- The engine after a warning, up to PF_DONE: what is begun is completed, within the 1.5 ms of R386. -/
def State.drainEngine (s : State) : State :=
  let s1 := s.drainFaults
  let s2 := if s1.ps.portBegun.1 then s1.doCommitRequestDone false else s1
  let s3 := if s2.ps.portBegun.2 then s2.doCommitRequestDone true else s2
  let s4 := s3.drainMarks (s3.ps.waiting.length + 2)
  s4.pfNext.drainMarks 2

/-- MODULE_RESET: the outputs go off, the engine gets its warning and finishes, the dies are reset. A reset that nothing
has asked for does not come. -/
def State.doModuleReset (s : State) : State :=
  match s.sup.resetAsked with
  | none => s
  | some cause =>
    if s.sup.socReset then s
    else (s.setSup { s.sup with live := false, grant := false }).pfWarn.drainEngine.socResets cause

def execModuleReset (s : State) : Result := .next s.doModuleReset

end Sys2Proof.Machine
end

