-- ==== Sys2Proof/Machine/Dispatch.lean ====
section
/-!
DEFINITION. One arm per command: the direct call of its meaning. `exec` is the command's effect on everything but the
queue of waiting commands.
-/
namespace Sys2Proof.Machine
open Host

/-- The effect of a command. -/
def exec (i : Instr) (s : State) : Host.Outcome State Fault Refusal :=
  match i with
  -- chapters 01 and 02: register pages, run states, long operations, audits, ledger
  | .nonAlignedPageAccess m addr size write => Sys2Proof.Machine.execNonAlignedPageAccess m addr size write s
  | .accessViolation m addr size write => Sys2Proof.Machine.execAccessViolation m addr size write s
  | .misalignedAccess m addr size write => Sys2Proof.Machine.execMisalignedAccess m addr size write s
  | .registerWrite m page off v => Sys2Proof.Machine.execRegisterWrite m page off v s
  | .eventCtrLoRead m page n => Sys2Proof.Machine.execEventCtrLoRead m page n s
  | .loRegisterRead m page off => Sys2Proof.Machine.execLoRegisterRead m page off s
  | .ckMeasUpdate khz => Sys2Proof.Machine.execCkMeasUpdate khz s
  | .pllUnlock pll => Sys2Proof.Machine.execPllUnlock pll s
  | .faultRecordValid fifo => Sys2Proof.Machine.execFaultRecordValid fifo s
  | .enableWrite m page b => Sys2Proof.Machine.execEnableWrite m page b s
  | .freezeWrite m page b => Sys2Proof.Machine.execFreezeWrite m page b s
  | .localReset m page => Sys2Proof.Machine.execLocalReset m page s
  | .lock m page => Sys2Proof.Machine.execLock m page s
  | .startCompletes page => Sys2Proof.Machine.execStartCompletes page s
  | .drainCompletes page => Sys2Proof.Machine.execDrainCompletes page s
  | .opStart m page opcode => Sys2Proof.Machine.execOpStart m page opcode s
  | .opAbort m page => Sys2Proof.Machine.execOpAbort m page s
  | .opSuspend m page => Sys2Proof.Machine.execOpSuspend m page s
  | .opResume m page => Sys2Proof.Machine.execOpResume m page s
  | .opRunBegin page => Sys2Proof.Machine.execOpRunBegin page s
  | .opItemComplete page result error last => Sys2Proof.Machine.execOpItemComplete page result error last s
  | .opSelfSuspend page => Sys2Proof.Machine.execOpSelfSuspend page s
  | .opSelfResume page => Sys2Proof.Machine.execOpSelfResume page s
  | .auditSnap m page => Sys2Proof.Machine.execAuditSnap m page s
  | .auditCaptureComplete page => Sys2Proof.Machine.execAuditCaptureComplete page s
  | .ledgerSnap m => Sys2Proof.Machine.execLedgerSnap m s
  | .remoteAccessTimeout m stack page off write => Sys2Proof.Machine.execRemoteAccessTimeout m stack page off write s
  -- chapter 03: distributor, voter, interrupts, tussocks
  | .distributedRead cp kind addr size ext => Sys2Proof.Machine.execDistributedRead cp kind addr size ext s
  | .distributedReadResume cp ext => Sys2Proof.Machine.execDistributedReadResume cp ext s
  | .loadReserved cp addr size ext => Sys2Proof.Machine.execLoadReserved cp addr size ext s
  | .storeConditional cp addr size data => Sys2Proof.Machine.execStoreConditional cp addr size data s
  | .amo cp addr size funct5 src => Sys2Proof.Machine.execAmo cp addr size funct5 src s
  | .wfi cp => Sys2Proof.Machine.execWfi cp s
  | .votedWritePresent cp addr size data => Sys2Proof.Machine.execVotedWritePresent cp addr size data s
  | .votedWritePerformed r => Sys2Proof.Machine.execVotedWritePerformed r s
  | .voteLate ord => Sys2Proof.Machine.execVoteLate ord s
  | .commitClassRelease ord => Sys2Proof.Machine.execCommitClassRelease ord s
  | .voterStallResume cp => Sys2Proof.Machine.execVoterStallResume cp s
  | .interruptChange lines => Sys2Proof.Machine.execInterruptChange lines s
  | .messageInterrupt vector => Sys2Proof.Machine.execMessageInterrupt vector s
  | .msgClaim m => Sys2Proof.Machine.execMsgClaim m s
  | .instructionRetire core r => Sys2Proof.Machine.execInstructionRetire core r s
  | .tussockReportArrival cmp cp retries linkOk => Sys2Proof.Machine.execTussockReportArrival cmp cp retries linkOk s
  | .ckptTimeout cmp => Sys2Proof.Machine.execCkptTimeout cmp s
  | .ckptGap => Sys2Proof.Machine.execCkptGap s
  | .ckptStall => Sys2Proof.Machine.execCkptStall s
  | .ckptRequest cp data => Sys2Proof.Machine.execCkptRequest cp data s
  | .forcedTussockRequest by_ => Sys2Proof.Machine.execForcedTussockRequest by_ s
  | .ckptIntervalWrite m v => Sys2Proof.Machine.execCkptIntervalWrite m v s
  | .tcmScrub cp upset => Sys2Proof.Machine.execTcmScrub cp upset s
  | .sharedScrub upset => Sys2Proof.Machine.execSharedScrub upset s
  | .configEchoMismatch interval timeout gap vote => Sys2Proof.Machine.execConfigEchoMismatch interval timeout gap vote s
  -- chapter 04: verdicts, reseeding, retirement, debug replay
  | .verdictPair k => Sys2Proof.Machine.execVerdictPair k s
  | .verdictMissing k => Sys2Proof.Machine.execVerdictMissing k s
  | .reseedResetDone => Sys2Proof.Machine.execReseedResetDone s
  | .reseedPassEnd => Sys2Proof.Machine.execReseedPassEnd s
  | .reseedRelease => Sys2Proof.Machine.execReseedRelease s
  | .reseedFailed why => Sys2Proof.Machine.execReseedFailed why s
  | .retirementRecordCommit => Sys2Proof.Machine.execRetirementRecordCommit s
  | .duckboardExpired => Sys2Proof.Machine.execDuckboardExpired s
  | .duckboardGraceEnd => Sys2Proof.Machine.execDuckboardGraceEnd s
  | .comparatorSelftest x y => Sys2Proof.Machine.execComparatorSelftest x y s
  | .coreStart m v => Sys2Proof.Machine.execCoreStart m v s
  | .debugHaltRequest => Sys2Proof.Machine.execDebugHaltRequest s
  | .debugRegisterWrite r v => Sys2Proof.Machine.execDebugRegisterWrite r v s
  | .debugTcmWrite addr size data => Sys2Proof.Machine.execDebugTcmWrite addr size data s
  | .debugDeviceWrite addr size data => Sys2Proof.Machine.execDebugDeviceWrite addr size data s
  | .debugDeviceRead addr size ext => Sys2Proof.Machine.execDebugDeviceRead addr size ext s
  | .debugStep => Sys2Proof.Machine.execDebugStep s
  | .debugResume => Sys2Proof.Machine.execDebugResume s
  | .reseedReport => Sys2Proof.Machine.execReseedReport s
  -- chapter 05: Benmi instructions, as the words at PC spell them (SPACE, ADDR, the second word where one follows)
  | .benmiNop space addr => Sys2Proof.Machine.execBenmiNop space addr s
  | .ldb space addr => Sys2Proof.Machine.execLdb space addr s
  | .ldbn space addr => Sys2Proof.Machine.execLdbn space addr s
  | .andb space addr => Sys2Proof.Machine.execAndb space addr s
  | .andbn space addr => Sys2Proof.Machine.execAndbn space addr s
  | .orb space addr => Sys2Proof.Machine.execOrb space addr s
  | .orbn space addr => Sys2Proof.Machine.execOrbn space addr s
  | .xorb space addr => Sys2Proof.Machine.execXorb space addr s
  | .xorbn space addr => Sys2Proof.Machine.execXorbn space addr s
  | .bra space addr => Sys2Proof.Machine.execBra space addr s
  | .bro space addr => Sys2Proof.Machine.execBro space addr s
  | .brc space addr => Sys2Proof.Machine.execBrc space addr s
  | .stb space addr => Sys2Proof.Machine.execStb space addr s
  | .stbn space addr => Sys2Proof.Machine.execStbn space addr s
  | .setb space addr => Sys2Proof.Machine.execSetb space addr s
  | .clrb space addr => Sys2Proof.Machine.execClrb space addr s
  | .edgr space addr => Sys2Proof.Machine.execEdgr space addr s
  | .edgf space addr => Sys2Proof.Machine.execEdgf space addr s
  | .ton space addr => Sys2Proof.Machine.execTon space addr s
  | .tof space addr => Sys2Proof.Machine.execTof space addr s
  | .tp space addr => Sys2Proof.Machine.execTp space addr s
  | .ctu space addr => Sys2Proof.Machine.execCtu space addr s
  | .ctd space addr => Sys2Proof.Machine.execCtd space addr s
  | .ldw space addr second => Sys2Proof.Machine.execLdw space addr second s
  | .stw space addr => Sys2Proof.Machine.execStw space addr s
  | .movw space addr second => Sys2Proof.Machine.execMovw space addr second s
  | .benmiAdd space addr second => Sys2Proof.Machine.execBenmiAdd space addr second s
  | .benmiSub space addr second => Sys2Proof.Machine.execBenmiSub space addr second s
  | .benmiMul space addr second => Sys2Proof.Machine.execBenmiMul space addr second s
  | .ceq space addr second => Sys2Proof.Machine.execCeq space addr second s
  | .cne space addr second => Sys2Proof.Machine.execCne space addr second s
  | .cgt space addr second => Sys2Proof.Machine.execCgt space addr second s
  | .cge space addr second => Sys2Proof.Machine.execCge space addr second s
  | .clt space addr second => Sys2Proof.Machine.execClt space addr second s
  | .cle space addr second => Sys2Proof.Machine.execCle space addr second s
  | .benmiShl space addr => Sys2Proof.Machine.execBenmiShl space addr s
  | .benmiShr space addr => Sys2Proof.Machine.execBenmiShr space addr s
  | .benmiSar space addr => Sys2Proof.Machine.execBenmiSar space addr s
  | .jmp space addr => Sys2Proof.Machine.execJmp space addr s
  | .jbt space addr => Sys2Proof.Machine.execJbt space addr s
  | .jbf space addr => Sys2Proof.Machine.execJbf space addr s
  | .benmiCall space addr => Sys2Proof.Machine.execBenmiCall space addr s
  | .benmiRet space addr => Sys2Proof.Machine.execBenmiRet space addr s
  | .dch space addr => Sys2Proof.Machine.execDch space addr s
  | .benmiEnd space addr => Sys2Proof.Machine.execBenmiEnd space addr s
  | .externalWriteInsertion w => Sys2Proof.Machine.execExternalWriteInsertion w s
  | .viewRead view off => Sys2Proof.Machine.execViewRead view off s
  | .benmiScrub engine prog data => Sys2Proof.Machine.execBenmiScrub engine prog data s
  | .engineReseed => Sys2Proof.Machine.execEngineReseed s
  | .engineReseedFailed why => Sys2Proof.Machine.execEngineReseedFailed why s
  | .cleSelftest r => Sys2Proof.Machine.execCleSelftest r s
  | .imageCheck => Sys2Proof.Machine.execImageCheck s
  -- chapter 06: the scan
  | .cyclicTrigger p => Sys2Proof.Machine.execCyclicTrigger p s
  | .inputFreeze p => Sys2Proof.Machine.execInputFreeze p s
  | .executeResume p => Sys2Proof.Machine.execExecuteResume p s
  | .outputStaging p => Sys2Proof.Machine.execOutputStaging p s
  | .outputRelease p => Sys2Proof.Machine.execOutputRelease p s
  | .outputWriteOut p => Sys2Proof.Machine.execOutputWriteOut p s
  | .housekeeping p => Sys2Proof.Machine.execHousekeeping p s
  | .overrun p => Sys2Proof.Machine.execOverrun p s
  | .startWarm m p => Sys2Proof.Machine.execStartWarm m p s
  | .startCold m p => Sys2Proof.Machine.execStartCold m p s
  | .stop m p => Sys2Proof.Machine.execStop m p s
  | .exchange m p => Sys2Proof.Machine.execExchange m p s
  | .pairTick => Sys2Proof.Machine.execPairTick s
  -- chapter 07: the timebase
  | .syncMessage time => Sys2Proof.Machine.execSyncMessage time s
  | .ntHoldover => Sys2Proof.Machine.execNtHoldover s
  | .ntLost => Sys2Proof.Machine.execNtLost s
  | .mpUpdate phase freq => Sys2Proof.Machine.execMpUpdate phase freq s
  | .mpHoldover => Sys2Proof.Machine.execMpHoldover s
  | .mpHoldoverClear => Sys2Proof.Machine.execMpHoldoverClear s
  | .tachoEdge axle a b => Sys2Proof.Machine.execTachoEdge axle a b s
  | .speedUpdate => Sys2Proof.Machine.execSpeedUpdate s
  | .slotCtrlWrite m slot v => Sys2Proof.Machine.execSlotCtrlWrite m slot v s
  | .slotFire slot => Sys2Proof.Machine.execSlotFire slot s
  | .slotNone slot => Sys2Proof.Machine.execSlotNone slot s
  | .cleTrigger slot => Sys2Proof.Machine.execCleTrigger slot s
  | .measSnapshot slot => Sys2Proof.Machine.execMeasSnapshot slot s
  | .commitInstant slot => Sys2Proof.Machine.execCommitInstant slot s
  | .forcedCheckpoint slot => Sys2Proof.Machine.execForcedCheckpoint slot s
  | .gateSwap slot => Sys2Proof.Machine.execGateSwap slot s
  | .coreInterrupt slot => Sys2Proof.Machine.execCoreInterrupt slot s
  | .bankSwap slot => Sys2Proof.Machine.execBankSwap slot s
  | .stackSync slot => Sys2Proof.Machine.execStackSync slot s
  | .syncCmd m v => Sys2Proof.Machine.execSyncCmd m v s
  | .syncInEdge => Sys2Proof.Machine.execSyncInEdge s
  | .syncTargetReceived target masterNoNt => Sys2Proof.Machine.execSyncTargetReceived target masterNoNt s
  | .syncApply => Sys2Proof.Machine.execSyncApply s
  | .measSync => Sys2Proof.Machine.execMeasSync s
  -- chapter 08: the switch
  | .frameReceive port frame fcsOk => Sys2Proof.Machine.execFrameReceive port frame fcsOk s
  | .frameTransmit port => Sys2Proof.Machine.execFrameTransmit port s
  | .txAgeLimit port cls => Sys2Proof.Machine.execTxAgeLimit port cls s
  | .gateCycleStart port => Sys2Proof.Machine.execGateCycleStart port s
  | .gateEntryChange port => Sys2Proof.Machine.execGateEntryChange port s
  | .fdbAgeOut mac vid => Sys2Proof.Machine.execFdbAgeOut mac vid s
  | .linkLost port => Sys2Proof.Machine.execLinkLost port s
  | .gptpSyncSend => Sys2Proof.Machine.execGptpSyncSend s
  | .peerDelayExchange port delay => Sys2Proof.Machine.execPeerDelayExchange port delay s
  | .cbReset stream => Sys2Proof.Machine.execCbReset stream s
  | .nodeForget mac => Sys2Proof.Machine.execNodeForget mac s
  | .lifeCheck => Sys2Proof.Machine.execLifeCheck s
  | .fdbLookup m => Sys2Proof.Machine.execFdbLookup m s
  | .fdbAdd m => Sys2Proof.Machine.execFdbAdd m s
  | .fdbDelete m => Sys2Proof.Machine.execFdbDelete m s
  | .vlanRead m => Sys2Proof.Machine.execVlanRead m s
  | .vlanWrite m => Sys2Proof.Machine.execVlanWrite m s
  | .streamRead m => Sys2Proof.Machine.execStreamRead m s
  | .streamWrite m => Sys2Proof.Machine.execStreamWrite m s
  | .meterRead m => Sys2Proof.Machine.execMeterRead m s
  | .meterWrite m => Sys2Proof.Machine.execMeterWrite m s
  | .entryRead m page => Sys2Proof.Machine.execEntryRead m page s
  | .entryWrite m page => Sys2Proof.Machine.execEntryWrite m page s
  | .qPostedWrite m q v => Sys2Proof.Machine.execQPostedWrite m q v s
  | .descriptorFetch q => Sys2Proof.Machine.execDescriptorFetch q s
  | .descriptorWriteBack q => Sys2Proof.Machine.execDescriptorWriteBack q s
  | .queueIrqTimer q => Sys2Proof.Machine.execQueueIrqTimer q s
  | .heldDeliveryWrite entry => Sys2Proof.Machine.execHeldDeliveryWrite entry s
  | .trdpTimeout entry => Sys2Proof.Machine.execTrdpTimeout entry s
  -- chapter 09: safe data, MVB, CAN FD
  | .twinWindow slot => Sys2Proof.Machine.execTwinWindow slot s
  | .twinLingerEnd slot => Sys2Proof.Machine.execTwinLingerEnd slot s
  | .chanRead m => Sys2Proof.Machine.execChanRead m s
  | .chanWrite m => Sys2Proof.Machine.execChanWrite m s
  | .basicPeriod ctl => Sys2Proof.Machine.execBasicPeriod ctl s
  | .mvbReplyTimeout ctl => Sys2Proof.Machine.execMvbReplyTimeout ctl s
  | .mvbMasterFrame ctl fcode addr => Sys2Proof.Machine.execMvbMasterFrame ctl fcode addr s
  | .mvbSlaveFrame ctl a b => Sys2Proof.Machine.execMvbSlaveFrame ctl a b s
  | .portRead m ctl => Sys2Proof.Machine.execPortRead m ctl s
  | .portWrite m ctl => Sys2Proof.Machine.execPortWrite m ctl s
  | .pollRead m ctl => Sys2Proof.Machine.execPollRead m ctl s
  | .pollWrite m ctl => Sys2Proof.Machine.execPollWrite m ctl s
  | .canFrameReceive ctl f => Sys2Proof.Machine.execCanFrameReceive ctl f s
  | .canFrameTransmit ctl r => Sys2Proof.Machine.execCanFrameTransmit ctl r s
  | .busOff ctl => Sys2Proof.Machine.execBusOff ctl s
  | .canRecover m ctl => Sys2Proof.Machine.execCanRecover m ctl s
  | .busOffRecoveryDone ctl => Sys2Proof.Machine.execBusOffRecoveryDone ctl s
  | .canPostedWrite m ctl tx v => Sys2Proof.Machine.execCanPostedWrite m ctl tx v s
  | .canIrqTimer ctl => Sys2Proof.Machine.execCanIrqTimer ctl s
  -- chapters 14 and 16: supervisor, causeway, stack
  | .vddSupUp s0 s1 s2 resetReqHigh => Sys2Proof.Machine.execVddSupUp s0 s1 s2 resetReqHigh s
  | .supervisorReset latchCut => Sys2Proof.Machine.execSupervisorReset latchCut s
  | .pllRestart locked => Sys2Proof.Machine.execPllRestart locked s
  | .powerGood => Sys2Proof.Machine.execPowerGood s
  | .railTrip rail => Sys2Proof.Machine.execRailTrip rail s
  | .clockTrip domain => Sys2Proof.Machine.execClockTrip domain s
  | .oscTrip => Sys2Proof.Machine.execOscTrip s
  | .railDropAfterWarning rail => Sys2Proof.Machine.execRailDropAfterWarning rail s
  | .monitorTest tripped => Sys2Proof.Machine.execMonitorTest tripped s
  | .summaryTake => Sys2Proof.Machine.execSummaryTake s
  | .lockoutReportRetry => Sys2Proof.Machine.execLockoutReportRetry s
  | .safeRequest m v => Sys2Proof.Machine.execSafeRequest m v s
  | .safeEnSense staticDiffers dynDiffers => Sys2Proof.Machine.execSafeEnSense staticDiffers dynDiffers s
  | .resetPressStart => Sys2Proof.Machine.execResetPressStart s
  | .resetPressRelease us => Sys2Proof.Machine.execResetPressRelease us s
  | .resetStuck => Sys2Proof.Machine.execResetStuck s
  | .restartCmd m v => Sys2Proof.Machine.execRestartCmd m v s
  | .moduleReset => Sys2Proof.Machine.execModuleReset s
  | .noVerdict => Sys2Proof.Machine.execNoVerdict s
  | .claimCtrlWrite m v => Sys2Proof.Machine.execClaimCtrlWrite m v s
  | .claimStart => Sys2Proof.Machine.execClaimStart s
  | .claimActive => Sys2Proof.Machine.execClaimActive s
  | .peerClaimStopped => Sys2Proof.Machine.execPeerClaimStopped s
  | .claimLineRelease => Sys2Proof.Machine.execClaimLineRelease s
  | .cwayDisagree => Sys2Proof.Machine.execCwayDisagree s
  | .frozenClear => Sys2Proof.Machine.execFrozenClear s
  | .peerNoWithdraw => Sys2Proof.Machine.execPeerNoWithdraw s
  | .heartbeatSend => Sys2Proof.Machine.execHeartbeatSend s
  | .heartbeatReceived hb => Sys2Proof.Machine.execHeartbeatReceived hb s
  | .memberLost id => Sys2Proof.Machine.execMemberLost id s
  | .mastershipTakeover => Sys2Proof.Machine.execMastershipTakeover s
  | .ringOpen port => Sys2Proof.Machine.execRingOpen port s
  | .cwayClaimInEdge ns => Sys2Proof.Machine.execCwayClaimInEdge ns s
  | .linkUp port partner => Sys2Proof.Machine.execLinkUp port partner s
  | .portUp port => Sys2Proof.Machine.execPortUp port s
  | .railWindowBeforePowerGood rails pfwHigh => Sys2Proof.Machine.execRailWindowBeforePowerGood rails pfwHigh s
  -- chapter 15: counters, windows, sampling, debug port, workshop access, perturbation
  | .pmcSelWrite m k v => Sys2Proof.Machine.execPmcSelWrite m k v s
  | .bwWindowEnd => Sys2Proof.Machine.execBwWindowEnd s
  | .bwWindowWrite m v => Sys2Proof.Machine.execBwWindowWrite m v s
  | .smpCtrlWrite m n v => Sys2Proof.Machine.execSmpCtrlWrite m n v s
  | .extest scan => Sys2Proof.Machine.execExtest scan s
  | .idcode => Sys2Proof.Machine.execIdcode s
  | .samplePreload scan => Sys2Proof.Machine.execSamplePreload scan s
  | .dtmcs v => Sys2Proof.Machine.execDtmcs v s
  | .dmi op addr data => Sys2Proof.Machine.execDmi op addr data s
  | .workshop v => Sys2Proof.Machine.execWorkshop v s
  | .bypass ir scan => Sys2Proof.Machine.execBypass ir scan s
  | .wsUnlock m v => Sys2Proof.Machine.execWsUnlock m v s
  | .unlockGap => Sys2Proof.Machine.execUnlockGap s
  | .wsClose m v => Sys2Proof.Machine.execWsClose m v s
  | .testEnHigh => Sys2Proof.Machine.execTestEnHigh s
  | .faultInjectWrite m page v => Sys2Proof.Machine.execFaultInjectWrite m page v s
  | .ptCkpt m v => Sys2Proof.Machine.execPtCkpt m v s
  | .ptSig m v => Sys2Proof.Machine.execPtSig m v s
  | .ptVote m v => Sys2Proof.Machine.execPtVote m v s
  | .ptEgress m v => Sys2Proof.Machine.execPtEgress m v s
  | .ptDrop m v => Sys2Proof.Machine.execPtDrop m v s
  | .ptDtack m v => Sys2Proof.Machine.execPtDtack m v s
  | .ptMp m v => Sys2Proof.Machine.execPtMp m v s
  | .ptCle m v => Sys2Proof.Machine.execPtCle m v s
  | .ptMem m v => Sys2Proof.Machine.execPtMem m v s
  | .ptDelayedReportRelease cp => Sys2Proof.Machine.execPtDelayedReportRelease cp s
  -- chapter 12: the persistent-state engine, retention, the recorder
  | .startDone => Sys2Proof.Machine.execStartDone s
  | .recordMark => Sys2Proof.Machine.execRecordMark s
  | .commit m mgmt => Sys2Proof.Machine.execCommit m mgmt s
  | .journal m mgmt => Sys2Proof.Machine.execJournal m mgmt s
  | .commitRequestDone mgmt => Sys2Proof.Machine.execCommitRequestDone mgmt s
  | .retentionCharge milliC => Sys2Proof.Machine.execRetentionCharge milliC s
  | .offTimeCharge => Sys2Proof.Machine.execOffTimeCharge s
  | .offWait => Sys2Proof.Machine.execOffWait s
  | .retentionTableCommit => Sys2Proof.Machine.execRetentionTableCommit s
  | .refresh => Sys2Proof.Machine.execRefresh s
  | .mramScrub upset again => Sys2Proof.Machine.execMramScrub upset again s
  | .powerFailRecordPeriodic => Sys2Proof.Machine.execPowerFailRecordPeriodic s
  | .powerFailWarning => Sys2Proof.Machine.execPowerFailWarning s
  | .pfDone => Sys2Proof.Machine.execPfDone s
  | .pfwRelease => Sys2Proof.Machine.execPfwRelease s
  | .recorderSecond milliC railsMv => Sys2Proof.Machine.execRecorderSecond milliC railsMv s
  | .epochClose => Sys2Proof.Machine.execEpochClose s
  | .runningRecord => Sys2Proof.Machine.execRunningRecord s
  | .exportEpochs => Sys2Proof.Machine.execExportEpochs s
  | .exportLifetime => Sys2Proof.Machine.execExportLifetime s
  -- chapter 13: bundles, update, settings, commissioning
  | .beginHusk => Sys2Proof.Machine.execBeginHusk s
  | .huskWrite => Sys2Proof.Machine.execHuskWrite s
  | .abandon => Sys2Proof.Machine.execAbandon s
  | .verify => Sys2Proof.Machine.execVerify s
  | .verifyDone => Sys2Proof.Machine.execVerifyDone s
  | .arm => Sys2Proof.Machine.execArm s
  | .disarm => Sys2Proof.Machine.execDisarm s
  | .confirm => Sys2Proof.Machine.execConfirm s
  | .fallback => Sys2Proof.Machine.execFallback s
  | .writeGen => Sys2Proof.Machine.execWriteGen s
  | .pcvConfirm m v => Sys2Proof.Machine.execPcvConfirm m v s
  | .pcvConfirmDeferred => Sys2Proof.Machine.execPcvConfirmDeferred s
  -- chapter 10: the measurement chain
  | .modStuck ch => Sys2Proof.Machine.execModStuck ch s
  | .modStuckClear ch => Sys2Proof.Machine.execModStuckClear ch s
  | .chainOutput ch bits => Sys2Proof.Machine.execChainOutput ch bits s
  | .resamplerOutput ch at_ => Sys2Proof.Machine.execResamplerOutput ch at_ s
  | .bankLoad ch => Sys2Proof.Machine.execBankLoad ch s
  | .swap m ch => Sys2Proof.Machine.execSwap m ch s
  | .swapOnSync m ch => Sys2Proof.Machine.execSwapOnSync m ch s
  | .cancel m ch => Sys2Proof.Machine.execCancel m ch s
  | .bankSwapApply ch => Sys2Proof.Machine.execBankSwapApply ch s
  | .zeroCrossing => Sys2Proof.Machine.execZeroCrossing s
  | .trackerUpdate => Sys2Proof.Machine.execTrackerUpdate s
  | .lockLost => Sys2Proof.Machine.execLockLost s
  | .detectionWindow => Sys2Proof.Machine.execDetectionWindow s
  | .outputInputSample out => Sys2Proof.Machine.execOutputInputSample out s
  | .outPostedWrite m out v => Sys2Proof.Machine.execOutPostedWrite m out v s
  | .coefLoad out => Sys2Proof.Machine.execCoefLoad out s
  | .channelStartCheck unit => Sys2Proof.Machine.execChannelStartCheck unit s
  | .measTripLine line => Sys2Proof.Machine.execMeasTripLine line s
  -- chapters 11 and 16: the VME bridge
  | .vmeOutboundRead m addr size => Sys2Proof.Machine.execVmeOutboundRead m addr size s
  | .vmeReadReissue m addr size => Sys2Proof.Machine.execVmeReadReissue m addr size s
  | .vmeReadFetchDone m addr size r => Sys2Proof.Machine.execVmeReadFetchDone m addr size r s
  | .vmePostedWrite m addr size data => Sys2Proof.Machine.execVmePostedWrite m addr size data s
  | .vmeWriteResult dtack => Sys2Proof.Machine.execVmeWriteResult dtack s
  | .busTimer c => Sys2Proof.Machine.execBusTimer c s
  | .masterTimeout c => Sys2Proof.Machine.execMasterTimeout c s
  | .bridgeFence m => Sys2Proof.Machine.execBridgeFence m s
  | .vmeAmo m addr size funct5 src r => Sys2Proof.Machine.execVmeAmo m addr size funct5 src r s
  | .vmeLr m addr size => Sys2Proof.Machine.execVmeLr m addr size s
  | .vmeSc m addr size data dtack => Sys2Proof.Machine.execVmeSc m addr size data dtack s
  | .lrSemaphoreTimeout m => Sys2Proof.Machine.execLrSemaphoreTimeout m s
  | .vmeInboundWrite c data => Sys2Proof.Machine.execVmeInboundWrite c data s
  | .vmeInboundRead c => Sys2Proof.Machine.execVmeInboundRead c s
  | .vmeInboundRmw c data => Sys2Proof.Machine.execVmeInboundRmw c data s
  | .lockBroken => Sys2Proof.Machine.execLockBroken s
  | .irqPoll asserted acks => Sys2Proof.Machine.execIrqPoll asserted acks s
  | .irqEnableWrite m v => Sys2Proof.Machine.execIrqEnableWrite m v s
  | .vmeBusGrant => Sys2Proof.Machine.execVmeBusGrant s
  | .vmeBusRequest level => Sys2Proof.Machine.execVmeBusRequest level s
  | .vmeDaisyChainInput iackIn bgIn => Sys2Proof.Machine.execVmeDaisyChainInput iackIn bgIn s
  -- chapter 02: the stack
  | .remotePageRequest id page off req => Sys2Proof.Machine.execRemotePageRequest id page off req s

end Sys2Proof.Machine
end

