-- ==== Sys2Proof/Machine/Step.lean ====
section
/-!
DEFINITION. One step of the block: the command at the front of the queue, or, with nothing waiting, one cycle of CK_AON.
-/
namespace Sys2Proof.Machine

/-- Nothing is commanded: one CK_AON cycle passes (R209, R210, R213), and the inbound write buffer drains (R354)
(DESIGN CHOICE, log entry 1). -/
def State.idle (s : State) : State := s.inboundDrain.tick

/-- One step: the command at the front of the queue runs on the state with the queue's rest. -/
def step (s : State) : Host.Outcome State Fault Refusal :=
  match s.pending with
  | [] => .next s.idle
  | c :: rest => exec c { s with pending := rest }

/-- The state with the command that a word spells at the front of its queue. No row of the table gives bits, so that no
word spells one. -/
def State.withFetchWord (s : State) (nbits w : Nat) : State :=
  match decodeTableWord nbits w with
  | some c => { s with pending := c :: s.pending }
  | none => s

end Sys2Proof.Machine
end

