-- ==== Sys2Proof/Safety.lean ====
section
/-!
DEFINITION. What counts as a safe state and as a well-kept one, in the terms that the statements use: the conditions of R430
that a live output rests on, the bounds and the order of the report FIFOs (R21, R59, R60), the canonical form of the
memories.
-/
namespace Sys2Proof.Safety
open Sys2Proof.Machine

/-- The conditions of R430 that the state holds as such: START_MODE OPERATIONAL, a split mode with a majority or a pair, no
safe state, no lock-out latched, workshop access never opened since module reset, PFW_N high. -/
def mayLive (s : State) : Bool :=
  s.sup.startMode == 0 && s.clu.mode != .simplexThree && s.sup.safeState.isNone && !s.sup.latch.locked && !s.obs.wsOpened
    && !s.sup.pfwLow

/-- The outputs are live, and SAFE_TX_GRANT set, only while those conditions hold. -/
def outputsSafe (s : State) : Bool := (!s.sup.live || mayLive s) && s.sup.grant == s.sup.live

/-- RECORD_SEQ rises along a FIFO and stays below the next one to be given (R60). -/
def seqsRise : List FaultReport → Nat → Bool
  | [], _ => true
  | [r], n => decide (r.seq < n)
  | r :: q :: t, n => decide (r.seq < q.seq) && seqsRise (q :: t) n

/-- A report FIFO holds at most 32 entries (R21, R59), in the order of their RECORD_SEQ. -/
def fifoOk (l : List FaultReport) (n : Nat) : Bool := decide (l.length ≤ 32) && seqsRise l n

/-- The three report FIFOs. -/
def fifosOk (s : State) : Bool :=
  fifoOk s.faults.control s.faults.nextSeq && fifoOk s.faults.data s.faults.nextSeq
    && fifoOk s.faults.management s.faults.nextSeq

/-- The canonical form of a byte memory and of a word memory: equal contents are equal data. -/
def bytesWf (m : Tbl Byte) : Bool := tblWf byteDefault m
def wordsWf (m : Tbl Word) : Bool := tblWf zeroWord m

/-- Every addressed memory is in its canonical form. -/
def memoryWf (m : Memories) : Bool :=
  bytesWf m.sram && bytesWf m.mgmt && bytesWf m.mram
    && bytesWf m.tcm.a && bytesWf m.tcm.b && bytesWf m.tcm.c
    && bytesWf m.data.a && bytesWf m.data.b && bytesWf m.data.c
    && wordsWf m.prog.a && wordsWf m.prog.b && wordsWf m.prog.c

/-- The architectural state of a copy that retirements change (R63, R89, R90): registers, CSRs, pc, instret, signature. -/
def archOf (c : CopyState) : Tbl DWord × Tbl DWord × Tbl DWord × DWord × DWord × DWord :=
  (c.x, c.f, c.csr, c.pc, c.instret, c.sig)

/-! ## Benmi instructions -/

/-- The context that the lowest participating engine executes the next instruction of program `p` in. -/
def ctxOf (s : State) (p : Nat) : Ctx :=
  let r := s.cle.regs.eng s.lowEngine
  let w := s.pm (s.imageBase p + 16 + r.pc)
  { m := s.dm, p := p, ft := (s.prog p).ft, exchanged := (s.prog p).exchanged, pairs := s.imagePairs p,
    tasks := (s.prog p).errTasks, r := r, sp := spOf w, ad := adOf w, second := s.pm (s.imageBase p + 16 + r.pc + 1) }

/-- Program `p` executes and stands at the instruction `op sp ad`, with its second word where it has one, and the
instruction is not illegal (R152). -/
def standsAt (s : State) (p op sp ad : Nat) (second : Option Word) : Bool :=
  let code := s.imageBase p + 16
  let pc := (s.cle.regs.eng s.lowEngine).pc
  let w := s.pm (code + pc)
  s.cle.running == some p && (s.prog p).state == 4 && decide (pc < (s.imageHeader p).codeWords)
    && opOf w == op && spOf w == sp && adOf w == ad
    && (match second with | some v => !(twoWords w) || s.pm (code + pc + 1) == v | none => true)
    && insnOk s.pm code (s.imageHeader p).codeWords pc

/-- The participating engines hold the same registers and memories, no word that ECC cannot correct, and PT_CLE holds
none of them. -/
def enginesAgree (s : State) : Bool :=
  s.heldByPt.isNone && !s.engines.isEmpty && s.engines.all fun e =>
    s.cle.regs.eng e == s.cle.regs.eng s.lowEngine && s.dataMem e == s.dm && s.mem.prog.eng e == s.mem.prog.eng s.lowEngine
      && (s.mem.progEcc.eng e).all (fun q => q.2 != 2) && (s.mem.dataEcc.eng e).all (fun q => q.2 != 2)

/-- What an instruction of program `p` that the engines agree on leaves: registers `r` in every participant, the voted
writes, the cycles booked, and at the end of the code a stop. Two engines that agree differ no longer. -/
def benmiLeaves (s : State) (p op : Nat) (r : EngRegs) (writes : List (Nat × List Byte)) (cycles : Nat) : State :=
  let s1 := if s.engines.length = 2 then s.setCle { s.cle with differing := false } else s
  let s2 := s1.setCle { s1.cle with regs := s.engines.foldl (fun t e => t.setEng e r) s1.cle.regs }
  let s3 := (writes.foldl (fun t q => t.votedData q.1 q.2) s2).bookCycles p cycles (some op)
  if (s.imageHeader p).codeWords ≤ r.pc then s3.stopProgram p 8 1 else s3

end Sys2Proof.Safety
end

