-- ==== Sys2Proof/Certificates/Slice0/Obligations.lean ====
section
/-!
DEFINITION. The statements for the provers, one `Obligations.<Name> : Prop` each. A command's statement gives the state that it
answers: as an equation over the named operations, which says by itself that nothing else changes, or by the fields that
change, with the frame as an equation between records.
-/
open Sys2Proof Sys2Proof.Machine Sys2Proof.Safety

/-- One step is exec of the command at the front of the queue. For every command c, every queue rest and every state
s: a step of s with c in front of rest answers exactly what exec answers for c on s with the queue rest. The per-
command statements reach a run through this one. Rests on 95_what_each_step_holds, log entry 1. -/
def Obligations.StepRunsFrontCommand : Prop :=
  ∀ (c : Instr) (rest : List Instr) (s : State),
    step { s with pending := c :: rest } = exec c { s with pending := rest }

/-- With no command waiting, a step is one CK_AON cycle: LT advances by 1, or by 0 or 2 on a carry of LT_TRIM. That an
empty queue lets one CK_AON cycle pass is the model's choice (log entry 1). For every state with an empty queue and an
empty inbound write buffer the step answers a next state in which |LT_TRIM| has been added to the 32-bit accumulator;
without a carry LT is one higher, with a carry it is two higher for a positive LT_TRIM and unchanged for a negative
one; NT stands still until its first acquisition; nothing but the time domains changes. Rests on 07_external_timebase
R209, 07_external_timebase R211, log entry 1. -/
def Obligations.IdleStepAdvancesLocalTime : Prop :=
  ∀ s : State, s.pending = [] → s.vme.inbound = [] →
    ∃ t, step s = .next t
      ∧ (let trim := (s.reg 0x141 Reg.time.ltTrim).toInt
        let sum := s.time.trimAcc + trim.natAbs
        (sum < 2 ^ 32 → t.time.lt = s.time.lt + 1#64 ∧ t.time.trimAcc = sum)
          ∧ (2 ^ 32 ≤ sum → 0 < trim → t.time.lt = s.time.lt + 2#64 ∧ t.time.trimAcc = sum - 2 ^ 32)
          ∧ (2 ^ 32 ≤ sum → trim ≤ 0 → t.time.lt = s.time.lt ∧ t.time.trimAcc = sum - 2 ^ 32))
      ∧ (s.time.ntSet = false → t.time.nt = s.time.nt)
      ∧ { t with time := s.time } = s
      ∧ { t.time with
          lt := s.time.lt, trimAcc := s.time.trimAcc, nt := s.time.nt, ntFrac := s.time.ntFrac, mp := s.time.mp,
          mpFrac := s.time.mpFrac } = s.time

/-- After module reset the registers, run states, time domains and FIFOs hold the values that the spec gives. Page
0x000 reads ENABLE 1 and ON and every page that follows the run states is OFF with ENABLE 0; LT, MP and the FIFOs are
empty or 0; MP_HOLDOVER is set and MP_NOMINAL reads 50,000 mHz; CLK_STATUS shows every PLL locked; the comparator
limits read CKPT_TIMEOUT 20, CKPT_GAP 196, VOTE_TIMEOUT 10; all three copies of a TRIPLEX module participate; the
outputs are off; no command waits. Rests on 02_register_pages R39, 07_external_timebase R208, 07_external_timebase
R214, 02_register_pages R57, 03_triplex_execution R100, 01_module_organization R27. -/
def Obligations.ResetLeavesTheSpecifiedValues : Prop :=
  let s := State.reset
  ((s.page 0x000).enable = true ∧ (s.page 0x000).run = .on)
    ∧ (∀ p, followsRuns p = true → s.page p = ⟨false, false, false, .off, false⟩)
    ∧ (s.time.lt = 0#64 ∧ s.time.mp = 0#64 ∧ s.time.ntValid = false ∧ s.time.mpHoldover = true)
    ∧ (s.reg 0x141 Reg.time.mpNominal = 50000#32 ∧ s.reg 0x002 Reg.clock.clkStatus = 0xff#32)
    ∧ (s.reg 0x010 Reg.cluster.ckptTimeout = 20#32 ∧ s.reg 0x010 Reg.cluster.ckptGap = 196#32
      ∧ s.reg 0x010 Reg.cluster.voteTimeout = 10#32)
    ∧ (∀ p n, s.counter p n = 0#64)
    ∧ (∀ pl, s.faults.fifo pl = [])
    ∧ (s.ledger.voterCommits = 0#64 ∧ s.ledger.vmePosted = 0#32 ∧ s.ledger.vmeFailed = 0#32)
    ∧ (∀ k, (s.clu.copies.copy k).participant = true ∧ (s.clu.copies.copy k).instret = 0#64)
    ∧ (s.sup.live = false ∧ s.sup.grant = false ∧ s.obs.wsOpen = false)
    ∧ s.pending = []

/-- The state after module reset has ordered report FIFOs, canonical memories and safe outputs. At State.reset every
report FIFO holds at most 32 reports in rising RECORD_SEQ, every memory is in canonical form, the outputs are off, and
SAFE_TX_GRANT follows them: the invariants that every step keeps hold at the start. Rests on 01_module_organization
R21, 14_supervision_and_failover R430, log entry 63. -/
def Obligations.ResetMeetsTheInvariants : Prop :=
  fifosOk State.reset = true ∧ memoryWf State.reset.mem = true ∧ outputsSafe State.reset = true

/-- Every step keeps each report FIFO within 32 entries and in the order of RECORD_SEQ. For every state whose three
report FIFOs each hold at most 32 reports, in strictly rising RECORD_SEQ below the next number to be given: if the
step answers a next state, its FIFOs are so too. So a report that finds its FIFO full is never stored, no RECORD_SEQ
is given twice, and reports leave in the order in which they came, whatever command runs. Rests on
01_module_organization R21, 02_register_pages R59, 02_register_pages R60. -/
def Obligations.StepKeepsReportFifosOrdered : Prop :=
  ∀ s t : State, fifosOk s = true → step s = .next t → fifosOk t = true

/-- Every step keeps every memory in its canonical form. For every state whose shared SRAM, management SRAM, MRAM, the
copies' TCM and the engines' data and program memories each list their contents at strictly rising addresses and list
no cell equal to what an unlisted one reads as: if the step answers a next state, its memories are so too. Equal
memories are then equal data after every command. Rests on 01_module_organization R29, log entry 2. -/
def Obligations.StepKeepsMemoriesCanonical : Prop :=
  ∀ s t : State, memoryWf s.mem = true → step s = .next t → memoryWf t.mem = true

/-- Every step keeps the outputs off unless the conditions of R430 that the state holds are met. Inv(s): OUTPUTS_LIVE
only with START_MODE OPERATIONAL, a split mode other than SIMPLEX_THREE, no safe state, no lock-out latched, workshop
access never opened since module reset and PFW_N high; and SAFE_TX_GRANT equals OUTPUTS_LIVE. For every state with
Inv, if the step answers a next state, that state has Inv: no command leaves the outputs live when one of those
conditions has gone. Rests on 14_supervision_and_failover R430, 14_supervision_and_failover R432,
14_supervision_and_failover R433, 14_supervision_and_failover R435, log entry 64. -/
def Obligations.StepKeepsOutputsSafe : Prop :=
  ∀ s t : State, outputsSafe s = true → step s = .next t → outputsSafe t = true

/-- No command changes the queue of waiting commands. For every command c and states s and t: if exec of c on s
answers t, the queue of t is the queue of s. With the first statement, commands run in the order in which they stand,
each once. Rests on 95_what_each_step_holds, log entry 1. -/
def Obligations.CommandsLeaveTheQueueAlone : Prop :=
  ∀ (c : Instr) (s t : State), exec c s = .next t → t.pending = s.pending

/-- A posted report takes a free FIFO entry with the next RECORD_SEQ, or counts as an overflow. For every state, FIFO,
origin page, class below 32, reaction and detail: posting a report counts FAULT_COUNT of the origin up to at most
0xFFFF and sets the class bit of CLASS_SUMMARY; with fewer than 32 entries held, the FIFO ends in one new report of
that origin, class and reaction, stamped with LT and numbered with the next RECORD_SEQ, and the other FIFOs are as
they were; with 32 held, no FIFO changes and the overflow count of that FIFO goes up. Only registers, event counters
and the FIFOs change, and no register but those named. Rests on 01_module_organization R21, 02_register_pages R37,
02_register_pages R59, 02_register_pages R60, 02_register_pages R38. -/
def Obligations.ReportEntersItsFifo : Prop :=
  ∀ (s : State) (pl : Plane) (p cls reaction : Nat) (detail : List Word), cls < 32 →
    let t := s.post pl p cls reaction detail
    t.reg p 0x014 = satField (s.reg p 0x014) 15 0 1
      ∧ bitOf (t.reg 0x004 Reg.faultMgr.classSummary) cls = true
      ∧ ((s.faults.fifo pl).length < 32 →
          ∃ r, t.faults = { s.faults.setFifo pl (s.faults.fifo pl ++ [r]) with nextSeq := s.faults.nextSeq + 1 }
            ∧ r.seq = s.faults.nextSeq ∧ r.origin = p ∧ r.cls = cls ∧ r.reaction = reaction ∧ r.lt = s.time.lt)
      ∧ (32 ≤ (s.faults.fifo pl).length →
          t.faults = s.faults ∧ t.reg 0x004 (overflowReg pl) = satWord (s.reg 0x004 (overflowReg pl)) 1)
      ∧ { t with regs := s.regs, counters := s.counters, obs := s.obs, faults := s.faults } = s
      ∧ ∀ q off, off < 0x1000 → (q, off) ≠ (p, 0x014) → (q, off) ≠ (0x004, Reg.faultMgr.classSummary) →
          (q, off) ≠ (0x004, overflowReg pl) → t.reg q off = s.reg q off

/-- Refused, misaligned, narrow and unanswered accesses are answered as R7, R32 and R488 say and write nothing. A
misaligned access by a core answers the misaligned exception and changes nothing else, as MISALIGNED_ACCESS and as
ACCESS_VIOLATION. An access that the map, the rights of R31, R19 or R48 refuse, and a remote access that the other
module does not answer in time, is a violation: a core gets an access fault and any other master the value 0, a report
of class 0 is posted for the originating unit, and no memory, page state or unit changes. A register page access that
is not an aligned 32-bit one is a bus error counted by the addressed page. Rests on 00_scope R7,
01_module_organization R29, 01_module_organization R31, 01_module_organization R32, 01_module_organization R488,
02_register_pages R37, 02_register_pages R48. -/
def Obligations.RefusedAccessesTakeNoEffect : Prop :=
  (∀ (m : Master) (addr : BitVec 40) (size : Nat) (write : Bool) (s : State),
    isCore m = true → misaligned addr.toNat size = true →
      exec (.misalignedAccess m addr size write) s = .next (s.answer .misaligned)
        ∧ exec (.accessViolation m addr size write) s = .next (s.answer .misaligned))
  ∧ (∀ (m : Master) (addr : BitVec 40) (size : Nat) (write : Bool) (s : State),
    (isCore m && misaligned addr.toNat size) = false → s.vmeDecode m addr.toNat (max size 1) write ≠ .refused →
    s.refuses m addr.toNat write = true →
      exec (.accessViolation m addr size write) s = .next (s.violation m addr.toNat))
  ∧ (∀ (m : Master) (addr : BitVec 40) (size : Nat) (write : Bool) (s : State),
    (isCore m && misaligned addr.toNat size) = false → s.vmeDecode m addr.toNat (max size 1) write = .refused →
      exec (.accessViolation m addr size write) s = .next (s.vmeRefuse m addr.toNat))
  ∧ (∀ (m : Master) (addr : BitVec 40) (size : Nat) (write : Bool) (s : State),
    regionOf addr.toNat = .localPages → (isCore m && misaligned addr.toNat size) = false →
    s.refuses m addr.toNat write = false → ¬(size = 4 ∧ addr.toNat % 4 = 0) →
      exec (.nonAlignedPageAccess m addr size write) s =
        .next ((s.countFault (localPage addr.toNat)).answer .busError))
  ∧ (∀ (m : Master) (stack : Fin 8) (page off : Nat) (write : Bool) (s : State), stack ≠ s.fail.stackId →
      exec (.remoteAccessTimeout m stack page off write) s =
        .next (s.violation m (0x1c000000 + stack.val * 0x800000 + page * 0x1000 + off)))
  ∧ (∀ (s : State) (m : Master) (a : Nat),
      let t := s.violation m a
      t.reply = violationReply m ∧
        { t with regs := s.regs, counters := s.counters, obs := s.obs, faults := s.faults, reply := s.reply } = s)

/-- A plain register write stores what its row allows; a _LO read keeps _HI for the reading master alone. For an
aligned offset of at least 0x100 of a page whose writes do no more than store their fields, a master that may write it
stores the row's writable fields of the value under the page's LOCK and is answered, and no other state changes; a
master that may not write it causes a violation. A read of an event counter's low word, and of a listed _LO register,
answers that word and keeps the high word of the same instant for the reading master; it changes nothing else. Rests
on 00_scope R8, 00_scope R9, 01_module_organization R18, 01_module_organization R19, 02_register_pages R38,
03_triplex_execution R100. -/
def Obligations.RegisterReadsAndWritesFollowTheirRules : Prop :=
  (∀ (m : Master) (p off : Nat) (v : Word) (s : State) (k : UnitKind) (i : Nat) (d : RegDesc),
    p < 0x800 → 0x100 ≤ off → off < 0x1000 → off % 4 = 0 → pageUnit p = some (k, i) →
    k ∈ [.root, .ident, .clock, .faultMgr, .copy, .cmp, .cle, .engine, .cleImage, .stations, .switch, .prp, .queues,
      .meas, .outputs, .time, .axles, .pstate, .recorder, .update, .settings, .stackLink, .observe] →
    regDesc p off = some d → s.refuses m (0x18000000 + 0x1000 * p + off) true = false →
      exec (.registerWrite m p off v) s =
        .next ((s.setReg p off (d.written (s.locked p) (s.reg p off) v)).answer .none))
  ∧ (∀ (m : Master) (p off : Nat) (v : Word) (s : State), p < 0x800 → off < 0x1000 → off % 4 = 0 →
    s.refuses m (0x18000000 + 0x1000 * p + off) true = true →
      exec (.registerWrite m p off v) s = .next (s.violation m (0x18000000 + 0x1000 * p + off)))
  ∧ (∀ (m : Master) (p : Nat) (n : Fin 16) (s : State), p < 0x800 →
    s.refuses m (0x18000000 + 0x1000 * p + (0x080 + 8 * n.val)) false = false →
      exec (.eventCtrLoRead m p n) s =
        .next ({ s with
          hiSnap := tblWrite zeroWord s.hiSnap (snapKey m p (0x084 + 8 * n.val)) (hiWord (s.counter p n.val)) }.answer
            (.value ((loWord (s.counter p n.val)).zeroExtend 64))))
  ∧ (∀ (m : Master) (p off : Nat) (s : State), p < 0x800 → 0x100 ≤ off → off < 0x1000 → off % 4 = 0 →
    isLo p off = true → s.refuses m (0x18000000 + 0x1000 * p + off) false = false →
      exec (.loRegisterRead m p off) s =
        .next ({ s with hiSnap := tblWrite zeroWord s.hiSnap (snapKey m p (off + 4)) (s.pageWord p (off + 4)) }.answer
          (.value ((s.pageWord p off).zeroExtend 64))))

/-- ENABLE, FREEZE, LOCK and LOCAL_RESET writes change the bits and run states as R39 to R42 say, and a locked page
ignores them. For a unit that follows the run states, written by a master that may write its page. Unlocked: ENABLE is
stored (0 on a FAULTED unit stops it) and the unit and every unit below it follow their effective enables; FREEZE is
stored; LOCAL_RESET resets the unit and every unlocked unit below it. LOCK is set on any page but 0x010, where the
four comparator values also go to the supervisor. A locked page ignores ENABLE, FREEZE and LOCAL_RESET. Following the
effective enable is the table of R39 and R40: OFF starts, ON stops at 0, STOPPING shows ENABLE_PENDING, STARTING and
FAULTED stay; a unit with nothing below it follows alone. Rests on 02_register_pages R39, 02_register_pages R40,
02_register_pages R42, 02_register_pages R44, 00_scope R9. -/
def Obligations.RunStatesFollowEnable : Prop :=
  (∀ (m : Master) (p : Nat) (b : Bool) (s : State), s.mayWritePage m p 0x008 = true → followsRuns p = true →
    s.locked p = false →
      exec (.enableWrite m p b) s = .next (((s.setPage p
        (if (s.page p).run = .faulted ∧ b = false then
          { s.page p with enable := b, run := .stopping, pending := false }
        else { s.page p with enable := b })).followAll p).answer .none)
      ∧ exec (.freezeWrite m p b) s = .next ((s.setPage p { s.page p with freeze := b }).answer .none)
      ∧ exec (.localReset m p) s = .next ((((subtree p).foldl State.resetUnit s).followAll p).answer .none))
  ∧ (∀ (m : Master) (p : Nat) (b : Bool) (s : State), s.mayWritePage m p 0x008 = true → s.locked p = true →
      exec (.enableWrite m p b) s = .next (s.answer .none) ∧ exec (.freezeWrite m p b) s = .next (s.answer .none)
        ∧ exec (.localReset m p) s = .next (s.answer .none))
  ∧ (∀ (m : Master) (p : Nat) (s : State), s.mayWritePage m p 0x008 = true → (p = 0x010 → s.locked p = true) →
      exec (.lock m p) s = .next ((s.setPage p { s.page p with lock := true }).answer .none))
  ∧ (∀ (m : Master) (s : State), s.mayWritePage m 0x010 0x008 = true → s.locked 0x010 = false →
      exec (.lock m 0x010) s = .next (((s.setPage 0x010 { s.page 0x010 with lock := true }).setEcho
        (s.reg 0x010 Reg.cluster.ckptInterval) (s.reg 0x010 Reg.cluster.ckptTimeout)
        (s.reg 0x010 Reg.cluster.ckptGap) (s.reg 0x010 Reg.cluster.voteTimeout)).answer .none))
  ∧ (∀ (p : Nat) (s : State), followsRuns p = true →
      ((s.page p).run = .off → s.effEnable p = true → s.follow p = s.setPage p { s.page p with run := .starting })
      ∧ ((s.page p).run = .off → s.effEnable p = false → s.follow p = s)
      ∧ ((s.page p).run = .on → s.effEnable p = true → s.follow p = s)
      ∧ ((s.page p).run = .on → s.effEnable p = false →
        s.follow p = (s.setPage p { s.page p with run := .stopping, pending := false }).leaveOn p)
      ∧ ((s.page p).run = .stopping → s.follow p = s.setPage p { s.page p with pending := s.effEnable p })
      ∧ ((s.page p).run = .starting ∨ (s.page p).run = .faulted → s.follow p = s)
      ∧ (subtree p = [p] → s.followAll p = s.follow p))

/-- A start that completes ends ON or STOPPING, a drain that completes ends OFF or STARTING; the clock page's events
are reported. START_COMPLETES on a STARTING unit whose subtree is ready and whose own start checks do not stop it: the
unit becomes ON where its effective enable is 1, STOPPING where it is 0. DRAIN_COMPLETES on a STOPPING unit that has
drained: OFF, or STARTING where ENABLE_PENDING is 1, which clears. PLL_UNLOCK clears the PLL's live lock bit and
latches and reports cause 0 of page 0x002. CK_MEAS_UPDATE stores the twelve measured frequencies, and writes no other
register and nothing else. Rests on 02_register_pages R39, 02_register_pages R40, 02_register_pages R44,
01_module_organization R28, 01_module_organization R27. -/
def Obligations.StartsAndDrainsComplete : Prop :=
  (∀ (p : Nat) (s : State), (s.page p).run = .starting → s.startReady p = true → ((s.starts p).page p).run = .starting →
      exec (.startCompletes p) s = .next ((s.starts p).setPage p
        { (s.starts p).page p with
          run := if (s.starts p).effEnable p then .on else .stopping, pending := false }))
  ∧ (∀ (p : Nat) (s : State), (s.page p).run = .stopping → s.drained p = true →
      exec (.drainCompletes p) s = .next ((s.measOff p).setPage p
        { s.page p with run := if (s.page p).pending then .starting else .off, pending := false }))
  ∧ (∀ (pll : Fin 8) (s : State),
      exec (.pllUnlock pll) s = .next ((s.setReg 0x002 Reg.clock.clkStatus
        (setBit (s.reg 0x002 Reg.clock.clkStatus) pll.val false)).raise 0x002 0 []))
  ∧ (∀ (khz : List Word) (s : State), ∃ t, exec (.ckMeasUpdate khz) s = .next t
      ∧ (∀ i : Fin 12, t.reg 0x002 (Reg.clock.ckMeas + 4 * i.val) = khz.getD i.val 0#32)
      ∧ { t with regs := s.regs } = s
      ∧ ∀ p off, off < 0x1000 → (p ≠ 0x002 ∨ off < Reg.clock.ckMeas ∨ Reg.clock.ckMeas + 48 ≤ off) →
          t.reg p off = s.reg p off)

/-- START, ABORT, SUSPEND, RESUME and the unit's own steps move a long operation as R51 to R53 say. START accepted:
the arguments are latched, PROGRESS, OP_RESULT and OP_ERROR are 0 and the operation is QUEUED; an opcode that the unit
does not implement ends FAILED with code 1; a START that is not accepted changes nothing. ABORT of an operation in
progress ends it ABORTED, with code 3 where no error stands; SUSPEND acts on RUNNING, RESUME on SUSPENDED unless the
unit suspended it; in any other state each changes nothing. The unit's resource turns QUEUED into RUNNING, its own
suspension and resumption move RUNNING and SUSPENDED. An item counts in PROGRESS, its result in OP_RESULT, its first
error in OP_ERROR; the operation ends FAILED at an error it does not tolerate and DONE with its last item. Rests on
02_register_pages R50, 02_register_pages R51, 02_register_pages R52, 02_register_pages R53. -/
def Obligations.LongOperationsFollowTheirStates : Prop :=
  (∀ (m : Master) (p : Nat) (n : Fin 16) (s : State), s.mayWritePage m p 0x038 = true →
      (s.startAccepted p n.val = true → hasOpcode p n.val = true → p ≠ 0x044 →
        exec (.opStart m p n) s = .next ((s.setOp p ⟨.queued, n, 0, 0#32, 0#32, s.reg p 0x020, s.reg p 0x024,
          s.reg p 0x028, s.reg p 0x02c, false⟩).answer .none))
      ∧ (s.startAccepted p n.val = true → hasOpcode p n.val = false →
        ∃ t, exec (.opStart m p n) s = .next t ∧ (t.op p).phase = .failed ∧ (t.op p).error = 1#32
          ∧ (t.op p).opcode = n ∧ { t with ops := s.ops, reply := s.reply } = s)
      ∧ (s.startAccepted p n.val = false → exec (.opStart m p n) s = .next (s.answer .none)))
  ∧ (∀ (m : Master) (p : Nat) (s : State), s.mayWritePage m p 0x038 = true →
      ((s.op p).inProgress = true → exec (.opAbort m p) s = .next ((s.setOp p
        { s.op p with
          phase := .aborted, selfSuspended := false,
          error := if (s.op p).error = 0#32 then 3#32 else (s.op p).error }).answer .none))
      ∧ ((s.op p).phase = .running → exec (.opSuspend m p) s =
        .next ((s.setOp p { s.op p with phase := .suspended, selfSuspended := false }).answer .none))
      ∧ ((s.op p).phase = .suspended → (s.op p).selfSuspended = false → exec (.opResume m p) s =
        .next ((s.setOp p { s.op p with phase := .running }).answer .none))
      ∧ ((s.op p).inProgress = false → exec (.opAbort m p) s = .next (s.answer .none)
        ∧ exec (.opSuspend m p) s = .next (s.answer .none) ∧ exec (.opResume m p) s = .next (s.answer .none)))
  ∧ (∀ (p : Nat) (s : State),
      ((s.op p).phase = .queued → s.frozen p = false →
        exec (.opRunBegin p) s = .next (s.setOp p { s.op p with phase := .running }))
      ∧ ((s.op p).phase = .running →
        exec (.opSelfSuspend p) s = .next (s.setOp p { s.op p with phase := .suspended, selfSuspended := true }))
      ∧ ((s.op p).phase = .suspended → (s.op p).selfSuspended = true →
        exec (.opSelfResume p) s = .next (s.setOp p { s.op p with phase := .running, selfSuspended := false })))
  ∧ (∀ (p : Nat) (r : Bool) (e : Word) (last : Bool) (s : State), (s.op p).phase = .running →
      (e = 0#32 ∨ opTolerant p (s.op p).opcode.val = true →
        exec (.opItemComplete p r e last) s = .next (s.setOp p
          { s.op p with
            phase := if last then .done else .running,
            error := if (s.op p).error = 0#32 then e else (s.op p).error,
            progress := satAdd 0xffffff (s.op p).progress 1,
            result := (s.op p).result + (if r then 1#32 else 0#32) }))
      ∧ (e ≠ 0#32 → opTolerant p (s.op p).opcode.val = false →
        exec (.opItemComplete p r e last) s = .next (s.setOp p
          { s.op p with
            phase := .failed, error := if (s.op p).error = 0#32 then e else (s.op p).error })))

/-- SNAP captures the books, LEDGER_SNAP the ledger for one master, and a fault record frees its FIFO entry. SNAP on a
page with books below it captures them; on page 0x000 the capture is in progress until AUDIT_CAPTURE_COMPLETE takes
every book of the subtree; on a page without books it changes nothing. A unit without others below it: balanced books
advance SNAP_SEQ with IMBALANCE 0. LEDGER_SNAP keeps the frozen ledger and one more capture for the writing master; no
other master's image or count changes. FAULT_RECORD_VALID writes the record of the oldest report into its MRAM slot,
counts it, frees the entry, and takes its RECORD_SEQ as the highest. Rests on 02_register_pages R58, 02_register_pages
R59, 02_register_pages R60, 02_register_pages R61, 02_register_pages R62, 12_persistent_state R386. -/
def Obligations.AuditsLedgerAndRecordsAreTaken : Prop :=
  (∀ (m : Master) (p : Nat) (s : State), s.mayWritePage m p 0x050 = true →
      (p ≠ 0x000 → bookPages p ≠ [] → exec (.auditSnap m p) s = .next ((s.auditAll p).answer .none))
      ∧ (p ≠ 0x000 → bookPages p = [] → exec (.auditSnap m p) s = .next (s.answer .none))
      ∧ (p = 0x000 → s.auditBusy.contains p = false →
        exec (.auditSnap m p) s = .next ({ s with auditBusy := p :: s.auditBusy }.answer .none)))
  ∧ (∀ (p : Nat) (s : State), s.auditBusy.contains p = true →
      exec (.auditCaptureComplete p) s =
        .next (({ s with auditBusy := s.auditBusy.filter fun q => q != p }).auditAll p))
  ∧ (∀ (p : Nat) (s : State), bookPages p = [p] → (s.captureBook p).2.1 = false →
      s.auditAll p = (s.captureBook p).1.auditStatus p false)
  ∧ (∀ (m : Master) (s : State), s.mayWritePage m 0x005 Reg.workLedger.ledgerSnap = true →
      ∃ t, exec (.ledgerSnap m) s = .next t
        ∧ tblRead noLedger t.ledgerSnaps (masterKey m) = some s.frozenLedger
        ∧ tblRead zeroWord t.ledgerSeqs (masterKey m) = tblRead zeroWord s.ledgerSeqs (masterKey m) + 1#32
        ∧ (∀ k, k ≠ masterKey m → tblRead noLedger t.ledgerSnaps k = tblRead noLedger s.ledgerSnaps k
          ∧ tblRead zeroWord t.ledgerSeqs k = tblRead zeroWord s.ledgerSeqs k)
        ∧ { t with
            ledgerSnaps := s.ledgerSnaps, ledgerSeqs := s.ledgerSeqs, counters := s.counters, obs := s.obs,
            reply := s.reply } = s)
  ∧ (∀ (pl : Plane) (r : FaultReport) (rest : List FaultReport) (s : State), s.faults.fifo pl = r :: rest →
      s.ps.pfDone = false →
      let w := (s.mramWrite 1 (mramFault r.seq) (faultRecordBytes r)).bump 0x004 3 1
      let f := { w with faults := w.faults.setFifo pl ((w.faults.fifo pl).drop 1) }
      exec (.faultRecordValid pl) s =
        .next (((f.setNv { f.ps.nv with faultSeq := max f.ps.nv.faultSeq r.seq }).lockoutRecorded r).pfNext))

/-- The remote-page slot of the module's own STACK_ID reads and writes exactly as its local pages. For every master
that R31 lists, every page number below 0x800, every offset, access size of 1, 2, 4 or 8 bytes and every state: a read
and a write at 0x1C00_0000 + STACK_ID × 0x80_0000 + page × 0x1000 + offset have the same answer and the same effect,
refusals and counts included, as at 0x1800_0000 + page × 0x1000 + offset. Rests on R30. -/
def Obligations.OwnRemoteSlotIsAnAlias : Prop :=
  ∀ (m : Master) (p off size : Nat) (ext v : DWord) (s : State), columnOf m ≠ .link → p < 0x800 → off < 0x1000 →
    size ∈ [1, 2, 4, 8] →
      let remote := BitVec.ofNat 40 (0x1c000000 + s.fail.stackId.val * 0x800000 + 0x1000 * p + off)
      s.busRead m remote size ext = s.busRead m (pageAddr p off) size ext
        ∧ s.busWrite m remote size v = s.busWrite m (pageAddr p off) size v

/-- Another module's request reads a page with rewritten references, and writes only what R48 lets through.
REMOTE_PAGE_REQUEST. An aligned read of an allocated page answers the word that a read by that module gives, with the
group fields rewritten for the reader; a read off alignment is a bus error counted by the page. A request for a page
that is not allocated, a write that R48 refuses, and a write of pages 0x1A0 to 0x1AF outside workshop access are
violations. An aligned write that is let through is the page's write. Rests on 02_register_pages R47,
02_register_pages R48, 01_module_organization R19, 00_scope R7. -/
def Obligations.RemotePageRequestsAreServed : Prop :=
  ∀ (id : Fin 8) (p off : Nat) (s : State), p < 0x800 → off < 0x1000 →
    let a := 0x18000000 + 0x1000 * p + off
    (∀ v, (pageUnit p).isSome = true → off % 4 = 0 → (s.pageRead (.remote id) p off).reply = .value v →
      exec (.remotePageRequest id p off .read) s =
        .next ((s.pageRead (.remote id) p off).answer (.value ((s.rewritten id.val p off (loWord v)).zeroExtend 64))))
    ∧ ((pageUnit p).isSome = true → off % 4 ≠ 0 →
      exec (.remotePageRequest id p off .read) s = .next ((s.pageBusError a)))
    ∧ (∀ req, (pageUnit p).isNone = true →
      exec (.remotePageRequest id p off req) s = .next (s.violation (.remote id) a))
    ∧ (∀ pl v, s.mayWriteRemote pl p = false ∨ (0x1a0 ≤ p ∧ p < 0x1b0 ∧ s.obs.wsOpen = false) →
      exec (.remotePageRequest id p off (.write pl v)) s = .next (s.violation (.remote id) a))
    ∧ (∀ pl v, (pageUnit p).isSome = true → s.mayWriteRemote pl p = true → off % 4 = 0 →
      ¬(0x1a0 ≤ p ∧ p < 0x1b0 ∧ s.obs.wsOpen = false) →
        exec (.remotePageRequest id p off (.write pl v)) s = .next (s.pageWrite (.remote id) p off v))

/-- A voted write takes the copy's next ordinal and opens or joins its slot; with 64 slots in use the copy stalls. For
a copy that runs, an aligned store outside its TCM takes the next write ordinal. Without a slot of that ordinal a FREE
slot opens with it, OPEN, or ready at once in SIMPLEX_THREE; with 64 slots in use the copy stalls with reason 5 and
keeps the write. With a slot in use it is judged there. A presentation marked late is discarded. A store to
CKPT_REQUEST is such a write. SC and AMO present the same way and the copy then stalls with reason 4 for its result.
VOTER_STALL_RESUME presents the waiting store again once a slot is FREE. A misaligned store is not presented, and a
copy that cannot act waits. Rests on 03_triplex_execution R75, 03_triplex_execution R77, 03_triplex_execution R78,
03_triplex_execution R79, 03_triplex_execution R81, 03_triplex_execution R96. -/
def Obligations.PresentationsOpenJoinOrStall : Prop :=
  (∀ (k : Copy) (a : BitVec 40) (size : Nat) (d : DWord) (s : State), (s.cp k).runs = true →
      misaligned a.toNat size = false → regionOf a.toNat ≠ .tcm →
      let v := (s.answer .none).voteDelayed k
      let ord := (v.cp k).writes + 1
      let c := { v.cp k with writes := ord, waitWrite := none }
      let w : WriteReq := ⟨.store, a, size, d⟩
      (v.clu.lateDiscard.contains (k, ord) = false → v.clu.slots.find? (fun t => t.ord == ord) = none →
        (v.clu.slots.length < 64 →
          let u := (v.setCp k c).bump (copyPage k) 10 1
          let t : VoterSlot :=
            ⟨ord, [(k, w)], if v.simplex then .ready else .opened, if v.simplex then some w else none⟩
          exec (.votedWritePresent k a size d) s =
            .next ({ u with clu := { u.clu with slots := u.clu.slots ++ [t] } }.injectOther 3 (voterKey ord)))
        ∧ (64 ≤ v.clu.slots.length → exec (.votedWritePresent k a size d) s =
            .next ((v.setCp k { v.cp k with stall := 5, waitWrite := some w }).answer .wait)))
      ∧ (∀ t, v.clu.lateDiscard.contains (k, ord) = false → v.clu.slots.find? (fun t => t.ord == ord) = some t →
        exec (.votedWritePresent k a size d) s =
          .next ((((v.setCp k c).bump (copyPage k) 10 1).readOther (voterKey ord) 3).voteIn k w t))
      ∧ (v.clu.lateDiscard.contains (k, ord) = true →
        ∃ t, exec (.votedWritePresent k a size d) s = .next t ∧ t.clu.slots = v.clu.slots ∧ (t.cp k).writes = ord
          ∧ t.clu.lateDiscard = v.clu.lateDiscard.filter (fun p => p != (k, ord))
          ∧ { t with clu := v.clu } = v))
  ∧ (∀ (k : Copy) (d : DWord) (s : State), exec (.ckptRequest k d) s =
      exec (.votedWritePresent k (BitVec.ofNat 40 (0x18010000 + Reg.cluster.ckptRequest)) 4 d) s)
  ∧ (∀ (k : Copy) (a : BitVec 40) (size : Nat) (d : DWord) (f5 : BitVec 5) (s : State),
      ((s.cp k).runs = true → misaligned a.toNat size = false →
        (∀ u, (s.answer .wait).present k ⟨.sc, a, size, d⟩ = u → (u.cp k).stall ≠ 5 →
          exec (.storeConditional k a size d) s =
            .next ((u.setCp k { u.cp k with waitResult := true, stall := 4 }).takeResult k))
        ∧ (∀ u, (s.answer .wait).present k ⟨.amo f5, a, size, d⟩ = u → (u.cp k).stall ≠ 5 →
          exec (.amo k a size f5 d) s =
            .next ((u.setCp k { u.cp k with waitResult := true, stall := 4 }).takeResult k)))
      ∧ ((s.cp k).runs = true → misaligned a.toNat size = true →
        exec (.votedWritePresent k a size d) s = .next (s.answer .misaligned)
        ∧ exec (.storeConditional k a size d) s = .next (s.answer .misaligned)
        ∧ exec (.amo k a size f5 d) s = .next (s.answer .misaligned))
      ∧ ((s.cp k).runs = false → exec (.votedWritePresent k a size d) s = .next (s.answer .wait)
        ∧ exec (.storeConditional k a size d) s = .next (s.answer .wait)
        ∧ exec (.amo k a size f5 d) s = .next (s.answer .wait)))
  ∧ (∀ (k : Copy) (w : WriteReq) (s : State), (s.cp k).stall = 5 → (s.cp k).waitWrite = some w → w.kind = .store →
      (s.clu.slots.length < 64 → exec (.voterStallResume k) s =
        .next ((s.setCp k { s.cp k with stall := 0, waitWrite := none }).present k w))
      ∧ (64 ≤ s.clu.slots.length → exec (.voterStallResume k) s = .next s))

/-- Two equal presentations decide a write, it is performed in ordinal order, a commit-class one only with its
tussock. A second equal presentation makes the slot ready, or held when the write goes to a commit-class register; two
that differ wait for the third with three participants and end without majority with two; the third decides with the
one it equals, the other copy gets VOTE_MINORITY, and without a match there is no majority. The lowest ordinal not
performed goes next: a ready write is performed, VOTER_COMMITS counts it, and its slot is COMMITTED until the last
participant has presented it. A held write waits for the judgement of its tussock: performed where its two copies
agree, discarded with a report where not. VOTE_LATE frees a COMMITTED slot and marks each participant that did not
present. Rests on 03_triplex_execution R78, 03_triplex_execution R79, 03_triplex_execution R80, 03_triplex_execution
R82, 04_divergence_and_reseed R105, 04_divergence_and_reseed R108. -/
def Obligations.TheVoterDecidesAndPerforms : Prop :=
  (∀ (k : Copy) (w : WriteReq) (t : VoterSlot) (s : State),
      (∀ j, t.phase = .opened → t.pres = [(j, w)] → s.simplex = false →
        (isCommitClass w.addr = false → s.voteIn k w t =
          s.setSlot { t with pres := [(j, w), (k, w)], phase := .ready, write := some w })
        ∧ (isCommitClass w.addr = true → s.voteIn k w t =
          (s.setSlot { t with pres := [(j, w), (k, w)], phase := .held, write := some w }).bump 0x010 3 1))
      ∧ (∀ j x, t.phase = .opened → t.pres = [(j, x)] → x ≠ w →
        (s.partCount = 2 → s.voteIn k w t = (s.dropSlot t.ord).noMajority)
        ∧ (s.partCount ≠ 2 → s.voteIn k w t = s.setSlot { t with pres := [(j, x), (k, w)] }))
      ∧ (∀ i j x y, t.phase = .opened → t.pres = [(i, x), (j, y)] →
        (x = w → s.voteIn k w t = (s.slotAgreed { t with pres := [(i, x), (j, y), (k, w)] } w).copyCause j 2)
        ∧ (x ≠ w → y = w →
          s.voteIn k w t = (s.slotAgreed { t with pres := [(i, x), (j, y), (k, w)] } w).copyCause i 2)
        ∧ (x ≠ w → y ≠ w → s.voteIn k w t = (s.dropSlot t.ord).noMajority))
      ∧ (t.phase = .committed → (t.write = some w → s.voteIn k w t = s.dropSlot t.ord)
        ∧ (t.write ≠ some w → s.voteIn k w t = (s.dropSlot t.ord).copyCause k 2)))
  ∧ (∀ (r : VmeAnswer) (t : VoterSlot) (w : WriteReq) (v : DWord) (bad : Bool) (s : State), s.nextWrite = some t →
      t.phase = .ready → t.write = some w → w.kind = .store →
      let s1 := (s.answer .none).busWrite .cluster w.addr w.size w.data
      entryOf s1.reply = some (v, bad) →
        exec (.votedWritePerformed r) s =
          .next ((if writeDone .store s1.reply then s1.countCommit else s1).settleSlot t))
  ∧ (∀ (ord : DWord) (t : VoterSlot) (w : WriteReq) (k l : Copy) (m : List Copy) (q : DWord × DWord)
      (j : DWord × Option Verdict) (s : State), s.nextWrite = some t → t.ord = ord → t.phase = .held →
      t.write = some w → t.majority = k :: l :: m → (s.cp k).commitOrd.find? (fun x => x.1 == ord) = some q →
      s.clu.judged.find? (fun x => x.1 == q.2) = some j →
        (∀ v, j.2 = some v → v.pairBit k l = true →
          exec (.commitClassRelease ord) s = .next (s.performSlot t w none))
        ∧ ((∀ v, j.2 = some v → v.pairBit k l = false) →
          exec (.commitClassRelease ord) s = .next ((s.dropSlot ord).raise 0x016 6 [])))
  ∧ (∀ (ord : DWord) (t : VoterSlot) (s : State),
      s.clu.slots.find? (fun t => t.ord == ord && t.phase == .committed) = some t →
      ((s.participants.all fun k => (s.cp k).halted) = true → exec (.voteLate ord) s = .next s)
      ∧ ((s.participants.all fun k => (s.cp k).halted) = false →
        exec (.voteLate ord) s = .next
          ((s.participants.filter fun k => !(t.pres.any fun p => p.1 == k)).foldl (fun u k =>
            ({ u with clu := { u.clu with lateDiscard := u.clu.lateDiscard ++ [(k, ord)] } }.raise (copyPage k) 1
              []).bump 0x010 4 1) (s.dropSlot ord))))

/-- The first copy's read is performed once and recorded for the others, a later copy gets the recorded entry. A load
outside TCM and boot ROM by a copy whose replay FIFO is empty is performed, takes the next ordinal, and its value goes
to every other participant's FIFO; with an entry in its FIFO the copy gets that entry, refused or not, and one whose
kind, address or size differs is a READ_MISMATCH. A full FIFO of another participant stalls it with reason 2, an own
write not yet performed that overlaps with reason 3; DISTRIBUTED_READ_RESUME repeats the read. A misaligned read is
not performed. A load of the copy's own TCM or the boot ROM is private. LR sets the reservation on its granule in
shared SRAM and is refused outside SRAM and VME. WFI takes a WFI entry or waits. Rests on 03_triplex_execution R66,
03_triplex_execution R71, 03_triplex_execution R72, 03_triplex_execution R73, 03_triplex_execution R74,
03_triplex_execution R75, 03_triplex_execution R76. -/
def Obligations.DistributedReadsAreReplayed : Prop :=
  (∀ (k : Copy) (a : BitVec 40) (size : Nat) (ext : DWord) (s : State), (s.cp k).runs = true →
      let q : ReadReq := ⟨.load, a, size⟩
      (misaligned a.toNat size = true → exec (.distributedRead k .load a size ext) s = .next (s.answer .misaligned))
      ∧ (misaligned a.toNat size = false → regionOf a.toNat = .bootRom →
        exec (.distributedRead k .load a size ext) s =
          .next (s.answer (bytesValue ((List.range size).map fun i => Config.bootRom (a.toNat + i)))))
      ∧ (misaligned a.toNat size = false → regionOf a.toNat = .tcm →
        eccBad (s.mem.tcmEcc.copy k) 8 (a.toNat - 0x08000000) size = false →
        exec (.distributedRead k .load a size ext) s =
          .next (s.answer (bytesValue (memBytes (s.mem.tcm.copy k) (a.toNat - 0x08000000) size))))
      ∧ (misaligned a.toNat size = false → regionOf a.toNat ≠ .tcm → regionOf a.toNat ≠ .bootRom →
        (∀ e es, (s.cp k).fifo = e :: es →
          let u := if e.kind = .load ∧ e.addr = a ∧ e.size = size then s.popEntry k else (s.popEntry k).copyCause k 3
          exec (.distributedRead k .load a size ext) s =
            .next (u.answer (if e.refused then .accessFault else .value (lowBytes size e.value))))
        ∧ ((s.cp k).fifo = [] → s.othersFull k = true → exec (.distributedRead k .load a size ext) s =
            .next ((s.setCp k { s.cp k with stall := 2, waitRead := some q }).answer .wait))
        ∧ ((s.cp k).fifo = [] → s.othersFull k = false → s.ownWriteAhead k q = true →
          exec (.distributedRead k .load a size ext) s =
            .next ((s.setCp k { s.cp k with stall := 3, waitRead := some q }).answer .wait))
        ∧ (∀ v bad, (s.cp k).fifo = [] → s.othersFull k = false → s.ownWriteAhead k q = false →
          let s1 := s.busRead .cluster a size ext
          entryOf s1.reply = some (v, bad) →
            let s2 := { s1 with clu := { s1.clu with performed := s1.clu.performed + 1 } }
            let s3 := s2.setCp k
              { s2.cp k with reads := (s2.cp k).reads + 1, consumed := (s2.cp k).consumed + 1 }
            let s4 := (s3.participants.filter fun j => j != k).foldl
              (fun t j => t.appendEntry j ⟨.load, a, size, lowBytes size v, bad⟩) s3
            exec (.distributedRead k .load a size ext) s =
              .next (((s4.bump 0x010 0 1).bump (copyPage k) 9 1).answer
                (if bad then .accessFault else .value (lowBytes size v))))))
  ∧ (∀ (k : Copy) (n : BitVec 12) (ext : DWord) (a : BitVec 40) (size : Nat) (s : State), (s.cp k).runs = true →
      csrDistributed n.toNat = false → n ≠ 0xc02#12 → n ≠ 0xb02#12 →
        exec (.distributedRead k (.csr n) a size ext) s =
          .next (s.answer (.value (tblRead zeroDword (s.cp k).csr n.toNat))))
  ∧ (∀ (k : Copy) (a : BitVec 40) (size : Nat) (ext : DWord) (s : State),
      exec (.loadReserved k a size ext) s = exec (.distributedRead k .lr a size ext) s
      ∧ (regionOf a.toNat = .sram → ∀ v, (s.busRead .cluster a size 0#64).reply = .value v →
        (s.performLr a size).clu.reservation = some (sramOff a.toNat / 64))
      ∧ (regionOf a.toNat ≠ .sram → regionOf a.toNat ≠ .vme → s.performLr a size = s.violation .cluster a.toNat))
  ∧ (∀ (k : Copy) (ext : DWord) (q : ReadReq) (s : State), (s.cp k).waitRead = some q →
      ((s.cp k).stall = 2 ∨ (s.cp k).stall = 3) →
        exec (.distributedReadResume k ext) s = exec (.distributedRead k q.kind q.addr q.size ext)
          (s.setCp k { s.cp k with stall := 0, waitRead := none }))
  ∧ (∀ (k : Copy) (s : State), (s.cp k).runs = true →
      (∀ e es, (s.cp k).fifo = e :: es → e.kind = .wfi → exec (.wfi k) s = .next ((s.popEntry k).answer .none))
      ∧ ((s.cp k).fifo = [] → s.othersFull k = false → s.firstAtWfi = none →
        exec (.wfi k) s = .next (((s.setCp k
          { s.cp k with inWfi := true, waitRead := none, reads := (s.cp k).reads + 1 }).bump (copyPage k) 9
            1).answer .wait)))

/-- Messages wait in arrival order and raise MEIP, interrupt changes become targets, a debug access is performed once.
A message enters the FIFO of 64 in arrival order, or is discarded and counted while it is full, and bit 11 of the
pending vector follows whether it holds one. MSG_CLAIM answers the oldest with bit 31 set, or 0, and only the safety
copies' read removes it. A changed pending vector becomes a target of its own while fewer than 16 changes are held,
else it merges into the newest; an unchanged one does nothing. A debug access through hart 0 answers 0 outside
workshop access, is refused and reported unless every copy is halted, and else is performed once, a write counted in
VOTER_COMMITS. Rests on 03_triplex_execution R83, 03_triplex_execution R84, 04_divergence_and_reseed R130,
01_module_organization R487, 03_triplex_execution R491, 03_triplex_execution R82. -/
def Obligations.MessagesInterruptsAndDebugAccesses : Prop :=
  (∀ (v : BitVec 16) (s : State),
      (s.clu.messages.length < 64 → exec (.messageInterrupt v) s =
        .next ({ s with clu := { s.clu with messages := s.clu.messages ++ [v] } }.irqChange
          (s.clu.lines ||| (1#64 <<< 11))))
      ∧ (64 ≤ s.clu.messages.length → exec (.messageInterrupt v) s =
        .next { s with clu := { s.clu with discarded := satAdd 0xffff s.clu.discarded 1 } }))
  ∧ (∀ (s : State),
      (s.clu.messages = [] → exec (.msgClaim (.app 0)) s = .next (s.answer (.value 0#64)))
      ∧ (∀ v l, s.clu.messages = v :: l →
        let r : Reply := .value ((setBit (v.zeroExtend 32) 31 true).zeroExtend 64)
        (∀ m, m ≠ .cluster → exec (.msgClaim m) s = .next (s.answer r))
        ∧ exec (.msgClaim .cluster) s = .next ({ s with clu := { s.clu with messages := l }, reply := r }.irqChange
          (if l = [] then s.clu.lines &&& ~~~(1#64 <<< 11) else s.clu.lines ||| (1#64 <<< 11)))))
  ∧ (∀ (l : DWord) (s : State),
      (l = s.clu.lines → exec (.interruptChange l) s = .next s)
      ∧ (l ≠ s.clu.lines →
        (s.heldChanges.length < 16 → exec (.interruptChange l) s =
          .next ({ s with clu := { s.clu with lines := l } }.setTarget (.irq l)))
        ∧ (16 ≤ s.heldChanges.length →
          let merged : Target → Target := fun t =>
            if t.kind.isIrq = true ∧ s.heldChanges.getLast? = some t then { t with kind := .irq l } else t
          exec (.interruptChange l) s =
            .next ({ s with clu := { s.clu with lines := l, targets := s.clu.targets.map merged } }.bump 0x010 6 1))))
  ∧ (∀ (a : BitVec 40) (size : Nat) (d : DWord) (s : State),
      (s.obs.wsOpen = false → exec (.debugDeviceWrite a size d) s = .next (s.answer (.value 0#64))
        ∧ exec (.debugDeviceRead a size d) s = .next (s.answer (.value 0#64)))
      ∧ (s.obs.wsOpen = true → s.allHalted = false →
        exec (.debugDeviceWrite a size d) s = .next (((s.raise 0x017 0 []).bump 0x017 2 1).answer .busError)
        ∧ exec (.debugDeviceRead a size d) s = .next (((s.raise 0x017 0 []).bump 0x017 2 1).answer .busError))
      ∧ (s.obs.wsOpen = true → s.allHalted = true → 1 < s.partCount →
        (∀ w, (s.answer .none).busWrite (.debug 0) a size d = w → w.reply = .none →
          exec (.debugDeviceWrite a size d) s =
            .next ((w.countCommit.satReg 0x017 Reg.debugReplay.dbgActions 1).bump 0x017 1 1))
        ∧ (∀ r v, (s.answer .none).busRead (.debug 0) a size d = r → r.reply = .value v →
          exec (.debugDeviceRead a size d) s =
            .next ((r.satReg 0x017 Reg.debugReplay.dbgActions 1).bump 0x017 1 1))))

/-- A retirement changes the copy's registers, CSRs and pc, counts it and folds its record into the signature. A
participant that runs below the lead limit: registers, CSRs, pc, instret + 1 and the CRC of the retirement record over
the old signature become those of the record; the other copies' architectural state stays. At the lead limit it stalls
with reason 1 and retires nothing; a read that ECC cannot correct holds the copy and latches the cause. A held
independent core retires only once started, without tussock or record. An application core's retirement reaches the
sampler and the programmable counters alone. A tussock takes the next number and sends one report with instret, pc,
SIG and its triggers to each comparator. Rests on 03_triplex_execution R63, 03_triplex_execution R67,
03_triplex_execution R89, 03_triplex_execution R90, 03_triplex_execution R91, 03_triplex_execution R95,
04_divergence_and_reseed R128, 15_observability_and_test R457. -/
def Obligations.RetirementFoldsTheSignature : Prop :=
  (∀ (k : Copy) (r : Retirement) (s : State), (s.cp k).runs = true →
      (s.lead k < s.leadLimit → r.bad = none →
        ∃ t, exec (.instructionRetire (.copy k) r) s = .next t
          ∧ archOf (t.cp k) = archOf ((s.cp k).retire r)
          ∧ ((s.cp k).retire r).instret = (s.cp k).instret + 1 ∧ ((s.cp k).retire r).pc = r.nextPc
          ∧ ((s.cp k).retire r).sig = crc64 (s.cp k).sig (recordBytes (s.cp k).csr r)
          ∧ ∀ j, j ≠ k → archOf (t.cp j) = archOf (s.cp j))
      ∧ (s.leadLimit ≤ s.lead k → r.events = [] → exec (.instructionRetire (.copy k) r) s =
        .next ((s.setCp k { s.cp k with stall := 1 }).answer .wait))
      ∧ (∀ b, s.lead k < s.leadLimit → r.bad = some b → r.events = [] → exec (.instructionRetire (.copy k) r) s =
        .next (((s.setCp k { s.cp k with held := true }).answer .wait).copyCause k
          (match b with | .tcm => 5 | .l1 => 6))))
  ∧ (∀ (k : Copy) (r : Retirement) (s : State), (s.cp k).participant = false → r.events = [] →
      ((s.cp k).started = true → exec (.instructionRetire (.copy k) r) s = .next (s.setCp k ((s.cp k).retire r)))
      ∧ ((s.cp k).started = false → exec (.instructionRetire (.copy k) r) s = .next (s.answer .wait)))
  ∧ (∀ (n : Fin 4) (r : Retirement) (s : State), exec (.instructionRetire (.app n) r) s =
      .next (r.events.foldl (fun t e => t.coreEvent (3 + n.val) r.priv e.1.val e.2) (s.sample (1 + n.val) r 0#64)))
  ∧ (∀ (k : Copy) (trig : BitVec 6) (s : State), s.obs.wsOpen = false →
      let c := s.cp k
      let r : TussockReport := ⟨c.ckptNum + 1, c.instret, c.pc, c.sig, trig, k⟩
      (s.tussock k trig).clu.flying = s.clu.flying ++ [⟨.x, r, false⟩, ⟨.y, r, false⟩]
        ∧ ((s.tussock k trig).cp k).ckptNum = c.ckptNum + 1)

/-- Reports and timeouts form verdicts, gaps and requests set targets, the interval follows its rule. The oldest
report of a copy on its way to a comparator reaches its judgement; CMP_Y counts link retries and a report whose link
CRC still fails latches LINK_FAIL and is lost. At CKPT_TIMEOUT the participants that have not arrived are marked,
CMP_X latches CKPT_LATE, and the verdict is formed. Two reports agree exactly when number, instret, pc, SIG and
TRIGGER do, and the verdict's AGREE bits say so. CKPT_GAP sets a GAP target, CKPT_STALL reports one that nobody
reached; a forced request sets a FORCED target and waits for its pair. CKPT_INTERVAL takes 10 to 20 before LOCK, with
a target. An echo that differs from page 0x010 is a lock-out cause. Rests on 03_triplex_execution R91,
03_triplex_execution R92, 03_triplex_execution R93, 03_triplex_execution R94, 03_triplex_execution R96,
03_triplex_execution R100, 03_triplex_execution R102. -/
def Obligations.ComparatorsJudgeReportsAndTimeouts : Prop :=
  (∀ (cmp : Comparator) (k : Copy) (n : Nat) (ok : Bool) (f : FlyingReport) (s : State),
      s.clu.flying.find? (fun f => f.dest == cmp && f.report.copy == k && !f.delayed) = some f →
      let s1 := { s with clu := { s.clu with flying := s.clu.flying.erase f } }
      (cmp = .x → (s.cp k).participant = true →
        exec (.tussockReportArrival cmp k n ok) s = .next (s1.arriveReport cmp f.report))
      ∧ (cmp = .y → n = 0 → ok = true → (s.cp k).participant = true →
        exec (.tussockReportArrival cmp k n ok) s = .next (s1.arriveReport cmp f.report))
      ∧ (cmp = .y → n ≠ 0 → ok = false → exec (.tussockReportArrival cmp k n ok) s =
        .next (((s1.satReg 0x015 Reg.cmp.linkRetries n).bump 0x015 5 n).raise 0x015 0 []))
      ∧ (cmp = .x → (s.cp k).participant = false → exec (.tussockReportArrival cmp k n ok) s = .next s1))
  ∧ (∀ (j : Judgement) (x y : TussockReport), j.reports.a = some x → j.reports.b = some y →
      ((j.verdict [.a, .b, .c]).agreeAB = true ↔
        x.num = y.num ∧ x.instret = y.instret ∧ x.pc = y.pc ∧ x.sig = y.sig ∧ x.trigger = y.trigger)
      ∧ (j.verdict [.a, .c]).agreeAB = false ∧ (j.verdict [.a, .b, .c]).arrived.a = true)
  ∧ (∀ (q : Judgement) (s : State), s.clu.judging.find? (fun r => r.1 == Comparator.y) = some (.y, q) →
      (s.participants.all fun k => (s.cp k).halted) = false → q.trigger.getLsbD 5 = false →
      let late := s.participants.filter fun k => (q.reports.copy k).isNone
      let j : Judgement := { q with timedOut := late.foldl (fun t k => t.setCopy k true) q.timedOut }
      exec (.ckptTimeout .y) s = .next { s with
        clu := { s.clu with
          judging := s.clu.judging.map fun r => if r = (Comparator.y, q) then (.y, j) else r } }.settleJudgements)
  ∧ (∀ (s : State),
      (s.simplex = false → s.participants ≠ [] → (s.participants.all fun k => (s.cp k).inWfi) = false →
        (s.participants.all fun k => (s.cp k).halted) = false → s.clu.gapRunning = true →
        exec .ckptGap s =
          .next ({ s with clu := { s.clu with gapPending := true, gapRunning := false } }.setTarget .gap))
      ∧ (s.clu.gapRunning = false → exec .ckptGap s = .next s)
      ∧ (s.clu.gapPending = true → (s.participants.all fun k => (s.cp k).halted) = false →
        exec .ckptStall s = .next ({ s with clu := { s.clu with gapPending := false } }.raise 0x010 1 []))
      ∧ (s.clu.gapPending = false → exec .ckptStall s = .next s))
  ∧ (∀ (w : ForcedBy) (s : State), s.simplex = false →
      exec (.forcedTussockRequest w) s = .next ({ s with
        clu := { s.clu with
          forcedBy := (s.clu.forcedBy.filter fun q : ForcedBy × DWord × Option Bool => q.1 != w) ++ [(w, s.targetCount, none)] } }.setTarget .forced))
  ∧ (∀ (m : Master) (v : Word) (s : State), s.mayWritePage m 0x010 Reg.cluster.ckptInterval = true →
      (s.locked 0x010 = false → 10 ≤ fieldOf v 4 0 → fieldOf v 4 0 ≤ 20 →
        exec (.ckptIntervalWrite m v) s = .next (((s.setReg 0x010 Reg.cluster.ckptInterval
          (at' (fieldOf v 4 0) 0)).setTarget (.interval (fieldOf v 4 0))).answer .none))
      ∧ (s.locked 0x010 = true ∨ fieldOf v 4 0 < 10 ∨ 20 < fieldOf v 4 0 →
        exec (.ckptIntervalWrite m v) s = .next (s.answer .none)))
  ∧ (∀ (i t g v : Word) (s : State),
      let s1 := s.setEcho i t g v
      let same := i = s.reg 0x010 Reg.cluster.ckptInterval ∧ t = s.reg 0x010 Reg.cluster.ckptTimeout
        ∧ g = s.reg 0x010 Reg.cluster.ckptGap ∧ v = s.reg 0x010 Reg.cluster.voteTimeout
      (s.locked 0x010 = true → same → exec (.configEchoMismatch i t g v) s = .next s1)
      ∧ (s.locked 0x010 = true → ¬same → exec (.configEchoMismatch i t g v) s = .next (s1.lockoutCause 0x015 1 []))
      ∧ (s.locked 0x010 = false → exec (.configEchoMismatch i t g v) s = .next s))

/-- A scrub corrects the single-bit errors of TCM and shared SRAM, and an uncorrectable word of TCM names its copy.
TCM_SCRUB: afterwards no word of the copy's TCM has a single-bit error, uncorrectable words stay, the corrected words
count in ECC_CORR_TCM, TCM's bytes and the other copies' maps are as before; an uncorrectable word of a participant
latches TCM_UNCORRECTABLE once. SHARED_SCRUB does the same to the SRAM map and changes nothing else. An upset that
comes with the scrub strikes before it. Rests on 03_triplex_execution R67, 03_triplex_execution R68. -/
def Obligations.ScrubsCorrectSingleBitErrors : Prop :=
  (∀ (k : Copy) (u : Option Upset) (s : State),
      let m := eccUpset (s.mem.tcmEcc.copy k) u
      let n := (m.filter fun e => e.2 == 1).length
      let s1 := { s with mem := { s.mem with tcmEcc := s.mem.tcmEcc.setCopy k (m.filter fun e => e.2 != 1) } }
      let s2 := (s1.satReg (copyPage k) Reg.copy.eccCorrTcm n).bump (copyPage k) 11 n
      ((m.any fun e => e.2 == 2) = false → n ≠ 0 → exec (.tcmScrub k u) s = .next s2)
      ∧ ((m.any fun e => e.2 == 2) = false → n = 0 → exec (.tcmScrub k u) s = .next s1)
      ∧ ((m.any fun e => e.2 == 2) = true → n = 0 → s.hasCause (copyPage k) 5 = true →
        exec (.tcmScrub k u) s = .next s1)
      ∧ ((m.any fun e => e.2 == 2) = true → n = 0 → s.hasCause (copyPage k) 5 = false →
        (s.cp k).participant = true → exec (.tcmScrub k u) s = .next (s1.copyCause k 5)))
  ∧ (∀ (u : Option Upset) (s : State),
      ∃ t, exec (.sharedScrub u) s = .next t ∧ t.mem.sramEcc.all (fun e => e.2 != 1) = true
        ∧ (∀ e ∈ t.mem.sramEcc, e ∈ eccUpset s.mem.sramEcc u)
        ∧ { t with mem := { t.mem with sramEcc := s.mem.sramEcc } } = s)

/-- A verdict pair continues, names one copy odd or locks out, and a reseed copies TCM and rejoins the copy. With
three participants, equal verdicts with three agreements continue, with one agreement the copy outside it is named
odd, with two or none the module locks out; two unequal verdicts, and one missing after 2 µs, lock out. Those who wait
for a FORCED tussock at its count get the answer. After the target's reset, pass 1 covers all 512 TCM pages; each
further pass the pages dirtied meanwhile; with at most 8 dirty or after pass 8 the RESEED target is set. At the
release the target takes the source's architectural state, is a participant again and no copy is odd. A failure locks
out. RESEED_REPORT gives the newest n reseeds and is DONE; n outside 1 to 64 fails with 2. Rests on
04_divergence_and_reseed R103, 04_divergence_and_reseed R104, 04_divergence_and_reseed R113, 04_divergence_and_reseed
R114, 04_divergence_and_reseed R116, 04_divergence_and_reseed R133, 03_triplex_execution R96. -/
def Obligations.VerdictPairsNameCopiesAndReseedsRejoin : Prop :=
  (∀ (k : DWord) (v w : Verdict) (s : State), s.verdictOf .x k = some v → s.verdictOf .y k = some w →
      (v.same w = true → s.participants = [.a, .b, .c] →
        let p := s.takePair k (some v)
        (v.agreements = 3 → exec (.verdictPair k) s = .next (p.answerForced v.instret true))
        ∧ (v.agreements = 2 → exec (.verdictPair k) s =
          .next ((p.lockoutCause 0x016 0 []).answerForced v.instret false))
        ∧ (v.agreements = 1 → s.red.odd = none → exec (.verdictPair k) s =
          .next ((p.nameOdd (if v.agreeAB then .c else if v.agreeAC then .b else .a) true).answerForced v.instret true))
        ∧ (v.agreements = 0 → exec (.verdictPair k) s =
          .next ((p.lockoutCause 0x016 2 []).answerForced v.instret false)))
      ∧ (v.same w = false → exec (.verdictPair k) s =
        .next (((s.takePair k none).lockoutCause 0x016 0 []).answerForced v.instret false)))
  ∧ (∀ (k : DWord) (v : Verdict) (s : State),
      ((s.verdictOf .x k = some v ∧ s.verdictOf .y k = none) ∨ (s.verdictOf .x k = none ∧ s.verdictOf .y k = some v)) →
        exec (.verdictMissing k) s =
          .next (((s.takePair k none).lockoutCause 0x016 1 []).answerForced v.instret false))
  ∧ (∀ (r : Reseed) (s : State), s.red.reseed = some r →
      (r.phase = 1 → exec .reseedResetDone s = .next { s with
        red := { s.red with
          reseed := some { r with phase := 2, pass := 1, toCopy := List.range 512, dirty := [] } } })
      ∧ (r.phase = 2 → s.tcmBad r.source r.toCopy = false →
        let s1 := (s.copyTcm r.source r.target r.toCopy).bump 0x016 2 r.toCopy.length
        (r.dirty.length ≤ 8 ∨ r.pass = 8 → exec .reseedPassEnd s = .next ({ s1 with
          red := { s1.red with reseed := some { r with phase := 3, toCopy := [] } } }.setTarget .reseed))
        ∧ (8 < r.dirty.length → r.pass ≠ 8 → exec .reseedPassEnd s = .next { s1 with
          red := { s1.red with reseed := some { r with pass := r.pass + 1, toCopy := r.dirty, dirty := [] } } }))
      ∧ (r.phase = 2 → s.tcmBad r.source r.toCopy = true → exec .reseedPassEnd s = .next s.reseedFails)
      ∧ (∀ why, exec (.reseedFailed why) s = .next (s.lockoutCause 0x016 5 []))
      ∧ (s.reseedReady r = true →
        (1250000 ≤ s.ticksSince r.ltHold ∨ s.tcmBad r.source r.dirty = true →
          exec .reseedRelease s = .next s.reseedFails)
        ∧ (s.ticksSince r.ltHold < 1250000 → s.tcmBad r.source r.dirty = false → r.source ≠ r.target →
          s.red.deferred = false →
          ∃ t, exec .reseedRelease s = .next t ∧ archOf (t.cp r.target) = archOf (s.cp r.source)
            ∧ (t.cp r.target).participant = true ∧ (t.cp r.target).held = false ∧ (t.cp r.target).fifo = []
            ∧ t.red.reseed = none ∧ t.red.odd = none ∧ t.clu.slots = [] ∧ t.clu.lateDiscard = []
            ∧ t.mem = (s.copyTcm r.source r.target r.dirty).mem ∧ t.time = s.time ∧ t.faults = s.faults)))
  ∧ (∀ (s : State), s.opActive 0x016 1 = true →
      let n := fieldOf (s.op 0x016).arg0 6 0
      (n = 0 ∨ 64 < n → exec .reseedReport s = .next (s.opFail 0x016 2#32))
      ∧ (1 ≤ n → n ≤ 64 →
        let es := s.red.history.take n
        let s1 := (es.foldl (fun (t : State × Nat) e => (t.1.reportEntry t.2 e, t.2 + 1)) (s, 0)).1
        exec .reseedReport s =
          .next ((s1.setOp 0x016 ((s1.op 0x016).advance es.length es.length)).opDone 0x016)))

/-- Duckboard limits, the comparator self-test, independent cores and debugger actions follow R110, R120 and R128 to
R130. The retirement record is committed with the elapsed time. At its limit the cause is latched; at standstill the
module acts, else the grace begins, and its end acts. A self-test run latches its bits in both comparator pages; any
bit latches SELFTEST_FAIL; a run with no OVERDUE bit is counted. CORE_START starts a held core at CORE_ENTRY once. A
halt request sets a halt target, deferred during a reseed. With all participants halted in workshop access a register
write reaches every participant, a TCM write every participant's TCM; DEBUG_RESUME lets all run; DEBUG_STEP sets the
target one further. Outside workshop access nothing happens; not halted, it is refused and reported. Rests on
04_divergence_and_reseed R110, 04_divergence_and_reseed R118, 04_divergence_and_reseed R120, 04_divergence_and_reseed
R128, 04_divergence_and_reseed R129, 04_divergence_and_reseed R130, 12_persistent_state R385,
15_observability_and_test R459. -/
def Obligations.DuckboardSelfTestAndDebugReplay : Prop :=
  (∀ (k : Copy) (s : State), s.red.retired = some k →
      (∀ el, el = (s.reg 0x016 Reg.redundancy.duckboardElapsed).toNat →
        exec .retirementRecordCommit s =
          .next ({ s with red := { s.red with lastDuckCommit := el } }.commitRetirement (some (k, el))))
      ∧ (s.hasCause 0x016 8 = false →
        let s1 := (s.setReg 0x016 Reg.redundancy.duckboardElapsed (BitVec.ofNat 32 s.duckLimit)).raise 0x016 8 []
        exec .duckboardExpired s = .next (if s.time.standstill = true then s1.duckboardActs
          else { s1 with red := { s1.red with duckGrace := true } }))
      ∧ (s.hasCause 0x016 8 = true → exec .duckboardExpired s = .next s))
  ∧ (∀ (s : State),
      (s.red.retired = none → exec .retirementRecordCommit s = .next s ∧ exec .duckboardExpired s = .next s)
      ∧ (s.red.duckGrace = true → exec .duckboardGraceEnd s =
        .next (s.setReg 0x016 Reg.redundancy.duckboardGrace 900#32).duckboardActs)
      ∧ (s.red.duckGrace = false → exec .duckboardGraceEnd s = .next s))
  ∧ (∀ (x y : BitVec 6) (s : State),
      (x = 0#6 → y = 0#6 → ∃ t, exec (.comparatorSelftest x y) s = .next t
        ∧ t.red.selftestRun = s.red.selftestRun + 1 ∧ t.reg 0x016 Reg.redundancy.selftestRuns =
          satWord (s.reg 0x016 Reg.redundancy.selftestRuns) 1 ∧ t.faults = s.faults ∧ t.mem = s.mem ∧ t.clu = s.clu)
      ∧ (x.getLsbD 5 = true → exec (.comparatorSelftest x y) s =
        .next (((s.latchSelftest .x x).latchSelftest .y y).lockoutCause 0x016 10 [])))
  ∧ (∀ (m : Master) (v : Word) (s : State), s.mayWritePage m 0x016 Reg.redundancy.coreStart = true →
      (s.clu.mode = .triplex → exec (.coreStart m v) s = .next (s.answer .none))
      ∧ (s.clu.mode = .duplexPlusOne → bitOf v 1 = true → exec (.coreStart m v) s =
        .next ((s.startCore .c).answer .none))
      ∧ ((s.cp .c).started = false → (s.cp .c).participant = false → s.startCore .c =
        s.setCp .c
          { s.cp .c with
            started := true, held := false, stall := 0,
            pc := dword (s.reg 0x016 Reg.redundancy.coreEntryHi) (s.reg 0x016 Reg.redundancy.coreEntryLo) })
      ∧ ((s.cp .c).started = true → s.startCore .c = s))
  ∧ (∀ (s : State), s.obs.wsOpen = true → (s.cp .a).participant = true →
      (s.red.reseed = none → exec .debugHaltRequest s =
        .next ({ s with red := { s.red with halting := true } }.setTarget .halt))
      ∧ (s.red.reseed ≠ none → exec .debugHaltRequest s = .next { s with red := { s.red with deferred := true } }))
  ∧ (∀ (r : DebugReg) (v : DWord) (a : BitVec 40) (size : Nat) (off : Nat) (s : State), tcmOff a = some off →
      (s.obs.wsOpen = false → exec .debugHaltRequest s = .next s
        ∧ exec (.debugRegisterWrite r v) s = .next (s.answer (.value 0#64))
        ∧ exec (.debugTcmWrite a size v) s = .next (s.answer (.value 0#64))
        ∧ exec .debugStep s = .next (s.answer (.value 0#64)) ∧ exec .debugResume s = .next (s.answer (.value 0#64)))
      ∧ (s.obs.wsOpen = true → s.allHalted = false →
        let refused := ((s.raise 0x017 0 []).bump 0x017 2 1).answer .busError
        exec (.debugRegisterWrite r v) s = .next refused ∧ exec (.debugTcmWrite a size v) s = .next refused
          ∧ exec .debugStep s = .next refused ∧ exec .debugResume s = .next refused)
      ∧ (s.obs.wsOpen = true → s.allHalted = true → s.participants = [.a, .b, .c] →
        let u := s.answer .none
        let done (t : State) := (t.satReg 0x017 Reg.debugReplay.dbgActions 1).bump 0x017 1 1
        (∀ w : State, w = ((u.setCp .a ((s.cp .a).debugSet r v)).setCp .b ((s.cp .b).debugSet r v)).setCp .c
            ((s.cp .c).debugSet r v) → exec (.debugRegisterWrite r v) s = .next (done w))
        ∧ (∀ w : State, w = ((u.tcmStore .a off (leBytes size v.toNat)).tcmStore .b off
            (leBytes size v.toNat)).tcmStore .c off (leBytes size v.toNat) →
          exec (.debugTcmWrite a size v) s = .next (done w))
        ∧ (∃ t, exec .debugResume s = .next t ∧ (t.cp .a).halted = false ∧ (t.cp .b).halted = false
          ∧ (t.cp .c).halted = false ∧ t.mem = s.mem ∧ t.red = s.red)
        ∧ (∃ t, exec .debugStep s = .next t ∧ (t.cp .a).halted = false
          ∧ t.clu.targets = s.clu.targets
            ++ [⟨s.reg64 0x017 Reg.debugReplay.haltCountLo + 1, .halt, Trio.all false⟩] ∧ t.mem = s.mem)))

/-- NT follows Sync messages, holdover and loss; MP its tracker; AX, DIST, speeds and standstill the tacho edges. A
Sync measures only on the stack master; an offset of NT_STEP_NS or more, or a first one, sets NT to the received time.
Holdover sets source 3 and ends the count of good messages; its end clears validity with NT_LOST. An MP update steers
MP within 5 % of the tracked frequency unless PT_MP suppresses it; entering holdover is latched only from tracking,
and the phase error clears it only while tracked. An edge of an enabled axle moves AX by its step in its sense, counts
it and keeps its LT; both inputs changed at once are a tacho error and move nothing; without enable only the levels
change. Standstill after 2,000 ms of every enabled axle below STANDSTILL_SPEED ends a grace. Rests on
07_external_timebase R210, 07_external_timebase R211, 07_external_timebase R212, 07_external_timebase R213,
07_external_timebase R214, 07_external_timebase R215, 07_external_timebase R216, 07_external_timebase R217,
07_external_timebase R218, 04_divergence_and_reseed R120. -/
def Obligations.NetworkTimeMainsPhaseAndAxles : Prop :=
  (∀ (time : DWord) (s : State),
      let a := s.asSync true
      (s.isMaster = false → exec (.syncMessage time) s = .next a)
      ∧ (s.isMaster = true → exec (.syncMessage time) s = .next (a.ntMeasure time 1))
      ∧ ((s.ntStep time).time.nt = time ∧ (s.ntStep time).time.ntSet = true
        ∧ (s.time.ntEver = false → s.ntStep time =
          s.setTime { s.time with nt := time, ntFrac := 0, ntSet := true })))
  ∧ (∀ (s : State),
      (s.time.ntSource = 1 ∨ s.time.ntSource = 2 → ∃ t, exec .ntHoldover s = .next t
        ∧ t.time = { s.time with ntSource := 3, ntGood := 0 } ∧ t.mem = s.mem ∧ t.faults = s.faults)
      ∧ (s.time.ntSource = 3 → s.time.ntValid = true → exec .ntLost s =
        .next ((s.setTime { s.time with ntValid := false }).raise 0x141 1 []))
      ∧ (s.time.ntSource ≠ 3 → exec .ntLost s = .next s)
      ∧ (s.time.mpHoldover = false → exec .mpHoldover s =
        .next ((((s.setTime { s.time with mpHoldover := true, mpTracked := false }).setReg 0x141 Reg.time.mpFreq
          (s.reg 0x141 Reg.time.mpNominal)).raise 0x141 2 []).bump 0x141 3 1))
      ∧ (s.time.mpHoldover = true → exec .mpHoldover s =
        .next ((s.setTime { s.time with mpHoldover := true, mpTracked := false }).setReg 0x141 Reg.time.mpFreq
          (s.reg 0x141 Reg.time.mpNominal)))
      ∧ (s.time.mpTracked = true → exec .mpHoldoverClear s =
        .next (s.setTime { s.time with mpHoldover := false }))
      ∧ (s.time.mpTracked = false → exec .mpHoldoverClear s = .next s))
  ∧ (∀ (ph f : Word) (s : State),
      (bitOf (s.pt Reg.perturb.ptMp) 0 = true → exec (.mpUpdate ph f) s = .next s.ptApplied)
      ∧ (bitOf (s.pt Reg.perturb.ptMp) 0 = false → ∃ t, exec (.mpUpdate ph f) s = .next t
        ∧ t.time = { s.time with mpTracked := true } ∧ t.free = s.free + 1
        ∧ { t with time := s.time, regs := s.regs, free := s.free } = s))
  ∧ (∀ (n : Fin 4) (a b : Bool) (s : State),
      let x := s.axle n.val
      let new := a.toNat + 2 * b.toNat
      let s1 := s.setAxle n.val { x with levels := new }
      (s.axleOn n.val = false → exec (.tachoEdge n a b) s = .next s1)
      ∧ (new = x.levels → exec (.tachoEdge n a b) s = .next s1)
      ∧ (s.axleOn n.val = true → new ≠ x.levels → new + x.levels = 3 → exec (.tachoEdge n a b) s =
        .next (((((s1.setAxle n.val { s1.axle n.val with err := true }).setReg 0x142 Reg.axles.tachoErrors
          (satField (s.reg 0x142 Reg.axles.tachoErrors) (8 * n.val + 7) (8 * n.val) 1))).raise 0x142 n.val
            []).bump 0x142 (4 + n.val) 1))
      ∧ (s.axleOn n.val = true → new ≠ x.levels → new + x.levels ≠ 3 →
        let cfg := s.reg 0x142 (Reg.axles.axleCfg + 4 * n.val)
        let d := if bitOf cfg 16 then -(quadrature x.levels new) else quadrature x.levels new
        ∃ t, exec (.tachoEdge n a b) s = .next t
          ∧ t.axle n.val = ⟨x.ax + d * axStep (fieldOf cfg 12 0), new, x.edges + 1, s.time.lt,
            if x.edges = 0 then 0 else (s.time.lt - x.lastEdge).toNat, x.err⟩
          ∧ (fieldOf (s.reg 0x142 Reg.axles.axConfig) 5 4 ≠ n.val → t.time.dist = s.time.dist)
          ∧ t.mem = s.mem ∧ t.faults = s.faults ∧ t.regs = s.regs))
  ∧ (∀ (s : State),
      let s1 := (List.range 4).foldl (fun t n =>
        t.setReg 0x142 (Reg.axles.speed + 4 * n) (BitVec.ofNat 32 (t.speedNow n))) s
      let slow := !(enabledAxles s1).isEmpty && (enabledAxles s1).all fun n =>
        decide ((s1.reg 0x142 (Reg.axles.speed + 4 * n)).toNat < s1.field 0x142 Reg.axles.standstillSpeed 10 0)
          && !(s1.axle n).err
      ∃ u, exec .speedUpdate s = .next (if u.time.standstill = true ∧ s.red.duckGrace = true then u.duckboardActs else u)
        ∧ (slow = false → u.time.slowMs = none ∧ u.time.standstill = false)
        ∧ (slow = true → u.time.slowMs = some (match s.time.slowMs with | some k => min (k + 1) 2000 | none => 0))
        ∧ (u.time.standstill = true ↔ u.time.slowMs = some 2000)
        ∧ { u with regs := s.regs, time := s.time } = s)

/-- SLOT_CTRL applies and arms a slot, a due slot fires once and its action acts when the consumer takes it. A
SLOT_CTRL write that R219 and R225 allow applies domain, action, ARG, PERIOD and PHASE from the shadows and arms an
enabled slot; another is refused with SLOT_REFUSED and changes no slot. A periodic slot's NEXT is the least k · PERIOD
+ PHASE above the domain's value, and grows by PERIOD at each firing; a one-shot clears its ENABLE. A slot not due
fires nothing. Each action sent by a slot is taken once by its consumer with the slot's ARG, and does what R225 gives
it; a consumer with nothing to take changes nothing. Rests on 07_external_timebase R219, 07_external_timebase R220,
07_external_timebase R221, 07_external_timebase R222, 07_external_timebase R225, 06_scan_cycle_and_remote_io R178,
06_scan_cycle_and_remote_io R187, 08_train_network_switch R237, 10_measurement_chain R328, 10_measurement_chain R329.
-/
def Obligations.SlotsArmFireAndReachTheirConsumers : Prop :=
  (∀ (m : Master) (n : Fin 64) (v : Word) (s : State),
      let p := slotPage n.val
      let arg := s.reg p (slotReg Reg.sched.slotArg n.val)
      let period := (s.reg64 p (slotReg Reg.sched.periodLo n.val)).toNat
      let phase := s.reg64 p (slotReg Reg.sched.phaseLo n.val)
      let ok := slotOk (fieldOf v 27 24) (fieldOf v 19 16) arg period phase
      s.mayWritePage m p (slotReg Reg.sched.slotCtrl n.val) = true →
      (ok = false → exec (.slotCtrlWrite m n v) s = .next ((s.raise p 2 []).answer .none))
      ∧ (bitOf (s.reg p Reg.sched.slotPin) (n.val % 16) = true → s.locked p = true →
        exec (.slotCtrlWrite m n v) s = .next ((s.raise p 2 []).answer .none))
      ∧ (ok = true → bitOf (s.reg p Reg.sched.slotPin) (n.val % 16) = false →
        let ph : Int := if period = 0 ∧ 3 ≤ fieldOf v 27 24 then phase.toInt else (phase.toNat : Int)
        let s1 := s.setSlotState n.val ⟨bitOf v 31, fieldOf v 27 24, fieldOf v 19 16, arg, period, ph, 0, false⟩
        (bitOf v 31 = false → exec (.slotCtrlWrite m n v) s = .next (s1.answer .none))
        ∧ (bitOf v 31 = true → fieldOf v 27 24 ≠ 1 → exec (.slotCtrlWrite m n v) s =
          .next ((s1.armSlot n.val).answer .none))))
  ∧ (∀ (period : Nat) (phase v : Int), 0 < period →
      v < nextInstant period phase v ∧ nextInstant period phase v ≤ v + period
        ∧ ∃ k : Int, nextInstant period phase v = k * period + phase)
  ∧ (∀ (n : Fin 64) (s : State),
      (s.slotDue n.val = false → exec (.slotFire n) s = .next s)
      ∧ (s.slotDue n.val = true →
        (s.net.trdp.filter fun x => x.2.valid && x.2.publish && x.2.fld 0 17 12 == n.val) = [] →
        let t := s.slot n.val
        let t' : Slot := if t.period = 0 then { t with enable := false, armed := false }
          else { t with next := t.next + t.period }
        let s1 := s.setSlotState n.val t'
        exec (.slotFire n) s = .next ((s1.setTime { s1.time with
          fired := s1.time.fired ++ [⟨n.val, t.action, t.arg⟩] }).bump (slotPage n.val) (n.val % 16) 1)))
  ∧ (∀ (n : Fin 64) (f : Fired) (a : Nat) (s : State), s.firedAction n.val a = some f →
      let u := s.setTime { s.time with fired := s.time.fired.erase f }
      (a = 0 → exec (.slotNone n) s = .next u)
      ∧ (a = 1 → exec (.cleTrigger n) s = .next (u.cleTriggerTo f.arg))
      ∧ (a = 2 → exec (.measSnapshot n) s =
        .next ((((maskChannels f.arg).foldl State.snapChannel u).satReg 0x100 Reg.meas.snapshots 1).bump 0x100 1 1))
      ∧ (a = 3 → exec (.commitInstant n) s = .next (u.commitInstantOf f.arg))
      ∧ (a = 4 → exec (.forcedCheckpoint n) s = .next (u.forceTussock (.slot n)))
      ∧ (a = 5 → exec (.gateSwap n) s =
        .next ((List.range 6).foldl (fun t p => if bitOf f.arg p then t.gateSwap p else t) u))
      ∧ (a = 6 → fieldOf f.arg 2 0 = 0 →
        exec (.coreInterrupt n) s = .next (u.message (BitVec.ofNat 16 (fieldOf f.arg 23 8))))
      ∧ (a = 6 → fieldOf f.arg 2 0 ≠ 0 → exec (.coreInterrupt n) s = .next { u with
        appMessages := u.appMessages ++ [(fieldOf f.arg 2 0 - 1, BitVec.ofNat 16 (fieldOf f.arg 23 8))] })
      ∧ (a = 7 → exec (.bankSwap n) s = .next ((maskChannels f.arg).foldl State.swapRequest u))
      ∧ (a = 8 → exec (.stackSync n) s = .next u.syncRequest))
  ∧ (∀ (n : Fin 64) (s : State), (∀ a, s.firedAction n.val a = none) →
      exec (.slotNone n) s = .next s ∧ exec (.cleTrigger n) s = .next s ∧ exec (.measSnapshot n) s = .next s
        ∧ exec (.commitInstant n) s = .next s ∧ exec (.forcedCheckpoint n) s = .next s ∧ exec (.gateSwap n) s = .next s
        ∧ exec (.coreInterrupt n) s = .next s ∧ exec (.bankSwap n) s = .next s ∧ exec (.stackSync n) s = .next s)

/-- A SYNC request sets one target on the master, its instant applies it, and the measurement chain restarts with it.
SYNC_CMD with bit 0, the SYNC_IN edge and the slot action ask the same: on the stack master without a pending target,
NT + SYNC_LEAD becomes the target, elsewhere or with one pending the request is ignored and counted in
SYNC_COUNT[31:16]. A target applies at once with SYNC_UNALIGNED where NT has no source here or on the master; else it
waits until NT reaches it. Applying it counts in SYNC_COUNT[15:0], clears the target and starts one measurement SYNC,
which MEAS_SYNC takes: every enabled channel restarts and LAST_SYNC_LT holds the instant. Rests on
07_external_timebase R226, 10_measurement_chain R322. -/
def Obligations.SyncRestartsOnTargets : Prop :=
  (∀ (m : Master) (v : Word) (s : State), s.mayWritePage m 0x140 Reg.timebase.syncCmd = true →
      (bitOf v 0 = true → exec (.syncCmd m v) s = .next (s.syncRequest.answer .none))
      ∧ (bitOf v 0 = false → exec (.syncCmd m v) s = .next (s.answer .none)))
  ∧ (∀ (s : State),
      (s.isMaster = true → s.time.syncTarget = none → exec .syncInEdge s = .next (s.syncTargetIs
        (s.ntRead + BitVec.ofNat 64 (s.field 0x140 Reg.timebase.syncLead 13 0 * 1000)) (s.ntSource == 0)))
      ∧ (s.isMaster = false ∨ s.time.syncTarget ≠ none → exec .syncInEdge s =
        .next ((s.setReg 0x140 Reg.timebase.syncCount
          (satField (s.reg 0x140 Reg.timebase.syncCount) 31 16 1)).bump 0x141 5 1)))
  ∧ (∀ (t : DWord) (no : Bool) (s : State),
      let s1 := s.setReg64 0x140 Reg.timebase.syncTargetLo t
      (s.ntSource = 0 ∨ no = true → exec (.syncTargetReceived t no) s = .next (s1.applySync.raise 0x141 3 []))
      ∧ (s.ntSource ≠ 0 → no = false → exec (.syncTargetReceived t no) s =
        .next (s1.setTime { s1.time with syncTarget := some t })))
  ∧ (∀ (t : DWord) (s : State), s.time.syncTarget = some t →
      (t.toNat ≤ s.time.nt.toNat → ∃ u, exec .syncApply s = .next u ∧ u.time = { s.time with syncTarget := none }
        ∧ u.measSync = s.measSync + 1
        ∧ u.reg 0x140 Reg.timebase.syncCount = satField (s.reg 0x140 Reg.timebase.syncCount) 15 0 1
        ∧ u.mem = s.mem ∧ u.faults = s.faults ∧ u.clu = s.clu)
      ∧ (s.time.nt.toNat < t.toNat → exec .syncApply s = .next s))
  ∧ (∀ (s : State),
      (s.measSync = 0 → exec .measSync s = .next s)
      ∧ (s.measSync ≠ 0 →
        let s1 := (List.range 32).foldl State.syncChannel { s with measSync := s.measSync - 1 }
        let s2 := (List.range 4).foldl (fun t g => if (List.range 8).any fun i => s.syncEn (8 * g + i)
          then t.satReg (0x101 + g) Reg.chGroup.syncApplied 1 else t) s1
        exec .measSync s = .next ((s2.setReg64 0x100 Reg.meas.lastSyncLtLo s.time.lt).bump 0x100 0 1)))

/-- The bit instructions combine BA with the operand bit, branches nest 16 deep. For a program that stands at the
instruction in engines that agree: LDB, ANDB, ORB, XORB and their negated forms set BA and go on with the next
instruction, changing no memory; NOP changes only the pc. BRA and BRO push BA with the join, BRC pops and joins by AND
or OR; a branch over 16 deep is the program fault 3, BRC without a branch 4. Afterwards every participating engine
holds the same registers. Rests on 05_benmi_logic_engine R136, 05_benmi_logic_engine R145, 05_benmi_logic_engine R148,
05_benmi_logic_engine R153, 05_benmi_logic_engine R161. -/
def Obligations.BenmiBitLogic : Prop :=
  ∀ (p : Nat) (sp : BitVec 4) (ad : BitVec 20) (s : State), enginesAgree s = true →
    let c := ctxOf s p
    let u := if s.engines.length = 2 then s.setCle { s.cle with differing := false } else s
    let b := c.bitOperand
    let go (ba : Bool) : EngRegs := { c.r with ba := ba, pc := c.r.pc + c.len }
    let n := 1 + (c.len - 1)
    (standsAt s p 0x10 sp.toNat ad.toNat none = true → exec (.ldb sp ad) s = .next (benmiLeaves s p 0x10 (go (b)) [] n))
      ∧ (standsAt s p 0x11 sp.toNat ad.toNat none = true → exec (.ldbn sp ad) s = .next (benmiLeaves s p 0x11 (go (!b)) [] n))
      ∧ (standsAt s p 0x12 sp.toNat ad.toNat none = true → exec (.andb sp ad) s = .next (benmiLeaves s p 0x12 (go (c.r.ba && b)) [] n))
      ∧ (standsAt s p 0x13 sp.toNat ad.toNat none = true → exec (.andbn sp ad) s = .next (benmiLeaves s p 0x13 (go (c.r.ba && !b)) [] n))
      ∧ (standsAt s p 0x14 sp.toNat ad.toNat none = true → exec (.orb sp ad) s = .next (benmiLeaves s p 0x14 (go (c.r.ba || b)) [] n))
      ∧ (standsAt s p 0x15 sp.toNat ad.toNat none = true → exec (.orbn sp ad) s = .next (benmiLeaves s p 0x15 (go (c.r.ba || !b)) [] n))
      ∧ (standsAt s p 0x16 sp.toNat ad.toNat none = true → exec (.xorb sp ad) s = .next (benmiLeaves s p 0x16 (go (c.r.ba ^^ b)) [] n))
      ∧ (standsAt s p 0x17 sp.toNat ad.toNat none = true → exec (.xorbn sp ad) s = .next (benmiLeaves s p 0x17 (go (c.r.ba ^^ !b)) [] n))
      ∧ (standsAt s p 0x01 sp.toNat ad.toNat none = true → exec (.benmiNop sp ad) s = .next (benmiLeaves s p 0x01 (go c.r.ba) [] n))
      ∧ (standsAt s p 0x18 sp.toNat ad.toNat none = true →
        (c.r.br.length < 16 → exec (.bra sp ad) s =
          .next (benmiLeaves s p 0x18 { go c.r.ba with br := (c.r.ba, false) :: c.r.br } [] n))
        ∧ (16 ≤ c.r.br.length → exec (.bra sp ad) s = .next (u.stopProgram p 3 1)))
      ∧ (standsAt s p 0x19 sp.toNat ad.toNat none = true →
        (c.r.br.length < 16 → exec (.bro sp ad) s =
          .next (benmiLeaves s p 0x19 { go c.r.ba with br := (c.r.ba, true) :: c.r.br } [] n))
        ∧ (16 ≤ c.r.br.length → exec (.bro sp ad) s = .next (u.stopProgram p 3 1)))
      ∧ (standsAt s p 0x1a sp.toNat ad.toNat none = true →
        (∀ x t, c.r.br = (x, false) :: t → exec (.brc sp ad) s =
          .next (benmiLeaves s p 0x1a { go (x && c.r.ba) with br := t } [] n))
        ∧ (∀ x t, c.r.br = (x, true) :: t → exec (.brc sp ad) s =
          .next (benmiLeaves s p 0x1a { go (x || c.r.ba) with br := t } [] n))
        ∧ (c.r.br = [] → exec (.brc sp ad) s = .next (u.stopProgram p 4 1)))

/-- Stores write one bit, EDGR and EDGF keep the previous BA in their bit, DCH reads a frozen pair. For a program that
stands at the instruction in engines that agree: STB and STBN write BA or its inverse into the Q or M bit, SETB and
CLRB write with BA = 1 only; CLRB of a timer clears ELAPSED, RUNNING and Q, of a counter VALUE and Q. EDGR sets BA
where BA is 1 and its bit 0, EDGF where BA is 0 and its bit 1; the bit takes BA. In the EXCHANGED scan a bit of the
fresh-edge set reports no edge and leaves the set. DCH takes the frozen value of a configured pair; another is the
fault 2. Nothing else of data memory changes. Rests on 05_benmi_logic_engine R145, 05_benmi_logic_engine R153,
05_benmi_logic_engine R160, 05_benmi_logic_engine R161, 06_scan_cycle_and_remote_io R187, 06_scan_cycle_and_remote_io
R201. -/
def Obligations.BenmiBitStoresAndEdges : Prop :=
  ∀ (p : Nat) (sp : BitVec 4) (ad : BitVec 20) (s : State), enginesAgree s = true →
    let c := ctxOf s p
    let u := if s.engines.length = 2 then s.setCle { s.cle with differing := false } else s
    let n := 1 + (c.len - 1)
    let on (r : EngRegs) : EngRegs := { r with pc := c.r.pc + c.len }
    let o := bitBase c.sp + c.ad / 8
    let put (b : Bool) : List Byte := putBit [memByte c.m o] (c.ad % 8) b
    let old := dataBit c.m 3 c.ad
    (standsAt s p 0x20 sp.toNat ad.toNat none = true → exec (.stb sp ad) s =
        .next (benmiLeaves s p 0x20 (on c.r) [(o, put c.r.ba)] n))
      ∧ (standsAt s p 0x21 sp.toNat ad.toNat none = true → exec (.stbn sp ad) s =
        .next (benmiLeaves s p 0x21 (on c.r) [(o, put (!c.r.ba))] n))
      ∧ (standsAt s p 0x22 sp.toNat ad.toNat none = true → exec (.setb sp ad) s =
        .next (benmiLeaves s p 0x22 (on c.r) (if c.r.ba then [(o, put true)] else []) n))
      ∧ (standsAt s p 0x23 sp.toNat ad.toNat none = true →
        (c.r.ba = false → exec (.clrb sp ad) s = .next (benmiLeaves s p 0x23 (on c.r) [] n))
        ∧ (c.r.ba = true → c.sp = 4 → exec (.clrb sp ad) s = .next (benmiLeaves s p 0x23 (on c.r) [(timerOff c.ad,
          timerBytes 0 (memLe c.m (timerOff c.ad + 4) 4) (BitVec.ofNat 64 (memLe c.m (timerOff c.ad + 8) 8))
            (setBit (setBit (timerInst c.m c.ad) 29 false) 30 false))] n))
        ∧ (c.r.ba = true → c.sp = 5 → exec (.clrb sp ad) s = .next (benmiLeaves s p 0x23 (on c.r) [(counterOff c.ad,
          counterBytes 0#32 (BitVec.ofNat 32 (memLe c.m (counterOff c.ad + 4) 4))
            (setBit (counterInst c.m c.ad) 30 false))] n))
        ∧ (c.r.ba = true → c.sp ≠ 4 → c.sp ≠ 5 → exec (.clrb sp ad) s =
          .next (benmiLeaves s p 0x23 (on c.r) [(o, put false)] n)))
      ∧ (standsAt s p 0x24 sp.toNat ad.toNat none = true →
        (c.exchanged = false → exec (.edgr sp ad) s =
          .next (benmiLeaves s p 0x24 (on { c.r with ba := c.r.ba && !old }) [(o, put c.r.ba)] n))
        ∧ (∀ i, c.exchanged = true → freshIndex c.m c.ad = some i → exec (.edgr sp ad) s =
          .next (benmiLeaves s p 0x24 (on { c.r with ba := false })
            [(o, put c.r.ba), (freshOff i, leBytes 4 0xffffffff)] (n + 1))))
      ∧ (standsAt s p 0x25 sp.toNat ad.toNat none = true →
        (c.exchanged = false → exec (.edgf sp ad) s =
          .next (benmiLeaves s p 0x25 (on { c.r with ba := !c.r.ba && old }) [(o, put c.r.ba)] n))
        ∧ (∀ i, c.exchanged = true → freshIndex c.m c.ad = some i → exec (.edgf sp ad) s =
          .next (benmiLeaves s p 0x25 (on { c.r with ba := false })
            [(o, put c.r.ba), (freshOff i, leBytes 4 0xffffffff)] (n + 1))))
      ∧ (standsAt s p 0x50 sp.toNat ad.toNat none = true →
        (c.pairs.contains c.ad = true → exec (.dch sp ad) s = .next (benmiLeaves s p 0x50
          (on { c.r with ba := (memByte c.m (pairOff c.ad + 2)).getLsbD 3 }) [] (n + 1)))
        ∧ (c.pairs.contains c.ad = false → exec (.dch sp ad) s = .next (u.stopProgram p 2 1)))

/-- Timers and counters take their input from BA and their preset from ACC and leave BA equal to Q. For a program that
stands at the instruction in engines that agree: TON, TOF and TP advance ELAPSED by FT minus LAST_T as the pseudocode
of R158 says, store ELAPSED, the preset, FT, and PREV_IN, RUNNING and Q in the record, and leave BA equal to Q. CTU
counts a rising BA up to the highest signed word and sets Q at VALUE ≥ the preset, CTD counts down to the lowest and
sets Q at VALUE ≤ 0; each keeps its previous input bit. Only the record changes. Rests on 05_benmi_logic_engine R153,
05_benmi_logic_engine R157, 05_benmi_logic_engine R158, 05_benmi_logic_engine R159. -/
def Obligations.BenmiTimersAndCounters : Prop :=
  (∀ (p : Nat) (sp : BitVec 4) (ad : BitVec 20) (s : State), enginesAgree s = true →
    let c := ctxOf s p
    let n := 1 + (c.len - 1)
    let on (r : EngRegs) : EngRegs := { r with pc := c.r.pc + c.len }
    let inst := timerInst c.m c.ad
    let last := BitVec.ofNat 64 (memLe c.m (timerOff c.ad + 8) 8)
    let t0 : TimerState := ⟨memLe c.m (timerOff c.ad) 4, bitOf inst 29, bitOf inst 30⟩
    let stored (t : TimerState) := [(timerOff c.ad, timerBytes t.elapsed c.r.acc.toNat c.ft
      (setBit (setBit (setBit inst 28 c.r.ba) 29 t.running) 30 t.q))]
    (standsAt s p 0x28 sp.toNat ad.toNat none = true →
        ∀ t, t = tonStep t0 c.r.ba c.r.acc.toNat (c.ft - last).toNat →
          exec (.ton sp ad) s = .next (benmiLeaves s p 0x28 (on { c.r with ba := t.q }) (stored t) (n + 1)))
      ∧ (standsAt s p 0x29 sp.toNat ad.toNat none = true →
        ∀ t, t = tofStep t0 c.r.ba (bitOf inst 28) c.r.acc.toNat (c.ft - last).toNat →
          exec (.tof sp ad) s = .next (benmiLeaves s p 0x29 (on { c.r with ba := t.q }) (stored t) (n + 1)))
      ∧ (standsAt s p 0x2a sp.toNat ad.toNat none = true →
        ∀ t, t = tpStep t0 c.r.ba (bitOf inst 28) c.r.acc.toNat (c.ft - last).toNat →
          exec (.tp sp ad) s = .next (benmiLeaves s p 0x2a (on { c.r with ba := t.q }) (stored t) (n + 1))))
  ∧ (∀ (p : Nat) (sp : BitVec 4) (ad : BitVec 20) (s : State), enginesAgree s = true →
    let c := ctxOf s p
    let n := 1 + (c.len - 1)
    let on (r : EngRegs) : EngRegs := { r with pc := c.r.pc + c.len }
    let inst := counterInst c.m c.ad
    let v := (dataWordAt c.m 5 c.ad).toInt
    (standsAt s p 0x2c sp.toNat ad.toNat none = true →
        let w := if c.r.ba && !(bitOf inst 28) then satSigned (v + 1) else v
        let q := decide (c.r.acc.toInt ≤ w)
        exec (.ctu sp ad) s = .next (benmiLeaves s p 0x2c (on { c.r with ba := q }) [(counterOff c.ad,
          counterBytes (wordOfInt w) c.r.acc (setBit (setBit inst 28 c.r.ba) 30 q))] (n + 1)))
      ∧ (standsAt s p 0x2d sp.toNat ad.toNat none = true →
        let w := if c.r.ba && !(bitOf inst 29) then satSigned (v - 1) else v
        let q := decide (w ≤ 0)
        exec (.ctd sp ad) s = .next (benmiLeaves s p 0x2d (on { c.r with ba := q }) [(counterOff c.ad,
          counterBytes (wordOfInt w) (BitVec.ofNat 32 (memLe c.m (counterOff c.ad + 4) 4))
            (setBit (setBit inst 29 c.r.ba) 30 q))] (n + 1))))

/-- Word instructions load, move, compute in two's complement, compare as signed words and shift. For a program that
stands at the instruction in engines that agree: LDW takes the operand into ACC, STW and MOVW store a word at the
destination; ADD, SUB and MUL keep the low 32 bits of the signed result and set OV where it does not fit, never
clearing it; CEQ to CLE set BA to the signed comparison of ACC with the operand; SHL, SHR and SAR shift ACC by ADDR.
The pc moves past the one or two words; only a store changes data memory. Rests on 05_benmi_logic_engine R145,
05_benmi_logic_engine R151, 05_benmi_logic_engine R153, 05_benmi_logic_engine R154. -/
def Obligations.BenmiWordArithmetic : Prop :=
  (∀ (p : Nat) (sp : BitVec 4) (ad : BitVec 20) (second : Word) (s : State), enginesAgree s = true →
    let c := ctxOf s p
    let n := 1 + (c.len - 1)
    let on (r : EngRegs) : EngRegs := { r with pc := c.r.pc + c.len }
    let x := c.wordOperand
    let a := c.r.acc.toInt
    (standsAt s p 0x30 sp.toNat ad.toNat (some second) = true → exec (.ldw sp ad second) s =
        .next (benmiLeaves s p 0x30 (on { c.r with acc := x }) [] n))
      ∧ (standsAt s p 0x34 sp.toNat ad.toNat (some second) = true → exec (.benmiAdd sp ad second) s =
        .next (benmiLeaves s p 0x34 (on { c.r with
          acc := wordOfInt (a + x.toInt), ov := c.r.ov || decide ((a + x.toInt) < -2147483648 ∨ 2147483647 < (a + x.toInt)) }) [] n))
      ∧ (standsAt s p 0x35 sp.toNat ad.toNat (some second) = true → exec (.benmiSub sp ad second) s =
        .next (benmiLeaves s p 0x35 (on { c.r with
          acc := wordOfInt (a - x.toInt), ov := c.r.ov || decide ((a - x.toInt) < -2147483648 ∨ 2147483647 < (a - x.toInt)) }) [] n))
      ∧ (standsAt s p 0x36 sp.toNat ad.toNat (some second) = true → exec (.benmiMul sp ad second) s =
        .next (benmiLeaves s p 0x36 (on { c.r with
          acc := wordOfInt (a * x.toInt), ov := c.r.ov || decide ((a * x.toInt) < -2147483648 ∨ 2147483647 < (a * x.toInt)) }) [] (n + 2)))
      ∧ (standsAt s p 0x38 sp.toNat ad.toNat (some second) = true → exec (.ceq sp ad second) s =
        .next (benmiLeaves s p 0x38 (on { c.r with ba := a == x.toInt }) [] n))
      ∧ (standsAt s p 0x39 sp.toNat ad.toNat (some second) = true → exec (.cne sp ad second) s =
        .next (benmiLeaves s p 0x39 (on { c.r with ba := a != x.toInt }) [] n))
      ∧ (standsAt s p 0x3a sp.toNat ad.toNat (some second) = true → exec (.cgt sp ad second) s =
        .next (benmiLeaves s p 0x3a (on { c.r with ba := decide (x.toInt < a) }) [] n))
      ∧ (standsAt s p 0x3b sp.toNat ad.toNat (some second) = true → exec (.cge sp ad second) s =
        .next (benmiLeaves s p 0x3b (on { c.r with ba := decide (x.toInt ≤ a) }) [] n))
      ∧ (standsAt s p 0x3c sp.toNat ad.toNat (some second) = true → exec (.clt sp ad second) s =
        .next (benmiLeaves s p 0x3c (on { c.r with ba := decide (a < x.toInt) }) [] n))
      ∧ (standsAt s p 0x3d sp.toNat ad.toNat (some second) = true → exec (.cle sp ad second) s =
        .next (benmiLeaves s p 0x3d (on { c.r with ba := decide (a ≤ x.toInt) }) [] n))
      ∧ (standsAt s p 0x32 sp.toNat ad.toNat (some second) = true → exec (.movw sp ad second) s =
        .next (benmiLeaves s p 0x32 { c.r with pc := c.r.pc + 2 } (c.storeWord (spOf c.second) (adOf c.second) x) 2)))
  ∧ (∀ (p : Nat) (sp : BitVec 4) (ad : BitVec 20) (s : State), enginesAgree s = true →
    let c := ctxOf s p
    let n := 1 + (c.len - 1)
    let on (r : EngRegs) : EngRegs := { r with pc := c.r.pc + c.len }
    (standsAt s p 0x31 sp.toNat ad.toNat none = true → exec (.stw sp ad) s =
        .next (benmiLeaves s p 0x31 (on c.r) (c.storeWord c.sp c.ad c.r.acc) n))
      ∧ (standsAt s p 0x40 sp.toNat ad.toNat none = true → exec (.benmiShl sp ad) s =
        .next (benmiLeaves s p 0x40 (on { c.r with acc := c.r.acc <<< c.ad }) [] n))
      ∧ (standsAt s p 0x41 sp.toNat ad.toNat none = true → exec (.benmiShr sp ad) s =
        .next (benmiLeaves s p 0x41 (on { c.r with acc := c.r.acc >>> c.ad }) [] n))
      ∧ (standsAt s p 0x42 sp.toNat ad.toNat none = true → exec (.benmiSar sp ad) s =
        .next (benmiLeaves s p 0x42 (on { c.r with acc := c.r.acc.sshiftRight c.ad }) [] n)))

/-- Jumps and calls set the pc, END ends the execute phase, a fault stops the program and makes no write. For a
program that stands at the instruction in engines that agree: JMP goes to ADDR, JBT and JBF where BA is 1 or 0; CALL
keeps the next index, 8 deep, deeper is the fault 5; RET returns there, without a call the fault 6, from an error task
with a branch open 7. END with a branch or call open is the fault 7, else the execute phase is over and the program
stages its outputs. At the end of the code the fault is 8, an unknown opcode 1, an illegal instruction 2. Rests on
05_benmi_logic_engine R152, 05_benmi_logic_engine R153, 05_benmi_logic_engine R161, 06_scan_cycle_and_remote_io R176,
06_scan_cycle_and_remote_io R193. -/
def Obligations.BenmiControlFlow : Prop :=
  (∀ (p : Nat) (sp : BitVec 4) (ad : BitVec 20) (s : State), enginesAgree s = true →
    let c := ctxOf s p
    let u := if s.engines.length = 2 then s.setCle { s.cle with differing := false } else s
    let n := 1 + (c.len - 1)
    (standsAt s p 0x48 sp.toNat ad.toNat none = true →
        exec (.jmp sp ad) s = .next (benmiLeaves s p 0x48 { c.r with pc := c.ad } [] 2))
      ∧ (standsAt s p 0x49 sp.toNat ad.toNat none = true → exec (.jbt sp ad) s =
        .next (benmiLeaves s p 0x49 { c.r with pc := if c.r.ba then c.ad else c.r.pc + c.len } [] (if c.r.ba then 2 else n)))
      ∧ (standsAt s p 0x4a sp.toNat ad.toNat none = true → exec (.jbf sp ad) s =
        .next (benmiLeaves s p 0x4a { c.r with pc := if c.r.ba then c.r.pc + c.len else c.ad } [] (if c.r.ba then n else 2)))
      ∧ (standsAt s p 0x4c sp.toNat ad.toNat none = true →
        (c.r.calls.length < 8 → exec (.benmiCall sp ad) s =
          .next (benmiLeaves s p 0x4c { c.r with pc := c.ad, calls := some (c.r.pc + 1) :: c.r.calls } [] 2))
        ∧ (8 ≤ c.r.calls.length → exec (.benmiCall sp ad) s = .next (u.stopProgram p 5 1)))
      ∧ (standsAt s p 0x4d sp.toNat ad.toNat none = true →
        (∀ x t, c.r.calls = some x :: t → exec (.benmiRet sp ad) s =
          .next (benmiLeaves s p 0x4d { c.r with pc := x, calls := t } [] 2))
        ∧ (c.r.calls = [] → exec (.benmiRet sp ad) s = .next (u.stopProgram p 6 1))
        ∧ (∀ t, c.r.calls = none :: t → c.r.br ≠ [] → exec (.benmiRet sp ad) s = .next (u.stopProgram p 7 1))))
  ∧ (∀ (p : Nat) (sp : BitVec 4) (ad : BitVec 20) (s : State), enginesAgree s = true →
      standsAt s p 0x7f sp.toNat ad.toNat none = true →
      let u := if s.engines.length = 2 then s.setCle { s.cle with differing := false } else s
      ((ctxOf s p).r.br ≠ [] ∨ (ctxOf s p).r.calls ≠ [] → exec (.benmiEnd sp ad) s = .next (u.stopProgram p 7 1))
      ∧ ((ctxOf s p).r.br = [] → (ctxOf s p).r.calls = [] → ∃ t, exec (.benmiEnd sp ad) s = .next t
        ∧ t.cle.running = none ∧ (t.prog p).state = 6))
  ∧ (∀ (p : Nat) (sp : BitVec 4) (ad : BitVec 20) (s : State), s.cle.running = some p → (s.prog p).state = 4 →
      let code := s.imageBase p + 16
      let pc := (s.cle.regs.eng s.lowEngine).pc
      let w := s.pm (code + pc)
      ((s.imageHeader p).codeWords ≤ pc → exec (.benmiEnd sp ad) s = .next (s.stopProgram p 8 1))
      ∧ (pc < (s.imageHeader p).codeWords → opcodeKnown (opOf w) = false →
        exec (.benmiEnd sp ad) s = .next (s.stopProgram p 1 1))
      ∧ (∀ op sem, pc < (s.imageHeader p).codeWords → opOf w = op → spOf w = sp.toNat → adOf w = ad.toNat →
        insnOk s.pm code (s.imageHeader p).codeWords pc = false →
          s.runInsn op sp.toNat ad.toNat none sem = s.stopProgram p 2 1))

/-- A trigger opens a scan; freeze, execute, staging, release, write-out and housekeeping follow, an overrun stops. A
trigger of a WAITING program opens its scan with the next SCAN_NUM, preempting a program of lower priority; while a
scan is open it is missed and reported; a STOPPED program ignores it. The input freeze sets FT to LT ÷ 250; the
execute phase begins with registers 0 or goes on with its saved context; staging takes the output image and requests
the FORCED tussock; a positive answer releases the outputs, a negative one discards them; the write-out hands the
retentive lines over; housekeeping ends the scan at a boundary and applies a pending STOP. A phase whose turn it is
not changes nothing. The watchdog stops a program with cause 0x10. Rests on 05_benmi_logic_engine R150,
06_scan_cycle_and_remote_io R174, 06_scan_cycle_and_remote_io R175, 06_scan_cycle_and_remote_io R176,
06_scan_cycle_and_remote_io R177, 06_scan_cycle_and_remote_io R178, 06_scan_cycle_and_remote_io R179,
06_scan_cycle_and_remote_io R180, 06_scan_cycle_and_remote_io R182, 06_scan_cycle_and_remote_io R184,
06_scan_cycle_and_remote_io R195, 06_scan_cycle_and_remote_io R196. -/
def Obligations.ScanPhasesFollowEachOther : Prop :=
  (∀ (p : Fin 8) (s : State), s.scheduled p.val = false →
      let g := s.prog p.val
      let s0 := s.setProg p.val { g with nextTrigger := g.nextTrigger + BitVec.ofNat 64 (s.cycleTicks p.val) }
      (g.state = 0 ∨ s.time.lt < g.nextTrigger → exec (.cyclicTrigger p) s = .next s)
      ∧ (g.state ≠ 0 → ¬s.time.lt < g.nextTrigger → exec (.cyclicTrigger p) s = .next (s0.trigger p.val)))
  ∧ (∀ (p : Nat) (s : State),
      let g := s.prog p
      let s1 := (s.setProg p { g with state := 2, triggerLt := s.time.lt, scanNum := g.scanNum + 1 }).bump (progPage p) 0 1
      (g.state = 0 → s.trigger p = s)
      ∧ (g.state = 1 → s.cle.running = none → s.trigger p = s1)
      ∧ (∀ q, g.state = 1 → s.cle.running = some q → s.trigger p = if p < q then s1.preempt q else s1)
      ∧ (1 < g.state → s.trigger p = ((s.satReg (progPage p) Reg.program.triggersMissed 1).bump (progPage p) 2
        1).raise (progPage p) 2 []))
  ∧ (∀ (p : Fin 8) (s : State), (s.prog p.val).state = 2 → s.turnOf p.val = true →
      ∃ t, exec (.inputFreeze p) s = .next t ∧ (t.prog p.val).state = 5 ∧ (t.prog p.val).began = false
        ∧ (t.prog p.val).staged = none ∧ t.cle.boundary = false)
  ∧ (∀ (p : Fin 8) (s : State), (s.prog p.val).state = 5 → s.turnOf p.val = true →
      ∃ t, exec (.executeResume p) s = .next t ∧ (t.prog p.val).state = 4 ∧ t.cle.running = some p.val
        ∧ ((s.prog p.val).began = true → t.cle.regs = ((s.restoreContext p.val).prog p.val).context)
        ∧ ((s.prog p.val).began = false → (s.prog p.val).errTasks = [] → t.cle.regs = Trio.all regs0
          ∧ t.mem = s.mem ∧ t.faults = s.faults ∧ t.time = s.time))
  ∧ (∀ (p : Fin 8) (s : State),
      ((s.prog p.val).state ≠ 2 ∨ s.turnOf p.val = false → exec (.inputFreeze p) s = .next s)
      ∧ ((s.prog p.val).state ≠ 5 ∨ s.turnOf p.val = false → exec (.executeResume p) s = .next s)
      ∧ ((s.prog p.val).state ≠ 6 ∨ s.turnOf p.val = false → exec (.outputStaging p) s = .next s)
      ∧ ((s.prog p.val).released = false → exec (.outputWriteOut p) s = .next s)
      ∧ (s.mayHousekeep p.val = false → exec (.housekeeping p) s = .next s))
  ∧ (∀ (p : Fin 8) (s : State), (s.prog p.val).state = 6 → s.turnOf p.val = true →
      let set := (s.retainSetOf p.val (s.imageBase p.val)).getD []
      let full := (s.prog p.val).firstScan || (s.prog p.val).exchanged || set != (s.prog p.val).lastSet
      let c := s.capture p.val set full
      let s1 := c.2.setProg p.val
        { s.prog p.val with
          state := 7, staged := some { s.stage p.val with lines := c.1, full := full }, retain := some (c.1, full),
          lastSet := set, commitFired := false, released := false }
      exec (.outputStaging p) s =
        .next ((s1.setCle { s1.cle with boundary := false }).forceTussock (.program (Fin.ofNat 8 p.val))))
  ∧ (∀ (p : Fin 8) (im : Staged) (s : State), (s.prog p.val).state = 7 → (s.prog p.val).released = false →
      (s.prog p.val).staged = some im →
      (s.simplex = false → s.forcedAnswer p.val = some false →
        exec (.outputRelease p) s = .next ((s.dropForced p.val).discardOutputs p.val))
      ∧ (s.simplex = true ∨ s.forcedAnswer p.val = some true →
        bitOf (s.reg (progPage p.val) Reg.program.progConfig) 1 = false →
          exec (.outputRelease p) s = .next ((s.dropForced p.val).releaseOutputs p.val im))
      ∧ (s.simplex = true ∨ s.forcedAnswer p.val = some true →
        bitOf (s.reg (progPage p.val) Reg.program.progConfig) 1 = true → (s.prog p.val).commitFired = false →
          exec (.outputRelease p) s = .next s)
      ∧ (s.simplex = false → s.forcedAnswer p.val = none → exec (.outputRelease p) s = .next s))
  ∧ (∀ (p : Fin 8) (s : State), (s.prog p.val).released = true →
      let s1 := s.writeOut p.val
      ((s.prog p.val).retain = none →
        exec (.outputWriteOut p) s = .next (s1.setProg p.val { s1.prog p.val with state := 9 }))
      ∧ (∀ lines full, (s.prog p.val).retain = some (lines, full) →
        let s2 := s1.handOver p.val (s.prog p.val).lastSet lines full
        exec (.outputWriteOut p) s = .next (s2.setProg p.val
          { s2.prog p.val with state := 8, retain := none, retainSeq := some (s2.chain p.val).seq })))
  ∧ (∀ (p : Fin 8) (s : State),
      (s.mayHousekeep p.val = true → (s.prog p.val).stopPending = false → (s.prog p.val).exchPending = false →
        ∃ t, exec (.housekeeping p) s = .next t ∧ (t.prog p.val).state = 1 ∧ (t.prog p.val).firstScan = false
          ∧ (t.prog p.val).exchanged = false ∧ t.cle.boundary = true)
      ∧ (2 ≤ (s.prog p.val).state →
        exec (.overrun p) s = .next ((s.bump (progPage p.val) 7 1).stopProgram p.val 0x10 0))
      ∧ ((s.prog p.val).state < 2 → exec (.overrun p) s = .next s))

/-- START, STOP and EXCHANGE act on a program as R184 to R200 say, IMAGE_CHECK confirms an image, pairs tick. START is
accepted only while STOPPED; a configuration that R185 refuses leaves STOP_CAUSE 0x12; else the program is WAITING for
its first scan, START_WARM with the retained commit where there is one. STOP stops a WAITING or PENDING program at
once with cause 0x11 and is else remembered. EXCHANGE is refused with the first code of R199 that applies, else
pending, and applied at once while no scan is past PENDING. IMAGE_CHECK that finds no error confirms the image and is
DONE, an error ends it FAILED with its code and index. The pair tick: a disagreement counts its ticks, at the limit
the pair disarms, reads 0 and is reported; both channels 0 arm it again. Rests on 05_benmi_logic_engine R170,
06_scan_cycle_and_remote_io R183, 06_scan_cycle_and_remote_io R184, 06_scan_cycle_and_remote_io R185,
06_scan_cycle_and_remote_io R186, 06_scan_cycle_and_remote_io R187, 06_scan_cycle_and_remote_io R188,
06_scan_cycle_and_remote_io R197, 06_scan_cycle_and_remote_io R199, 06_scan_cycle_and_remote_io R200,
06_scan_cycle_and_remote_io R207. -/
def Obligations.ProgramCommandsImagesAndPairs : Prop :=
  (∀ (m : Master) (p : Fin 8) (s : State), s.mayWritePage m (progPage p.val) Reg.program.progCmd = true →
      ((s.prog p.val).state ≠ 0 → exec (.startWarm m p) s = .next (s.answer .none)
        ∧ exec (.startCold m p) s = .next (s.answer .none))
      ∧ ((s.prog p.val).state = 0 → s.startRefused p.val = true →
        let u := s.setProg p.val { s.prog p.val with stopCause := 0x12 }
        exec (.startWarm m p) s = .next (u.answer .none) ∧ exec (.startCold m p) s = .next (u.answer .none))
      ∧ ((s.prog p.val).state = 0 → s.startRefused p.val = false →
        (∃ t, exec (.startWarm m p) s = .next t ∧ (t.prog p.val).state = 1 ∧ (t.prog p.val).firstScan = true
          ∧ (t.prog p.val).warm = (s.commitFound p.val).isSome ∧ (t.prog p.val).noRetain = !(s.commitFound p.val).isSome
          ∧ t.reply = .none)
        ∧ (∃ t, exec (.startCold m p) s = .next t ∧ (t.prog p.val).state = 1 ∧ (t.prog p.val).firstScan = true
          ∧ (t.prog p.val).warm = false ∧ (t.prog p.val).noRetain = false ∧ t.reply = .none))
      ∧ ((s.prog p.val).state = 0 → exec (.stop m p) s = .next (s.answer .none))
      ∧ (1 ≤ (s.prog p.val).state → (s.prog p.val).state ≤ 2 →
        exec (.stop m p) s = .next ((s.haltProgram p.val 0x11).answer .none))
      ∧ (3 ≤ (s.prog p.val).state → exec (.stop m p) s =
        .next ((s.setProg p.val { s.prog p.val with stopPending := true }).answer .none))
      ∧ (∀ c, s.exchangeRefusal p.val = some c → exec (.exchange m p) s =
        .next (((s.setReg (progPage p.val) Reg.program.exchStatus (BitVec.ofNat 32 c)).bump (progPage p.val) 9
          1).answer .none))
      ∧ (s.exchangeRefusal p.val = none →
        let u := (s.setReg (progPage p.val) Reg.program.exchStatus 1#32).setProg p.val
          { s.prog p.val with exchPending := true }
        exec (.exchange m p) s =
          .next ((if (s.prog p.val).state ≤ 2 then u.applyExchange p.val else u).answer .none)))
  ∧ (∀ (m : Master) (p : Fin 8) (s : State), s.mayWritePage m (progPage p.val) Reg.program.progCmd = false →
      let v := s.violation m (0x18000000 + 0x1000 * progPage p.val + Reg.program.progCmd)
      exec (.startWarm m p) s = .next v ∧ exec (.startCold m p) s = .next v ∧ exec (.stop m p) s = .next v
        ∧ exec (.exchange m p) s = .next v)
  ∧ (∀ (s : State), s.opActive 0x044 1 = true →
      let o := s.op 0x044
      let base := o.arg0.toNat
      let n := (header s.pm base).imageWords
      let r := imageCheck s.pm (s.differingWords base (min n 262144)) base o.arg1
      (r.error = none → ∃ t, exec .imageCheck s = .next t ∧ (t.op 0x044).phase = .done
        ∧ t.cle.confirmed = some (base, n, r.crc) ∧ t.mem = s.mem ∧ t.faults = s.faults ∧ t.cle.progs = s.cle.progs)
      ∧ (∀ code i, r.error = some (code, i) → ∃ t, exec .imageCheck s = .next t ∧ (t.op 0x044).phase = .failed
        ∧ t.cle = s.cle ∧ t.mem = s.mem ∧ t.faults = s.faults))
  ∧ (∀ (w : Word) (a b : Bool) (ticks : Nat),
      (bitOf w 17 = false → (a || b) = true → pairStep w a b ticks = (w, false, false))
      ∧ (bitOf w 17 = true → a ≠ b → bitOf w 18 = true → fieldOf w 14 0 + 1 = ticks →
        (pairStep w a b ticks).2 = (false, true) ∧ bitOf (pairStep w a b ticks).1 16 = false
          ∧ bitOf (pairStep w a b ticks).1 17 = false)
      ∧ (a = b → bitOf w 17 = true → bitOf (pairStep w a b ticks).1 16 = a
        ∧ bitOf (pairStep w a b ticks).1 18 = false))
  ∧ (∀ (s : State), exec .pairTick s = .next
      (((List.range 8).filter fun p => (s.prog p).state != 0 && s.imageValid p).foldl (fun t p =>
        (t.scanTables p).pairs.foldl (fun u e => u.tickPair (t.scanTables p) e) t) s))

/-- Engines are judged by R137, insertions and view reads follow R138 to R143, an odd engine is reseeded. Three
engines that agree change nothing; one that differs from two that agree is named odd and the two's effect stands;
without a majority nothing is written and ENGINE_NO_MAJORITY is raised. An insertion into view 1 reaches every data
memory and stalls the running program one cycle; into an image that a page names as active it is refused; beyond the
backed size it is unmapped. A view read gives the majority's word, or is unmapped. A scrub corrects single errors and
finds uncorrectable ones. A waiting odd engine takes the lowest participant's memories at a scan boundary and rejoins;
an uncorrectable source word, or a failure, locks out. A self-test result that is not a pass latches
CLE_SELFTEST_FAIL. Rests on 05_benmi_logic_engine R134, 05_benmi_logic_engine R135, 05_benmi_logic_engine R136,
05_benmi_logic_engine R137, 05_benmi_logic_engine R138, 05_benmi_logic_engine R140, 05_benmi_logic_engine R141,
05_benmi_logic_engine R142, 05_benmi_logic_engine R143, 05_benmi_logic_engine R164, 05_benmi_logic_engine R165,
05_benmi_logic_engine R166. -/
def Obligations.EnginesAreJudgedScrubbedAndReseeded : Prop :=
  (∀ (x y z : Eff) (s : State),
      let l : List EngineOut := [⟨.e0, x, none⟩, ⟨.e1, y, none⟩, ⟨.e2, z, none⟩]
      (x.same y = true → y.same z = true → s.judgeEngines l = (some x, s))
      ∧ (x.same y = true → y.same z = false →
        s.judgeEngines l = (some x, s.nameEngine .e2 (if z.sameState x then 1 else 0)))
      ∧ (x.same y = false → x.same z = false → y.same z = true →
        s.judgeEngines l = (some y, s.nameEngine .e0 (if x.sameState y then 1 else 0)))
      ∧ (x.same y = false → y.same z = false → x.same z = false →
        s.judgeEngines l = (none, s.lockoutCause 0x040 0 [])))
  ∧ (∀ (off : Nat) (bs : List Byte) (s : State),
      (off + bs.length ≤ 0x80000 → exec (.externalWriteInsertion (.view1 off bs)) s =
        .next (((s.insertData off bs).insertionStall).answer .none)
        ∧ exec (.externalWriteInsertion (.delivery off bs)) s = .next (s.insertData off bs).insertionStall)
      ∧ (0x80000 < off + bs.length → exec (.externalWriteInsertion (.view1 off bs)) s =
        .next (s.violation .cluster (0x0c400000 + off)))
      ∧ (off + bs.length ≤ 0x100000 → (spanWords 4 off bs.length).any s.inActiveImage = true →
        exec (.externalWriteInsertion (.view0 off bs)) s =
          .next ((s.violation .cluster (0x0c000000 + off)).raise 0x044 0 []))
      ∧ (off + bs.length ≤ 0x100000 → (spanWords 4 off bs.length).any s.inActiveImage = false →
        ∃ t, exec (.externalWriteInsertion (.view0 off bs)) s = .next t ∧ t.reply = .none
          ∧ t.mem = (s.putProgBytes off bs).mem))
  ∧ (∀ (off : Nat) (s : State),
      (off + 4 ≤ 0x80000 → exec (.viewRead 1 off) s =
        .next (((s.bump 0x040 5 1).readData off 4).2.answer
          (.value (BitVec.ofNat 64 (ofLeBytes ((s.bump 0x040 5 1).readData off 4).1)))))
      ∧ (∀ v : Fin 4, 0x300000 < off + 4 →
        exec (.viewRead v off) s = .next (s.violation .cluster (0x0c000000 + v.val * 0x400000 + off)))
      ∧ (off + 4 ≤ 0x80000 → exec (.viewRead 3 off) s =
        .next (s.answer (.value (BitVec.ofNat 64 (ofLeBytes (memBytes (s.dataMem .e0) (off % 0x80000) 4)))))))
  ∧ (∀ (e : Engine) (s : State), (s.mem.progEcc.eng e).any (fun q => q.2 == 1 || q.2 == 2) = false →
      (s.mem.dataEcc.eng e).any (fun q => q.2 == 1 || q.2 == 2) = false →
      ∃ t, exec (.benmiScrub e none none) s = .next t ∧ t.mem.data = s.mem.data ∧ t.mem.prog = s.mem.prog
        ∧ { t with mem := s.mem } = s)
  ∧ (∀ (e : Engine) (w : Nat) (s : State), eccAnyBad (s.mem.progEcc.eng e) = false →
      s.mem.dataEcc.eng e = [(w, 1)] →
      let m := { s.mem with
        progEcc := s.mem.progEcc.setEng e (eccScrubbed (s.mem.progEcc.eng e)), dataEcc := s.mem.dataEcc.setEng e [] }
      eccSingles (s.mem.progEcc.eng e) = 0 → exec (.benmiScrub e none none) s =
        .next ((({ s with mem := m }.satReg (enginePage e) Reg.engine.eccCorrData 1)).bump (enginePage e) 10 1))
  ∧ (∀ (e : Engine) (s : State), s.cle.odd = some e → s.cle.waiting = true →
      (s.atBoundary = false → exec .engineReseed s = .next s)
      ∧ (s.atBoundary = true → s.hasCause (enginePage e) 2 = false → eccAnyBad (s.mem.dataEcc.eng s.lowEngine) = false →
        ∃ t, exec .engineReseed s = .next t ∧ t.mem.data.eng e = s.dataMem s.lowEngine ∧ t.mem.dataEcc.eng e = []
          ∧ t.cle.participating.eng e = true ∧ t.cle.odd = none ∧ t.cle.regs.eng e = s.cle.regs.eng s.lowEngine
          ∧ t.mem.prog = s.mem.prog ∧ t.faults = s.faults)
      ∧ (s.atBoundary = true → eccAnyBad (s.mem.dataEcc.eng s.lowEngine) = true → exec .engineReseed s =
        .next ((s.setCle { s.cle with waiting := false, begun := (e, s.time.lt) :: s.cle.begun }).lockoutCause 0x040 4 []))
      ∧ (∀ w, w ≠ .differ → exec (.engineReseedFailed w) s =
        .next ((s.setCle { s.cle with waiting := false }).lockoutCause 0x040 4 [])))
  ∧ (∀ (s : State),
      (s.cle.odd = none → exec .engineReseed s = .next s ∧ ∀ w, exec (.engineReseedFailed w) s = .next s)
      ∧ (let s1 := s.setCle { s.cle with selftestRun := s.cle.selftestRun + 1 }
        exec (.cleSelftest .pass) s = .next ((s1.satReg 0x040 Reg.cle.selftestRuns 1).bump 0x040 4 1)
        ∧ exec (.cleSelftest .overdue) s = .next (s1.lockoutCause 0x040 5 [])))

/-- A received frame is counted and checked, learned and forwarded; a port sends the highest eligible class; age and
link. A frame at a port that is not ON or has no link changes nothing; otherwise it is counted, and a bad FCS, a
length below 64 or above MAX_FRAME discards it with its own event counter, else it takes the receive path. A VID of
4,095 or one whose MEMBER set lacks the port discards it. A learned address is found again with its port, other keys
stay, and a hit's destination set leaves out the ingress port. A transmit takes the oldest frame of the highest
eligible class, P6 delivering to the host, and changes no frame where no class may send. The age limit discards the
oldest copy of its class. A lost link latches, counts and discards on a port that is ON; a link comes up at the mode's
or the partner's speed. Rests on 08_train_network_switch R229, 08_train_network_switch R230, 08_train_network_switch
R231, 08_train_network_switch R232, 08_train_network_switch R233, 08_train_network_switch R234,
08_train_network_switch R240, 08_train_network_switch R248, 08_train_network_switch R275, 15_observability_and_test
R453, 15_observability_and_test R462, 08_train_network_switch R265. -/
def Obligations.FramesPassTheIngressChecksAndLeaveByClass : Prop :=
  (∀ (port : Fin 8) (frame : List Byte) (fcsOk : Bool) (s : State),
      let n := frame.length + 4
      let s1 := ((s.bump (portPage port.val) 0 1).bump (portPage port.val) 2 n).bw port.val n
      (s.working (portPage port.val) = false ∨ (s.swPort port.val).link = false →
        exec (.frameReceive port frame fcsOk) s = .next s)
      ∧ (s.working (portPage port.val) = true → (s.swPort port.val).link = true →
        (fcsOk = false → exec (.frameReceive port frame fcsOk) s = .next (s1.bump (portPage port.val) 4 1))
        ∧ (fcsOk = true → n < 64 → exec (.frameReceive port frame fcsOk) s = .next (s1.bump (portPage port.val) 5 1))
        ∧ (fcsOk = true → 64 ≤ n → s1.maxFrame port.val < n →
          exec (.frameReceive port frame fcsOk) s = .next (s1.bump (portPage port.val) 6 1))
        ∧ (fcsOk = true → 64 ≤ n → n ≤ s1.maxFrame port.val →
          exec (.frameReceive port frame fcsOk) s = .next (s1.receivePath port.val (parseFrame frame) false))))
  ∧ (∀ (port : Nat) (f : Frame) (tr : Option (BitVec 16)) (forced : Bool) (s : State),
      (s.assignVid port f).vid = 4095 ∨ (s.vlanMembers (s.assignVid port f).vid).testBit port = false →
        s.forward port f tr forced = s.bump (portPage port) 7 1)
  ∧ (∀ (port : Nat) (f : Frame) (s : State), port < 6 → bitOf (s.reg 0x089 Reg.bridge.bridgeCtrl) 0 = true →
      (∀ e, findFdb s.net.fdb (fdbKey f.src f.vid) = some e → e.static = false) →
      (findFdb s.net.fdb (fdbKey f.src f.vid) = none → s.net.fdb.length < 8192) →
      let t := s.learn port f
      findFdb t.net.fdb (fdbKey f.src f.vid) = some ⟨2 ^ port, false, s.time.lt⟩
      ∧ (∀ k, k ≠ fdbKey f.src f.vid → findFdb t.net.fdb k = findFdb s.net.fdb k)
      ∧ (∀ (p : Nat) (g : Frame), g.dst = f.src → g.vid = f.vid → g.dst ≠ broadcastMac →
        t.lookup p g = ((2 ^ port) &&& (255 - 2 ^ p), t.bump 0x089 0 1)))
  ∧ (∀ (port : Fin 8) (s : State),
      let s1 := (s.settle port.val).markGated port.val
      (s.working (portPage port.val) = false ∨ (s.swPort port.val).link = false →
        exec (.frameTransmit port) s = .next s)
      ∧ (s.working (portPage port.val) = true → (s.swPort port.val).link = true →
        (s1.nextClass port.val = none → exec (.frameTransmit port) s = .next (s1.markPerturbed port.val))
        ∧ (∀ c h, s1.nextClass port.val = some c → s1.headOf port.val c = some h → exec (.frameTransmit port) s =
          .next (if port.val = 6 then (s1.markPerturbed port.val).sendHost h.1 h.2
            else (s1.markPerturbed port.val).sendCopy h.1 h.2))))
  ∧ (∀ (s : State) (p c : Nat), s.nextClass p = some c →
      s.eligible p c = true ∧ c < 8 ∧ ∀ d, c < d → d < 8 → s.eligible p d = false)
  ∧ (∀ (port cls : Fin 8) (s : State),
      ((s.settle port.val).headOf port.val cls.val = none → exec (.txAgeLimit port cls) s = .next s)
      ∧ (∀ h, (s.settle port.val).headOf port.val cls.val = some h → exec (.txAgeLimit port cls) s =
        .next ((((s.settle port.val).discardCopies 4 fun f k => f.handle == h.1.handle && k == h.2).bump
          (portPage port.val) 10 1).settle port.val)))
  ∧ (∀ (port : Fin 8) (s : State),
      let s1 := s.setSwPort port.val { s.swPort port.val with link := false, speed := 0 }
      ((s.swPort port.val).link = false ∨ 6 ≤ port.val → exec (.linkLost port) s = .next s)
      ∧ ((s.swPort port.val).link = true → port.val < 6 → s1.portOn port.val = false →
        exec (.linkLost port) s = .next s1)
      ∧ ((s.swPort port.val).link = true → port.val < 6 → s1.portOn port.val = true → exec (.linkLost port) s =
        .next (((s1.dropEgress port.val).raise (portPage port.val) 0 []).bump (portPage port.val) 12 1)))
  ∧ (∀ (port : Fin 8) (partner : Fin 4) (s : State),
      let w := s.reg (portPage port.val) Reg.port.portConfig
      let v := speedOfMode (fieldOf w 3 0) partner.val (bitOf w 8)
      (6 ≤ port.val ∨ v = 0 ∨ s.portOn port.val = false → exec (.linkUp port partner) s = .next s)
      ∧ (port.val < 6 → v ≠ 0 → s.portOn port.val = true → exec (.linkUp port partner) s =
        .next (s.setSwPort port.val { s.swPort port.val with link := true, speed := v })))

/-- Gate cycles and entries follow their lists; aging, recovery and node timers erase one entry; 802.1AS and
supervision. With QBV_EN a cycle start restarts the list at entry 0 at GCL_BASE + k · GCL_CYCLE and performs a pending
swap with OPER_LEN from GCL_ADMIN_LEN; an entry change moves to the next entry, the last one holds; without QBV_EN
neither does anything. Aging erases a dynamic entry and counts it, a static one stays; a recovery reset and a
forgotten node erase that one entry and nothing else. A life check sends the module's and each proxied SAN's
supervision frame with REDBOX_EN in force and LIFE_EN, else nothing. A Sync send counts on each master port; a
completed delay exchange gives NBR_DELAY and asCapable below 2,000 ns, a failed one clears it. Rests on
08_train_network_switch R233, 08_train_network_switch R236, 08_train_network_switch R237, 08_train_network_switch
R238, 08_train_network_switch R241, 08_train_network_switch R243, 08_train_network_switch R245,
08_train_network_switch R247, 07_external_timebase R225, 08_train_network_switch R274. -/
def Obligations.GatesAndSwitchTimersTakeEffect : Prop :=
  (∀ (port : Fin 8) (s : State),
      (s.qbv port.val = false → exec (.gateCycleStart port) s = .next s ∧ exec (.gateEntryChange port) s = .next s)
      ∧ (s.qbv port.val = true →
        let g := (s.settle port.val).swPort port.val
        ∃ t, exec (.gateCycleStart port) s = .next t ∧ t.pages = s.pages ∧ t.regs = s.regs
          ∧ (t.swPort port.val).entry = 0 ∧ (t.swPort port.val).started = (t.swPort port.val).cycle
          ∧ (t.swPort port.val).cycle = cycleStart (s.reg64 (portPage port.val) Reg.port.gclBaseLo).toNat
            (s.reg (portPage port.val) Reg.port.gclCycle).toNat s.time.nt.toNat
          ∧ (g.swapPending = true → (t.swPort port.val).bank = 1 - g.bank ∧ (t.swPort port.val).swapPending = false
            ∧ (t.swPort port.val).operLen = s.field (portPage port.val) Reg.port.gclAdminLen 6 0)
          ∧ (g.swapPending = false → (t.swPort port.val).bank = g.bank ∧ (t.swPort port.val).operLen = g.operLen
            ∧ (t.swPort port.val).swapPending = false))
      ∧ ((s.swPort port.val).operLen ≤ (s.swPort port.val).entry + 1 → exec (.gateEntryChange port) s = .next s)
      ∧ (s.qbv port.val = true → (s.swPort port.val).entry + 1 < (s.swPort port.val).operLen →
        ∃ t, exec (.gateEntryChange port) s = .next t ∧ t.pages = s.pages ∧ t.regs = s.regs
          ∧ (t.swPort port.val).entry = (s.swPort port.val).entry + 1
          ∧ (t.swPort port.val).started = (s.swPort port.val).started
            + entryNs (s.gclEntry port.val (s.swPort port.val).bank (s.swPort port.val).entry)))
  ∧ (∀ (mac : BitVec 48) (vid : BitVec 12) (s : State),
      let k := fdbKey mac.toNat vid.toNat
      (findFdb s.net.fdb k = none → exec (.fdbAgeOut mac vid) s = .next s)
      ∧ (∀ e, findFdb s.net.fdb k = some e → e.static = true → exec (.fdbAgeOut mac vid) s = .next s)
      ∧ (∀ e, findFdb s.net.fdb k = some e → e.static = false → ∃ t, exec (.fdbAgeOut mac vid) s = .next t
        ∧ findFdb t.net.fdb k = none ∧ (∀ j, j ≠ k → findFdb t.net.fdb j = findFdb s.net.fdb j)
        ∧ t = ({ s with net := { s.net with fdb := t.net.fdb } } : State).bump 0x089 3 1))
  ∧ (∀ (i : Fin 256) (s : State), ∃ t, exec (.cbReset i) s = .next t ∧ findRecovery t.net.recovery i.val = none
      ∧ (∀ j, j ≠ i.val → findRecovery t.net.recovery j = findRecovery s.net.recovery j)
      ∧ t = { s with net := { s.net with recovery := t.net.recovery } })
  ∧ (∀ (mac : BitVec 48) (s : State), ∃ t, exec (.nodeForget mac) s = .next t ∧ findNode t.net.nodes mac.toNat = none
      ∧ (∀ j, j ≠ mac.toNat → findNode t.net.nodes j = findNode s.net.nodes j)
      ∧ t = { s with net := { s.net with nodes := t.net.nodes } })
  ∧ (∀ s : State, (s.redbox = false ∨ bitOf (s.reg 0x08c Reg.prp.prpCtrl) 2 = false → exec .lifeCheck s = .next s)
      ∧ (s.redbox = true → bitOf (s.reg 0x08c Reg.prp.prpCtrl) 2 = true → exec .lifeCheck s =
        .next (s.net.proxies.foldl (fun t x => t.supervise x.1 (.proxy x.1)) (s.supervise s.hostMac .module))))
  ∧ (∀ s : State, (s.gptpOn = false → exec .gptpSyncSend s = .next s)
      ∧ (s.gptpOn = true → ∃ t, exec .gptpSyncSend s = .next t ∧ t.net = s.net ∧ t.time = s.time ∧ t.pages = s.pages
        ∧ t.regs = s.regs))
  ∧ (∀ (port : Fin 8) (delay : Option Word) (s : State),
      (s.gptpOn = false ∨ 6 ≤ port.val ∨ (port.val ≠ s.slavePort
        ∧ bitOf (s.reg 0x08d Reg.gptp.asConfig) (8 + port.val) = false) → exec (.peerDelayExchange port delay) s = .next s)
      ∧ (s.gptpOn = true → port.val < 6 →
        (port.val = s.slavePort ∨ bitOf (s.reg 0x08d Reg.gptp.asConfig) (8 + port.val) = true) →
        (∀ d, delay = some d → ∃ t, exec (.peerDelayExchange port delay) s = .next t
          ∧ t.reg 0x08d (Reg.gptp.nbrDelay + 4 * port.val) = d
          ∧ bitOf (t.reg 0x08d Reg.gptp.asStatus) port.val = decide (d.toNat < 2000) ∧ t.net = s.net ∧ t.time = s.time)
        ∧ (delay = none → ∃ t, exec (.peerDelayExchange port delay) s = .next t
          ∧ bitOf (t.reg 0x08d Reg.gptp.asStatus) port.val = false
          ∧ t.reg 0x08d (Reg.gptp.nbrDelay + 4 * port.val) = s.reg 0x08d (Reg.gptp.nbrDelay + 4 * port.val)
          ∧ t.net = s.net ∧ t.time = s.time)))

/-- Commands of the forwarding, VID, stream, meter and TRDP entry tables write and read back the selected row alone. A
command register's write that R19 refuses is a violation and takes no other effect. By a permitted master: ADD enters
the key with the ports and the static bit of FDB_DATA and answers 0, VID 0 or 4,095 answers 3 and a full table 2;
DELETE takes the key out, LOOKUP fills FDB_DATA with what a held key gives and answers 0, each answers 1 where the key
is absent. A VID write gives that VID its members and leaves the others, a read shows them. A stream write takes the
three words unless it makes a 65th RECOVER filter, a stream read shows them. A meter write sets CIR, CBS and a free
token count up to CBS, a meter read shows both. An entry outside the page's range answers 1, words that break R258,
R264 or R288 answer 2, each with a report on a write; else the entry takes the words with a fresh state; a read fills
the words and the state. Rests on 08_train_network_switch R232, 08_train_network_switch R233, 08_train_network_switch
R242, 08_train_network_switch R243, 08_train_network_switch R257, 08_train_network_switch R258,
08_train_network_switch R264, 08_train_network_switch R274, 09_safe_data_and_fieldbuses R288, 01_module_organization
R19. -/
def Obligations.SwitchTablesAreReadAndWritten : Prop :=
  (∀ (m : Master) (p off : Nat) (act : State → State) (s : State), s.mayWritePage m p off = false →
      s.written m p off act = s.violation m (0x18000000 + 0x1000 * p + off))
  ∧ (∀ (m : Master) (s : State), s.mayWritePage m 0x089 Reg.bridge.fdbCmd = true →
      let k := s.fdbKeyReg
      let vid := s.field 0x089 Reg.bridge.fdbKeyHi 27 16
      let w := s.reg 0x089 Reg.bridge.fdbData
      (vid = 0 ∨ vid = 4095 → exec (.fdbAdd m) s = .next ((s.setReg 0x089 Reg.bridge.fdbResult 3#32).answer .none))
      ∧ (vid ≠ 0 → vid ≠ 4095 → findFdb s.net.fdb k = none → 8192 ≤ s.net.fdb.length →
        exec (.fdbAdd m) s = .next ((s.setReg 0x089 Reg.bridge.fdbResult 2#32).answer .none))
      ∧ (vid ≠ 0 → vid ≠ 4095 → ((findFdb s.net.fdb k).isSome = true ∨ s.net.fdb.length < 8192) →
        ∃ t, exec (.fdbAdd m) s = .next t ∧ findFdb t.net.fdb k = some ⟨fieldOf w 7 0, bitOf w 8, s.time.lt⟩
          ∧ (∀ j, j ≠ k → findFdb t.net.fdb j = findFdb s.net.fdb j)
          ∧ t.reg 0x089 Reg.bridge.fdbResult = 0#32
          ∧ { t with net := s.net, regs := s.regs, reply := s.reply } = s)
      ∧ (findFdb s.net.fdb k = none →
        exec (.fdbDelete m) s = .next ((s.setReg 0x089 Reg.bridge.fdbResult 1#32).answer .none)
        ∧ exec (.fdbLookup m) s = .next ((s.setReg 0x089 Reg.bridge.fdbResult 1#32).answer .none))
      ∧ (∀ e, findFdb s.net.fdb k = some e →
        (∃ t, exec (.fdbDelete m) s = .next t ∧ findFdb t.net.fdb k = none
          ∧ (∀ j, j ≠ k → findFdb t.net.fdb j = findFdb s.net.fdb j) ∧ t.reg 0x089 Reg.bridge.fdbResult = 0#32
          ∧ { t with net := s.net, regs := s.regs, reply := s.reply } = s)
        ∧ (∃ t, exec (.fdbLookup m) s = .next t ∧ t.reg 0x089 Reg.bridge.fdbResult = 0#32
          ∧ t.reg 0x089 Reg.bridge.fdbData = (at' e.ports 0 ||| flag e.static 8)
          ∧ { t with regs := s.regs, reply := s.reply } = s)))
  ∧ (∀ (m : Master) (s : State), s.mayWritePage m 0x089 Reg.bridge.vlanCmd = true →
      let n := s.field 0x089 Reg.bridge.vlanSel 11 0
      (∃ t, exec (.vlanWrite m) s = .next t ∧ tblRead noVlan t.net.vlans n = s.field 0x089 Reg.bridge.vlanData 15 0
        ∧ (∀ j, j ≠ n → tblRead noVlan t.net.vlans j = tblRead noVlan s.net.vlans j)
        ∧ t = ({ s with net := { s.net with vlans := t.net.vlans } } : State).answer .none)
      ∧ exec (.vlanRead m) s = .next ((s.setReg 0x089 Reg.bridge.vlanData
        (BitVec.ofNat 32 (tblRead noVlan s.net.vlans n))).answer .none))
  ∧ (∀ (m : Master) (s : State), s.mayWritePage m 0x08e Reg.streams.streamCmd = true →
      let i := s.field 0x08e Reg.streams.streamSel 7 0
      let f : StreamFilter :=
        ⟨s.reg 0x08e Reg.streams.streamW0, s.reg 0x08e Reg.streams.streamW1, s.reg 0x08e Reg.streams.streamW2⟩
      let l := tblWrite streamReset s.net.streams i f
      (64 < recoverFilters l →
        exec (.streamWrite m) s = .next ((s.setReg 0x08e Reg.streams.cmdResult 2#32).answer .none))
      ∧ (recoverFilters l ≤ 64 → ∃ t, exec (.streamWrite m) s = .next t ∧ t.stream i = f
        ∧ (∀ j, j ≠ i → t.stream j = s.stream j) ∧ t.reg 0x08e Reg.streams.cmdResult = 0#32
        ∧ { t with net := s.net, regs := s.regs, reply := s.reply } = s)
      ∧ (∃ t, exec (.streamRead m) s = .next t ∧ t.reg 0x08e Reg.streams.streamW0 = (s.stream i).w0
        ∧ t.reg 0x08e Reg.streams.streamW1 = (s.stream i).w1 ∧ t.reg 0x08e Reg.streams.streamW2 = (s.stream i).w2
        ∧ t.reg 0x08e Reg.streams.cmdResult = 0#32 ∧ { t with regs := s.regs, reply := s.reply } = s))
  ∧ (∀ (m : Master) (s : State), s.mayWritePage m 0x08e Reg.streams.meterCmd = true →
      let i := s.field 0x08e Reg.streams.meterSel 6 0
      (∃ t, exec (.meterWrite m) s = .next t ∧ (t.meter i).cir = s.field 0x08e Reg.streams.meterCir 23 0
        ∧ (t.meter i).cbs = s.field 0x08e Reg.streams.meterCbs 19 0
        ∧ (t.meter i).since = s.time.lt ∧ (∀ j, j ≠ i → t.meter j = s.meter j)
        ∧ t.reg 0x08e Reg.streams.cmdResult = 0#32
        ∧ { t with net := s.net, regs := s.regs, reply := s.reply, free := s.free } = s)
      ∧ (∃ t, exec (.meterRead m) s = .next t ∧ t.reg 0x08e Reg.streams.meterCir = BitVec.ofNat 32 (s.meter i).cir
        ∧ t.reg 0x08e Reg.streams.meterCbs = BitVec.ofNat 32 (s.meter i).cbs
        ∧ t.reg 0x08e Reg.streams.cmdResult = 0#32 ∧ { t with regs := s.regs, reply := s.reply } = s))
  ∧ (∀ (m : Master) (page : Fin 2) (s : State), s.mayWritePage m (trdpPage page.val) Reg.trdp.entryCmd = true →
      let p := trdpPage page.val
      let e := s.field p Reg.trdp.entrySel 10 0
      let x : TrdpEntry := ⟨(List.range 8).map fun i => s.reg p (Reg.trdp.entryW + 4 * i), 0#32, false, false, s.time.lt, none,
        none⟩
      let refused (n : Nat) := s.setReg p Reg.trdp.entryResult (BitVec.ofNat 32 n)
      (s.entryPage e ≠ p → exec (.entryWrite m page) s = .next (((refused 1).raise p 0 []).answer .none)
        ∧ exec (.entryRead m page) s = .next ((refused 1).answer .none))
      ∧ (s.entryPage e = p →
        (x.valid = true → (x.fieldsOk = false ∨ x.substOk = false ∨ s.safeEntryOk e x = false) →
          exec (.entryWrite m page) s = .next (((refused 2).raise p 0 []).answer .none))
        ∧ (x.valid = false ∨ (x.fieldsOk = true ∧ x.substOk = true ∧ s.safeEntryOk e x = true) →
          ∃ t, exec (.entryWrite m page) s = .next t ∧ t.trdp e = x ∧ (∀ j, j ≠ e → t.trdp j = s.trdp j)
            ∧ t.reg p Reg.trdp.entryResult = 0#32 ∧ { t with net := s.net, regs := s.regs, reply := s.reply } = s)
        ∧ (∃ t, exec (.entryRead m page) s = .next t ∧ t.reg p Reg.trdp.entryResult = 0#32
          ∧ t.reg p Reg.trdp.entrySeq = (s.trdp e).seq ∧ t.reg64 p Reg.trdp.entryLastLo = (s.trdp e).last
          ∧ (∀ i, i < 8 → t.reg p (Reg.trdp.entryW + 4 * i) = (s.trdp e).word i)
          ∧ { t with regs := s.regs, reply := s.reply } = s)))

/-- Queues take a posted count, fetch waiting descriptors, write them back in order, count Q_SEQ and raise interrupts.
A posted count within the ring on both differences is taken, any other reported and ignored. A fetch on a queue that
is ON with room (4 ahead on receive, 8 on transmit) reads the next waiting descriptor into the active list; a transmit
queue then reads the frame and hands it to the switch; a refused read counts an access error. A write-back takes the
oldest descriptor when it has its final status: Q_SEQ grows by 1 and the descriptor leaves, or on a refused write it
stays (a receive frame is discarded). The timer raises the interrupt only with both fields set and something
unsignalled. A held delivery is written; a timeout fires once, with CODE 0x07. Rests on 08_train_network_switch R249,
08_train_network_switch R250, 08_train_network_switch R251, 08_train_network_switch R252, 08_train_network_switch
R254, 08_train_network_switch R255, 08_train_network_switch R263, 08_train_network_switch R264,
08_train_network_switch R265, 08_train_network_switch R271, 01_module_organization R32. -/
def Obligations.QueuesMoveDescriptorsInOrder : Prop :=
  (∀ (m : Master) (q : Fin 64) (v : Word) (s : State), s.mayWritePage m (qPage q.val) Reg.queue.qPosted = true →
      let log2 := s.field (qPage q.val) Reg.queue.qConfig 12 8
      let within := seqDist (s.ring q.val).posted v ≤ 2 ^ log2 ∧ seqDist (s.qSeq q.val) v ≤ 2 ^ log2
      (within → ∃ t, exec (.qPostedWrite m q v) s = .next t ∧ t.ring q.val = { s.ring q.val with posted := v }
        ∧ (∀ r, r ≠ q.val → t.ring r = s.ring r) ∧ { t with net := s.net, reply := s.reply } = s)
      ∧ (¬within → exec (.qPostedWrite m q v) s = .next ((s.raise (qPage q.val) 0 []).answer .none)))
  ∧ (∀ (q : Nat) (s : State),
      (s.waiting q = 0 → s.fetchOne q = (none, s))
      ∧ (s.waiting q ≠ 0 →
        let n := (s.qSeq q + BitVec.ofNat 32 (s.ring q).active.length).toNat
        let r := s.dmaRead (s.descAddr q n) 32
        (r.1 = none → s.fetchOne q = (none, r.2.queueAccessError q))
        ∧ (∀ l, r.1 = some l →
          ∃ d, (s.fetchOne q).1 = some d ∧ d.n = n ∧ d.addr = ofLeBytes (l.take 8) % 2 ^ 40
            ∧ d.len = ofLeBytes ((l.drop 8).take 2) ∧ d.outcome = none
            ∧ ((s.fetchOne q).2.ring q).active = (r.2.ring q).active ++ [d])))
  ∧ (∀ (q : Fin 64) (s : State),
      let room := (s.ring q.val).active.length < (if q.val < 32 then 4 else 8)
      (s.queueOn q.val = false ∨ ¬room → exec (.descriptorFetch q) s = .next s)
      ∧ (s.queueOn q.val = true → room → (s.fetchOne q.val).1 = none ∨ q.val < 32 →
        exec (.descriptorFetch q) s = .next (s.fetchOne q.val).2)
      ∧ (∀ d, s.queueOn q.val = true → room → (s.fetchOne q.val).1 = some d → 32 ≤ q.val →
        let b := (s.fetchOne q.val).2.dmaRead d.addr d.len
        (b.1 = none → exec (.descriptorFetch q) s =
          .next ((b.2.queueAccessError q.val).txOutcome (.queue q.val d.n) 0 2 0 none))
        ∧ (∀ bytes, b.1 = some bytes → exec (.descriptorFetch q) s =
          .next ((b.2.moved q.val d.len).enterHost (parseFrame bytes).pad (.queue q.val d.n)
            (s.field (qPage q.val) Reg.queue.qConfig 6 4) (s.field (qPage q.val) Reg.queue.qPorts 5 0) true))))
  ∧ (∀ (q : Fin 64) (s : State),
      ((s.ring q.val).active = [] → exec (.descriptorWriteBack q) s = .next s)
      ∧ (∀ d rest, (s.ring q.val).active = d :: rest →
        (d.outcome = none → exec (.descriptorWriteBack q) s = .next s)
        ∧ (∀ o w, d.outcome = some o → s.writeDescriptor q.val d o = (true, w) →
          ∃ t : State, exec (.descriptorWriteBack q) s = .next (t.countWriteBack q.val) ∧ t.qSeq q.val = w.qSeq q.val + 1
            ∧ t.ring q.val = { w.ring q.val with active := rest } ∧ t.mem = w.mem ∧ t.faults = w.faults)
        ∧ (∀ o w, d.outcome = some o → s.writeDescriptor q.val d o = (false, w) →
          let s1 := w.queueAccessError q.val
          exec (.descriptorWriteBack q) s = .next (if q.val < 32 then
            (s1.setRing q.val { s1.ring q.val with active := { d with outcome := none } :: rest }).rxDiscard q.val
            else s1))))
  ∧ (∀ (q : Fin 64) (s : State),
      let due := s.field (qPage q.val) Reg.queue.qIrqTime 15 0 ≠ 0 ∧ s.field (qPage q.val) Reg.queue.qIrq 7 0 ≠ 0
        ∧ (s.ring q.val).unsignalled ≠ 0
      (due → exec (.queueIrqTimer q) s = .next (s.queueIrq q.val))
      ∧ (¬due → exec (.queueIrqTimer q) s = .next s))
  ∧ (∀ (entry : Fin 2048) (s : State),
      ((s.trdp entry.val).held = none ∨ s.entryOn entry.val = false → exec (.heldDeliveryWrite entry) s = .next s)
      ∧ (∀ h, (s.trdp entry.val).held = some h → s.entryOn entry.val = true →
        exec (.heldDeliveryWrite entry) s = .next (s.entryBoxWrite entry.val h.1 h.2)))
  ∧ (∀ (entry : Fin 2048) (s : State),
      let x := s.trdp entry.val
      (x.valid = false ∨ x.publish = true ∨ x.fld 4 15 0 = 0 ∨ x.timedOut = true ∨ s.entryOn entry.val = false →
        exec (.trdpTimeout entry) s = .next s)
      ∧ (x.valid = true → x.publish = false → x.fld 4 15 0 ≠ 0 → x.timedOut = false → s.entryOn entry.val = true →
        let s1 := (s.setTrdp entry.val { x with timedOut := true }).bump (s.entryPage entry.val) 9 1
        let info : Word := at' entry.val 16 ||| flag true 27
        (x.fld 0 27 26 = 0 → exec (.trdpTimeout entry) s =
          .next (s1.rxDeliver (x.fld 0 20 16) [] s.time.lt 7 0 0 info))
        ∧ (x.fld 0 27 26 = 1 → exec (.trdpTimeout entry) s =
          .next (s1.rxDeliver (x.fld 0 20 16) (zeros x.len) s.time.lt 7 0 0 info))
        ∧ (x.fld 0 27 26 = 2 → exec (.trdpTimeout entry) s =
          .next ((s1.offloadRead (x.word 6).toNat x.len).2.rxDeliver (x.fld 0 20 16)
            (s1.offloadRead (x.word 6).toNat x.len).1 s.time.lt 7 0 0 info))))

/-- Twin slots pair, expire and linger; channel, port and poll commands; MVB periods, replies and lines. An arriving
copy without a slot takes a free one, with none free it is dropped and reported; within the window the other LAN's
copy matches or mismatches, the same LAN's and a lingering slot's copies are dropped. A held slot's window delivers it
alone and leaves it lingering; the linger end frees only a lingering slot. A channel write takes the settings and
resets both states, a read fills every register. A basic period skips what was not sent, judges the lines, and sends
the due polls; a missing reply counts and sends the next; frames on the lines are counted and the used line switches
to the valid one. A port or poll write within its rules is taken, else answered 2; reads show the row. Controllers
that are not ON do nothing. Rests on 09_safe_data_and_fieldbuses R277, 09_safe_data_and_fieldbuses R278,
09_safe_data_and_fieldbuses R279, 09_safe_data_and_fieldbuses R280, 09_safe_data_and_fieldbuses R283,
09_safe_data_and_fieldbuses R288, 09_safe_data_and_fieldbuses R291, 09_safe_data_and_fieldbuses R292,
09_safe_data_and_fieldbuses R293, 09_safe_data_and_fieldbuses R294, 09_safe_data_and_fieldbuses R302,
01_module_organization R19. -/
def Obligations.TwinSlotsChannelsAndMvbFollowTheirRules : Prop :=
  (∀ (h : Nat) (f : Frame) (dst : Nat × Nat) (lan : Nat) (seq : BitVec 16) (s : State),
      (s.twinSlot dst.1 dst.2 f.src seq = none →
        (s.freeTwin = none → s.twinArrive h f dst lan seq = ((s.dropHost h).raise 0x1b0 3 []).bump 0x1b0 14 1)
        ∧ (∀ i, s.freeTwin = some i → s.twinArrive h f dst lan seq =
          s.setTwins (tblPut s.net.twins i ⟨dst.1, dst.2, f.src, seq, lan, s.time.lt, some h⟩)))
      ∧ (∀ q, s.twinSlot dst.1 dst.2 f.src seq = some q → s.time.lt.toNat - q.2.lt.toNat < s.twinWindow →
        (q.2.handle = none → s.twinArrive h f dst lan seq = (s.dropHost h).bump 0x1b0 2 1)
        ∧ (∀ g, q.2.handle = some g →
          (q.2.lan = lan → s.twinArrive h f dst lan seq = (s.dropHost h).bump 0x1b0 1 1)
          ∧ (q.2.lan ≠ lan → (s.net.frames.find? (·.handle == g)).map (·.frame.hostBytes) = some f.hostBytes →
            s.twinArrive h f dst lan seq = s.twinMatch q.1 g h)
          ∧ (q.2.lan ≠ lan → (s.net.frames.find? (·.handle == g)).map (·.frame.hostBytes) ≠ some f.hostBytes →
            s.twinArrive h f dst lan seq = s.twinMismatch q.1 g h))))
  ∧ (∀ (slot : Fin 256) (s : State),
      (s.net.twins.find? (fun e => e.1 == slot.val) = none →
        exec (.twinWindow slot) s = .next s ∧ exec (.twinLingerEnd slot) s = .next s)
      ∧ (∀ q : Nat × TwinSlot, s.net.twins.find? (fun e => e.1 == slot.val) = some q →
        (q.2.handle = none → exec (.twinWindow slot) s = .next s
          ∧ ∃ t, exec (.twinLingerEnd slot) s = .next t ∧ t.net.twins.find? (fun e => e.1 == slot.val) = none
            ∧ t = { s with net := { s.net with twins := t.net.twins } })
        ∧ (∀ h, q.2.handle = some h → exec (.twinLingerEnd slot) s = .next s
          ∧ exec (.twinWindow slot) s =
            .next ((((s.setTwins (tblPut s.net.twins slot.val { q.2 with handle := none })).missedLan (1 - q.2.lan)).bump
              0x1b0 4 1).twinDeliver h (1 + q.2.lan) (1 + ((s.setTwins (tblPut s.net.twins slot.val
                { q.2 with handle := none })).missedLan (1 - q.2.lan)).pathFlags)))))
  ∧ (∀ (m : Master) (s : State), s.mayWritePage m 0x1b0 Reg.safeData.chanCmd = true →
      let c := s.field 0x1b0 Reg.safeData.chanSel 8 0
      (∃ t, exec (.chanWrite m) s = .next t ∧ t.sdtChannel c = ⟨s.reg 0x1b0 Reg.safeData.chanW0,
          s.reg 0x1b0 Reg.safeData.chanW1, s.reg 0x1b0 Reg.safeData.chanW2, s.reg 0x1b0 Reg.safeData.chanW2, 0, false, 0#32,
          0, false⟩
        ∧ (∀ d, d ≠ c → t.sdtChannel d = s.sdtChannel d) ∧ t.reg 0x1b0 Reg.safeData.chanResult = 0#32
        ∧ { t with net := s.net, regs := s.regs, reply := s.reply } = s)
      ∧ (∃ t, exec (.chanRead m) s = .next t ∧ t.reg 0x1b0 Reg.safeData.chanW0 = (s.sdtChannel c).w0
        ∧ t.reg 0x1b0 Reg.safeData.chanW1 = (s.sdtChannel c).sid ∧ t.reg 0x1b0 Reg.safeData.chanW2 = (s.sdtChannel c).init
        ∧ t.reg 0x1b0 Reg.safeData.chanTxSsc = (s.sdtChannel c).next
        ∧ t.reg 0x1b0 Reg.safeData.chanRxSsc = (s.sdtChannel c).rxSsc ∧ t.reg 0x1b0 Reg.safeData.chanResult = 0#32
        ∧ { t with regs := s.regs, reply := s.reply } = s))
  ∧ (∀ (ctl : Fin 2) (s : State),
      let c := ctl.val
      let s1 := s.mvbClose c
      let i := ((s1.mvb c).period + 1) % 2 ^ fieldOf (s1.mvbCfg c) 11 8
      let due := ((s1.mvb c).newPolls.filter fun e =>
        bitOf e.2 31 && i % 2 ^ fieldOf e.2 19 16 == fieldOf e.2 29 20).map (·.1)
      let begun (l : List Nat) := s1.setMvb c { s1.mvb c with polls := (s1.mvb c).newPolls, period := i, toSend := l }
      (s.mvbOn c = false → exec (.basicPeriod ctl) s = .next s)
      ∧ (s.mvbOn c = true → bitOf (s1.mvbCfg c) 0 = true → exec (.basicPeriod ctl) s = .next ((begun due).mvbSendNext c))
      ∧ (s.mvbOn c = true → bitOf (s1.mvbCfg c) 0 = false → exec (.basicPeriod ctl) s = .next ((begun []).mvbSendNext c))
      ∧ ((s.mvb c).waiting.isSome = true → bitOf (s.mvbCfg c) 0 = true → exec (.mvbReplyTimeout ctl) s =
        .next (((s.satReg (mvbPage c) Reg.mvb.noReply 1).bump (mvbPage c) 6 1).mvbSendNext c))
      ∧ ((s.mvb c).waiting = none ∨ bitOf (s.mvbCfg c) 0 = false → exec (.mvbReplyTimeout ctl) s = .next s))
  ∧ (∀ (ctl : Fin 2) (fcode : BitVec 4) (addr : BitVec 12) (s : State),
      let c := ctl.val
      let s1 := (s.lineHeard c 0).lineHeard c 1
      (s.mvbOn c = false → exec (.mvbMasterFrame ctl fcode addr) s = .next s)
      ∧ (s.mvbOn c = true → exec (.mvbMasterFrame ctl fcode addr) s =
        .next ((s1.setMvb c { s1.mvb c with waiting := some (fcode.toNat * 4096 + addr.toNat) }).mvbAnswer c fcode.toNat
          addr.toNat))
      ∧ (bitOf (s.mvbCfg c) 1 = false → s.mvbAnswer c fcode.toNat addr.toNat = s)
      ∧ (bitOf (s.mvbCfg c) 1 = true → fieldOf (s.mvbCfg c) 27 16 = addr.toNat → s.mvbAnswer c 15 addr.toNat =
        (s.mvbReply c (beBytes 2 (s.field (mvbPage c) Reg.mvb.deviceStatus 15 0))).bump (mvbPage c) 9 1))
  ∧ (∀ (x y : List Byte) (bad : Option (List Byte × Bool)), bad = none ∨ (∃ z, bad = some (z, false)) →
      (∀ b, usedLine 0 (some (x, true)) b = some (0, x)) ∧ (∀ a, usedLine 1 a (some (y, true)) = some (1, y))
      ∧ usedLine 0 bad (some (y, true)) = some (1, y) ∧ usedLine 1 (some (x, true)) bad = some (0, x)
      ∧ usedLine 0 bad bad = none ∧ usedLine 1 bad bad = none)
  ∧ (∀ (ctl : Fin 2) (a b : LineFrame) (s : State),
      let c := ctl.val
      let s1 := (s.lineFrame c 0 a).lineFrame c 1 b
      let took (u : Option (Nat × List Byte)) : State := match u with
        | none => s1
        | some v =>
          let t := if v.1 = (s1.mvb c).rxLine then s1
            else (s1.setMvb c { s1.mvb c with rxLine := v.1 }).bump (mvbPage c) 8 1
          match (s1.mvb c).waiting with
          | some k => if bitOf (t.mvbCfg c) 1 then t.mvbSink c v.1 k v.2 else t
          | none => t
      (s.mvbOn c = false ∨ (a = none ∧ b = none) → exec (.mvbSlaveFrame ctl a b) s = .next s)
      ∧ (∀ s2, s.mvbOn c = true → ¬(a = none ∧ b = none) → took (usedLine (s1.mvb c).rxLine a b) = s2 →
        ((s1.mvb c).waiting.isSome = true → bitOf (s2.mvbCfg c) 0 = true →
          exec (.mvbSlaveFrame ctl a b) s = .next (s2.mvbSendNext c))
        ∧ ((s1.mvb c).waiting = none ∨ bitOf (s2.mvbCfg c) 0 = false → exec (.mvbSlaveFrame ctl a b) s =
          .next (s2.setMvb c { s2.mvb c with waiting := none }))))
  ∧ (∀ (m : Master) (ctl : Fin 2) (s : State), s.mayWritePage m (mvbPage ctl.val) Reg.mvb.portCmd = true →
      let c := ctl.val
      let p := mvbPage c
      let sel := s.field p Reg.mvb.portSel 7 0
      let w := s.reg p Reg.mvb.portW0
      let taken := bitOf w 31 = true ∧ ((s.mvb c).ports.any fun e =>
        e.1 != sel && bitOf e.2.1 31 && fieldOf e.2.1 11 0 == fieldOf w 11 0) = true
      (taken → exec (.portWrite m ctl) s = .next ((s.setReg p Reg.mvb.cmdResult 2#32).answer .none))
      ∧ (¬taken → ∃ t, exec (.portWrite m ctl) s = .next t ∧ t.reg p Reg.mvb.cmdResult = 0#32
        ∧ t.mvb c = { s.mvb c with ports := tblWrite noPort (s.mvb c).ports sel (w, s.reg p Reg.mvb.portW1) }
        ∧ (∀ d, d ≠ c → t.mvb d = s.mvb d) ∧ { t with mvbs := s.mvbs, regs := s.regs, reply := s.reply } = s)
      ∧ (∃ t, exec (.portRead m ctl) s = .next t ∧ t.reg p Reg.mvb.portW0 = (tblRead noPort (s.mvb c).ports sel).1
        ∧ t.reg p Reg.mvb.portW1 = (tblRead noPort (s.mvb c).ports sel).2 ∧ t.reg p Reg.mvb.cmdResult = 0#32
        ∧ { t with regs := s.regs, reply := s.reply } = s))
  ∧ (∀ (m : Master) (ctl : Fin 2) (s : State), s.mayWritePage m (mvbPage ctl.val) Reg.mvb.pollCmd = true →
      let c := ctl.val
      let p := mvbPage c
      let sel := s.field p Reg.mvb.pollSel 9 0
      let w := s.reg p Reg.mvb.pollW0
      let bad := 2 ^ fieldOf w 19 16 ≤ fieldOf w 29 20 ∨ (4 < fieldOf w 15 12 ∧ fieldOf w 15 12 ≠ 15)
      (bad → exec (.pollWrite m ctl) s = .next ((s.setReg p Reg.mvb.cmdResult 2#32).answer .none))
      ∧ (¬bad → ∃ t, exec (.pollWrite m ctl) s = .next t ∧ t.reg p Reg.mvb.cmdResult = 0#32
        ∧ t.mvb c = { s.mvb c with newPolls := tblWrite zeroWord (s.mvb c).newPolls sel w }
        ∧ (∀ d, d ≠ c → t.mvb d = s.mvb d) ∧ { t with mvbs := s.mvbs, regs := s.regs, reply := s.reply } = s)
      ∧ (∃ t, exec (.pollRead m ctl) s = .next t ∧ t.reg p Reg.mvb.pollW0 = tblRead zeroWord (s.mvb c).newPolls sel
        ∧ t.reg p Reg.mvb.cmdResult = 0#32 ∧ { t with regs := s.regs, reply := s.reply } = s))

/-- CAN frames are checked, filtered and ringed; attempts end in write-back or retry; bus-off and its recovery. A
received frame on a controller that is not ON or is bus-off changes nothing; an invalid one counts an error; else it
is counted, refused by the filters, dropped on a full ring, or written back with RX_SEQ growing by 1. A transmit
attempt on the fetched frame: an invalid one is written back with CODE 5; a sent one lowers TEC and is written back
with CODE 0; a lost arbitration or an error is counted, TEC growing by 8 on an error, and ends the frame with CODE 1
only with one-shot mode. TEC past 255 takes the controller bus-off once, reported; RECOVER and the completed recovery
bring it back with both counters 0. Posted counts follow the refusal of R250; the interrupt timer needs both fields
and something unsignalled. The steps of the counters are log entry 34's. Rests on 08_train_network_switch R250,
08_train_network_switch R255, 09_safe_data_and_fieldbuses R296, 09_safe_data_and_fieldbuses R298,
09_safe_data_and_fieldbuses R299, 09_safe_data_and_fieldbuses R300, 09_safe_data_and_fieldbuses R301,
01_module_organization R19. -/
def Obligations.CanControllersReceiveTransmitAndRecover : Prop :=
  (∀ (ctl : Fin 4) (f : CanFrame) (s : State),
      let c := ctl.val
      let bad := canInvalid f (bitOf (s.canCfg c) 0)
      let s1 := (s.recDown c).bump (canPage c) 0 1
      (s.canOn c = false ∨ (s.can c).busOff = true → exec (.canFrameReceive ctl f) s = .next s)
      ∧ (s.canOn c = true → (s.can c).busOff = false →
        (bad = true → exec (.canFrameReceive ctl f) s =
          .next ((s.setCan c { s.can c with rec_ := satAdd 255 (s.can c).rec_ 1 }).bump (canPage c) 2 1))
        ∧ (bad = false → s1.canFilter c f = none → exec (.canFrameReceive ctl f) s = .next (s1.bump (canPage c) 6 1))
        ∧ (∀ n, bad = false → s1.canFilter c f = some n →
          ((s1.can c).rx.posted = (s1.can c).rxSeq → exec (.canFrameReceive ctl f) s =
            .next ((s1.satReg (canPage c) Reg.can.rxDrops 1).bump (canPage c) 4 1))
          ∧ (∀ w, (s1.can c).rx.posted ≠ (s1.can c).rxSeq → s1.canWriteRx c f n = (true, w) →
            exec (.canFrameReceive ctl f) s =
              .next ((w.setCan c { w.can c with rxSeq := (s1.can c).rxSeq + 1 }).canSignal c))
          ∧ (∀ w, (s1.can c).rx.posted ≠ (s1.can c).rxSeq → s1.canWriteRx c f n = (false, w) →
            exec (.canFrameReceive ctl f) s = .next (w.canAccessError c)))))
  ∧ (∀ (f : CanFrame) (fd : Bool), canInvalid f fd = true ↔
      (f.fdf = true ∧ f.rtr = true) ∨ (f.fdf = true ∧ fd = false) ∨ (f.brs = true ∧ f.fdf = false))
  ∧ (∀ (ctl : Fin 4) (r : CanResult) (s : State),
      let c := ctl.val
      let silent := s.canOn c = false ∨ (s.can c).busOff = true ∨ 256 ≤ (s.can c).tec ∨ bitOf (s.canCfg c) 1 = true
      let s1 := s.canFetch c
      let s2 := s1.canAttempt c
      (silent → exec (.canFrameTransmit ctl r) s = .next s)
      ∧ (¬silent → (s1.can c).tx.active = [] → exec (.canFrameTransmit ctl r) s = .next s1)
      ∧ (∀ d rest, ¬silent → (s1.can c).tx.active = d :: rest →
        (s1.canTxInvalid c d.addr = true → exec (.canFrameTransmit ctl r) s =
          .next (s1.drawDword.2.canTxDone c 5 s1.drawDword.1))
        ∧ (s1.canTxInvalid c d.addr = false →
          (r = .sent → exec (.canFrameTransmit ctl r) s =
            .next (((s2.setCan c { s2.can c with tec := (s2.can c).tec - 1 }).bump (canPage c) 1 1).canTxDone c 0 s2.time.lt))
          ∧ (r = .arbitrationLost →
            let s3 := s2.bump (canPage c) 3 1
            (bitOf (s3.canCfg c) 3 = true → exec (.canFrameTransmit ctl r) s = .next (s3.canTxDone c 1 s3.time.lt))
            ∧ (bitOf (s3.canCfg c) 3 = false → exec (.canFrameTransmit ctl r) s = .next s3))
          ∧ (r = .error →
            let s3 := (s2.setCan c { s2.can c with tec := satAdd 256 (s2.can c).tec 8 }).bump (canPage c) 2 1
            (bitOf (s3.canCfg c) 3 = true → (s3.can c).tec < 256 → exec (.canFrameTransmit ctl r) s =
              .next (s3.canTxDone c 1 s3.time.lt))
            ∧ (bitOf (s3.canCfg c) 3 = false ∨ 256 ≤ (s3.can c).tec → exec (.canFrameTransmit ctl r) s = .next s3)))))
  ∧ (∀ (c code : Nat) (lt : DWord) (s : State) (d : ActiveDesc) (rest : List ActiveDesc), (s.can c).tx.active = d :: rest →
      let w1 := s.dmaWrite (d.addr + 8) (leBytes 8 lt.toNat)
      let last : List Byte := leBytes 4 (d.n + 1) ++ leBytes 4 (0x80000000 + code * 2 ^ 24) ++ zeros 8
      (w1.1 = false → s.canTxDone c code lt = w1.2.canAccessError c)
      ∧ (∀ w, w1.1 = true → w1.2.dmaWrite (d.addr + 0x10) last = (true, w) → s.canTxDone c code lt =
        (w.setCan c { w.can c with
          tx := { (s.can c).tx with active := [] }, txSeq := (s.can c).txSeq + 1 }).canSignal c))
  ∧ (∀ (ctl : Fin 4) (s : State),
      let c := ctl.val
      let s1 := s.setCan c { s.can c with busOff := true, recovering := bitOf (s.canCfg c) 2 }
      ((s.can c).busOff = true ∨ (s.can c).tec < 256 → exec (.busOff ctl) s = .next s)
      ∧ ((s.can c).busOff = false → 256 ≤ (s.can c).tec → exec (.busOff ctl) s =
        .next (((s1.canTxDone c 2 s1.time.lt).raise (canPage c) 0 []).bump (canPage c) 5 1))
      ∧ (∀ m, s.mayWritePage m (canPage c) Reg.can.canCmd = true →
        ((s.can c).busOff = true → exec (.canRecover m ctl) s =
          .next ((s.setCan c { s.can c with recovering := true }).answer .none))
        ∧ ((s.can c).busOff = false → exec (.canRecover m ctl) s = .next (s.answer .none)))
      ∧ ((s.can c).busOff = true → (s.can c).recovering = true → ∃ t, exec (.busOffRecoveryDone ctl) s = .next t
        ∧ t.can c = { s.can c with busOff := false, recovering := false, tec := 0, rec_ := 0 }
        ∧ (∀ d, d ≠ c → t.can d = s.can d) ∧ { t with cans := s.cans } = s)
      ∧ ((s.can c).busOff = false ∨ (s.can c).recovering = false → exec (.busOffRecoveryDone ctl) s = .next s))
  ∧ (∀ (m : Master) (ctl : Fin 4) (v : Word) (s : State),
      let c := ctl.val
      let x := s.can c
      let within (posted seq : Word) (log2 : Nat) := seqDist posted v ≤ 2 ^ log2 ∧ seqDist seq v ≤ 2 ^ log2
      (s.mayWritePage m (canPage c) Reg.can.txPosted = true →
        let ok := within x.tx.posted x.txSeq (s.field (canPage c) Reg.can.ringCfg 7 4)
        (ok → exec (.canPostedWrite m ctl true v) s =
          .next ((s.setCan c { x with tx := { x.tx with posted := v } }).answer .none))
        ∧ (¬ok → exec (.canPostedWrite m ctl true v) s = .next ((s.raise (canPage c) 1 []).answer .none)))
      ∧ (s.mayWritePage m (canPage c) Reg.can.rxPosted = true →
        let ok := within x.rx.posted x.rxSeq (s.field (canPage c) Reg.can.ringCfg 3 0)
        (ok → exec (.canPostedWrite m ctl false v) s =
          .next ((s.setCan c { x with rx := { x.rx with posted := v } }).answer .none))
        ∧ (¬ok → exec (.canPostedWrite m ctl false v) s = .next ((s.raise (canPage c) 1 []).answer .none))))
  ∧ (∀ (ctl : Fin 4) (s : State),
      let due := s.field (canPage ctl.val) Reg.can.canIrqTime 15 0 ≠ 0 ∧ s.field (canPage ctl.val) Reg.can.canIrq 7 0 ≠ 0
        ∧ (s.can ctl.val).rx.unsignalled ≠ 0
      (due → exec (.canIrqTimer ctl) s = .next (s.canIrq ctl.val))
      ∧ (¬due → exec (.canIrqTimer ctl) s = .next s))

/-- Outputs are live exactly while the conditions of R430 hold; monitors, samples and summary bits reach their
reactions. A review makes the outputs live exactly when the eight conditions hold and clears the grant otherwise. The
entry into the safe state turns outputs and grant off, keeps the first class and writes 0 to every OUTPUT_PERMIT. A
rail or clock trip before the first release, and a rail once PFW_N was low, does nothing; else it latches its register
and locks out with class 12 or 13. A monitor that fails its test locks out with class 12, three differing samples of a
ball with class 15, a missing verdict with class 11. SUMMARY_TAKE takes the lowest summary bit not taken, and acts by
its class. A lock-out report is posted again until it is in. SAFE_REQUEST takes bit 0. Rests on
14_supervision_and_failover R425, 14_supervision_and_failover R426, 14_supervision_and_failover R427,
14_supervision_and_failover R428, 14_supervision_and_failover R429, 14_supervision_and_failover R430,
14_supervision_and_failover R431, 14_supervision_and_failover R432, 14_supervision_and_failover R433,
14_supervision_and_failover R438, 01_module_organization R19. -/
def Obligations.OutputsFollowR430AndFindingsReact : Prop :=
  (∀ s : State,
      (s.review.sup.live = true ↔ s.sup.startMode = 0 ∧ s.clu.mode ≠ .simplexThree ∧ s.sup.safeState = none
        ∧ s.sup.latch.locked = false ∧ s.obs.wsOpened = false
        ∧ bitOf (s.reg 0x180 Reg.supervisor.safeRequest) 0 = true ∧ s.claimOk = true ∧ s.sup.pfwLow = false)
      ∧ (s.review.sup.live = false → s.review.sup.grant = false)
      ∧ (s.sup.live = false → s.review.sup.grant = s.review.sup.live))
  ∧ (∀ (cls origin : Nat) (s : State),
      let t := s.safeOff cls origin
      t.sup.live = false ∧ t.sup.grant = false ∧ t.sup.safeState = s.sup.safeState.or (some cls)
        ∧ (∀ p, p < 8 → t.reg (0x048 + p) Reg.program.outputPermit = 0#32)
        ∧ { t with sup := s.sup, regs := s.regs } = s
        ∧ (s.sup.safeState.isSome = true → s.enterSafe cls origin = t)
        ∧ (s.sup.latch.locked = true → s.enterLockout cls origin = s.enterSafe cls origin)
        ∧ (s.sup.latch.locked = false → s.enterLockout cls origin =
          (((s.setSup { s.sup with latch := ⟨true, cls, origin, false, 0#32, true⟩, lockPosted := false }).enterSafe cls
            origin).markLockout.abandonReseed).lockReport))
  ∧ (∀ (rail : Fin 8) (domain : Fin 11) (s : State),
      let s1 := s.setReg 0x180 Reg.supervisor.railTripped (setBit (s.reg 0x180 Reg.supervisor.railTripped) rail.val true)
      let clk (n : Nat) := s.setReg 0x180 Reg.supervisor.clkTripped (setBit (s.reg 0x180 Reg.supervisor.clkTripped) n true)
      (s.sup.released = false ∨ s.sup.pfwSeen = true → exec (.railTrip rail) s = .next s)
      ∧ (s.sup.released = false → exec (.clockTrip domain) s = .next s ∧ exec .oscTrip s = .next s)
      ∧ (s.sup.released = true →
        (s.sup.pfwSeen = false → exec (.railTrip rail) s =
          .next ((s1.setSup { s1.sup with railsIn := s1.sup.railsIn &&& ~~~(1#8 <<< rail.val) }).supervisorFault 2 12))
        ∧ exec (.clockTrip domain) s = .next ((clk domain.val).supervisorFault 3 13)
        ∧ exec .oscTrip s = .next ((clk 11).supervisorFault 4 13)))
  ∧ (∀ s : State, exec (.monitorTest true) s = .next (s.bump 0x180 2 1)
      ∧ exec (.monitorTest false) s = .next ((s.bump 0x180 2 1).supervisorFault 6 12))
  ∧ (∀ (a b : Bool) (s : State),
      let x := if a then min (s.sup.staticOff + 1) 3 else 0
      let y := if b then min (s.sup.dynOff + 1) 3 else 0
      let s1 := (s.setSup { s.sup with staticOff := x, dynOff := y }).bump 0x180 5 1
      let third := (x = 3 ∧ s.sup.staticOff < 3) ∨ (y = 3 ∧ s.sup.dynOff < 3)
      (third → exec (.safeEnSense a b) s = .next (s1.supervisorFault 5 15))
      ∧ (¬third → exec (.safeEnSense a b) s = .next s1))
  ∧ (∀ s : State,
      let waits := s.participants.any (fun k => !(s.cp k).inWfi && !(s.cp k).halted)
      (s.simplex = false → waits = true → exec .noVerdict s = .next (s.supervisorFault 1 11))
      ∧ (s.simplex = true ∨ waits = false → exec .noVerdict s = .next s))
  ∧ (∀ s : State,
      let due (c : Nat) := bitOf (s.reg 0x004 Reg.faultMgr.classSummary) c && !(bitOf s.sup.taken c)
      (∀ c, c < 32 → due c = true → (∀ d, d < c → due d = false) → exec .summaryTake s =
        .next (((s.setSup { s.sup with taken := setBit s.sup.taken c true }).bump 0x180 4 1).react (s.classReaction c) c
          (s.classOrigin c)))
      ∧ ((∀ d, d < 32 → due d = false) →
        (s.red.lockout = true → s.sup.latch.locked = false → bitOf s.sup.taken 9 = true →
          exec .summaryTake s = .next (s.enterLockout 9 0x016))
        ∧ (s.red.lockout = false ∨ s.sup.latch.locked = true ∨ bitOf s.sup.taken 9 = false →
          exec .summaryTake s = .next s)))
  ∧ (∀ (cls origin : Nat) (s : State),
      (∀ r, r < 4 → s.react r cls origin = s) ∧ s.react 4 cls origin = s.enterSafe cls origin
      ∧ s.react 5 cls origin = s.enterLockout cls origin
      ∧ (s.classReaction 0 = 0 ∧ s.classReaction 1 = 0 ∧ s.classReaction 2 = 1 ∧ s.classReaction 3 = 2
        ∧ s.classReaction 4 = 3 ∧ s.classReaction 5 = 3 ∧ s.classReaction 7 = 5 ∧ s.classReaction 10 = 4
        ∧ s.classReaction 11 = 5 ∧ s.classReaction 12 = 5 ∧ s.classReaction 13 = 5 ∧ s.classReaction 15 = 5
        ∧ s.classReaction 17 = 0 ∧ s.classReaction 18 = 0 ∧ s.classReaction 31 = 5)
      ∧ (s.simplex = true → s.classReaction 6 = 0 ∧ s.classReaction 8 = 0)
      ∧ (s.simplex = false → s.classReaction 6 = 5 ∧ s.classReaction 8 = 5))
  ∧ (∀ s : State,
      (s.sup.latch.locked = true → s.sup.latch.committed = false → s.sup.lockPosted = false →
        exec .lockoutReportRetry s = .next s.lockReport)
      ∧ (s.sup.latch.locked = false ∨ s.sup.latch.committed = true ∨ s.sup.lockPosted = true →
        exec .lockoutReportRetry s = .next s))
  ∧ (∀ (m : Master) (v : Word) (s : State), s.mayWritePage m 0x180 Reg.supervisor.safeRequest = true →
      exec (.safeRequest m v) s = .next (((s.setReg 0x180 Reg.supervisor.safeRequest (v &&& 1#32)).review).answer .none))

/-- Claiming, contest, freeze and release of the causeway; heartbeats, loss, mastership and the ring's ports. A claim
starts only where R442 and R448 let it, with the line toggling; it becomes ACTIVE while the peer is silent; a stopped
claim keeps the line until the outputs are off. Two edge intervals of 40 to 60 µs make the peer's claim toggling, 150
µs end it. A new contest makes side 1 give up its claim and report, side 0 keep it; the outputs are reviewed. A
disagreement freezes once and takes a CLAIMING unit back to STANDBY, agreement clears it. The lowest surviving ID
takes over a lost master at its heartbeat; a duplicate ID is reported; the third heartbeat in a row admits a member; a
lost member leaves with a report; mastership comes back with a valid NT. A ring that loses a port opens, with both up
it closes (log entry 35). Rests on 14_supervision_and_failover R441, 14_supervision_and_failover R442,
14_supervision_and_failover R443, 14_supervision_and_failover R444, 14_supervision_and_failover R445,
14_supervision_and_failover R448, 14_supervision_and_failover R449, 14_supervision_and_failover R450,
14_supervision_and_failover R452, 14_supervision_and_failover R430, 01_module_organization R19. -/
def Obligations.ClaimsAndStackMembershipFollowTheirRules : Prop :=
  (∀ (m : Master) (v : Word) (s : State), s.mayWritePage m 0x181 Reg.causeway.claimCtrl = true →
      let s1 := s.setReg 0x181 Reg.causeway.claimCtrl (v &&& 1#32)
      (bitOf v 0 = true → exec (.claimCtrlWrite m v) s = .next (s1.review.answer .none))
      ∧ (bitOf v 0 = false → exec (.claimCtrlWrite m v) s = .next (s1.giveUpClaim.review.answer .none)))
  ∧ (∀ s : State,
      let may := s.cwayEn = true ∧ s.fail.role = .standby ∧ s.fail.lineOn = false
        ∧ bitOf (s.reg 0x181 Reg.causeway.claimCtrl) 0 = true ∧ s.fail.faulty = false ∧ s.fail.frozen = false
        ∧ s.sup.safeState = none ∧ s.fail.toggling = false ∧ s.fail.noWithdraw = false
      let s1 := s.setFail { s.fail with role := .claiming, lineOn := true, stopping := false }
      (may → exec .claimStart s =
        .next (State.judgeContest s ((s1.incReg 0x181 Reg.causeway.claimStarts 1).bump 0x181 0 1)))
      ∧ (¬may → exec .claimStart s = .next s)
      ∧ (s.cwayEn = true → s.fail.role = .claiming → s.fail.toggling = false → exec .claimActive s =
        .next (((s.setFail { s.fail with role := .active, withdrawReq := false }).bump 0x181 1 1).review))
      ∧ (s.cwayEn = false ∨ s.fail.role ≠ .claiming ∨ s.fail.toggling = true → exec .claimActive s = .next s)
      ∧ (s.fail.role = .claiming ∨ s.fail.role = .active →
        s.giveUpClaim.fail = { s.fail with role := .standby, stopping := true })
      ∧ (s.fail.role = .standby ∨ s.fail.role = .disabled → s.giveUpClaim = s)
      ∧ (s.fail.stopping = true → s.fail.lineOn = true → s.sup.live = false → ∃ t, exec .claimLineRelease s = .next t
        ∧ t.fail = { s.fail with stopping := false, lineOn := false }
        ∧ t.reg 0x181 Reg.causeway.claimEnds = s.reg 0x181 Reg.causeway.claimEnds + 1#32
        ∧ { t with fail := s.fail, regs := s.regs } = s)
      ∧ (s.fail.stopping = false ∨ s.fail.lineOn = false ∨ s.sup.live = true → exec .claimLineRelease s = .next s))
  ∧ (∀ (ns : Nat) (s : State),
      let good := s.fail.everEdge = true ∧ 40000 ≤ ns ∧ ns ≤ 60000
      let after (n : Nat) := s.setFail { s.fail with everEdge := true, goodGaps := n, toggling := n == 2 }
      (good → exec (.cwayClaimInEdge ns) s = .next (State.judgeContest s (after (min (s.fail.goodGaps + 1) 2))))
      ∧ (¬good → exec (.cwayClaimInEdge ns) s = .next (State.judgeContest s (after 0)))
      ∧ exec .peerClaimStopped s =
        .next ((s.setFail { s.fail with toggling := false, goodGaps := 0, everEdge := false }).review))
  ∧ (∀ b s : State,
      (s.contest = false ∨ b.contest = true → State.judgeContest b s = s.review)
      ∧ (s.contest = true → b.contest = false →
        (s.fail.unitSide = false → State.judgeContest b s = (s.bump 0x181 2 1).review)
        ∧ (s.fail.unitSide = true → State.judgeContest b s = ((s.bump 0x181 2 1).giveUpClaim.raise 0x181 1 []).review)))
  ∧ (∀ s : State,
      let f := ((s.setFail { s.fail with frozen := true }).raise 0x181 0 []).bump 0x181 3 1
      let differs := s.cwayEn = true ∧ s.fail.toggling ≠ s.fail.hbClaiming ∧ s.fail.frozen = false
      (differs → s.fail.role = .claiming → exec .cwayDisagree s = .next f.giveUpClaim.review)
      ∧ (differs → s.fail.role ≠ .claiming → exec .cwayDisagree s = .next f.review)
      ∧ (¬differs → exec .cwayDisagree s = .next s)
      ∧ (s.fail.toggling = s.fail.hbClaiming → exec .frozenClear s =
        .next ((s.setFail { s.fail with frozen := false }).review))
      ∧ (s.fail.toggling ≠ s.fail.hbClaiming → exec .frozenClear s = .next s)
      ∧ (s.fail.withdrawReq = true → s.fail.toggling = true → s.fail.noWithdraw = false → exec .peerNoWithdraw s =
        .next ((s.setFail { s.fail with noWithdraw := true }).raise 0x181 4 []))
      ∧ (s.fail.withdrawReq = false ∨ s.fail.toggling = false ∨ s.fail.noWithdraw = true →
        exec .peerNoWithdraw s = .next s))
  ∧ (∀ s : State,
      let s1 := s.bump 0x1c0 0 1
      let takes := s.fail.present.contains s.fail.master.val = false ∧ s.fail.present.head? = some s.fail.stackId.val
      (s.fail.strapsValid = false → exec .heartbeatSend s = .next s)
      ∧ (s.fail.strapsValid = true → takes → exec .heartbeatSend s =
        .next ((s1.setMaster s1.fail.stackId).raise 0x1c0 2 []))
      ∧ (s.fail.strapsValid = true → ¬takes → exec .heartbeatSend s = .next s1)
      ∧ (∀ id, (s.setMaster id).fail = { s.fail with master := id }))
  ∧ (∀ (hb : Heartbeat) (s : State),
      let s1 := (((s.bump 0x1c0 1 1).followMaster hb).admitMember hb.id.val).hearPeer hb
      let measures := s1.isMaster = false ∧ hb.id = s1.fail.master ∧ s1.fail.present.contains hb.id.val = true
      (s.fail.strapsValid = false → exec (.heartbeatReceived hb) s = .next s)
      ∧ (s.fail.strapsValid = true → hb.id = s.fail.stackId → exec (.heartbeatReceived hb) s = .next (s.raise 0x1c0 3 []))
      ∧ (s.fail.strapsValid = true → hb.id ≠ s.fail.stackId →
        (measures → exec (.heartbeatReceived hb) s = .next (s1.ntMeasure hb.nt 2))
        ∧ (¬measures → exec (.heartbeatReceived hb) s = .next s1))
      ∧ (∀ id, s.fail.present.contains id = false →
        (tblRead zeroNat s.fail.seen id + 1 < 3 → (s.admitMember id).fail.present = s.fail.present
          ∧ tblRead zeroNat (s.admitMember id).fail.seen id = tblRead zeroNat s.fail.seen id + 1)
        ∧ (3 ≤ tblRead zeroNat s.fail.seen id + 1 →
          (s.admitMember id).fail.present = insertId id s.fail.present
          ∧ (s.admitMember id).reg 0x000 Reg.root.treeGen = s.reg 0x000 Reg.root.treeGen + 1#32)))
  ∧ (∀ (id : Fin 8) (s : State),
      let s1 := (((s.setPresent (s.fail.present.filter (· != id.val))).satReg 0x1c0 Reg.stackLink.hbMissed 3).bump 0x1c0 2
        3).raise 0x1c0 1 []
      (s.fail.present.contains id.val = false ∨ id = s.fail.stackId → exec (.memberLost id) s = .next s)
      ∧ (s.fail.present.contains id.val = true → id ≠ s.fail.stackId →
        (id.val = s1.peerId → exec (.memberLost id) s =
          .next ((s1.setFail { s1.fail with hbClaiming := false, hbActive := false }).review))
        ∧ (id.val ≠ s1.peerId → exec (.memberLost id) s = .next s1)))
  ∧ (∀ s : State,
      let comes := s.fail.returning = some s.fail.stackId.val ∧ s.time.ntValid = true
        ∧ s.fail.present.head? = some s.fail.stackId.val
      (comes → ∃ t, exec .mastershipTakeover s = .next t
        ∧ t.fail = { s.fail with master := s.fail.stackId, returning := none })
      ∧ (¬comes → exec .mastershipTakeover s = .next s))
  ∧ (∀ (port : Fin 2) (s : State),
      let s1 := s.setVaoskad port false
      let s2 := s.setVaoskad port true
      (s.vaoskadUp port = false → exec (.ringOpen port) s = .next s)
      ∧ (s.vaoskadUp port = true → s.fail.ringClosed = true → exec (.ringOpen port) s =
        .next ((s1.setFail { s1.fail with ringClosed := false }).raise 0x1c0 0 []))
      ∧ (s.vaoskadUp port = true → s.fail.ringClosed = false → exec (.ringOpen port) s = .next s1)
      ∧ exec (.portUp port) s = .next (s2.setFail { s2.fail with ringClosed := s2.fail.port0 && s2.fail.port1 })
      ∧ s2.vaoskadUp port = true ∧ s1.vaoskadUp port = false
      ∧ (∀ q, q ≠ port → s2.vaoskadUp q = s.vaoskadUp q ∧ s1.vaoskadUp q = s.vaoskadUp q))

/-- VDD_SUP, power good, presses and module reset follow their tables; MRAM and the latch outlive a reset. Three
agreeing strap samples of a permitted mode give it, anything else SIMPLEX_THREE with the rejection noted. VDD_SUP_UP
holds the dies in reset with the outputs off, reads the latch (unreadable: latched, class 31) and keeps MRAM. Power
good comes only with VDD_SUP, every rail, PFW_N and the PLLs; it ends the reset and loads CK_SC_OFFSET. A press acts
by its length: below 500 ms it is counted short, up to 5,000 ms accepted, longer stuck; an accepted press clears a
committed latch and asks for cause 2, an uncommitted one is refused. A module reset happens only when asked, with the
asked cause; the state after it keeps MRAM, latch, straps and queue. A rail that drops after the warning resets with
cause 3 and the safe state kept. START_DONE runs start-up once. Rests on 01_module_organization R24,
01_module_organization R28, 04_divergence_and_reseed R125, 14_supervision_and_failover R424,
14_supervision_and_failover R427, 14_supervision_and_failover R433, 14_supervision_and_failover R435,
14_supervision_and_failover R436, 14_supervision_and_failover R437, 16_package_and_electrical R472,
16_package_and_electrical R474, 13_bundles_and_update R412. -/
def Obligations.PowerResetAndStartFollowTheirSteps : Prop :=
  (∀ (v : BitVec 2) (a b c : BitVec 2) (allowed : BitVec 3),
      (allowed.getLsbD v.toNat = true → strapMode v v v allowed = modeOf v.toNat)
      ∧ (allowed.getLsbD v.toNat = false → strapMode v v v allowed = none)
      ∧ (a ≠ b ∨ b ≠ c → strapMode a b c allowed = none) ∧ modeOf 0 = some .triplex
      ∧ modeOf 1 = some .duplexPlusOne ∧ modeOf 2 = some .simplexThree ∧ modeOf 3 = none)
  ∧ (∀ (a b c : Straps) (high : Bool) (s : State),
      let mode := strapMode a.mode b.mode c.mode s.ps.nv.otp.modeAllowed
      (s.sup.vddUp = true → exec (.vddSupUp a b c high) s = .next s)
      ∧ (s.sup.vddUp = false → ∃ t, exec (.vddSupUp a b c high) s = .next t
        ∧ t.clu.mode = mode.getD .simplexThree ∧ t.clu.modeRejected = mode.isNone
        ∧ t.fail.strapsValid = (agreed a.stackId b.stackId c.stackId).isSome
        ∧ t.fail.unitSide = (agreed a.side b.side c.side).getD true
        ∧ t.sup.vddUp = true ∧ t.sup.socReset = true ∧ t.sup.resetOut = true ∧ t.sup.released = false
        ∧ t.sup.live = false ∧ t.sup.grant = false ∧ t.sup.armed = high
        ∧ t.sup.latch = (if s.sup.latch.readable then s.sup.latch else ⟨true, 31, 0x180, false, 0#32, true⟩)
        ∧ t.hasCause 0x003 0 = !high ∧ t.mem.mram = s.mem.mram ∧ t.mem.sram = [] ∧ t.pending = s.pending
        ∧ t.faults.control = []))
  ∧ (∀ (cause : Nat) (s : State),
      let t := s.socResets cause
      t.sup.socReset = true ∧ t.sup.resetOut = true ∧ t.sup.live = false ∧ t.sup.grant = false ∧ t.sup.latch = s.sup.latch
        ∧ t.sup.resetCause = cause ∧ t.sup.resetAsked = none ∧ t.sup.safeState = none ∧ t.clu.mode = s.clu.mode
        ∧ t.fail.stackId = s.fail.stackId ∧ t.fail.role = .disabled ∧ t.fail.lineOn = false ∧ t.mem.mram = s.mem.mram
        ∧ t.mem.mramEcc = s.mem.mramEcc ∧ t.mem.sram = [] ∧ t.regs = [] ∧ t.pages = [] ∧ t.counters = []
        ∧ t.pending = s.pending ∧ t.obs.wsOpen = false)
  ∧ (∀ (cut : Bool) (s : State),
      (s.sup.vddUp = false → exec (.supervisorReset cut) s = .next s)
      ∧ (s.sup.vddUp = true → ∃ t, exec (.supervisorReset cut) s = .next t ∧ t.sup.vddUp = false ∧ t.sup.live = false
        ∧ t.sup.grant = false ∧ t.sup.latch = { s.sup.latch with readable := s.sup.latch.readable && !cut }
        ∧ t.mem.mram = s.mem.mram ∧ t.pending = s.pending))
  ∧ (∀ (rails : BitVec 8) (high locked : Bool) (s : State),
      let held := s.sup.vddUp = true ∧ s.sup.socReset = true
      (held → exec (.railWindowBeforePowerGood rails high) s = .next (s.setSup
          { s.sup with
            railsIn := rails, pfwLow := !high, pfwSeen := s.sup.pfwSeen || !high, pgCount := rails == 0xff#8 && high,
            live := false, grant := false })
        ∧ exec (.pllRestart locked) s = .next (s.setSup { s.sup with pllLocked := locked }))
      ∧ (¬held → exec (.railWindowBeforePowerGood rails high) s = .next s ∧ exec (.pllRestart locked) s = .next s))
  ∧ (∀ s : State,
      let good := s.sup.vddUp = true ∧ s.sup.socReset = true ∧ s.sup.pgCount = true ∧ s.sup.pllLocked = true
        ∧ s.sup.pfwLow = false ∧ s.sup.railsIn = 0xff#8
      let v := s.ps.nv.otp.ckOffset
      let put (w : Word) (bad : Bool) := (s.setReg 0x002 Reg.clock.ckScOffset w).setReg 0x002 Reg.clock.clkStatus
        (setBit 0xff#32 8 bad)
      (good → exec .powerGood s = .next (s.setSup
        { s.sup with
          socReset := false, resetOut := false, pgCount := false, released := true, pfwSeen := false, safeState := none,
          safeOrigin := 0, live := false, grant := false }).loadOffset.startCauses)
      ∧ (¬good → exec .powerGood s = .next s)
      ∧ (1000 ≤ v.toInt.natAbs ∧ v.toInt.natAbs ≤ 5000 → s.loadOffset = put v false)
      ∧ (¬(1000 ≤ v.toInt.natAbs ∧ v.toInt.natAbs ≤ 5000) →
        s.loadOffset = (put (BitVec.ofInt 32 (-3000)) true).raise 0x002 1 []))
  ∧ (∀ (rail : Fin 8) (s : State),
      let low := s.sup.released = true ∧ s.sup.pfwSeen = true ∧ s.sup.socReset = false
      (¬low → exec (.railDropAfterWarning rail) s = .next s)
      ∧ (low → ∃ t, exec (.railDropAfterWarning rail) s = .next t ∧ t.sup.socReset = true ∧ t.sup.resetOut = true
        ∧ t.sup.live = false ∧ t.sup.grant = false ∧ t.sup.resetCause = 3
        ∧ t.sup.safeState = (s.enterSafe 12 0x180).sup.safeState ∧ t.mem.mram = (s.enterSafe 12 0x180).mem.mram))
  ∧ (∀ (m : Master) (v : Word) (s : State), s.mayWritePage m 0x003 Reg.reset.restartCmd = true →
      (v = 0xa5#32 → exec (.restartCmd m v) s = .next ((s.setSup { s.sup with resetAsked := some 1 }).answer .none))
      ∧ (v ≠ 0xa5#32 → exec (.restartCmd m v) s = .next (s.answer .none)))
  ∧ (∀ (us : Nat) (s : State),
      let stuck := (s.setSup { s.sup with pressStuck := true, armed := false }).raise 0x003 1 []
      let s0 := s.setSup { s.sup with pressLevel := true, pressing := false, armed := true }
      let s1 := (s0.setReg 0x003 Reg.reset.lastPressMs (BitVec.ofNat 32 (min (us / 1000) 0xffffffff))).bump 0x003 0 1
      exec .resetPressStart s =
          .next (s.setSup { s.sup with pressLevel := false, pressing := s.sup.armed, pressStuck := false })
        ∧ (s.sup.pressing = true → s.sup.pressStuck = false → exec .resetStuck s = .next stuck)
        ∧ (s.sup.pressing = false ∨ s.sup.pressStuck = true → exec .resetStuck s = .next s)
        ∧ (s.sup.pressing = false → exec (.resetPressRelease us) s = .next s0)
        ∧ (s.sup.pressing = true → s.sup.pressStuck = true → exec (.resetPressRelease us) s = .next s1)
        ∧ (s.sup.pressing = true → s.sup.pressStuck = false →
          (us < 500000 → exec (.resetPressRelease us) s = .next ((s1.setReg 0x003 Reg.reset.presses
            (satField (s1.reg 0x003 Reg.reset.presses) 31 16 1)).bump 0x003 1 1))
          ∧ (500000 ≤ us → us ≤ 5000000 → exec (.resetPressRelease us) s = .next s1.acceptPress)
          ∧ (5000000 < us → exec (.resetPressRelease us) s =
            .next (s1.pressIsStuck.setSup { s1.pressIsStuck.sup with armed := true }))))
  ∧ (∀ s : State,
      let s1 := s.setReg 0x003 Reg.reset.presses (satField (s.reg 0x003 Reg.reset.presses) 15 0 1)
      let cleared := s1.setSup { s.sup with latch := ⟨false, 0, 0, false, 0#32, true⟩, resetAsked := some 2 }
      (s.sup.latch.locked = false → s.acceptPress = s1.setSup { s.sup with resetAsked := some 2 })
      ∧ (s.sup.latch.locked = true → s.sup.latch.committed = false → s.acceptPress = s1.raise 0x003 2 [])
      ∧ (s.sup.latch.locked = true → s.sup.latch.committed = true →
        (s.sup.latch.cls ≠ 9 → s.acceptPress = cleared)
        ∧ (s.sup.latch.cls = 9 → s.acceptPress = cleared.commitRetirement none)))
  ∧ (∀ s : State,
      (s.sup.resetAsked = none ∨ s.sup.socReset = true → exec .moduleReset s = .next s)
      ∧ (∀ cause, s.sup.resetAsked = some cause → s.sup.socReset = false → exec .moduleReset s =
        .next ((s.setSup { s.sup with live := false, grant := false }).pfWarn.drainEngine.socResets cause)))
  ∧ (∀ s : State,
      let x := s.scanEnds.selectBoot
      let u := x.1.startSelected.rejudgeHusk
      (s.ps.startDone = true ∨ s.sup.socReset = true → exec .startDone s = .next s)
      ∧ (s.ps.startDone = false → s.sup.socReset = false →
        exec .startDone s = .next ((if x.2 then u.restartVerify else u).repostLockout.review))
      ∧ (x.1.bootSlot = none → x.1.startSelected = (x.1.lockPages.bootedAll none).startEnds 3 0 0#64 0)
      ∧ (∀ slot reason, x.1.bootSlot = some (slot, reason) →
        x.1.startSelected = x.1.otpAtStart.startSlot slot reason))

/-- While workshop access is closed FAULT_INJECT ignores writes and reads 0; closing clears it in every page. For
every state: while workshop access is closed, a FAULT_INJECT_WRITE of any value to any page by any master leaves
FAULT_INJECT of every page as it was, and a read of FAULT_INJECT answers 0. A WS_CLOSE with bit 0 set, or TEST_EN_N
high for 1 ms, while access is open closes it and leaves FAULT_INJECT of every page at 0. Rests on 02_register_pages
R36. -/
def Obligations.FaultInjectFollowsWorkshopAccess : Prop :=
  (∀ (m : Master) (page : Nat) (v : Word) (s : State), s.obs.wsOpen = false →
      (∃ t, exec (.faultInjectWrite m page v) s = .next t ∧ ∀ p, t.reg p 0x018 = s.reg p 0x018)
      ∧ (∀ p, s.pageWord p 0x018 = 0#32 ∧ s.pageRead m p 0x018 = s.answer (.value 0#64)))
  ∧ (∀ (m : Master) (v : Word) (s : State), s.obs.wsOpen = true →
      (s.mayWritePage m 0x19f Reg.workshop.wsClose = true → bitOf v 0 = true →
        ∃ t, exec (.wsClose m v) s = .next t ∧ t.obs.wsOpen = false ∧ ∀ p, t.reg p 0x018 = 0#32)
      ∧ (∃ t, exec .testEnHigh s = .next t ∧ t.obs.wsOpen = false ∧ ∀ p, t.reg p 0x018 = 0#32))

/-- Counter selections, bandwidth windows, samplers, fault injection and perturbation controls take their writes. A
selection write stores it, sets the count to 0 and counts while EN; other counters stay. A window end moves the
accumulators into BW_n and counts BW_SEQ, or begins the first window; a BW_WINDOW write discards the window in
progress. Setting EN seeds a sampler from LT and takes the next instruction. An injection of kind 0 to 2 arms within
the page's memories, a synthetic cause is made at once with ARM clear, kinds 4 to 7 and missing memories are ignored.
Each perturbation control takes its value by the register table, one naming copy or engine 3 is ignored. A release
passes a participant's delayed reports on and discards those of another copy. Rests on 15_observability_and_test R454,
15_observability_and_test R455, 15_observability_and_test R456, 15_observability_and_test R457,
15_observability_and_test R462, 15_observability_and_test R463, 00_scope R8, 01_module_organization R19,
02_register_pages R36. -/
def Obligations.CountersSamplersInjectionAndPerturbation : Prop :=
  (∀ (m : Master) (k : Fin 112) (v : Word) (s : State),
      s.mayWritePage m 0x191 (Reg.pmc.pmcSel + 4 * k.val) = true →
      let s1 := s.storeReg 0x191 (Reg.pmc.pmcSel + 4 * k.val) v
      ∃ t, exec (.pmcSelWrite m k v) s = .next t ∧ tblRead zeroDword t.obs.pmc k.val = 0#64
        ∧ (∀ n, n ≠ k.val → tblRead zeroDword t.obs.pmc n = tblRead zeroDword s1.obs.pmc n
          ∧ (n ∈ t.obs.pmcOn ↔ n ∈ s1.obs.pmcOn))
        ∧ (k.val ∈ t.obs.pmcOn ↔ bitOf (s1.pmcSel k.val) 31 = true)
        ∧ { t with obs := s1.obs, reply := s1.reply } = s1)
  ∧ (∀ s : State,
      (s.obs.bwValid = true → exec .bwWindowEnd s =
        .next (((s.setObs { s.obs with bwReg := s.obs.bwAcc, bwAcc := [] }).incReg 0x192 Reg.bandwidth.bwSeq 1).bump
          0x192 0 1))
      ∧ (s.obs.bwValid = false → exec .bwWindowEnd s = .next (s.setObs { s.obs with bwAcc := [], bwValid := true }))
      ∧ (∀ m v, s.mayWritePage m 0x192 Reg.bandwidth.bwWindow = true →
        let s1 := s.storeReg 0x192 Reg.bandwidth.bwWindow v
        exec (.bwWindowWrite m v) s = .next ((s1.setObs { s1.obs with bwAcc := [], bwValid := false }).answer .none)))
  ∧ (∀ (m : Master) (n : Fin 5) (v : Word) (s : State), s.mayWritePage m 0x193 (samplerReg Reg.sampler.smpCtrl n.val) = true →
      let off := samplerReg Reg.sampler.smpCtrl n.val
      let s1 := s.storeReg 0x193 off v
      let starts := bitOf (s1.reg 0x193 off) 31 = true ∧ bitOf (s.reg 0x193 off) 31 = false
      (starts → exec (.smpCtrlWrite m n v) s = .next ((s1.setSampler n.val ⟨loWord s.time.lt, 0⟩).answer .none))
      ∧ (¬starts → exec (.smpCtrlWrite m n v) s = .next (s1.answer .none)))
  ∧ (∀ (m : Master) (page : Nat) (v : Word) (s : State), s.mayWritePage m page 0x018 = true → s.obs.wsOpen = true →
      let w := v &&& 0xf0ffffff#32
      let kind := fieldOf v 30 28
      let target := fieldOf v 23 16
      (4 ≤ kind → exec (.faultInjectWrite m page v) s = .next (s.answer .none))
      ∧ (kind = 0 → exec (.faultInjectWrite m page v) s = .next ((s.setReg page 0x018 w).answer .none))
      ∧ (kind = 1 ∨ kind = 2 →
        (target < injectMemories page → exec (.faultInjectWrite m page v) s = .next ((s.setReg page 0x018 w).answer .none))
        ∧ (injectMemories page ≤ target → exec (.faultInjectWrite m page v) s = .next (s.answer .none)))
      ∧ (kind = 3 →
        (bitOf v 31 = true → exec (.faultInjectWrite m page v) s =
          .next (((s.setReg page 0x018 (setBit w 31 false)).synthetic page target).answer .none))
        ∧ (bitOf v 31 = false → exec (.faultInjectWrite m page v) s = .next ((s.setReg page 0x018 w).answer .none))))
  ∧ (∀ (m : Master) (v : Word) (s : State),
      exec (.ptCkpt m v) s = .next (s.ptWrite m Reg.perturb.ptCkpt v)
      ∧ exec (.ptSig m v) s = .next (s.ptWrite m Reg.perturb.ptSig v)
      ∧ exec (.ptVote m v) s = .next (s.ptWrite m Reg.perturb.ptVote v)
      ∧ exec (.ptEgress m v) s = .next (s.ptWrite m Reg.perturb.ptEgress v)
      ∧ exec (.ptDrop m v) s = .next (s.ptWrite m Reg.perturb.ptDrop v)
      ∧ exec (.ptDtack m v) s = .next (s.ptWrite m Reg.perturb.ptDtack v)
      ∧ exec (.ptMp m v) s = .next (s.ptWrite m Reg.perturb.ptMp v)
      ∧ exec (.ptCle m v) s = .next (s.ptWrite m Reg.perturb.ptCle v)
      ∧ exec (.ptMem m v) s = .next (s.ptWrite m Reg.perturb.ptMem v))
  ∧ (∀ (m : Master) (off : Nat) (v : Word) (s : State),
      (s.obs.wsOpen = false → s.ptWrite m off v = s.violation m (0x18000000 + 0x1000 * 0x1a0 + off))
      ∧ (s.mayWritePage m 0x1a0 off = true → ptOk off v = true → ∀ d, regDesc 0x1a0 off = some d →
        ∃ t, s.ptWrite m off v = t ∧ t.reg 0x1a0 off = d.written (s.locked 0x1a0) (s.reg 0x1a0 off) v
          ∧ (∀ p o, regKey p o ≠ regKey 0x1a0 off → t.reg p o = s.reg p o) ∧ { t with regs := s.regs, reply := s.reply } = s)
      ∧ (s.mayWritePage m 0x1a0 off = true → ptOk off v = false → s.ptWrite m off v = s.answer .none)
      ∧ (ptOk off v = false ↔ ((off = Reg.perturb.ptCkpt ∨ off = Reg.perturb.ptSig ∨ off = Reg.perturb.ptVote)
        ∧ fieldOf v 29 28 = 3) ∨ (off = Reg.perturb.ptCle ∧ fieldOf v 1 0 = 3)))
  ∧ (∀ (cp : Copy) (s : State), ∃ t, exec (.ptDelayedReportRelease cp) s = .next t
      ∧ t = { s with clu := { s.clu with flying := t.clu.flying } }
      ∧ (∀ f ∈ t.clu.flying, f.report.copy = cp → f.delayed = false)
      ∧ ((s.cp cp).participant = true → t.clu.flying.length = s.clu.flying.length)
      ∧ ((s.cp cp).participant = false → ∀ f ∈ s.clu.flying, f.report.copy ≠ cp ∨ f.delayed = false → f ∈ t.clu.flying))

/-- The TAP's instructions, the debug module behind DMI, and workshop access opening and closing as R458 to R461 say.
IDCODE reads 0x13860E2B; DTMCS reads version 1; BYPASS shifts one bit, and EXTEST and SAMPLE/PRELOAD do the same while
access is closed, drive no output otherwise and give a free captured value. DMI answers 0 and changes nothing while
access is closed, and reaches the debug module while it is open. The four unlock writes, by page or TAP, must match in
order; a wrong one, a gap of 1 ms or a fourth write with a condition failing counts one failure and starts over; the
eighth latches UNLOCK_REFUSED. Opening switches the outputs off. WS_CLOSE and TEST_EN_N high close: FREEZE,
FAULT_INJECT and page 0x1A0 cleared, participants resumed. The write ignored while open is log entry 40's. Rests on
15_observability_and_test R458, 15_observability_and_test R459, 15_observability_and_test R460,
15_observability_and_test R461, 14_supervision_and_failover R430. -/
def Obligations.TapAndWorkshopAccessFollowTheUnlockSequence : Prop :=
  (∀ (scan : DWord) (s : State),
      (∀ ir, exec (.bypass ir scan) s = .next ((s.tap ir).answer (.value (scan <<< 1))))
      ∧ (s.obs.wsOpen = false →
        exec (.extest scan) s = .next ((s.tap 0x00#5).answer (.value (scan <<< 1)))
        ∧ exec (.samplePreload scan) s = .next ((s.tap 0x02#5).answer (.value (scan <<< 1))))
      ∧ (s.obs.wsOpen = true →
        exec (.extest scan) s = .next (({ s.tap 0x00#5 with free := s.free + 1 } : State).answer (.value (Config.freeDword s.free)))
        ∧ exec (.samplePreload scan) s =
          .next (({ s.tap 0x02#5 with free := s.free + 1 } : State).answer (.value (Config.freeDword s.free))))
      ∧ exec .idcode s = .next ((s.tap 0x01#5).answer (.value 0x13860e2b#64))
      ∧ (∀ v, ∃ w : DWord, exec (.dtmcs v) s = .next ((s.tap 0x10#5).answer (.value w)) ∧ w &&& 0xf#64 = 1#64))
  ∧ (∀ (a : Nat) (v : Word) (s : State),
      (s.obs.wsOpen = false → ∀ op, exec (.dmi op a v) s = .next ((s.tap 0x11#5).answer (.value 0#64)))
      ∧ (s.obs.wsOpen = true →
        exec (.dmi .nop a v) s = .next ((s.tap 0x11#5).answer .none)
        ∧ exec (.dmi .read a v) s = .next ((s.tap 0x11#5).answer (.value (((s.tap 0x11#5).dmRead a).zeroExtend 64)))
        ∧ exec (.dmi .write a v) s = .next (((s.tap 0x11#5).dmWrite a v).answer .none)))
  ∧ (∀ (m : Master) (v : Word) (s : State),
      (s.mayWritePage m 0x19f Reg.workshop.wsUnlock = true → exec (.wsUnlock m v) s = .next ((s.unlockWrite 0 v).answer .none))
      ∧ exec (.workshop v) s = .next (((s.tap 0x18#5).unlockWrite 1 v).answer .none)
      ∧ exec .unlockGap s = .next (if s.obs.unlockStep = 0 then s else s.unlockFailed))
  ∧ (∀ (route : Nat) (v : Word) (s : State),
      (s.obs.wsOpen = true → s.unlockWrite route v = s)
      ∧ (s.obs.wsOpen = false →
        (v ≠ s.unlockWord s.obs.unlockStep → s.unlockWrite route v = s.unlockFailed)
        ∧ (v = s.unlockWord s.obs.unlockStep →
          (s.obs.unlockStep < 3 → s.unlockWrite route v = s.setObs { s.obs with unlockStep := s.obs.unlockStep + 1 })
          ∧ (3 ≤ s.obs.unlockStep →
            (s.mayUnlock = true → s.unlockWrite route v = s.workshopOpens route)
            ∧ (s.mayUnlock = false → s.unlockWrite route v = s.unlockFailed)))))
  ∧ (∀ s : State,
      (s.unlockWord 0 = 0x5745524b#32 ∧ s.unlockWord 1 = loWord s.ps.nv.otp.unitId
        ∧ s.unlockWord 2 = hiWord s.ps.nv.otp.unitId ∧ s.unlockWord 3 = 0x4f50454e#32)
      ∧ (s.mayUnlock = true ↔ s.obs.testEnPowerUp = true ∧ s.obs.testEnLow = true
        ∧ (s.time.standstill = true ∨ s.field 0x142 Reg.axles.axConfig 3 0 = 0) ∧ s.obs.unlockFails < 8)
      ∧ (s.unlockFailed.obs.unlockStep = 0 ∧ s.unlockFailed.obs.unlockFails = s.obs.unlockFails + 1
        ∧ s.unlockFailed.obs.wsOpen = s.obs.wsOpen)
      ∧ (s.obs.unlockFails = 7 → s.unlockFailed =
          ((s.setObs { s.obs with unlockStep := 0, unlockFails := 8 }).bump 0x19f 1 1).raise 0x19f 1 [])
      ∧ (∀ route, (s.workshopOpens route).obs.wsOpen = true ∧ (s.workshopOpens route).obs.wsOpened = true
        ∧ (s.workshopOpens route).sup.live = false ∧ (s.workshopOpens route).sup.grant = false))
  ∧ (∀ s : State,
      (∀ m v, s.mayWritePage m 0x19f Reg.workshop.wsClose = true → exec (.wsClose m v) s =
        .next ((if bitOf v 0 then s.workshopCloses else s).answer .none))
      ∧ exec .testEnHigh s = .next (s.setObs { s.obs with testEnLow := false }).workshopCloses
      ∧ (s.obs.wsOpen = false → s.workshopCloses = s)
      ∧ (s.obs.wsOpen = true → ∃ t : State, s.workshopCloses = t ∧ t.obs = { s.obs with wsOpen := false }
        ∧ (∀ p, (t.page p).freeze = false)
        ∧ (∀ p, t.reg p 0x018 = 0#32)
        ∧ (∀ off, 0x100 ≤ off → off < Reg.perturb.ptApplied → t.reg 0x1a0 off = regReset (regKey 0x1a0 off))
        ∧ (∀ k : Copy, (s.cp k).participant = true → (t.cp k).halted = false)
        ∧ { t with regs := s.regs, pages := s.pages, obs := s.obs, clu := s.clu } = s))

/-- RECORD_MARK lands a record and its JSEQ in order; COMMIT and JOURNAL requests are accepted, checked and completed.
A mark writes the record's bytes with trailer JSEQ, CRC, MARK; JOURNAL_SEQ takes the JSEQ; only then does the next
waiting record take the next one. A write into MRAM changes exactly its bytes. A port accepts 8 requests and refuses
more; a request at its turn is refused with its code without JSEQ, a JOURNAL becomes a record, a COMMIT waits for its
lines. A completed COMMIT leaves its source lines in the user area, no other byte changed, and CP_LAST_JSEQ and
JOURNAL_SEQ hold the next JSEQ. That a record's bytes land at its mark is log entry 20's. Rests on 12_persistent_state
R363, 12_persistent_state R365, 12_persistent_state R366, 12_persistent_state R369, 12_persistent_state R370,
12_persistent_state R371, 02_register_pages R56. -/
def Obligations.MarksComeInOrderAndPortsServeTheirRequests : Prop :=
  (∀ s : State,
      (s.ps.inFlight = none → exec .recordMark s = .next ((s.servePort false).servePort true).pfNext)
      ∧ (∀ r j, s.ps.inFlight = some (r, j) →
        let u := s.writePlace r.cls r.place (recordWith r.body j)
        let v := (u.setPs
          { u.ps with inFlight := none, marked := u.ps.marked + 1, nv := { u.ps.nv with lastRecord := j } }).journalSeqIs j
        v.ledger.journalSeq = j
        ∧ exec .recordMark s = .next ((((v.markEffect r.effect j).issueNext.servePort false).servePort true).pfNext))
      ∧ (∀ r l, s.ps.inFlight = none → s.ps.waiting = r :: l → s.issueNext =
        (s.setPs
          { s.ps with
            waiting := l, inFlight := some (r, s.ps.nv.nextJseq), issued := s.ps.issued + 1,
            nv := { s.ps.nv with nextJseq := s.ps.nv.nextJseq + 1 } }).bump 0x160 4 1)
      ∧ (∀ q, s.ps.inFlight = some q → s.issueNext = s))
  ∧ (∀ (body : List Byte) (j : DWord),
      let b := recordWith body j
      b.length = body.length + 16 ∧ b.take body.length = body ∧ (b.drop body.length).take 8 = leBytes 8 j.toNat
      ∧ (b.drop (body.length + 8)).take 4 = leBytes 4 (crc32 (b.take (body.length + 8))).toNat
      ∧ b.drop (body.length + 12) = leBytes 4 (loWord j ^^^ 0xa5a5a5a5#32).toNat)
  ∧ (∀ (s : State) (cls a : Nat) (bs : List Byte),
      memBytes (s.mramWrite cls a bs).mem.mram a bs.length = bs
      ∧ (∀ x, x < a ∨ a + bs.length ≤ x → memByte (s.mramWrite cls a bs).mem.mram x = memByte s.mem.mram x))
  ∧ (∀ (m : Master) (mgmt : Bool) (s : State), s.mayWritePage m 0x161 (cpReg mgmt Reg.commitPorts.cpCmd) = true →
      let r (cmd : Nat) : CpReq :=
        { cmd := cmd, src := (s.reg 0x161 (cpReg mgmt Reg.commitPorts.cpSrc)).toNat,
          dst := (s.reg 0x161 (cpReg mgmt Reg.commitPorts.cpDst)).toNat,
          lines := (s.reg 0x161 (cpReg mgmt Reg.commitPorts.cpLines)).toNat, submitted := false }
      let taken (cmd : Nat) := ((((s.setPort mgmt (s.portQueue mgmt ++ [r cmd])).incReg 0x161
        (cpReg mgmt Reg.commitPorts.cpIssued) 1).bump 0x161 mgmt.toNat 1).servePort mgmt).answer .none
      ((s.portQueue mgmt).length < 8 →
        exec (.commit m mgmt) s = .next (taken 1) ∧ exec (.journal m mgmt) s = .next (taken 2))
      ∧ (8 ≤ (s.portQueue mgmt).length →
        let t := ((s.satReg 0x161 (cpReg mgmt Reg.commitPorts.cpRefused) 1).raise 0x161 0 []).answer .none
        exec (.commit m mgmt) s = .next t ∧ exec (.journal m mgmt) s = .next t))
  ∧ (∀ (mgmt : Bool) (s : State),
      (s.portQueue mgmt = [] ∨ s.ps.startDone = false ∨ s.ps.stopped = true → s.servePort mgmt = s)
      ∧ (∀ r l, s.portQueue mgmt = r :: l → s.ps.startDone = true → s.ps.stopped = false →
        (s.cpCode r = 0 → r.cmd = 1 → s.servePort mgmt = s)
        ∧ (s.cpCode r ≠ 0 → s.servePort mgmt = (s.cpRefused mgmt (s.cpCode r)).servePortN mgmt 8
          ∧ (s.cpRefused mgmt (s.cpCode r)).portQueue mgmt = l
          ∧ (s.cpRefused mgmt (s.cpCode r)).ps.nv = s.ps.nv ∧ (s.cpRefused mgmt (s.cpCode r)).mem = s.mem)
        ∧ (s.cpCode r = 0 → r.cmd = 2 → r.submitted = false →
          let s1 := s.setPort mgmt ({ r with submitted := true } :: l)
          s.servePort mgmt = ((s1.setNv { s1.ps.nv with journalPos := s1.ps.nv.journalPos + 1 }).submit
            { cls := if mgmt then 4 else 2, place := .offset (mramJournal s1.ps.nv.journalPos),
              body := (memBytes s.mem.sram r.src 64).take 48, effect := .journalPort mgmt }).bw 85 64)))
  ∧ (∀ (r : CpReq) (s : State),
      (r.cmd = 1 →
        (s.cpCode r = 1 ↔ userLines < r.dst + r.lines)
        ∧ (r.dst + r.lines ≤ userLines → (s.cpCode r = 2 ↔ r.lines = 0 ∨ 1024 < r.lines)
          ∧ (1 ≤ r.lines → r.lines ≤ 1024 → (s.cpCode r = 3 ↔ 0x2000000 < r.src + 64 * r.lines
            ∨ eccBad s.mem.sramEcc 16 r.src (64 * r.lines) = true))))
      ∧ (r.cmd = 2 →
        (s.cpCode r = 3 ↔ 0x2000000 < r.src + 64 ∨ eccBad s.mem.sramEcc 16 r.src 64 = true)
        ∧ (r.src + 64 ≤ 0x2000000 → eccBad s.mem.sramEcc 16 r.src 64 = false →
          (s.cpCode r = 4 ↔ (memByte s.mem.sram r.src).toNat = 0 ∨ 0x1f < (memByte s.mem.sram r.src).toNat))))
  ∧ (∀ (mgmt : Bool) (s : State),
      (s.portQueue mgmt = [] ∨ s.ps.startDone = false ∨ (s.ps.stopped = true ∧ s.begunBefore mgmt = false) →
        exec (.commitRequestDone mgmt) s = .next s)
      ∧ (∀ r l, s.portQueue mgmt = r :: l → s.ps.startDone = true → s.ps.stopped = false ∨ s.begunBefore mgmt = true →
        (r.cmd = 2 →
          (∀ q j, s.ps.inFlight = some (q, j) → q.effect = .journalPort mgmt →
            exec (.commitRequestDone mgmt) s = .next s.doRecordMark)
          ∧ (s.ps.inFlight = none → exec (.commitRequestDone mgmt) s = .next s))
        ∧ (r.cmd = 1 →
          let s1 := if s.cpCode r = 0 then s.userCommit mgmt r else s.cpRefused mgmt (s.cpCode r)
          let begun := if mgmt then (s1.ps.portBegun.1, false) else (false, s1.ps.portBegun.2)
          exec (.commitRequestDone mgmt) s =
            .next (((s1.setPs { s1.ps with portBegun := begun }).servePort mgmt).pfNext))))
  ∧ (∀ (mgmt : Bool) (r : CpReq) (s : State),
      let t := s.userCommit mgmt r
      t.ledger.journalSeq = s.ps.nv.nextJseq ∧ t.reg64 0x161 (cpReg mgmt Reg.commitPorts.cpLastJseqLo) = s.ps.nv.nextJseq
      ∧ t.ps.nv = { s.ps.nv with nextJseq := s.ps.nv.nextJseq + 1 } ∧ t.portQueue mgmt = (s.portQueue mgmt).tail
      ∧ t.mem.sram = s.mem.sram
      ∧ (∀ i, i < r.lines → memBytes t.mem.mram (mramUser (r.dst + i)) 64 = memBytes s.mem.sram (r.src + 64 * i) 64)
      ∧ (∀ x, x < mramUser r.dst ∨ mramUser (r.dst + r.lines) ≤ x → memByte t.mem.mram x = memByte s.mem.mram x))

/-- Retention budgets: the charge of a second, of the off interval, the table, a refresh and a scrub pass. A charge
raises every block's budget, up to the whole retention; one that reaches it latches BUDGET_OVERDUE. With valid NT and
a record written at a warning the off interval is charged (OFF_SOURCE 1), otherwise OFF_TIME_ASSUMED (2, or 3 and
PF_MISSED after a periodic record), with OFF_ASSUMED latched; the worst case brings every budget to half. Tables
alternate. A refresh takes the block of the highest budget, from half on, sets it to 0 and keeps all bytes and the
other budgets. A scrub rewrites corrected words, remaps uncorrectable ones while a spare line is free, and keeps all
bytes. The retention formula is an opaque function of Config; budgets are kept with 32 more bits. Rests on
12_persistent_state R377, 12_persistent_state R378, 12_persistent_state R379, 12_persistent_state R380,
12_persistent_state R381, 12_persistent_state R382, 12_persistent_state R364. -/
def Obligations.RetentionChargesRefreshesAndScrubs : Prop :=
  (∀ (f : Nat → Nat) (s : State), tblWf (fun _ => s.ps.budgets.common) s.ps.budgets.own = true →
      let t := s.setBudgets f
      (∀ n, t.ps.budgets.of n = min (f (s.ps.budgets.of n)) fullBudget)
      ∧ t.mem = s.mem ∧ t.ps.budgets.writes = s.ps.budgets.writes ∧ t.ps.nv = s.ps.nv
      ∧ ((∃ n, n < 496 ∧ s.ps.budgets.of n < fullBudget ∧ fullBudget ≤ f (s.ps.budgets.of n)) →
        t = (s.setPs { s.ps with budgets := s.ps.budgets.mapAll fun n => min (f n) fullBudget }).raise 0x160 2 [])
      ∧ ((∀ n, n < 496 → s.ps.budgets.of n < fullBudget → f (s.ps.budgets.of n) < fullBudget) →
        t = s.setPs { s.ps with budgets := s.ps.budgets.mapAll fun n => min (f n) fullBudget }))
  ∧ (∀ (milliC : Int) (s : State), tblWf (fun _ => s.ps.budgets.common) s.ps.budgets.own = true →
      ∃ t, exec (.retentionCharge milliC) s = .next t ∧ t = s.setBudgets (fun n => n + Config.retentionCharge milliC 1)
        ∧ ∀ n, t.ps.budgets.of n = min (s.ps.budgets.of n + Config.retentionCharge milliC 1) fullBudget)
  ∧ (∀ s : State,
      (s.ps.offSource ≠ 0 ∨ s.time.ntValid = false → exec .offTimeCharge s = .next s)
      ∧ (s.ps.offSource ≠ 0 → exec .offWait s = .next s) ∧ (s.ps.offSource = 0 → exec .offWait s = .next s.assumeOff)
      ∧ (s.ps.offSource = 0 → s.time.ntValid = true →
        (s.ps.nv.powerFail = none → exec .offTimeCharge s = .next s.assumeOff)
        ∧ (∀ ntOff cause, s.ps.nv.powerFail = some (ntOff, cause) →
          let ns : Int := s.time.nt.toNat - ntOff.toNat - 4 * s.time.lt.toNat
          (cause = 1 ∨ ntOff = 0#64 ∨ ns < 0 → exec .offTimeCharge s = .next s.assumeOff)
          ∧ (cause ≠ 1 → ntOff ≠ 0#64 → 0 ≤ ns →
            exec .offTimeCharge s = .next (s.offCharge 1 (some (ns.toNat / 10 ^ 9)))))))
  ∧ (∀ s : State,
      let secs := if s.ps.offAssumed = 0xffffffff#32 then none else some s.ps.offAssumed.toNat
      ((∃ ntOff, s.ps.nv.powerFail = some (ntOff, 1)) →
        s.assumeOff = ((s.raise 0x160 5 []).raise 0x160 4 []).offCharge 3 secs)
      ∧ ((∀ ntOff, s.ps.nv.powerFail ≠ some (ntOff, 1)) → s.assumeOff = (s.raise 0x160 4 []).offCharge 2 secs))
  ∧ (∀ (src : Nat) (s : State), tblWf (fun _ => s.ps.budgets.common) s.ps.budgets.own = true →
      (∀ n, (s.offCharge src (some n)).ps.offSource = src
        ∧ ∀ b, (s.offCharge src (some n)).ps.budgets.of b
          = min (s.ps.budgets.of b + Config.retentionCharge s.offTemp n) fullBudget)
      ∧ (s.offCharge src none).ps.offSource = src
      ∧ (∀ b, 2 ^ 63 ≤ (s.offCharge src none).ps.budgets.of b ∧ min (s.ps.budgets.of b) fullBudget ≤ (s.offCharge src none).ps.budgets.of b))
  ∧ (∀ s : State,
      (s.ps.stopped = true → exec .retentionTableCommit s = .next s)
      ∧ (s.ps.stopped = false →
        let t : RetTable := ⟨0#64, s.ps.budgets.stored, s.reg 0x160 Reg.pstate.offCfg, s.reg 0x160 Reg.pstate.offTimeAssumed,
          s.reg 0x160 Reg.pstate.scrubHours⟩
        exec .retentionTableCommit s = .next ((s.setPs { s.ps with tableB := !s.ps.tableB }).submit
          { cls := 2, place := .offset (if s.ps.tableB then 0x20000 else 0x18000), body := s.tableBody,
            effect := .table s.ps.tableB t })))
  ∧ (∀ s : State,
      let n := s.ps.budgets.highest
      (∀ b, b < 496 → s.ps.budgets.of b ≤ s.ps.budgets.of n)
      ∧ n < 496
      ∧ (s.ps.stopped = true ∨ s.ps.budgets.of n < 2 ^ 63 → exec .refresh s = .next s)
      ∧ (s.ps.stopped = false → 2 ^ 63 ≤ s.ps.budgets.of n → ∃ t, exec .refresh s = .next t
        ∧ t.ps.budgets.of n = 0 ∧ (∀ b, b ≠ n → t.ps.budgets.of b = s.ps.budgets.of b)
        ∧ tblRead zeroNat t.ps.budgets.refreshes n = tblRead zeroNat s.ps.budgets.refreshes n + 1
        ∧ tblRead zeroDword t.ps.budgets.refreshNt n = BitVec.ofNat 64 s.ntStamp
        ∧ tblRead zeroNat t.ps.budgets.writes n = tblRead zeroNat s.ps.budgets.writes n + 16384
        ∧ t.mem.mram = s.mem.mram ∧ t.ps.nv = s.ps.nv
        ∧ (∀ w, tblRead noEcc s.mem.mramEcc w = 2 → tblWf noEcc s.mem.mramEcc = true → tblRead noEcc t.mem.mramEcc w = 2)))
  ∧ (∀ (u : Option Upset) (again : Bool) (s : State),
      (s.ps.stopped = true → exec (.mramScrub u again) s = .next s)
      ∧ (s.ps.stopped = false → ∃ t, exec (.mramScrub u again) s = .next t ∧ t.mem.mram = s.mem.mram
        ∧ t.ps.budgets.common = s.ps.budgets.common ∧ t.ps.budgets.own = s.ps.budgets.own
        ∧ (eccUpset s.mem.mramEcc u = [] →
          t = { s with mem := { s.mem with mramEcc := [] } }.bump 0x160 6 (496 * 0x100000 / 64))
        ∧ (∀ w, eccUpset s.mem.mramEcc u = [(w, 1)] →
          t = ({ s with mem := { s.mem with mramEcc := [(w, 1)] } }.bump 0x160 6 (496 * 0x100000 / 64)).scrubSingle again w)
        ∧ (∀ w, eccUpset s.mem.mramEcc u = [(w, 2)] →
          t = (({ s with mem := { s.mem with mramEcc := [(w, 2)] } }.bump 0x160 6 (496 * 0x100000 / 64)).mramBad).remap
            (w / 8 * 64))))
  ∧ (∀ (off : Nat) (s : State),
      (s.spareFree (mramDie off) = 0 → s.remap off = s)
      ∧ (s.spareFree (mramDie off) ≠ 0 → (s.remap off).spareFree (mramDie off) + 1 = s.spareFree (mramDie off)
        ∧ (∀ d, d ≠ mramDie off → (s.remap off).spareFree d = s.spareFree d)))

/-- PFW_N low stops the engine and the outputs; PF_DONE; release; epochs, running records, EXPORT and EXPORT_LIFETIME.
At a warning the outputs go off and the engine holds what waits; PF_DONE sets once its power-fail record and all
before it are complete; on release it goes on with the held work. Periodic power-fail and running records are written
unless stopped. A second of powered time adds to the open epoch, which closes at 3,600 s into peat or moss with a
LIFETIME record. EXPORT copies each held epoch to its 4 KiB place and writes 0 with first error 0x100 for one not
held; a refused destination ends it FAILED with 0x101 and a bad argument with code 2; EXPORT_LIFETIME copies the
newest LIFETIME record. Rests on 12_persistent_state R386, 12_persistent_state R387, 12_persistent_state R384,
12_persistent_state R389, 12_persistent_state R391, 12_persistent_state R392, 12_persistent_state R394,
14_supervision_and_failover R430, 15_observability_and_test R453. -/
def Obligations.WarningHoldsTheEngineAndTheRecorderKeepsEpochs : Prop :=
  (∀ s : State,
      (s.ps.stopped = true → exec .powerFailRecordPeriodic s = .next s ∧ exec .runningRecord s = .next s)
      ∧ (s.ps.stopped = false → exec .powerFailRecordPeriodic s = .next (s.commitPowerFail 1)
        ∧ exec .runningRecord s = .next s.commitRunning))
  ∧ (∀ s : State, ∃ t, exec .powerFailWarning s = .next t ∧ t.sup.pfwLow = true ∧ t.sup.live = false ∧ t.sup.grant = false
      ∧ (s.sup.socReset = false → t.ps.stopped = true)
      ∧ (s.sup.socReset = false → s.ps.stopped = false → t.ps.held = s.ps.waiting ∧ t.ps.pfDone = false)
      ∧ (s.sup.socReset = true ∨ s.ps.stopped = true → t.ps = s.ps))
  ∧ (∀ s : State,
      (s.ps.stopped = true → s.ps.pfIssued = true → s.stepsDone = true →
        exec .pfDone s = .next (s.setPs { s.ps with pfDone := true }))
      ∧ (s.ps.stopped = false ∨ s.ps.pfIssued = false ∨ s.stepsDone = false → exec .pfDone s = .next s)
      ∧ (s.stepsDone = true ↔ s.ps.inFlight = none ∧ s.ps.waiting = [] ∧ s.ps.portBegun = (false, false)
        ∧ s.faults.control = [] ∧ s.faults.data = [] ∧ s.faults.management = []))
  ∧ (∀ s : State,
      let r := s.setSup { s.sup with pfwLow := false }
      (s.ps.stopped = true → s.sup.socReset = false → exec .pfwRelease s =
        .next ((((r.setPs
          { s.ps with
            stopped := false, pfDone := false, waiting := s.ps.waiting ++ s.ps.held, held := [],
            portBegun := (false, false) }).issueNext.servePort false).servePort true).review))
      ∧ (s.ps.stopped = false ∨ s.sup.socReset = true → exec .pfwRelease s = .next r.review))
  ∧ (∀ s : State,
      (s.ps.nv.recorder.seconds < 3600 → exec .epochClose s = .next s)
      ∧ (3600 ≤ s.ps.nv.recorder.seconds → ∃ t, exec .epochClose s = .next t ∧ t = s.closeEpoch
        ∧ t.ps.nv.recorder.epoch = s.ps.nv.recorder.epoch + 1 ∧ t.ps.nv.recorder.seconds = 0
        ∧ t.ps.nv.recorder.fields = []
        ∧ t.ps.nv.recorder.life = lifeMerge (s.ps.nv.recorder.epoch == 0) s.ps.nv.recorder.life s.ps.nv.recorder.fields
        ∧ t.reg 0x162 Reg.recorder.curEpoch = BitVec.ofNat 32 (s.ps.nv.recorder.epoch + 1)
        ∧ t.mem = s.mem)
      ∧ (∀ milliC rails, ∃ t, exec (.recorderSecond milliC rails) s = .next t
        ∧ t.ps.nv.recorder.seconds = s.doEpochClose.ps.nv.recorder.seconds + 1
        ∧ t.ps.nv.recorder.seconds ≤ 3600
        ∧ t.ps.poweredSince = (s.doEpochClose.recordSecond milliC rails).ps.poweredSince + 1))
  ∧ ((∀ n, n < 4096 → mramEpoch n = 0x0c800000 + 0x1000 * n)
    ∧ (∀ n, 4096 ≤ n → mramEpoch n = 0x0d800000 + 0x1000 * ((n - 4096) % 8192))
    ∧ (∀ n k, n < k → k < n + 8192 → mramEpoch n ≠ mramEpoch k))
  ∧ (∀ s : State, s.opActive 0x162 1 = true →
      let o := s.op 0x162
      let dst := o.arg2.toNat
      let cnt := o.arg1.toNat
      let first := o.arg0.toNat
      (cnt = 0 ∨ 4096 < cnt ∨ dst % 0x1000 ≠ 0 → exec .exportEpochs s = .next (s.opFail 0x162 2#32))
      ∧ (1 ≤ cnt → cnt ≤ 4096 → dst % 0x1000 = 0 →
        (dst + 0x1000 * cnt ≤ 0x2000000 → ∃ t, exec .exportEpochs s = .next t
          ∧ (t.op 0x162).phase = .done ∧ (t.op 0x162).result = o.result + BitVec.ofNat 32 cnt
          ∧ (∀ i, i < cnt → memBytes t.mem.sram (dst + 0x1000 * i) 0x1000 =
            if s.epochHeld (first + i) then memBytes s.mem.mram (mramEpoch (first + i)) 0x1000 else zeros 0x1000)
          ∧ (∀ x, x < dst ∨ dst + 0x1000 * cnt ≤ x → memByte t.mem.sram x = memByte s.mem.sram x)
          ∧ ((∃ i, i < cnt ∧ s.epochHeld (first + i) = false) → o.error = 0#32 → (t.op 0x162).error = 0x100#32)
          ∧ ((∀ i, i < cnt → s.epochHeld (first + i) = true) → (t.op 0x162).error = o.error)
          ∧ t.mem.mram = s.mem.mram)
        ∧ (0x2000000 < dst + 0x1000 → exec .exportEpochs s = .next ((s.opFail 0x162 0x101#32).raise 0x162 0 []))))
  ∧ (∀ s : State, s.opActive 0x162 2 = true →
      let dst := (s.op 0x162).arg2.toNat
      (dst % 0x1000 ≠ 0 → exec .exportLifetime s = .next (s.opFail 0x162 2#32))
      ∧ (dst % 0x1000 = 0 → 0x2000000 < dst + 0x1000 →
        exec .exportLifetime s = .next ((s.opFail 0x162 0x101#32).raise 0x162 0 []))
      ∧ (dst % 0x1000 = 0 → dst + 0x1000 ≤ 0x2000000 → ∃ t, exec .exportLifetime s = .next t
        ∧ (t.op 0x162).phase = .done
        ∧ memBytes t.mem.sram dst 0x1000 =
          (match s.ps.nv.recorder.lifeAt with | some a => memBytes s.mem.mram a 0x1000 | none => zeros 0x1000)
        ∧ (∀ x, x < dst ∨ dst + 0x1000 ≤ x → memByte t.mem.sram x = memByte s.mem.sram x)))
  ∧ (∀ s : State, (s.opActive 0x162 1 = false → exec .exportEpochs s = .next s)
      ∧ (s.opActive 0x162 2 = false → exec .exportLifetime s = .next s))

/-- Husk operations: each moves HUSK_STATE as R405 lists, refuses other states, and commits the boot control record.
An operation of page 0x170 that does not run changes nothing; one given in a state not listed for it fails with 0x100.
BEGIN, WRITE, ABANDON, VERIFY, ARM, DISARM, CONFIRM and FALLBACK otherwise leave exactly the boot control record of
their row; HUSK_SLOT never changes. BEGIN checks its length, WRITE its alignment, order and end (0x102), ARM its three
bits (0x121), CONFIRM its conditions (0x101, 0x120). VERIFY_DONE fails with the code of the first failing check of
R401 or leaves VERIFIED. A WRITE changes only its bytes of the husk until the last one. OTP agrees with a confirmed
fleet bundle. Rests on 13_bundles_and_update R401, 13_bundles_and_update R404, 13_bundles_and_update R405,
13_bundles_and_update R406, 13_bundles_and_update R409, 13_bundles_and_update R410, 13_bundles_and_update R411,
13_bundles_and_update R421. -/
def Obligations.TheHuskMovesAsItsTableSays : Prop :=
  (∀ s : State,
      (s.updateRuns 1 = false → exec .beginHusk s = .next s) ∧ (s.updateRuns 2 = false → exec .huskWrite s = .next s)
      ∧ (s.updateRuns 3 = false → exec .abandon s = .next s)
      ∧ (s.updateRuns 4 = false ∨ s.huskState = 3 → exec .verify s = .next s)
      ∧ (s.updateRuns 4 = false ∨ s.huskState ≠ 3 → exec .verifyDone s = .next s)
      ∧ (s.updateRuns 5 = false → exec .arm s = .next s) ∧ (s.updateRuns 6 = false → exec .disarm s = .next s)
      ∧ (s.updateRuns 7 = false → exec .confirm s = .next s) ∧ (s.updateRuns 8 = false → exec .fallback s = .next s))
  ∧ (∀ s : State,
      let no := s.opFail 0x170 0x100#32
      (s.updateRuns 1 = true → s.huskState ∉ [0, 2, 4, 8] → exec .beginHusk s = .next no)
      ∧ (s.updateRuns 2 = true → s.huskState ≠ 1 → exec .huskWrite s = .next no)
      ∧ (s.updateRuns 3 = true → s.huskState ∉ [1, 2, 4] → exec .abandon s = .next no)
      ∧ (s.updateRuns 4 = true → s.huskState ∉ [2, 3] → exec .verify s = .next no)
      ∧ (s.updateRuns 5 = true → s.huskState ≠ 4 → exec .arm s = .next no)
      ∧ (s.updateRuns 6 = true → s.huskState ≠ 5 → exec .disarm s = .next no)
      ∧ (s.updateRuns 7 = true → s.huskState ≠ 7 → exec .confirm s = .next no)
      ∧ (s.updateRuns 8 = true → s.huskState ≠ 7 → exec .fallback s = .next no))
  ∧ (∀ s : State, s.updateRuns 1 = true → s.huskState ∈ [0, 2, 4, 8] →
      let n := (s.op 0x170).arg0.toNat
      (n < 4096 ∨ 50331648 < n → exec .beginHusk s = .next (s.opFail 0x170 2#32))
      ∧ (4096 ≤ n → n ≤ 50331648 → ∃ t, exec .beginHusk s = .next t
        ∧ t.ps.nv.boot = { s.ps.nv.boot with huskState := 1, huskLen := n, huskId := 0#64 }
        ∧ t.ps.huskReceived = 0 ∧ (t.op 0x170).phase = .done))
  ∧ (∀ s : State, s.updateRuns 2 = true → s.huskState = 1 →
      let src := (s.op 0x170).arg0.toNat
      let dst := (s.op 0x170).arg1.toNat
      let n := (s.op 0x170).arg2.toNat
      let len := s.ps.nv.boot.huskLen
      let bad := dst ≠ s.ps.huskReceived ∨ src % 64 ≠ 0 ∨ dst % 64 ≠ 0 ∨ (n % 64 ≠ 0 ∧ dst + n ≠ len) ∨ len < dst + n
      let denied := 0x2000000 < src + n ∨ eccBad s.mem.sramEcc 16 src n = true
      (bad → exec .huskWrite s = .next (s.opFail 0x170 0x102#32))
      ∧ (¬bad → denied → exec .huskWrite s = .next ((s.opFail 0x170 0x102#32).raise 0x170 3 []))
      ∧ (¬bad → ¬denied → ∃ t, exec .huskWrite s = .next t ∧ t.ps.huskReceived = dst + n ∧ (t.op 0x170).phase = .done
        ∧ (dst + n = len → t.ps.nv.boot = { s.ps.nv.boot with huskState := 2 })
        ∧ (dst + n ≠ len → t.ps.nv.boot = s.ps.nv.boot
          ∧ memBytes t.mem.mram (mramImage s.ps.nv.boot.husk + dst) n = memBytes s.mem.sram src n
          ∧ ∀ x, x < mramImage s.ps.nv.boot.husk + dst ∨ mramImage s.ps.nv.boot.husk + dst + n ≤ x →
            memByte t.mem.mram x = memByte s.mem.mram x)))
  ∧ (∀ s : State,
      (s.updateRuns 3 = true → s.huskState ∈ [1, 2, 4] → ∃ t, exec .abandon s = .next t
        ∧ t.ps.nv.boot = { s.ps.nv.boot with huskState := 0, huskId := 0#64 } ∧ (t.op 0x170).phase = .done)
      ∧ (s.updateRuns 4 = true → s.huskState = 2 → ∃ t, exec .verify s = .next t
        ∧ t.ps.nv.boot = { s.ps.nv.boot with
          huskState := 3, huskId := BitVec.ofNat 64 (s.bundleLe s.ps.nv.boot.husk 0x008 8) }
        ∧ (t.op 0x170).phase = .running)
      ∧ (s.updateRuns 4 = true → s.huskState = 3 →
        (∀ e, s.verifyBundle s.ps.nv.boot.husk (some s.ps.nv.boot.huskLen) = some e →
          ∃ t, exec .verifyDone s = .next t ∧ t.ps.nv.boot = { s.ps.nv.boot with huskState := 0, huskId := 0#64 }
            ∧ (t.op 0x170).phase = .failed
            ∧ t = (((((s.setOp 0x170 ((s.op 0x170).advance s.ps.nv.boot.huskLen 0)).bump 0x170 1 1)).huskTo
              { s.ps.nv.boot with huskState := 0, huskId := 0#64 }).raise 0x170 0 []).opFail 0x170 e)
        ∧ (s.verifyBundle s.ps.nv.boot.husk (some s.ps.nv.boot.huskLen) = none →
          ∃ t, exec .verifyDone s = .next t ∧ t.ps.nv.boot = { s.ps.nv.boot with huskState := 4 }
            ∧ (t.op 0x170).phase = .done ∧ t.ps.steppingOk = s.steppingFinding s.ps.nv.boot.husk
            ∧ t.ps.compatOk = (s.modeFinding s.ps.nv.boot.husk && s.schemaFinding s.ps.nv.boot.husk s.workGen
              && s.originFinding s.ps.nv.boot.husk))))
  ∧ (∀ s : State,
      (s.updateRuns 5 = true → s.huskState = 4 →
        let allowed := s.ps.steppingOk && s.ps.compatOk && s.psetConfirmed
        (allowed = false → exec .arm s = .next (s.opFail 0x170 0x121#32))
        ∧ (allowed = true → ∃ t, exec .arm s = .next t ∧ t.ps.nv.boot = { s.ps.nv.boot with huskState := 5 }
          ∧ (t.op 0x170).phase = .done))
      ∧ (s.updateRuns 6 = true → s.huskState = 5 → ∃ t, exec .disarm s = .next t
        ∧ t.ps.nv.boot = { s.ps.nv.boot with huskState := 4 } ∧ (t.op 0x170).phase = .done)
      ∧ (s.updateRuns 7 = true → s.huskState = 7 →
        (s.sup.startMode ≠ 0 ∨ s.ps.commissioning = true → exec .confirm s = .next (s.opFail 0x170 0x101#32))
        ∧ (s.sup.startMode = 0 → s.ps.commissioning = false →
          (s.genIsActive = false → exec .confirm s = .next (s.opFail 0x170 0x120#32))
          ∧ (s.genIsActive = true → ∃ t, exec .confirm s = .next t
            ∧ t = (s.huskTo { s.ps.nv.boot with huskState := 8, trialLeft := 0, prevGen := none }).agreeOtp.updateDone
            ∧ t.ps.nv.boot = { s.ps.nv.boot with huskState := 8, trialLeft := 0, prevGen := none }
            ∧ (t.op 0x170).phase = .done)))
      ∧ (s.updateRuns 8 = true → s.huskState = 7 → ∃ t, exec .fallback s = .next t
        ∧ t.ps.nv.boot = { s.ps.nv.boot with
          active := s.ps.nv.boot.previous.getD s.ps.nv.boot.active, activeId := s.ps.nv.boot.previousId, previous := none,
          previousId := 0#64, huskState := 0, workGen := s.ps.nv.boot.prevGen.getD s.ps.nv.boot.workGen, prevGen := none,
          lastFallback := 2 }
        ∧ (t.op 0x170).phase = .done))
  ∧ (∀ s : State,
      let slot := s.ps.nv.boot.active
      (s.bundleLe slot 0x018 8 ≠ 0 → s.agreeOtp = s)
      ∧ (s.bundleLe slot 0x018 8 = 0 →
        s.agreeOtp.ps.nv.otp.counter = max s.ps.nv.otp.counter (min 64 (s.bundleLe slot 0x020 4))
        ∧ s.agreeOtp.ps.nv.otp.revoked = s.ps.nv.otp.revoked ||| BitVec.ofNat 4 (s.bundleLe slot 0x015 1)
        ∧ s.agreeOtp.ps.nv.otp.keyHashes = s.ps.nv.otp.keyHashes ∧ s.agreeOtp.ps.nv.otp.unitId = s.ps.nv.otp.unitId))

/-- WRITE_GEN writes the target generation with its module-set fields; PCV_CONFIRM judges the check value, at once or
deferred. A WRITE_GEN whose image is refused ends FAILED with its code; otherwise the target generation (the other
one, in TRIAL the working one) takes the image with WRITER, SCHEMA, a GEN_SEQ above both and PCV_OK only where the
applied confirmed value equals its PCV, and outside TRIAL becomes WORK_GEN; the other generation stays. A PCV_CONFIRM
write counts; outside commissioning it does nothing more, during a WRITE_GEN it is held and judged when that ends.
Judged, a stale set is marked, a wrong value counts a mismatch and latches it, the right one ends COMMISSIONING, makes
START_MODE OPERATIONAL and PSET_CONFIRMED true. Rests on 13_bundles_and_update R414, 13_bundles_and_update R415,
13_bundles_and_update R416, 13_bundles_and_update R417, 13_bundles_and_update R418, 13_bundles_and_update R421,
13_bundles_and_update R413. -/
def Obligations.GenerationsAreWrittenAndTheCheckValueConfirmed : Prop :=
  (∀ s : State,
      (s.opActive 0x171 1 = false ∨ s.ps.stopped = true → exec .writeGen s = .next s)
      ∧ (s.opActive 0x171 1 = true → s.ps.stopped = false →
        let src := (s.op 0x171).arg0.toNat
        let len := (s.op 0x171).arg1.toNat
        let denied := 0x2000000 < src + len ∨ eccBad s.mem.sramEcc 16 src len = true
        (src % 64 ≠ 0 → exec .writeGen s = .next (s.opFail 0x171 2#32))
        ∧ (src % 64 = 0 → denied → exec .writeGen s = .next ((s.opFail 0x171 0x103#32).raise 0x171 0 []))
        ∧ (src % 64 = 0 → ¬denied → ∀ img, memBytes s.mem.sram src len = img →
          (∀ e, s.genError img len = e → e ≠ 0 → exec .writeGen s = .next (s.opFail 0x171 (BitVec.ofNat 32 e)))
          ∧ (s.genError img len = 0 → exec .writeGen s = .next (s.takeGen img (s.newGen len (imagePcv img)))))))
  ∧ (∀ (s : State) (img : List Byte) (len : Nat),
      let gl := ofLeBytes ((img.drop 4).take 4)
      let shape := len = gl ∧ len % 64 = 0 ∧ 128 ≤ len ∧ len ≤ 8388608 ∧ ofLeBytes (img.take 2) = 1
      let fits := 0x40 + 8 * (psetOf img).1 + ((psetOf img).2.1 + 7) / 8 * 8 + 64 ≤ len
      let entries := (regEntries (psetOf img).1 (psetOf img).2.2.1).all fun e => e.ok && s.entryAllowed e
      (¬shape → s.genError img len = 0x100) ∧ (shape → ¬fits → s.genError img len = 0x101)
      ∧ (shape → fits → entries = false → s.genError img len = 0x102)
      ∧ (s.genError img len = 0 ↔ shape ∧ fits ∧ entries = true))
  ∧ (∀ (s : State) (len : Nat) (pcv : Word),
      let r := s.newGen len pcv
      (r.pcvOk = true ↔ s.ps.appliedConfirmed = some pcv) ∧ r.pcv = pcv ∧ r.len = len ∧ r.writer = s.ps.nv.boot.activeId
      ∧ r.schema = BitVec.ofNat 32 (s.bundleLe s.ps.nv.boot.active 0x04c 4) ∧ r.seq = s.nextGenSeq
      ∧ (s.ps.nv.gen0 = none → s.ps.nv.gen1 = none → s.nextGenSeq = 1#64)
      ∧ (∀ g q, s.gen g = some q → (∀ k p, s.gen k = some p → p.seq.toNat < 2 ^ 64 - 1) → q.seq.toNat < s.nextGenSeq.toNat))
  ∧ (∀ (s : State) (img : List Byte) (r : GenRec), s.ps.stopped = false → s.ps.inFlight = none → s.ps.waiting = [] →
      s.ps.nv.boot.workGen ≤ 1 →
      let t := s.takeGen img r
      (t.op 0x171).phase = .done
      ∧ (s.huskState = 7 → t.gen s.ps.nv.boot.workGen = some r ∧ t.ps.nv.boot = s.ps.nv.boot
        ∧ t.gen (1 - s.ps.nv.boot.workGen) = s.gen (1 - s.ps.nv.boot.workGen))
      ∧ (s.huskState ≠ 7 → t.gen (1 - s.ps.nv.boot.workGen) = some r
        ∧ t.ps.nv.boot = { s.ps.nv.boot with workGen := 1 - s.ps.nv.boot.workGen }
        ∧ t.gen s.ps.nv.boot.workGen = s.gen s.ps.nv.boot.workGen))
  ∧ (∀ (m : Master) (v : Word) (s : State),
      (s.mayWritePage m 0x172 Reg.commissioning.pcvConfirm = true →
        let u := s.bump 0x172 0 1
        (s.ps.commissioning = false → exec (.pcvConfirm m v) s = .next (u.answer .none))
        ∧ (s.ps.commissioning = true →
          (u.genBusy = true →
            exec (.pcvConfirm m v) s = .next ((u.setPs { u.ps with confirmHeld := some v }).answer .none))
          ∧ (u.genBusy = false → exec (.pcvConfirm m v) s = .next ((u.judgePcv v).answer .none))))
      ∧ (s.ps.confirmHeld = none ∨ s.genBusy = true → exec .pcvConfirmDeferred s = .next s)
      ∧ (s.ps.confirmHeld = some v → s.genBusy = false →
        exec .pcvConfirmDeferred s = .next ((s.setPs { s.ps with confirmHeld := none }).judgePcv v)))
  ∧ (∀ (v : Word) (s : State),
      let computed := s.reg 0x172 Reg.commissioning.pcvComputed
      (s.ps.commissioning = false → s.judgePcv v = s)
      ∧ (s.ps.commissioning = true →
        (s.workGen = none → s.judgePcv v = s.setPs { s.ps with stale := true })
        ∧ (∀ r, s.workGen = some r →
          (r.pcv ≠ computed → s.judgePcv v = s.setPs { s.ps with stale := true })
          ∧ (r.pcv = computed → v ≠ computed → s.judgePcv v =
            ((s.satReg 0x172 Reg.commissioning.pcvMismatches 1).bump 0x172 1 1).raise 0x172 0 [])
          ∧ (r.pcv = computed → v = computed → ∃ t, s.judgePcv v = t ∧ t.ps.commissioning = false
            ∧ t.ps.appliedConfirmed = some v ∧ t.sup.startMode = 0
            ∧ fieldOf (t.reg 0x001 Reg.ident.startStatus) 1 0 = 0
            ∧ (s.ps.stopped = false → s.ps.inFlight = none → s.ps.waiting = [] → s.ps.nv.boot.workGen ≤ 1 →
              t.psetConfirmed = true)))))

/-- BANK_LOAD fills the inactive bank after its checks; swaps are requested, refused or merged, and applied as R317
lists. BANK_LOAD fails with 0x100 while a swap is pending or armed, 0x104 (ACCESS_ERROR) when a read is refused, 0x101
for a header or coefficient out of form, 0x102 for a CRC that differs, 0x103 for an asymmetric bank of a safety
channel; every failure of the load itself leaves INACTIVE_CHECKED 0. Else the inactive bank holds the words read,
checked, with its CRC, OP_RESULT up by 1, every other channel unchanged. A swap request merges into a pending one, is
refused with 1 when the bank is not checked, with 3 during a load, else sets SWAP_PENDING. Applying it recomputes the
CRC: a mismatch is refused with 2, a match exchanges the banks and restarts windows and trip. A refusal latches
SWAP_REFUSED and leaves the active bank. That the check for a pending swap comes before INACTIVE_CHECKED is cleared is
the model's reading. Rests on 10_measurement_chain R314, 10_measurement_chain R315, 10_measurement_chain R317,
10_measurement_chain R318, 10_measurement_chain R319, 10_measurement_chain R316, 01_module_organization R32,
01_module_organization R19. -/
def Obligations.BanksAreLoadedAndSwapped : Prop :=
  (∀ (c : Fin 32) (s : State),
      let p := chPage c.val
      let h := s.ch c.val
      let o := s.op p
      let base := o.arg0.toNat
      (s.opActive p 1 = false → exec (.bankLoad c) s = .next s)
      ∧ (s.opActive p 1 = true → h.swapPending = true ∨ h.armed = true → exec (.bankLoad c) s = .next (s.opFail p 0x100#32))
      ∧ (s.opActive p 1 = true → h.swapPending = false → h.armed = false →
        (s.sramWords base 4 = none → exec (.bankLoad c) s = .next ((s.bankFail c.val 0x104#32).raise p 4 []))
        ∧ (∀ head, s.sramWords base 4 = some head →
          let n := 4 + (bankOf head).taps
          ((bankOf head).ok = false → exec (.bankLoad c) s = .next (s.bankFail c.val 0x101#32))
          ∧ ((bankOf head).ok = true → s.sramWords base n = none →
            exec (.bankLoad c) s = .next ((s.bankFail c.val 0x104#32).raise p 4 []))
          ∧ (∀ ws, (bankOf head).ok = true → s.sramWords base n = some ws →
            let b := bankOf ws
            let read := ((s.bw 84 (4 * ws.length)).setCh c.val (h.setInact b)).setOp p (o.advance ws.length 0)
            (b.ok = false → exec (.bankLoad c) s = .next (read.bankFail c.val 0x101#32))
            ∧ (b.ok = true → b.imageCrc ≠ o.arg1 → exec (.bankLoad c) s = .next (read.bankFail c.val 0x102#32))
            ∧ (b.ok = true → b.imageCrc = o.arg1 → bitOf (s.chCfg c.val) 24 = true → b.isSymmetric = false →
              exec (.bankLoad c) s = .next (read.bankFail c.val 0x103#32))
            ∧ (b.ok = true → b.imageCrc = o.arg1 → bitOf (s.chCfg c.val) 24 = false ∨ b.isSymmetric = true →
              ∃ t : State, exec (.bankLoad c) s = .next t
                ∧ t.ch c.val = h.setInact { b with checked := true, symmetric := b.isSymmetric, crc := o.arg1 }
                ∧ (∀ d, d ≠ c.val → t.ch d = s.ch d)
                ∧ (t.op p).phase = .done ∧ (t.op p).result = o.result + 1#32
                ∧ (t.op p).progress = satAdd 0xffffff o.progress ws.length
                ∧ { t with meas := s.meas, ops := s.ops, counters := s.counters, obs := s.obs } = s)))))
  ∧ (∀ (c : Fin 32) (e : Word) (s : State),
      ((s.bankFail c.val e).ch c.val).inact.checked = false ∧ ((s.bankFail c.val e).ch c.val).act = (s.ch c.val).act
      ∧ ((s.bankFail c.val e).op (chPage c.val)).phase = .failed)
  ∧ (∀ (m : Master) (c : Fin 32) (s : State),
      let p := chPage c.val
      let h := s.ch c.val
      let loading := (s.op p).opcode.val = 1 ∧ ((s.op p).phase = .queued ∨ (s.op p).phase = .running)
      let refused := s.violation m (0x18000000 + 0x1000 * p + Reg.ch.bankCmd)
      (s.mayWritePage m p Reg.ch.bankCmd = false → exec (.swap m c) s = .next refused
        ∧ exec (.swapOnSync m c) s = .next refused ∧ exec (.cancel m c) s = .next refused)
      ∧ (s.mayWritePage m p Reg.ch.bankCmd = true →
        exec (.swapOnSync m c) s = .next ((s.setCh c.val { h with armed := true }).answer .none)
        ∧ exec (.cancel m c) s = .next ((s.setCh c.val { h with armed := false }).answer .none)
        ∧ (h.swapPending = true → exec (.swap m c) s = .next (s.answer .none))
        ∧ (h.swapPending = false → h.inact.checked = false → exec (.swap m c) s = .next ((s.swapRefused c.val 1).answer .none))
        ∧ (h.swapPending = false → h.inact.checked = true → loading →
          exec (.swap m c) s = .next ((s.swapRefused c.val 3).answer .none))
        ∧ (h.swapPending = false → h.inact.checked = true → ¬loading →
          exec (.swap m c) s = .next ((s.setCh c.val { h with swapPending := true }).answer .none))))
  ∧ (∀ (c : Fin 32) (f : Nat) (s : State),
      let t := s.swapRefused c.val f
      t.ch c.val = { s.ch c.val with swapFail := f, swapPending := false } ∧ (∀ d, d ≠ c.val → t.ch d = s.ch d)
      ∧ t.hasCause (chPage c.val) 1 = true ∧ t.mem = s.mem ∧ t.ops = s.ops ∧ t.sup = s.sup)
  ∧ (∀ (c : Fin 32) (s : State),
      let h := s.ch c.val
      (h.swapPending = false → exec (.bankSwapApply c) s = .next s)
      ∧ (h.swapPending = true → h.inact.imageCrc ≠ h.inact.crc → exec (.bankSwapApply c) s = .next (s.swapRefused c.val 2))
      ∧ (h.swapPending = true → h.inact.imageCrc = h.inact.crc → ∃ t : State, exec (.bankSwapApply c) s = .next t
        ∧ t.ch c.val = { h with
          active := !h.active, swapPending := false, brmsBuf := [], above := false, runFrom := none, trip := false,
          winCfg := s.reg (chPage c.val) Reg.ch.winCfg, winN := 0, winMin := 0, winMax := 0, winSq := 0,
          winCycle := s.time.mp.toNat / 2 ^ 32 }
        ∧ (∀ d, d ≠ c.val → t.ch d = s.ch d) ∧ t.sup.tripLines = t.tripLinesNow
        ∧ { t with meas := s.meas, counters := s.counters, obs := s.obs, sup := s.sup } = s))

/-- Chain and resampler outputs are rounded, limited and flagged; stuck modulators, trip lines and the tracker act as
ruled. Rounding is to the nearest value, ties away from zero; limiting is to 24 bits. CHAIN_OUTPUT does nothing to a
channel not ON or with another number of bits; it passes the decimated value, or with FIR_EN the FIR's, which is a
free sample where the sum leaves 48 bits (the spec states none). The sample heads the channel's FIR outputs, uses up
one UNSETTLED output and frees the resampler; other channels stay. RESAMPLER_OUTPUT gives one output per FIR sample
and drops a second with RATE_LIMIT. MOD_STUCK and its end set and clear the live bit. A tripped line makes the
supervisor react. The tracker locks at four good periods, loses lock at a bad period, at LOCK_LOST and at a window
below TRACK_MIN; an update goes to MP unless PT_MP withholds it; SYSTEM changes at the confirm count. Rests on
10_measurement_chain R305, 10_measurement_chain R306, 10_measurement_chain R309, 10_measurement_chain R310,
10_measurement_chain R311, 10_measurement_chain R320, 10_measurement_chain R321, 10_measurement_chain R327,
10_measurement_chain R330, 10_measurement_chain R331, 10_measurement_chain R332, 10_measurement_chain R333. -/
def Obligations.ChainOutputsDetectorsAndTrackerFollowTheirRules : Prop :=
  (∀ (a : Int) (d : Nat), 0 < d →
      2 * (a - d * roundDiv a d).natAbs ≤ d
      ∧ (2 * (a - d * roundDiv a d).natAbs = d → a.natAbs < d * (roundDiv a d).natAbs))
  ∧ (∀ v : Int,
      (-8388608 ≤ v → v ≤ 8388607 → sat24 v = (v, false)) ∧ (v < -8388608 → sat24 v = (-8388608, true))
      ∧ (8388607 < v → sat24 v = (8388607, true)))
  ∧ (∀ (c : Fin 32) (bits : List Bool) (s : State),
      let k := s.orderK c.val
      let r0 : ChainRun := ⟨s.ch c.val, 0, 0⟩
      let r := if s.scs c.val then r0.convert k (s.decim c.val) bits else r0.decimate k (s.decim c.val) (s.halfBands c.val) bits
      let fir := (r.value :: r.ch.fir).take 256
      let sum := firSum r.ch.act.coefs fir
      let s1 := s.setCh c.val { r.ch with fir := fir }
      (s.chOn c.val = false ∨ bits.length ≠ s.bitsPerOutput c.val → exec (.chainOutput c bits) s = .next s)
      ∧ (s.chOn c.val = true → bits.length = s.bitsPerOutput c.val →
        (s.firEn c.val = false → exec (.chainOutput c bits) s = .next ((s.setCh c.val r.ch).firOut c.val r.value r.sats))
        ∧ (s.firEn c.val = true → -(2 ^ 47) ≤ sum → sum < 2 ^ 47 → exec (.chainOutput c bits) s =
          .next (s1.firOut c.val (sat24 (roundDiv sum (2 ^ 22))).1 (r.sats + (sat24 (roundDiv sum (2 ^ 22))).2.toNat)))
        ∧ (s.firEn c.val = true → sum < -(2 ^ 47) ∨ 2 ^ 47 ≤ sum → ∃ x : Int, -8388608 ≤ x ∧ x ≤ 8388607
          ∧ exec (.chainOutput c bits) s = .next ({ s1 with free := s1.free + 1 }.firOut c.val x r.sats))))
  ∧ (∀ (c : Fin 32) (x : Int) (n : Nat) (s : State),
      let h := s.ch c.val
      let t := s.firOut c.val x n
      (∃ i, (t.ch c.val).outs = ((x, i) :: h.outs).take 32)
      ∧ (t.ch c.val).unsettled = h.unsettled - 1 ∧ (t.ch c.val).lastUnsettled = decide (0 < h.unsettled)
      ∧ (t.ch c.val).rsTaken = false ∧ (t.ch c.val).bank0 = h.bank0 ∧ (t.ch c.val).bank1 = h.bank1
      ∧ (t.ch c.val).active = h.active ∧ (∀ d, d ≠ c.val → t.ch d = s.ch d)
      ∧ ∀ (i : Int) (f : Nat), ((s.chainOut c.val x i f).ch c.val).lastOut = x
        ∧ ((s.chainOut c.val x i f).ch c.val).outs = h.outs ∧ ∀ d, d ≠ c.val → (s.chainOut c.val x i f).ch d = s.ch d)
  ∧ (∀ (c : Fin 32) (time : DWord) (s : State),
      let h := s.ch c.val
      let p := chPage c.val
      let v := sat24 (Config.resample (nearest16 h.outs time.toNat) time.toNat)
      let s1 := (s.setCh c.val { h with rsTaken := true, rateLimited := false }).satReg p Reg.ch.satCount v.2.toNat
      let hold := s.rsMode c.val == 1 && s.time.mpHoldover
      let above := (s.setCh c.val { h with rateLimited := true }).bump p 7 1
      let flags := h.lastUnsettled.toNat + 2 * v.2.toNat + 4 * h.stuck.toNat + 8 * hold.toNat
      (s.chOn c.val = false ∨ s.rsMode c.val = 0 → exec (.resamplerOutput c time) s = .next s)
      ∧ (s.chOn c.val = true → s.rsMode c.val ≠ 0 →
        (h.rsTaken = true → h.rateLimited = true → exec (.resamplerOutput c time) s = .next above)
        ∧ (h.rsTaken = true → h.rateLimited = false → exec (.resamplerOutput c time) s = .next (above.raise p 3 []))
        ∧ (h.rsTaken = false → v.2 = false →
          exec (.resamplerOutput c time) s = .next (s1.chainOut c.val v.1 time.toNat flags))
        ∧ (h.rsTaken = false → v.2 = true →
          exec (.resamplerOutput c time) s = .next ((s1.bump p 2 1).chainOut c.val v.1 time.toNat flags))))
  ∧ (∀ (c : Fin 32) (s : State),
      let h := s.ch c.val
      (s.chOn c.val = false ∨ h.stuck = true → exec (.modStuck c) s = .next s)
      ∧ (s.chOn c.val = true → h.stuck = false → exec (.modStuck c) s =
        .next (((s.setCh c.val { h with stuck := true }).bump (chPage c.val) 10 1).raise (chPage c.val) 2 []))
      ∧ exec (.modStuckClear c) s = .next (s.setCh c.val { h with stuck := false }))
  ∧ (∀ (n : Fin 8) (s : State),
      (s.sup.tripLines.getLsbD n.val = true →
        exec (.measTripLine n) s = .next (s.react (s.tripReaction n.val) 14 (s.classOrigin 14)))
      ∧ (s.sup.tripLines.getLsbD n.val = false → exec (.measTripLine n) s = .next s))
  ∧ (∀ s : State,
      let k := s.meas.trk
      let s1 := s.bump 0x106 0 1
      (k.crossing = none ∨ s.trkOn = false → exec .zeroCrossing s = .next s)
      ∧ (∀ t : Int, k.crossing = some t → s.trkOn = true →
        (k.last = none → exec .zeroCrossing s = .next (s1.setTrk { k with crossing := none, last := some t }))
        ∧ (∀ t0 : Int, k.last = some t0 →
          let four := ((t - t0) :: k.periods).take 4
          let k1 := { k with crossing := none, last := some t, periods := four }
          let good := four.length = 4 ∧ ∀ q, q ∈ four → 250000000 ≤ 70 * q ∧ 14 * q ≤ 250000000 ∧ nearMean q (sum4 four) = true
          (k.locked = true → nearMean (t - t0) (sum4 k.periods) = true →
            exec .zeroCrossing s = .next (s1.setTrk k1).trackFreq)
          ∧ (k.locked = true → nearMean (t - t0) (sum4 k.periods) = false →
            exec .zeroCrossing s = .next (s1.setTrk { k1 with periods := [] }).loseLock)
          ∧ (k.locked = false → good →
            exec .zeroCrossing s = .next ((s1.setTrk { k1 with locked := true }).bump 0x106 1 1).trackFreq)
          ∧ (k.locked = false → ¬good → exec .zeroCrossing s = .next (s1.setTrk k1)))))
  ∧ (∀ s : State,
      let ready := s.trkOn = true ∧ s.meas.trk.locked = true
      let s1 := s.trackFreq.bump 0x106 3 1
      (¬ready → exec .trackerUpdate s = .next s ∧ exec .lockLost s = .next s)
      ∧ (ready → exec .lockLost s = .next s.loseLock
        ∧ (bitOf (s.pt Reg.perturb.ptMp) 0 = true → exec .trackerUpdate s = .next s.ptApplied)
        ∧ (bitOf (s.pt Reg.perturb.ptMp) 0 = false →
          exec .trackerUpdate s = .next (s1.doMpUpdate (s1.reg 0x106 Reg.tracker.trkFreq))))
      ∧ s.loseLock.meas.trk = { s.meas.trk with locked := false, periods := [] } ∧ s.loseLock.hasCause 0x106 0 = true)
  ∧ (∀ s : State,
      let s1 := s.windowValues.bump 0x106 4 1
      let low := (s1.reg 0x106 Reg.tracker.trkAcRms).toNat < s1.field 0x106 Reg.tracker.trackMin 23 0
      let after (u : State) (cand : Nat) : State :=
        let k := u.meas.trk
        let count := if cand = k.candidate then satAdd 255 k.count 1 else 1
        let v := u.setTrk { k with candidate := cand, count := count }
        let w := if count = v.field 0x106 Reg.tracker.trkConfig 23 16 ∧ cand ≠ k.system then v.systemIs cand else v
        if w.meas.trk.system < 8 then w.recCatenary w.meas.trk.system else w
      let u := if low ∧ s1.meas.trk.locked = true then s1.loseLock else s1
      (s.trkOn = false → exec .detectionWindow s = .next s)
      ∧ (s.trkOn = true →
        (∀ n, n < 8 → u.systemMatches n = true → (∀ m, m < n → u.systemMatches m = false) →
          exec .detectionWindow s = .next (after u n))
        ∧ ((∀ m, m < 8 → u.systemMatches m = false) → exec .detectionWindow s = .next (after u 15)))
      ∧ (∀ n, (s.systemIs n).meas.trk = { s.meas.trk with system := n }
        ∧ (n < 8 → bitOf (s.reg 0x106 (Reg.tracker.sysCfg + 12 * n)) 30 = true → (s.systemIs n).reg 0x141 Reg.time.mpNominal =
          BitVec.ofNat 32 (fieldOf (s.reg 0x106 (Reg.tracker.sysCfg + 12 * n)) 19 0))
        ∧ (8 ≤ n ∨ bitOf (s.reg 0x106 (Reg.tracker.sysCfg + 12 * n)) 30 = false →
          (s.systemIs n).reg 0x141 Reg.time.mpNominal = s.reg 0x141 Reg.time.mpNominal)))

/-- Interpolating outputs take, clip and filter their input; COEF_LOAD loads checked coefficients; a wrong setting
refuses a start. An output not ON takes no input. ON, it takes the next ring sample and counts it, repeats the
previous one and counts and latches UNDERRUN when the ring is empty, takes 0 and latches ACCESS_ERROR when the read is
refused, or takes the channel's newest FIR output or OUT_CONST. The value is clipped to ±6,291,456 and counted when it
was, then filtered; a sum beyond 48 bits gives a free value, since the spec states none. OUT_POSTED takes a value
within 2^RING_LOG2 of both counts and ignores any other. COEF_LOAD fails with 0x101, 0x102 or 0x104, or stores N
coefficients. A start that R336 refuses ends FAULTED with CONFIG_REFUSED or RATE_MISMATCH; one that passes clears the
unit's histories. Rests on 10_measurement_chain R334, 10_measurement_chain R335, 08_train_network_switch R250,
10_measurement_chain R336, 10_measurement_chain R310, 10_measurement_chain R322, 01_module_organization R32,
01_module_organization R19. -/
def Obligations.OutputsTakeTheirInputsAndStartsAreChecked : Prop :=
  (∀ (n : Fin 8) (s : State),
      let p := outPage n.val
      let i := s.outInput n.val
      let v : Int := if i.1 < -6291456 then -6291456 else if 6291456 < i.1 then 6291456 else i.1
      let s1 := i.2.bump p 0 1
      let s2 := if v = i.1 then s1 else (s1.satReg p Reg.out.outClips 1).bump p 2 1
      let o := s2.out n.val
      let line := (v :: o.line).take 128
      let sum := firSum o.coefs line
      let fir := bitOf (s2.reg p Reg.out.outConfig) 10
      ((s.page p).run ≠ .on → exec (.outputInputSample n) s = .next s)
      ∧ ((s.page p).run = .on →
        (fir = false → exec (.outputInputSample n) s = .next (s2.setOut n.val { o with prev := v, line := line, fed := v }))
        ∧ (fir = true → -(2 ^ 47) ≤ sum → sum < 2 ^ 47 → exec (.outputInputSample n) s =
          .next (s2.setOut n.val { o with prev := v, line := line, fed := (sat24 (roundDiv sum (2 ^ 22))).1 }))
        ∧ (fir = true → sum < -(2 ^ 47) ∨ 2 ^ 47 ≤ sum → ∃ x : Int, -8388608 ≤ x ∧ x ≤ 8388607
          ∧ exec (.outputInputSample n) s =
            .next ({ s2 with free := s2.free + 1 }.setOut n.val { o with prev := v, line := line, fed := x }))))
  ∧ (∀ (n : Fin 8) (s : State),
      let p := outPage n.val
      let source := fieldOf (s.reg p Reg.out.outConfig) 13 12
      let seq := s.reg p Reg.out.outSeq
      let off := (s.reg p Reg.out.outRingBase).toNat + 4 * (seq.toNat % 2 ^ s.field p Reg.out.outRingCfg 4 0)
      let i := s.outInput n.val
      (source = 0 → seq = s.reg p Reg.out.outPosted →
        i.1 = (s.out n.val).prev ∧ i.2 = (((s.satReg p Reg.out.outUnderruns 1).bump p 1 1).raise p 0 [])
        ∧ i.2.hasCause p 0 = true)
      ∧ (source = 0 → seq ≠ s.reg p Reg.out.outPosted →
        (∀ w, s.sramWords off 1 = some [w] → i.1 = signed24 w ∧ i.2 = (s.incReg p Reg.out.outSeq 1).bw 84 4)
        ∧ (s.sramWords off 1 = none → i.1 = 0 ∧ i.2 = ((s.incReg p Reg.out.outSeq 1).bw 84 4).raise p 2 []
          ∧ i.2.hasCause p 2 = true))
      ∧ (source = 1 → i.2 = s ∧ ∀ q l, (s.ch (fieldOf (s.reg p Reg.out.outConfig) 20 16)).outs = q :: l → i.1 = q.1)
      ∧ (source = 2 → i = (signed24 (s.reg p Reg.out.outConst), s)))
  ∧ (∀ (m : Master) (n : Fin 8) (v : Word) (s : State),
      let p := outPage n.val
      let span := 2 ^ s.field p Reg.out.outRingCfg 4 0
      let fits := (v - s.reg p Reg.out.outPosted).toNat ≤ span ∧ (v - s.reg p Reg.out.outSeq).toNat ≤ span
      (s.mayWritePage m p Reg.out.outPosted = false → exec (.outPostedWrite m n v) s =
        .next (s.violation m (0x18000000 + 0x1000 * p + Reg.out.outPosted)))
      ∧ (s.mayWritePage m p Reg.out.outPosted = true →
        (fits → exec (.outPostedWrite m n v) s = .next ((s.setReg p Reg.out.outPosted v).answer .none))
        ∧ (¬fits → exec (.outPostedWrite m n v) s = .next (s.answer .none))))
  ∧ (∀ (n : Fin 8) (s : State),
      let p := outPage n.val
      let o := s.op p
      let k := o.arg1.toNat
      (s.opActive p 1 = false ∨ (s.page p).run ≠ .off → exec (.coefLoad n) s = .next s)
      ∧ (s.opActive p 1 = true → (s.page p).run = .off →
        (k = 0 ∨ 128 < k → exec (.coefLoad n) s = .next (s.opFail p 0x101#32))
        ∧ (0 < k → k ≤ 128 →
          (s.sramWords o.arg0.toNat k = none → exec (.coefLoad n) s = .next ((s.opFail p 0x104#32).raise p 2 []))
          ∧ (∀ ws, s.sramWords o.arg0.toNat k = some ws →
            ((∃ w, w ∈ ws ∧ coefOk w = false) → exec (.coefLoad n) s = .next (s.opFail p 0x101#32))
            ∧ ((∀ w, w ∈ ws → coefOk w = true) → crc32 (wordBytes ws) ≠ o.arg2 →
              exec (.coefLoad n) s = .next (s.opFail p 0x102#32))
            ∧ ((∀ w, w ∈ ws → coefOk w = true) → crc32 (wordBytes ws) = o.arg2 → ∃ t, exec (.coefLoad n) s = .next t
              ∧ (t.out n.val) = { s.out n.val with coefs := ws } ∧ (t.op p).phase = .done ∧ (t.op p).result = o.result + 1#32
              ∧ t.reg p Reg.out.outTaps = BitVec.ofNat 32 k ∧ t.mem = s.mem)))))
  ∧ (∀ (u : Fin 40) (s : State),
      let p := 0x108 + u.val
      ((s.page p).run ≠ .starting → exec (.channelStartCheck u) s = .next s)
      ∧ ((s.page p).run = .starting →
        (u.val < 32 → s.chRefused u.val = true → exec (.channelStartCheck u) s = .next (s.raiseStop p 5 []))
        ∧ (u.val < 32 → s.chRefused u.val = false → ∃ t, exec (.channelStartCheck u) s = .next t
          ∧ ((t.ch u.val).integ, (t.ch u.val).comb, (t.ch u.val).cic, (t.ch u.val).half, (t.ch u.val).fir) = ([], [], [], [], [])
          ∧ (t.ch u.val).outs = [] ∧ (t.ch u.val).brmsBuf = [] ∧ (t.ch u.val).trip = false ∧ (t.ch u.val).winN = 0
          ∧ (t.ch u.val).unsettled = s.unsettledCount u.val ∧ (t.ch u.val).streamStopped = false
          ∧ (t.ch u.val).act = (s.ch u.val).act ∧ (∀ d, d ≠ u.val → t.ch d = s.ch d))
        ∧ (32 ≤ u.val → s.outRefused (u.val - 32) = true → exec (.channelStartCheck u) s = .next (s.raiseStop p 1 []))
        ∧ (32 ≤ u.val → s.outRefused (u.val - 32) = false → exec (.channelStartCheck u) s =
          .next (s.setOut (u.val - 32) { s.out (u.val - 32) with line := [] }))))
  ∧ (∀ (c : Fin 32) (s : State),
      let brms := bitOf (s.reg (chPage c.val) Reg.ch.brmsCfg) 0
      let mclk := s.clkDiv c.val * s.decimTotal c.val
      s.chRefused c.val = true ↔
        (s.scs c.val = true ∧ (s.halfBands c.val ≠ 0 ∨ s.firEn c.val = true ∨ s.rsMode c.val ≠ 0 ∨ brms = true))
        ∨ (s.firEn c.val = true ∧ (s.ch c.val).act.taps = 0)
        ∨ (brms = true ∧ (s.firEn c.val = false ∨ 400000000 < 2000 * mclk))
        ∨ (s.rsMode c.val = 3 ∧ 400000000 < s.field (chPage c.val) Reg.ch.rsRate 15 0 * mclk))

/-- Outbound accesses decode to the lowest enabled window; reads are buffered and reissued, writes posted in order,
fences count failures. A misaligned access answers misaligned, one the region refuses is a violation, one in no
enabled window or with the bridge not ON latches ACCESS_ERROR as well. A read in a window allocates one of 8 entries
behind the posted writes and answers RETRY, and a later issue claims the filled entry once. A fetch on the owned bus
fills it, or fails it with READ_FAILED. A store takes one of 16 entries for each cycle, with the next sequence
numbers, or answers RETRY (that all entries must be free is the model's reading). DTACK takes the head out and moves
VME_POSTED_SEQ; BERR, the bus timer or MASTER_TIMEOUT fails the block with its cause, counting, logging and latching.
A fence answers RETRY while writes stand ahead of it, then the master's failure count, which it clears. Without a
cycle in progress nothing changes. Rests on 11_vme_bridge R341, 11_vme_bridge R342, 11_vme_bridge R346, 11_vme_bridge
R347, 11_vme_bridge R348, 11_vme_bridge R349, 11_vme_bridge R350, 01_module_organization R31, 01_module_organization
R32, 01_module_organization R488. -/
def Obligations.OutboundReadsPostedWritesAndFencesComplete : Prop :=
  (∀ (m : Master) (a size : Nat) (write : Bool) (s : State),
      let d := s.vmeDecode m a size write
      let here := regionOf a = .vme ∧ regionAllows (columnOf m) .vme write = true
      (a % size ≠ 0 → d = .misaligned) ∧ (a % size = 0 → ¬here → d = .foreign)
      ∧ (a % size = 0 → here → s.windowOf a = none ∨ s.vmeOn = false → d = .refused)
      ∧ (a % size = 0 → here → s.vmeOn = true → ∀ w, s.windowOf a = some w → d = .window w)
      ∧ (∀ n, n < 8 → bitOf (s.outWin n).ctrl 0 = true → (s.outWin n).base ≤ a → a < (s.outWin n).base + (s.outWin n).size →
        (∀ k, k < n → bitOf (s.outWin k).ctrl 0 = false ∨ a < (s.outWin k).base ∨ (s.outWin k).base + (s.outWin k).size ≤ a) →
        s.windowOf a = some (s.outWin n)))
  ∧ (∀ (m : Master) (a : BitVec 40) (size : Nat) (data : DWord) (s : State),
      let d := s.vmeDecode m a.toNat size
      let refuse := (s.raise 0x150 0 []).violation m a.toNat
      (d false = .misaligned → exec (.vmeOutboundRead m a size) s = .next (s.answer .misaligned))
      ∧ (d false = .foreign → exec (.vmeOutboundRead m a size) s = .next (s.violation m a.toNat))
      ∧ (d false = .refused → exec (.vmeOutboundRead m a size) s = .next refuse)
      ∧ (d true = .misaligned → exec (.vmePostedWrite m a size data) s = .next (s.answer .misaligned))
      ∧ (d true = .foreign → exec (.vmePostedWrite m a size data) s = .next (s.violation m a.toNat))
      ∧ (d true = .refused → exec (.vmePostedWrite m a size data) s = .next refuse)
      ∧ exec (.vmeReadReissue m a size) s = exec (.vmeOutboundRead m a size) s)
  ∧ (∀ (m : Master) (a : BitVec 40) (size : Nat) (w : OutWin) (s : State), s.vmeDecode m a.toNat size false = .window w →
      let entry := s.vme.reads.find? fun r => r.isFor m a size
      let rest := s.vme.reads.filter fun q => !(q.isFor m a size)
      let retry (t : State) : State := (t.bump 0x150 8 1).answer .wait
      (∀ r, entry = some r →
        (r.filled = none → exec (.vmeOutboundRead m a size) s = .next (retry s))
        ∧ (∀ v, r.filled = some (some v) → exec (.vmeOutboundRead m a size) s =
          .next ((s.setVme { s.vme with reads := rest }).answer (.value v)))
        ∧ (r.filled = some none → exec (.vmeOutboundRead m a size) s =
          .next ((s.setVme { s.vme with reads := rest }).answer (violationReply m))))
      ∧ (entry = none → 8 ≤ s.vme.reads.length → exec (.vmeOutboundRead m a size) s = .next (retry s))
      ∧ (entry = none → s.vme.reads.length < 8 → exec (.vmeOutboundRead m a size) s =
        .next (retry (s.setVme { s.vme with reads := s.vme.reads ++ [⟨m, a, size, s.vme.fifo.length, none⟩] }))))
  ∧ (∀ (m : Master) (a : BitVec 40) (size : Nat) (r : VmeAnswer) (s : State),
      let due := s.vme.reads.find? fun q => q.isFor m a size && q.ahead == 0 && q.filled.isNone
      let fill (q : VmeRead) (x : Option DWord) : State := s.setVme
        { s.vme with reads := s.vme.reads.map fun y => if y = q then { q with filled := some x } else y }
      (s.vme.owned = false ∨ due = none ∨ s.windowOf a.toNat = none → exec (.vmeReadFetchDone m a size r) s = .next s)
      ∧ (s.vme.owned = true → ∀ q w, due = some q → s.windowOf a.toNat = some w →
        (∀ bs, exec (.vmeReadFetchDone m a size (some bs)) s =
          .next ((((fill q (some (w.value size bs))).vmeBump 0 (w.parts size)).bw 94 size).stretched 16).betweenCycles)
        ∧ exec (.vmeReadFetchDone m a size none) s =
          .next (((((fill q none).satReg 0x150 Reg.vme.readFails 1).bump 0x150 12 1).raise 0x150 2 []).betweenCycles)))
  ∧ (∀ (m : Master) (a : BitVec 40) (size : Nat) (data : DWord) (w : OutWin) (s : State),
      s.vmeDecode m a.toNat size true = .window w →
      let l := s.postedParts m w a.toNat size data
      let free := s.vme.fifo.length + w.parts size ≤ 16
      (s.lockedBy m a = true → exec (.vmePostedWrite m a size data) s =
        .next (((s.bump 0x150 11 1).bump 0x150 8 1).answer .wait))
      ∧ (s.lockedBy m a = false → ¬free → exec (.vmePostedWrite m a size data) s = .next ((s.bump 0x150 8 1).answer .wait))
      ∧ (s.lockedBy m a = false → free → exec (.vmePostedWrite m a size data) s = .next ((s.setVme
        { s.vme with
          fifo := s.vme.fifo ++ l, accepted := s.vme.accepted + BitVec.ofNat 32 (w.parts size) }).issue.answer .none))
      ∧ l.length = w.parts size
      ∧ (∀ i x, l[i]? = some x → x.seq = s.vme.accepted + BitVec.ofNat 32 (i + 1) ∧ x.bytes = min size w.width
        ∧ x.window = w.n ∧ x.addr < 2 ^ spaceBits w.space))
  ∧ (∀ s : State,
      let idle := s.vme.block = 0 ∨ s.vme.fifo = []
      let failed (cause beats : Nat) : State := ((s.vmeBump 12 beats).blockFails cause).betweenCycles
      (idle → exec (.vmeWriteResult true) s = .next s ∧ exec (.vmeWriteResult false) s = .next s
        ∧ exec (.busTimer .posted) s = .next s ∧ exec (.masterTimeout .posted) s = .next s)
      ∧ (¬idle →
        (∀ w l, s.vme.fifo = w :: l → exec (.vmeWriteResult true) s = .next
          ((((s.headLeaves w).bump 0x150 (if isBlt w.am then 2 else 1) 1).bw 94 w.bytes).stretched 16).betweenCycles)
        ∧ exec (.vmeWriteResult false) s = .next (failed 0 1)
        ∧ (s.vme.syscon = true → exec (.busTimer .posted) s = .next (failed 1 1))
        ∧ exec (.masterTimeout .posted) s = .next (failed 2 0))
      ∧ (∀ c, s.vme.syscon = false → exec (.busTimer c) s = .next s)
      ∧ (∀ m a size, (s.vme.syscon = true → exec (.busTimer (.read m a size)) s = exec (.vmeReadFetchDone m a size none) s)
        ∧ exec (.masterTimeout (.read m a size)) s = .next (s.fetched m a size none false))
      ∧ exec (.masterTimeout .other) s = .next s)
  ∧ (∀ (w : VmeWrite) (cause : Nat) (s : State),
      let t := s.headLeaves w
      let f := s.headFails w cause
      t.ledger = { s.ledger with vmePosted := w.seq } ∧ t.vme.completed = w.seq ∧ t.vme.fifo = s.vme.fifo.tail
      ∧ t.mem = s.mem ∧ t.regs = s.regs
      ∧ f.ledger = { s.ledger with vmePosted := w.seq, vmeFailed := satWord s.ledger.vmeFailed 1 }
      ∧ f.hasCause 0x150 1 = true ∧ f.vme.fifo = s.vme.fifo.tail)
  ∧ (∀ (m : Master) (s : State),
      let k := masterKey m
      let n := tblRead noEcc s.vme.fences k
      let ahead := if n = 0 then s.vme.fifo.length else n - 1
      let may := regionAllows (columnOf m) .localPages false
      (may = false → exec (.bridgeFence m) s = .next (s.violation m (0x18150000 + Reg.vme.bridgeFence)))
      ∧ (may = true → ahead ≠ 0 → exec (.bridgeFence m) s = .next
        (((s.setVme { s.vme with fences := tblWrite noEcc s.vme.fences k (ahead + 1) }).bump 0x150 8 1).answer .wait))
      ∧ (may = true → ahead = 0 → exec (.bridgeFence m) s = .next ((s.setVme
        { s.vme with
          fences := tblWrite noEcc s.vme.fences k 0, failed := tblWrite zeroWord s.vme.failed k 0#32 }).answer
        (.value ((tblRead zeroWord s.vme.failed k).zeroExtend 64)))))

/-- AMO, LR and SC hold and release semaphores; inbound cycles are decoded, buffered, read after the buffer has
drained, and locked for RMW. An AMO wider than its window or a doubleword one is refused; one whose granule another
holds, or with 16 semaphores held, answers RETRY; it waits behind the posted writes, then answers the old value and
holds nothing. An LR takes its granule and gives up its earlier one; an SC answers 0 and releases it only while its
originator holds it, else 1, writing nothing; the timeout releases it. An inbound cycle of no listed type or window is
not answered, an unaligned one gets BERR; a write enters the 8-entry buffer, a read drains it first, and an
uncorrectable word answers BERR with INBOUND_ECC. An RMW read holds its granule; its write is performed while it does,
else BERR; LOCK_BROKEN releases it and latches. Rests on 11_vme_bridge R339, 11_vme_bridge R340, 11_vme_bridge R352,
11_vme_bridge R353, 11_vme_bridge R354, 11_vme_bridge R355, 11_vme_bridge R342, 03_triplex_execution R75,
03_triplex_execution R490. -/
def Obligations.SemaphoresAndInboundCyclesFollowTheirRules : Prop :=
  (∀ (m : Master) (a : BitVec 40) (size : Nat) (f : BitVec 5) (src data : DWord) (r : VmeAnswer) (ok : Bool) (s : State),
      let out (d : Decoded) (t : State) : Prop :=
        (d = .misaligned → t = s.answer .misaligned) ∧ (d = .foreign → t = s.violation m a.toNat)
        ∧ (d = .refused → t = (s.raise 0x150 0 []).violation m a.toNat)
      ∃ x y z, exec (.vmeAmo m a size f src r) s = .next x ∧ exec (.vmeLr m a size) s = .next y
        ∧ exec (.vmeSc m a size data ok) s = .next z ∧ out (s.vmeDecode m a.toNat size true) x
        ∧ out (s.vmeDecode m a.toNat size false) y ∧ out (s.vmeDecode m a.toNat size true) z)
  ∧ (∀ (m : Master) (a : BitVec 40) (size : Nat) (f : BitVec 5) (src : DWord) (r : VmeAnswer) (w : OutWin) (s : State),
      s.vmeDecode m a.toNat size true = .window w →
      let g := granuleOf a
      let amo := exec (.vmeAmo m a size f src r) s
      let fits := size ≤ w.width ∧ size < 8
      let mine := s.vme.sems.find? fun q => q.is g m && q.kind == .amo
      let rest := s.vme.sems.filter fun q => !(q.is g m)
      let full := 16 ≤ rest.length + s.vme.rmw.isSome.toNat
      let ahead := match mine with | some q => q.ahead | none => s.vme.fifo.length
      let done := (s.setVme { s.vme with sems := rest }).bump 0x150 3 1
      (¬fits → amo = .next ((s.raise 0x150 0 []).violation m a.toNat))
      ∧ (fits → s.lockedBy m a = true → amo = .next (((s.bump 0x150 11 1).bump 0x150 8 1).answer .wait))
      ∧ (fits → s.lockedBy m a = false → mine = none → full → amo = .next ((s.bump 0x150 8 1).answer .wait))
      ∧ (fits → s.lockedBy m a = false → mine ≠ none ∨ ¬full →
        (ahead ≠ 0 → amo =
          .next (((s.setVme { s.vme with sems := rest ++ [⟨g, m, .amo, ahead⟩] }).bump 0x150 8 1).answer .wait))
        ∧ (ahead = 0 → (∀ bs, r = some bs → amo = .next (((done.bw 94 (2 * size)).stretched 16).answer (.value (w.value size bs))))
          ∧ (r = none → amo = .next ((done.bump 0x150 12 1).answer (violationReply m))))))
  ∧ (∀ (m : Master) (a : BitVec 40) (size : Nat) (w : OutWin) (s : State), s.vmeDecode m a.toNat size false = .window w →
      let g := granuleOf a
      let waits := s.vme.reads.any fun r => r.isFor m a size
      let rest := s.vme.sems.filter fun q => !(q.is g m) && !(q.master == m && q.kind == .lr)
      let full := 16 ≤ rest.length + s.vme.rmw.isSome.toNat
      let taken := s.setVme { s.vme with sems := rest ++ [⟨g, m, .lr, 0⟩] }
      (waits = true → exec (.vmeLr m a size) s = .next (s.bufferedRead m a size))
      ∧ (waits = false → s.lockedBy m a = true →
        exec (.vmeLr m a size) s = .next (((s.bump 0x150 11 1).bump 0x150 8 1).answer .wait))
      ∧ (waits = false → s.lockedBy m a = false → full →
        exec (.vmeLr m a size) s = .next (((s.setVme { s.vme with sems := rest }).bump 0x150 8 1).answer .wait))
      ∧ (waits = false → s.lockedBy m a = false → ¬full →
        exec (.vmeLr m a size) s = .next (taken.bufferedRead m a size) ∧ taken.holdsLr m a = true))
  ∧ (∀ (m : Master) (a : BitVec 40) (size : Nat) (data : DWord) (w : OutWin) (s : State),
      s.vmeDecode m a.toNat size true = .window w →
      let left := s.vme.sems.filter fun q => !(q.is (granuleOf a) m)
      let done := (s.setVme { s.vme with sems := left }).bump 0x150 1 1
      (s.holdsLr m a = false → ∀ ok, exec (.vmeSc m a size data ok) s = .next (s.answer (.value 1#64)))
      ∧ (s.holdsLr m a = true →
        exec (.vmeSc m a size data true) s = .next (((done.bw 94 size).stretched 16).answer (.value 0#64))
        ∧ exec (.vmeSc m a size data false) s = .next ((done.bump 0x150 12 1).answer (violationReply m)))
      ∧ (∀ q, q ∈ left → ¬(q.granule = granuleOf a ∧ q.master = m)))
  ∧ (∀ (m : Master) (s : State), ∃ t, exec (.lrSemaphoreTimeout m) s = .next t
      ∧ t.vme.sems = s.vme.sems.filter (fun q => !(q.master == m && q.kind == .lr)) ∧ (∀ a, t.holdsLr m a = false)
      ∧ { t with vme := { t.vme with sems := s.vme.sems } } = s)
  ∧ (∀ (c : InboundCycle) (data : List Byte) (rw : Option (List Byte)) (s : State),
      (s.inDecode c = none → exec (.vmeInboundWrite c data) s = .next (s.answer .none)
        ∧ exec (.vmeInboundRead c) s = .next (s.answer .none) ∧ exec (.vmeInboundRmw c rw) s = .next (s.answer .none))
      ∧ (∀ d, s.inDecode c = some d → c.addr.toNat % c.bytes ≠ 0 →
        exec (.vmeInboundWrite c data) s = .next (s.answer .busError)
        ∧ exec (.vmeInboundRead c) s = .next (s.answer .busError)
        ∧ exec (.vmeInboundRmw c rw) s = .next (s.answer .busError))
      ∧ (amOf c.am = none ∨ s.working 0x150 = false ∨ c.bytes ∉ [1, 2, 4] → s.inDecode c = none)
      ∧ (∀ off blt, s.inDecode c = some (off, blt) → c.bytes ∈ [1, 2, 4] ∧ ∃ sp super, amOf c.am = some (sp, blt, super)
        ∧ ∃ n, n < 4 ∧ bitOf (s.inCtrl n) 0 = true ∧ fieldOf (s.inCtrl n) 9 8 = sp
          ∧ s.inBase n ≤ c.addr.toNat % 2 ^ spaceBits sp ∧ c.addr.toNat % 2 ^ spaceBits sp < s.inBase n + s.inSize n))
  ∧ (∀ (c : InboundCycle) (off : Nat) (blt : Bool) (data : List Byte) (s : State),
      s.inDecode c = some (off, blt) → c.addr.toNat % c.bytes = 0 →
      let bytes := laneBytes (s.inInvariant c) (padTo c.bytes data)
      let held := s.vme.rmw = some (off / 64)
      let t := s.inboundDrain
      let word (l : List Byte) : DWord := (laneWord c.addr.toNat (laneBytes (t.inInvariant c) l)).zeroExtend 64
      let answered (u : State) (v : DWord) : State := ((u.bw 95 c.bytes).stretched 17).answer (.value v)
      let noRoom := t.vme.rmw = none ∧ 16 ≤ t.vme.sems.length
      (8 ≤ s.vme.inbound.length → exec (.vmeInboundWrite c data) s = .next (s.answer .wait))
      ∧ (s.vme.inbound.length < 8 → exec (.vmeInboundWrite c data) s = .next (answered
        ((s.setVme { s.vme with inbound := s.vme.inbound ++ [(off, bytes)] }).bump 0x150 (if blt then 6 else 5) 1) 0#64))
      ∧ (t.vme.inbound ≠ [] → exec (.vmeInboundRead c) s = .next (t.answer .wait)
        ∧ exec (.vmeInboundRmw c none) s = .next (t.answer .wait))
      ∧ (t.vme.inbound = [] →
        (t.sramRead off c.bytes = none → exec (.vmeInboundRead c) s = .next ((t.raise 0x150 4 []).answer .busError)
          ∧ (¬noRoom → exec (.vmeInboundRmw c none) s = .next ((t.raise 0x150 4 []).answer .busError)))
        ∧ (∀ l, t.sramRead off c.bytes = some l →
          exec (.vmeInboundRead c) s = .next (answered (t.bump 0x150 (if blt then 6 else 4) 1) (word l))
          ∧ (¬noRoom → exec (.vmeInboundRmw c none) s =
            .next (answered (t.setVme { t.vme with rmw := some (off / 64) }) (word l))))
        ∧ (noRoom → exec (.vmeInboundRmw c none) s = .next ((t.bump 0x150 11 1).answer .wait)))
      ∧ (held → exec (.vmeInboundRmw c (some data)) s =
        .next (answered (((s.sramWrite off bytes).setVme { s.vme with rmw := none }).bump 0x150 7 1) 0#64))
      ∧ (¬held → exec (.vmeInboundRmw c (some data)) s = .next (s.answer .busError)))
  ∧ (∀ s : State,
      (s.vme.rmw = none → s.vme.inbound = [] → s.inboundDrain = s)
      ∧ (s.vme.rmw = none → s.inboundDrain.vme.inbound = [])
      ∧ (s.vme.rmw = none → exec .lockBroken s = .next s)
      ∧ (∀ g, s.vme.rmw = some g → ∃ t, exec .lockBroken s = .next t ∧ t.vme = { s.vme with rmw := none }
        ∧ t.hasCause 0x150 5 = true ∧ t.mem = s.mem))

/-- The arbiter picks by ARB_MODE, the bridge takes and releases the bus as ruled, merges a BLT, and forwards or
disables interrupt levels. PRI picks the highest requesting level; RRS the next one downwards from the last granted
(that order is the model's, the spec names the mode alone). A grant gives the bridge the bus when it has a cycle to
run, else nothing changes. Issued entries form one cycle, or with BLT_EN a block of one window and size, contiguous,
in one 256-byte block, its modifiers 2 higher; order and numbers stay. Between cycles the bridge releases the bus when
done (RWD) or when another asks (ROR). A request is recorded and, as system controller, arbitrated. The daisy chain
outputs follow their inputs but on REQ_LEVEL. A poll of a bridge at work takes the levels from 7 down: a status/ID is
forwarded, a third failure in a row disables the level and latches IRQ_STUCK. Writing IRQ_ENABLE clears the disabled
bits written 1. Rests on 11_vme_bridge R341, 11_vme_bridge R356, 11_vme_bridge R357, 11_vme_bridge R348,
16_package_and_electrical R478, 07_external_timebase R225, 01_module_organization R19, 11_vme_bridge R340. -/
def Obligations.TheBusIsArbitratedAndInterruptsForwarded : Prop :=
  (∀ (last : Fin 4) (br : BitVec 4),
      (∀ l : Fin 4, arbitrate false last br = some l ↔ br.getLsbD l.val = true ∧ ∀ k : Fin 4, l < k → br.getLsbD k.val = false)
      ∧ (∀ l : Fin 4, arbitrate true last br = some l ↔ br.getLsbD l.val = true
        ∧ ∀ k : Fin 4, (last.val + 3 - k.val) % 4 < (last.val + 3 - l.val) % 4 → br.getLsbD k.val = false)
      ∧ (∀ rrs, arbitrate rrs last br = none ↔ br = 0#4))
  ∧ (∀ s : State,
      (s.vme.wants = true ↔ s.vme.owned = false ∧ s.vme.work = true)
      ∧ (s.vme.wants = false → exec .vmeBusGrant s = .next s)
      ∧ (s.vme.wants = true → ∃ t, exec .vmeBusGrant s = .next t ∧ t.vme.owned = true ∧ t.vme.granted = none
        ∧ t.vme.lastLevel = s.reqLevel ∧ t.vme.reads = s.vme.reads ∧ t.vme.sems = s.vme.sems ∧ t.mem = s.mem
        ∧ t.vme.fifo.map VmeWrite.seq = s.vme.fifo.map VmeWrite.seq
        ∧ t.vme.fifo.map VmeWrite.addr = s.vme.fifo.map VmeWrite.addr
        ∧ t.vme.fifo.map VmeWrite.data = s.vme.fifo.map VmeWrite.data))
  ∧ (∀ s : State,
      let idle := s.vme.owned = true ∧ s.vme.block = 0 ∧ s.vme.fifo ≠ [] ∧ s.frozen 0x150 = false
      let n := s.runLength s.vme.fifo
      (¬idle → s.issue = s)
      ∧ (idle → s.issue.vme.block = n ∧ 1 ≤ n ∧ n ≤ s.vme.fifo.length
        ∧ (n = 1 → s.issue.vme.fifo = s.vme.fifo)
        ∧ (1 < n → s.issue.vme.fifo = (s.vme.fifo.take n).map (fun w => { w with am := w.am + 2 }) ++ s.vme.fifo.drop n)
        ∧ ∀ w l, s.vme.fifo = w :: l →
          (bitOf (s.outWin w.window).ctrl 2 = false ∨ w.bytes < 2 → n = 1)
          ∧ ∀ i x, i < n → s.vme.fifo[i]? = some x →
            x.window = w.window ∧ x.bytes = w.bytes ∧ x.addr = w.addr + i * w.bytes ∧ (0 < i → x.addr % 256 ≠ 0)))
  ∧ (∀ s : State,
      let ror := s.field 0x150 Reg.vme.vmeCtrl 2 2 = 1
      let leaves := (ror ∧ s.vme.brOthers ≠ 0#4) ∨ (¬ror ∧ s.vme.work = false)
      (s.vme.owned = false ∨ s.vme.block ≠ 0 → s.betweenCycles = s)
      ∧ (s.vme.owned = true → s.vme.block = 0 → leaves → s.betweenCycles = (s.setVme { s.vme with owned := false }).arbiter)
      ∧ (s.vme.owned = true → s.vme.block = 0 → ¬leaves → s.betweenCycles = s.issue))
  ∧ (∀ (l : Fin 4) (s : State),
      exec (.vmeBusRequest l) s =
        .next ((s.setVme { s.vme with brOthers := s.vme.brOthers ||| (1#4 <<< l.val) }).betweenCycles.arbiter)
      ∧ (s.vme.syscon = false ∨ s.vme.owned = true ∨ s.vme.granted ≠ none → s.arbiter = s)
      ∧ (s.vme.syscon = false → s.vme.owned = false → exec (.vmeBusRequest l) s =
        .next (s.setVme { s.vme with brOthers := s.vme.brOthers ||| (1#4 <<< l.val) }))
      ∧ (s.vme.syscon = true → s.vme.owned = false → s.vme.granted = none → s.vme.wants = false →
        ∀ k, arbitrate (s.field 0x150 Reg.vme.vmeCtrl 3 3 == 1) s.vme.lastLevel s.vme.brOthers = some k →
          s.arbiter = s.setVme { s.vme with
            granted := some k, lastLevel := k, brOthers := s.vme.brOthers &&& ~~~(1#4 <<< k.val) }))
  ∧ (∀ (i : Bool) (b : BitVec 4) (s : State),
      let keep := 1#4 <<< s.reqLevel.val
      exec (.vmeDaisyChainInput i b) s =
        .next (s.setVme { s.vme with iackOut := i, bgOut := (b &&& ~~~keep) ||| (s.vme.bgOut &&& keep) }))
  ∧ (∀ (asserted : BitVec 8) (acks : List (Option Word)) (s : State),
      let poll (t : State) (l : Nat) : State :=
        if asserted.getLsbD l ∧ bitOf (t.reg 0x150 Reg.vme.irqEnable) l ∧ !(t.irqOff l) then t.iack l (acks.getD l none) else t
      let s0 := s.setReg 0x150 Reg.vme.irqState (setField (s.reg 0x150 Reg.vme.irqState) 15 9 (asserted.toNat / 2))
      (s.working 0x150 = false → exec (.irqPoll asserted acks) s = .next s)
      ∧ (s.working 0x150 = true → exec (.irqPoll asserted acks) s = .next ([7, 6, 5, 4, 3, 2, 1].foldl poll s0)))
  ∧ (∀ (l : Nat) (s : State),
      let fails (n : Nat) : State :=
        (s.bump 0x150 10 1).setVme { s.vme with irqFails := tblWrite noEcc s.vme.irqFails l n }
      let cfg := s.reg 0x150 (Reg.vme.irqCfg + 4 * (l - 1))
      (∀ id : Word, s.iack l (some id) =
        (fails 0).messageTo (fieldOf cfg 10 8) (BitVec.ofNat 16 (fieldOf cfg 31 16 + id.toNat % 256)))
      ∧ (irqFailsOf s l < 2 → s.iack l none = fails (irqFailsOf s l + 1))
      ∧ (2 ≤ irqFailsOf s l → l < 8 → (s.iack l none).irqOff l = true ∧ (s.iack l none).hasCause 0x150 6 = true
        ∧ irqFailsOf (s.iack l none) l = 0))
  ∧ (∀ (m : Master) (v : Word) (s : State),
      (s.mayWritePage m 0x150 Reg.vme.irqEnable = false → exec (.irqEnableWrite m v) s =
        .next (s.violation m (0x18000000 + 0x1000 * 0x150 + Reg.vme.irqEnable)))
      ∧ (s.mayWritePage m 0x150 Reg.vme.irqEnable = true → ∃ t, exec (.irqEnableWrite m v) s = .next t
        ∧ t.reg 0x150 Reg.vme.irqEnable = (s.storeReg 0x150 Reg.vme.irqEnable v).reg 0x150 Reg.vme.irqEnable
        ∧ t.reg 0x150 Reg.vme.irqState = s.reg 0x150 Reg.vme.irqState &&& ~~~(v &&& 0xfe#32)
        ∧ (∀ l, l < 8 → irqFailsOf t l = if bitOf v l then 0 else irqFailsOf s l)
        ∧ t.reply = .none ∧ t.mem = s.mem ∧ t.vme.fifo = s.vme.fifo))
end

