-- ==== Sys2Proof/Laws/Benmi.lean ====
section
/-!
SUPPORT. One Benmi instruction on engines that agree: everything `State.runInsn` does then.
-/
namespace Sys2Proof.Laws
open Sys2Proof Sys2Proof.Machine Sys2Proof.Safety

/-- No entry of an ECC map is uncorrectable: no word reads so. -/
theorem ecc_read (m : EccMap) (h : m.all (fun q => q.2 != 2) = true) (i : Nat) : tblRead noEcc m i ≠ 2 := by
  induction m with
  | nil => exact Nat.zero_ne_add_one 1
  | cons q m ih =>
    simp only [List.all_cons, Bool.and_eq_true] at h
    unfold tblRead
    split
    · simpa using h.1
    · exact ih h.2

theorem ecc_good (m : EccMap) (h : m.all (fun q => q.2 != 2) = true) (size off n : Nat) : eccBad m size off n = false := by
  unfold eccBad
  rw [List.any_eq_false]
  intro w _
  simpa using ecc_read m h w

theorem Eff.same_self (x : Eff) : x.same x = true := by simp [Eff.same, Eff.sameState]

/-- Engines that present one effect agree: it is written, and two of them differ no longer (R137). -/
theorem judge_agreed (s : State) (l : List Engine) (eff : Eff) (hl : l ≠ []) (h3 : l.length ≤ 3) :
    s.judgeEngines (l.map fun e => ⟨e, eff, none⟩)
      = (some eff, if l.length = 2 then s.setCle { s.cle with differing := false } else s) := by
  match l, hl, h3 with
  | [a], _, _ => rfl
  | [a, b], _, _ => simp [State.judgeEngines, Eff.same_self]
  | [a, b, c], _, _ => simp [State.judgeEngines, Eff.same_self]

theorem engines_le (s : State) : s.engines.length ≤ 3 := List.length_filter_le _ allEngines

/-- One instruction on engines that agree: its effect in all of them. -/
theorem State.runInsn_agreed (s : State) (p op sp ad : Nat) (second : Option Word) (sem : Ctx → Eff)
    (hs : standsAt s p op sp ad second = true) (ha : enginesAgree s = true) :
    s.runInsn op sp ad second sem = (if s.engines.length = 2 then s.setCle { s.cle with differing := false } else s).applyEff
      p (s.imageHeader p).codeWords op (s.engines.map fun e => ⟨e, sem (ctxOf s p), none⟩) (sem (ctxOf s p)) := by
  simp only [standsAt, Bool.and_eq_true, beq_iff_eq, decide_eq_true_eq] at hs
  obtain ⟨⟨⟨⟨⟨⟨⟨h1, h2⟩, h3⟩, h4⟩, h5⟩, h6⟩, h7⟩, h8⟩ := hs
  simp only [enginesAgree, Bool.and_eq_true, List.all_eq_true, beq_iff_eq, Bool.not_eq_true', List.isEmpty_eq_false_iff,
    Option.isNone_iff_eq_none] at ha
  obtain ⟨⟨a1, a2⟩, a3⟩ := ha
  have e1 : ∀ e ∈ s.engines, s.engineOut p (s.imageBase p + 16) (s.prog p).exchanged (s.prog p).ft (s.imagePairs p)
      (s.prog p).errTasks sem (s.pm (s.imageBase p + 16 + (s.cle.regs.eng s.lowEngine).pc))
      (s.pm (s.imageBase p + 16 + (s.cle.regs.eng s.lowEngine).pc + 1)) e = ⟨e, sem (ctxOf s p), none⟩ := by
    intro e he
    obtain ⟨⟨⟨⟨b1, b2⟩, b3⟩, b4⟩, b5⟩ := a3 e he
    have b3' : s.progMem e = s.pm := by funext i; simp only [State.progMem, State.pm, b3]
    have g1 : ∀ i, (tblRead noEcc (s.mem.progEcc.eng e) i == 2) = false := fun i => by
      simpa using ecc_read _ (List.all_eq_true.mpr b4) i
    have g2 : ∀ l : List (Nat × Nat), (l.any fun q => eccBad (s.mem.dataEcc.eng e) 4 q.1 q.2) = false := fun l => by
      rw [List.any_eq_false]; intro q _
      simp [ecc_good _ (List.all_eq_true.mpr b5)]
    unfold State.engineOut
    simp only [b1, b2, b3', g1, g2, Bool.and_false, Bool.or_self, Bool.false_eq_true, if_false, a1]
    simp [ctxOf]
  unfold State.runInsn
  split
  · rename_i h; rw [h1] at h; exact absurd h (by simp)
  rename_i p' hp'
  obtain rfl : p = p' := Option.some.inj (h1.symm.trans hp')
  dsimp only
  rw [if_neg (by
    rintro (h | h | h | h | h | h)
    · exact h h2
    · omega
    · exact h h4
    · exact h h5
    · exact h h6
    · cases second with
      | none => simp at h
      | some v => exact Bool.noConfusion (h7.symm.trans h))]
  rw [if_neg (by simp [h8])]
  rw [List.map_congr_left e1, a1]
  simp only [Option.isSome_none, Bool.false_eq_true, if_false]
  rw [judge_agreed s s.engines (sem (ctxOf s p)) a2 (engines_le s)]

theorem putRegs_fold (l : List Engine) (r : EngRegs) (t : Trio EngRegs) (eff : Eff) (h : eff.r = r) :
    (l.map fun e => (⟨e, eff, none⟩ : EngineOut)).foldl (fun t o => t.setEng o.e o.eff.r) t
      = l.foldl (fun t e => t.setEng e r) t := by
  subst h
  induction l generalizing t with
  | nil => rfl
  | cons a l ih => exact ih _

/-- An instruction that goes on leaves what `benmiLeaves` says. -/
theorem State.runInsn_leaves (s : State) (p op sp ad : Nat) (second : Option Word) (sem : Ctx → Eff) (r : EngRegs)
    (w : List (Nat × List Byte)) (n : Nat) (hs : standsAt s p op sp ad second = true) (ha : enginesAgree s = true)
    (he : ∃ rd, sem (ctxOf s p) = ⟨r, w, rd, none, n, false, false⟩) :
    s.runInsn op sp ad second sem = benmiLeaves s p op r w n := by
  rw [State.runInsn_agreed s p op sp ad second sem hs ha]
  obtain ⟨rd, he⟩ := he
  rw [he]
  unfold State.applyEff benmiLeaves State.putRegs
  simp only [Bool.false_eq_true, if_false]
  rw [putRegs_fold _ r _ _ rfl]

/-- An instruction that fails stops the program with its code (R161). -/
theorem State.runInsn_fails (s : State) (p op sp ad : Nat) (second : Option Word) (sem : Ctx → Eff) (code : Nat)
    (hs : standsAt s p op sp ad second = true) (ha : enginesAgree s = true) (he : (sem (ctxOf s p)).fault = some code) :
    s.runInsn op sp ad second sem
      = (if s.engines.length = 2 then s.setCle { s.cle with differing := false } else s).stopProgram p code 1 := by
  rw [State.runInsn_agreed s p op sp ad second sem hs ha]
  unfold State.applyEff
  simp only [he]

end Sys2Proof.Laws
end

