-- ==== Sys2Proof/Laws/State.lean ====
section
/-!
SUPPORT. One lemma per field and update of the state: what the update writes, and that it leaves every other field as it
was.
-/
namespace Sys2Proof.Laws
open Sys2Proof Sys2Proof.Machine

/-! ### setReg -/

@[simp] theorem State.setReg_pages (s : State) (p off : Nat) (v : Word) : (s.setReg p off v).pages = s.pages := rfl
@[simp] theorem State.setReg_ops (s : State) (p off : Nat) (v : Word) : (s.setReg p off v).ops = s.ops := rfl
@[simp] theorem State.setReg_counters (s : State) (p off : Nat) (v : Word) : (s.setReg p off v).counters = s.counters := rfl
@[simp] theorem State.setReg_hiSnap (s : State) (p off : Nat) (v : Word) : (s.setReg p off v).hiSnap = s.hiSnap := rfl
@[simp] theorem State.setReg_auditBusy (s : State) (p off : Nat) (v : Word) : (s.setReg p off v).auditBusy = s.auditBusy := rfl
@[simp] theorem State.setReg_owners (s : State) (p off : Nat) (v : Word) : (s.setReg p off v).owners = s.owners := rfl
@[simp] theorem State.setReg_faults (s : State) (p off : Nat) (v : Word) : (s.setReg p off v).faults = s.faults := rfl
@[simp] theorem State.setReg_ledger (s : State) (p off : Nat) (v : Word) : (s.setReg p off v).ledger = s.ledger := rfl
@[simp] theorem State.setReg_ledgerSnaps (s : State) (p off : Nat) (v : Word) : (s.setReg p off v).ledgerSnaps = s.ledgerSnaps := rfl
@[simp] theorem State.setReg_ledgerSeqs (s : State) (p off : Nat) (v : Word) : (s.setReg p off v).ledgerSeqs = s.ledgerSeqs := rfl
@[simp] theorem State.setReg_reply (s : State) (p off : Nat) (v : Word) : (s.setReg p off v).reply = s.reply := rfl
@[simp] theorem State.setReg_free (s : State) (p off : Nat) (v : Word) : (s.setReg p off v).free = s.free := rfl
@[simp] theorem State.setReg_clu (s : State) (p off : Nat) (v : Word) : (s.setReg p off v).clu = s.clu := rfl
@[simp] theorem State.setReg_red (s : State) (p off : Nat) (v : Word) : (s.setReg p off v).red = s.red := rfl
@[simp] theorem State.setReg_measSync (s : State) (p off : Nat) (v : Word) : (s.setReg p off v).measSync = s.measSync := rfl
@[simp] theorem State.setReg_appMessages (s : State) (p off : Nat) (v : Word) : (s.setReg p off v).appMessages = s.appMessages := rfl
@[simp] theorem State.setReg_time (s : State) (p off : Nat) (v : Word) : (s.setReg p off v).time = s.time := rfl
@[simp] theorem State.setReg_cle (s : State) (p off : Nat) (v : Word) : (s.setReg p off v).cle = s.cle := rfl
@[simp] theorem State.setReg_ps (s : State) (p off : Nat) (v : Word) : (s.setReg p off v).ps = s.ps := rfl
@[simp] theorem State.setReg_sup (s : State) (p off : Nat) (v : Word) : (s.setReg p off v).sup = s.sup := rfl
@[simp] theorem State.setReg_fail (s : State) (p off : Nat) (v : Word) : (s.setReg p off v).fail = s.fail := rfl
@[simp] theorem State.setReg_obs (s : State) (p off : Nat) (v : Word) : (s.setReg p off v).obs = s.obs := rfl
@[simp] theorem State.setReg_net (s : State) (p off : Nat) (v : Word) : (s.setReg p off v).net = s.net := rfl
@[simp] theorem State.setReg_mvbs (s : State) (p off : Nat) (v : Word) : (s.setReg p off v).mvbs = s.mvbs := rfl
@[simp] theorem State.setReg_cans (s : State) (p off : Nat) (v : Word) : (s.setReg p off v).cans = s.cans := rfl
@[simp] theorem State.setReg_meas (s : State) (p off : Nat) (v : Word) : (s.setReg p off v).meas = s.meas := rfl
@[simp] theorem State.setReg_vme (s : State) (p off : Nat) (v : Word) : (s.setReg p off v).vme = s.vme := rfl
@[simp] theorem State.setReg_mem (s : State) (p off : Nat) (v : Word) : (s.setReg p off v).mem = s.mem := rfl
@[simp] theorem State.setReg_pending (s : State) (p off : Nat) (v : Word) : (s.setReg p off v).pending = s.pending := rfl

/-! ### setPage -/

@[simp] theorem State.setPage_regs (s : State) (p : Nat) (v : PageState) : (s.setPage p v).regs = s.regs := rfl
@[simp] theorem State.setPage_ops (s : State) (p : Nat) (v : PageState) : (s.setPage p v).ops = s.ops := rfl
@[simp] theorem State.setPage_counters (s : State) (p : Nat) (v : PageState) : (s.setPage p v).counters = s.counters := rfl
@[simp] theorem State.setPage_hiSnap (s : State) (p : Nat) (v : PageState) : (s.setPage p v).hiSnap = s.hiSnap := rfl
@[simp] theorem State.setPage_auditBusy (s : State) (p : Nat) (v : PageState) : (s.setPage p v).auditBusy = s.auditBusy := rfl
@[simp] theorem State.setPage_owners (s : State) (p : Nat) (v : PageState) : (s.setPage p v).owners = s.owners := rfl
@[simp] theorem State.setPage_faults (s : State) (p : Nat) (v : PageState) : (s.setPage p v).faults = s.faults := rfl
@[simp] theorem State.setPage_ledger (s : State) (p : Nat) (v : PageState) : (s.setPage p v).ledger = s.ledger := rfl
@[simp] theorem State.setPage_ledgerSnaps (s : State) (p : Nat) (v : PageState) : (s.setPage p v).ledgerSnaps = s.ledgerSnaps := rfl
@[simp] theorem State.setPage_ledgerSeqs (s : State) (p : Nat) (v : PageState) : (s.setPage p v).ledgerSeqs = s.ledgerSeqs := rfl
@[simp] theorem State.setPage_reply (s : State) (p : Nat) (v : PageState) : (s.setPage p v).reply = s.reply := rfl
@[simp] theorem State.setPage_free (s : State) (p : Nat) (v : PageState) : (s.setPage p v).free = s.free := rfl
@[simp] theorem State.setPage_clu (s : State) (p : Nat) (v : PageState) : (s.setPage p v).clu = s.clu := rfl
@[simp] theorem State.setPage_red (s : State) (p : Nat) (v : PageState) : (s.setPage p v).red = s.red := rfl
@[simp] theorem State.setPage_measSync (s : State) (p : Nat) (v : PageState) : (s.setPage p v).measSync = s.measSync := rfl
@[simp] theorem State.setPage_appMessages (s : State) (p : Nat) (v : PageState) : (s.setPage p v).appMessages = s.appMessages := rfl
@[simp] theorem State.setPage_time (s : State) (p : Nat) (v : PageState) : (s.setPage p v).time = s.time := rfl
@[simp] theorem State.setPage_cle (s : State) (p : Nat) (v : PageState) : (s.setPage p v).cle = s.cle := rfl
@[simp] theorem State.setPage_ps (s : State) (p : Nat) (v : PageState) : (s.setPage p v).ps = s.ps := rfl
@[simp] theorem State.setPage_sup (s : State) (p : Nat) (v : PageState) : (s.setPage p v).sup = s.sup := rfl
@[simp] theorem State.setPage_fail (s : State) (p : Nat) (v : PageState) : (s.setPage p v).fail = s.fail := rfl
@[simp] theorem State.setPage_obs (s : State) (p : Nat) (v : PageState) : (s.setPage p v).obs = s.obs := rfl
@[simp] theorem State.setPage_net (s : State) (p : Nat) (v : PageState) : (s.setPage p v).net = s.net := rfl
@[simp] theorem State.setPage_mvbs (s : State) (p : Nat) (v : PageState) : (s.setPage p v).mvbs = s.mvbs := rfl
@[simp] theorem State.setPage_cans (s : State) (p : Nat) (v : PageState) : (s.setPage p v).cans = s.cans := rfl
@[simp] theorem State.setPage_meas (s : State) (p : Nat) (v : PageState) : (s.setPage p v).meas = s.meas := rfl
@[simp] theorem State.setPage_vme (s : State) (p : Nat) (v : PageState) : (s.setPage p v).vme = s.vme := rfl
@[simp] theorem State.setPage_mem (s : State) (p : Nat) (v : PageState) : (s.setPage p v).mem = s.mem := rfl
@[simp] theorem State.setPage_pending (s : State) (p : Nat) (v : PageState) : (s.setPage p v).pending = s.pending := rfl

/-! ### setOp -/

@[simp] theorem State.setOp_regs (s : State) (p : Nat) (v : OpState) : (s.setOp p v).regs = s.regs := rfl
@[simp] theorem State.setOp_pages (s : State) (p : Nat) (v : OpState) : (s.setOp p v).pages = s.pages := rfl
@[simp] theorem State.setOp_counters (s : State) (p : Nat) (v : OpState) : (s.setOp p v).counters = s.counters := rfl
@[simp] theorem State.setOp_hiSnap (s : State) (p : Nat) (v : OpState) : (s.setOp p v).hiSnap = s.hiSnap := rfl
@[simp] theorem State.setOp_auditBusy (s : State) (p : Nat) (v : OpState) : (s.setOp p v).auditBusy = s.auditBusy := rfl
@[simp] theorem State.setOp_owners (s : State) (p : Nat) (v : OpState) : (s.setOp p v).owners = s.owners := rfl
@[simp] theorem State.setOp_faults (s : State) (p : Nat) (v : OpState) : (s.setOp p v).faults = s.faults := rfl
@[simp] theorem State.setOp_ledger (s : State) (p : Nat) (v : OpState) : (s.setOp p v).ledger = s.ledger := rfl
@[simp] theorem State.setOp_ledgerSnaps (s : State) (p : Nat) (v : OpState) : (s.setOp p v).ledgerSnaps = s.ledgerSnaps := rfl
@[simp] theorem State.setOp_ledgerSeqs (s : State) (p : Nat) (v : OpState) : (s.setOp p v).ledgerSeqs = s.ledgerSeqs := rfl
@[simp] theorem State.setOp_reply (s : State) (p : Nat) (v : OpState) : (s.setOp p v).reply = s.reply := rfl
@[simp] theorem State.setOp_free (s : State) (p : Nat) (v : OpState) : (s.setOp p v).free = s.free := rfl
@[simp] theorem State.setOp_clu (s : State) (p : Nat) (v : OpState) : (s.setOp p v).clu = s.clu := rfl
@[simp] theorem State.setOp_red (s : State) (p : Nat) (v : OpState) : (s.setOp p v).red = s.red := rfl
@[simp] theorem State.setOp_measSync (s : State) (p : Nat) (v : OpState) : (s.setOp p v).measSync = s.measSync := rfl
@[simp] theorem State.setOp_appMessages (s : State) (p : Nat) (v : OpState) : (s.setOp p v).appMessages = s.appMessages := rfl
@[simp] theorem State.setOp_time (s : State) (p : Nat) (v : OpState) : (s.setOp p v).time = s.time := rfl
@[simp] theorem State.setOp_cle (s : State) (p : Nat) (v : OpState) : (s.setOp p v).cle = s.cle := rfl
@[simp] theorem State.setOp_ps (s : State) (p : Nat) (v : OpState) : (s.setOp p v).ps = s.ps := rfl
@[simp] theorem State.setOp_sup (s : State) (p : Nat) (v : OpState) : (s.setOp p v).sup = s.sup := rfl
@[simp] theorem State.setOp_fail (s : State) (p : Nat) (v : OpState) : (s.setOp p v).fail = s.fail := rfl
@[simp] theorem State.setOp_obs (s : State) (p : Nat) (v : OpState) : (s.setOp p v).obs = s.obs := rfl
@[simp] theorem State.setOp_net (s : State) (p : Nat) (v : OpState) : (s.setOp p v).net = s.net := rfl
@[simp] theorem State.setOp_mvbs (s : State) (p : Nat) (v : OpState) : (s.setOp p v).mvbs = s.mvbs := rfl
@[simp] theorem State.setOp_cans (s : State) (p : Nat) (v : OpState) : (s.setOp p v).cans = s.cans := rfl
@[simp] theorem State.setOp_meas (s : State) (p : Nat) (v : OpState) : (s.setOp p v).meas = s.meas := rfl
@[simp] theorem State.setOp_vme (s : State) (p : Nat) (v : OpState) : (s.setOp p v).vme = s.vme := rfl
@[simp] theorem State.setOp_mem (s : State) (p : Nat) (v : OpState) : (s.setOp p v).mem = s.mem := rfl
@[simp] theorem State.setOp_pending (s : State) (p : Nat) (v : OpState) : (s.setOp p v).pending = s.pending := rfl

/-! ### answer -/

@[simp] theorem State.answer_reply (s : State) (r : Reply) : (s.answer r).reply = r := rfl
@[simp] theorem State.answer_regs (s : State) (r : Reply) : (s.answer r).regs = s.regs := rfl
@[simp] theorem State.answer_pages (s : State) (r : Reply) : (s.answer r).pages = s.pages := rfl
@[simp] theorem State.answer_ops (s : State) (r : Reply) : (s.answer r).ops = s.ops := rfl
@[simp] theorem State.answer_counters (s : State) (r : Reply) : (s.answer r).counters = s.counters := rfl
@[simp] theorem State.answer_hiSnap (s : State) (r : Reply) : (s.answer r).hiSnap = s.hiSnap := rfl
@[simp] theorem State.answer_auditBusy (s : State) (r : Reply) : (s.answer r).auditBusy = s.auditBusy := rfl
@[simp] theorem State.answer_owners (s : State) (r : Reply) : (s.answer r).owners = s.owners := rfl
@[simp] theorem State.answer_faults (s : State) (r : Reply) : (s.answer r).faults = s.faults := rfl
@[simp] theorem State.answer_ledger (s : State) (r : Reply) : (s.answer r).ledger = s.ledger := rfl
@[simp] theorem State.answer_ledgerSnaps (s : State) (r : Reply) : (s.answer r).ledgerSnaps = s.ledgerSnaps := rfl
@[simp] theorem State.answer_ledgerSeqs (s : State) (r : Reply) : (s.answer r).ledgerSeqs = s.ledgerSeqs := rfl
@[simp] theorem State.answer_free (s : State) (r : Reply) : (s.answer r).free = s.free := rfl
@[simp] theorem State.answer_clu (s : State) (r : Reply) : (s.answer r).clu = s.clu := rfl
@[simp] theorem State.answer_red (s : State) (r : Reply) : (s.answer r).red = s.red := rfl
@[simp] theorem State.answer_measSync (s : State) (r : Reply) : (s.answer r).measSync = s.measSync := rfl
@[simp] theorem State.answer_appMessages (s : State) (r : Reply) : (s.answer r).appMessages = s.appMessages := rfl
@[simp] theorem State.answer_time (s : State) (r : Reply) : (s.answer r).time = s.time := rfl
@[simp] theorem State.answer_cle (s : State) (r : Reply) : (s.answer r).cle = s.cle := rfl
@[simp] theorem State.answer_ps (s : State) (r : Reply) : (s.answer r).ps = s.ps := rfl
@[simp] theorem State.answer_sup (s : State) (r : Reply) : (s.answer r).sup = s.sup := rfl
@[simp] theorem State.answer_fail (s : State) (r : Reply) : (s.answer r).fail = s.fail := rfl
@[simp] theorem State.answer_obs (s : State) (r : Reply) : (s.answer r).obs = s.obs := rfl
@[simp] theorem State.answer_net (s : State) (r : Reply) : (s.answer r).net = s.net := rfl
@[simp] theorem State.answer_mvbs (s : State) (r : Reply) : (s.answer r).mvbs = s.mvbs := rfl
@[simp] theorem State.answer_cans (s : State) (r : Reply) : (s.answer r).cans = s.cans := rfl
@[simp] theorem State.answer_meas (s : State) (r : Reply) : (s.answer r).meas = s.meas := rfl
@[simp] theorem State.answer_vme (s : State) (r : Reply) : (s.answer r).vme = s.vme := rfl
@[simp] theorem State.answer_mem (s : State) (r : Reply) : (s.answer r).mem = s.mem := rfl
@[simp] theorem State.answer_pending (s : State) (r : Reply) : (s.answer r).pending = s.pending := rfl

/-! ### setReg64 -/

@[simp] theorem State.setReg64_pages (s : State) (p off : Nat) (v : DWord) : (s.setReg64 p off v).pages = s.pages := rfl
@[simp] theorem State.setReg64_ops (s : State) (p off : Nat) (v : DWord) : (s.setReg64 p off v).ops = s.ops := rfl
@[simp] theorem State.setReg64_counters (s : State) (p off : Nat) (v : DWord) : (s.setReg64 p off v).counters = s.counters := rfl
@[simp] theorem State.setReg64_hiSnap (s : State) (p off : Nat) (v : DWord) : (s.setReg64 p off v).hiSnap = s.hiSnap := rfl
@[simp] theorem State.setReg64_auditBusy (s : State) (p off : Nat) (v : DWord) : (s.setReg64 p off v).auditBusy = s.auditBusy := rfl
@[simp] theorem State.setReg64_owners (s : State) (p off : Nat) (v : DWord) : (s.setReg64 p off v).owners = s.owners := rfl
@[simp] theorem State.setReg64_faults (s : State) (p off : Nat) (v : DWord) : (s.setReg64 p off v).faults = s.faults := rfl
@[simp] theorem State.setReg64_ledger (s : State) (p off : Nat) (v : DWord) : (s.setReg64 p off v).ledger = s.ledger := rfl
@[simp] theorem State.setReg64_ledgerSnaps (s : State) (p off : Nat) (v : DWord) : (s.setReg64 p off v).ledgerSnaps = s.ledgerSnaps := rfl
@[simp] theorem State.setReg64_ledgerSeqs (s : State) (p off : Nat) (v : DWord) : (s.setReg64 p off v).ledgerSeqs = s.ledgerSeqs := rfl
@[simp] theorem State.setReg64_reply (s : State) (p off : Nat) (v : DWord) : (s.setReg64 p off v).reply = s.reply := rfl
@[simp] theorem State.setReg64_free (s : State) (p off : Nat) (v : DWord) : (s.setReg64 p off v).free = s.free := rfl
@[simp] theorem State.setReg64_clu (s : State) (p off : Nat) (v : DWord) : (s.setReg64 p off v).clu = s.clu := rfl
@[simp] theorem State.setReg64_red (s : State) (p off : Nat) (v : DWord) : (s.setReg64 p off v).red = s.red := rfl
@[simp] theorem State.setReg64_measSync (s : State) (p off : Nat) (v : DWord) : (s.setReg64 p off v).measSync = s.measSync := rfl
@[simp] theorem State.setReg64_appMessages (s : State) (p off : Nat) (v : DWord) : (s.setReg64 p off v).appMessages = s.appMessages := rfl
@[simp] theorem State.setReg64_time (s : State) (p off : Nat) (v : DWord) : (s.setReg64 p off v).time = s.time := rfl
@[simp] theorem State.setReg64_cle (s : State) (p off : Nat) (v : DWord) : (s.setReg64 p off v).cle = s.cle := rfl
@[simp] theorem State.setReg64_ps (s : State) (p off : Nat) (v : DWord) : (s.setReg64 p off v).ps = s.ps := rfl
@[simp] theorem State.setReg64_sup (s : State) (p off : Nat) (v : DWord) : (s.setReg64 p off v).sup = s.sup := rfl
@[simp] theorem State.setReg64_fail (s : State) (p off : Nat) (v : DWord) : (s.setReg64 p off v).fail = s.fail := rfl
@[simp] theorem State.setReg64_obs (s : State) (p off : Nat) (v : DWord) : (s.setReg64 p off v).obs = s.obs := rfl
@[simp] theorem State.setReg64_net (s : State) (p off : Nat) (v : DWord) : (s.setReg64 p off v).net = s.net := rfl
@[simp] theorem State.setReg64_mvbs (s : State) (p off : Nat) (v : DWord) : (s.setReg64 p off v).mvbs = s.mvbs := rfl
@[simp] theorem State.setReg64_cans (s : State) (p off : Nat) (v : DWord) : (s.setReg64 p off v).cans = s.cans := rfl
@[simp] theorem State.setReg64_meas (s : State) (p off : Nat) (v : DWord) : (s.setReg64 p off v).meas = s.meas := rfl
@[simp] theorem State.setReg64_vme (s : State) (p off : Nat) (v : DWord) : (s.setReg64 p off v).vme = s.vme := rfl
@[simp] theorem State.setReg64_mem (s : State) (p off : Nat) (v : DWord) : (s.setReg64 p off v).mem = s.mem := rfl
@[simp] theorem State.setReg64_pending (s : State) (p off : Nat) (v : DWord) : (s.setReg64 p off v).pending = s.pending := rfl

/-! ### satReg -/

@[simp] theorem State.satReg_pages (s : State) (p off k : Nat) : (s.satReg p off k).pages = s.pages := rfl
@[simp] theorem State.satReg_ops (s : State) (p off k : Nat) : (s.satReg p off k).ops = s.ops := rfl
@[simp] theorem State.satReg_counters (s : State) (p off k : Nat) : (s.satReg p off k).counters = s.counters := rfl
@[simp] theorem State.satReg_hiSnap (s : State) (p off k : Nat) : (s.satReg p off k).hiSnap = s.hiSnap := rfl
@[simp] theorem State.satReg_auditBusy (s : State) (p off k : Nat) : (s.satReg p off k).auditBusy = s.auditBusy := rfl
@[simp] theorem State.satReg_owners (s : State) (p off k : Nat) : (s.satReg p off k).owners = s.owners := rfl
@[simp] theorem State.satReg_faults (s : State) (p off k : Nat) : (s.satReg p off k).faults = s.faults := rfl
@[simp] theorem State.satReg_ledger (s : State) (p off k : Nat) : (s.satReg p off k).ledger = s.ledger := rfl
@[simp] theorem State.satReg_ledgerSnaps (s : State) (p off k : Nat) : (s.satReg p off k).ledgerSnaps = s.ledgerSnaps := rfl
@[simp] theorem State.satReg_ledgerSeqs (s : State) (p off k : Nat) : (s.satReg p off k).ledgerSeqs = s.ledgerSeqs := rfl
@[simp] theorem State.satReg_reply (s : State) (p off k : Nat) : (s.satReg p off k).reply = s.reply := rfl
@[simp] theorem State.satReg_free (s : State) (p off k : Nat) : (s.satReg p off k).free = s.free := rfl
@[simp] theorem State.satReg_clu (s : State) (p off k : Nat) : (s.satReg p off k).clu = s.clu := rfl
@[simp] theorem State.satReg_red (s : State) (p off k : Nat) : (s.satReg p off k).red = s.red := rfl
@[simp] theorem State.satReg_measSync (s : State) (p off k : Nat) : (s.satReg p off k).measSync = s.measSync := rfl
@[simp] theorem State.satReg_appMessages (s : State) (p off k : Nat) : (s.satReg p off k).appMessages = s.appMessages := rfl
@[simp] theorem State.satReg_time (s : State) (p off k : Nat) : (s.satReg p off k).time = s.time := rfl
@[simp] theorem State.satReg_cle (s : State) (p off k : Nat) : (s.satReg p off k).cle = s.cle := rfl
@[simp] theorem State.satReg_ps (s : State) (p off k : Nat) : (s.satReg p off k).ps = s.ps := rfl
@[simp] theorem State.satReg_sup (s : State) (p off k : Nat) : (s.satReg p off k).sup = s.sup := rfl
@[simp] theorem State.satReg_fail (s : State) (p off k : Nat) : (s.satReg p off k).fail = s.fail := rfl
@[simp] theorem State.satReg_obs (s : State) (p off k : Nat) : (s.satReg p off k).obs = s.obs := rfl
@[simp] theorem State.satReg_net (s : State) (p off k : Nat) : (s.satReg p off k).net = s.net := rfl
@[simp] theorem State.satReg_mvbs (s : State) (p off k : Nat) : (s.satReg p off k).mvbs = s.mvbs := rfl
@[simp] theorem State.satReg_cans (s : State) (p off k : Nat) : (s.satReg p off k).cans = s.cans := rfl
@[simp] theorem State.satReg_meas (s : State) (p off k : Nat) : (s.satReg p off k).meas = s.meas := rfl
@[simp] theorem State.satReg_vme (s : State) (p off k : Nat) : (s.satReg p off k).vme = s.vme := rfl
@[simp] theorem State.satReg_mem (s : State) (p off k : Nat) : (s.satReg p off k).mem = s.mem := rfl
@[simp] theorem State.satReg_pending (s : State) (p off k : Nat) : (s.satReg p off k).pending = s.pending := rfl

/-! ### incReg -/

@[simp] theorem State.incReg_pages (s : State) (p off k : Nat) : (s.incReg p off k).pages = s.pages := rfl
@[simp] theorem State.incReg_ops (s : State) (p off k : Nat) : (s.incReg p off k).ops = s.ops := rfl
@[simp] theorem State.incReg_counters (s : State) (p off k : Nat) : (s.incReg p off k).counters = s.counters := rfl
@[simp] theorem State.incReg_hiSnap (s : State) (p off k : Nat) : (s.incReg p off k).hiSnap = s.hiSnap := rfl
@[simp] theorem State.incReg_auditBusy (s : State) (p off k : Nat) : (s.incReg p off k).auditBusy = s.auditBusy := rfl
@[simp] theorem State.incReg_owners (s : State) (p off k : Nat) : (s.incReg p off k).owners = s.owners := rfl
@[simp] theorem State.incReg_faults (s : State) (p off k : Nat) : (s.incReg p off k).faults = s.faults := rfl
@[simp] theorem State.incReg_ledger (s : State) (p off k : Nat) : (s.incReg p off k).ledger = s.ledger := rfl
@[simp] theorem State.incReg_ledgerSnaps (s : State) (p off k : Nat) : (s.incReg p off k).ledgerSnaps = s.ledgerSnaps := rfl
@[simp] theorem State.incReg_ledgerSeqs (s : State) (p off k : Nat) : (s.incReg p off k).ledgerSeqs = s.ledgerSeqs := rfl
@[simp] theorem State.incReg_reply (s : State) (p off k : Nat) : (s.incReg p off k).reply = s.reply := rfl
@[simp] theorem State.incReg_free (s : State) (p off k : Nat) : (s.incReg p off k).free = s.free := rfl
@[simp] theorem State.incReg_clu (s : State) (p off k : Nat) : (s.incReg p off k).clu = s.clu := rfl
@[simp] theorem State.incReg_red (s : State) (p off k : Nat) : (s.incReg p off k).red = s.red := rfl
@[simp] theorem State.incReg_measSync (s : State) (p off k : Nat) : (s.incReg p off k).measSync = s.measSync := rfl
@[simp] theorem State.incReg_appMessages (s : State) (p off k : Nat) : (s.incReg p off k).appMessages = s.appMessages := rfl
@[simp] theorem State.incReg_time (s : State) (p off k : Nat) : (s.incReg p off k).time = s.time := rfl
@[simp] theorem State.incReg_cle (s : State) (p off k : Nat) : (s.incReg p off k).cle = s.cle := rfl
@[simp] theorem State.incReg_ps (s : State) (p off k : Nat) : (s.incReg p off k).ps = s.ps := rfl
@[simp] theorem State.incReg_sup (s : State) (p off k : Nat) : (s.incReg p off k).sup = s.sup := rfl
@[simp] theorem State.incReg_fail (s : State) (p off k : Nat) : (s.incReg p off k).fail = s.fail := rfl
@[simp] theorem State.incReg_obs (s : State) (p off k : Nat) : (s.incReg p off k).obs = s.obs := rfl
@[simp] theorem State.incReg_net (s : State) (p off k : Nat) : (s.incReg p off k).net = s.net := rfl
@[simp] theorem State.incReg_mvbs (s : State) (p off k : Nat) : (s.incReg p off k).mvbs = s.mvbs := rfl
@[simp] theorem State.incReg_cans (s : State) (p off k : Nat) : (s.incReg p off k).cans = s.cans := rfl
@[simp] theorem State.incReg_meas (s : State) (p off k : Nat) : (s.incReg p off k).meas = s.meas := rfl
@[simp] theorem State.incReg_vme (s : State) (p off k : Nat) : (s.incReg p off k).vme = s.vme := rfl
@[simp] theorem State.incReg_mem (s : State) (p off k : Nat) : (s.incReg p off k).mem = s.mem := rfl
@[simp] theorem State.incReg_pending (s : State) (p off k : Nat) : (s.incReg p off k).pending = s.pending := rfl

/-! ### setCle -/

@[simp] theorem State.setCle_cle (s : State) (v : Cle) : (s.setCle v).cle = v := rfl
@[simp] theorem State.setCle_regs (s : State) (v : Cle) : (s.setCle v).regs = s.regs := rfl
@[simp] theorem State.setCle_pages (s : State) (v : Cle) : (s.setCle v).pages = s.pages := rfl
@[simp] theorem State.setCle_ops (s : State) (v : Cle) : (s.setCle v).ops = s.ops := rfl
@[simp] theorem State.setCle_counters (s : State) (v : Cle) : (s.setCle v).counters = s.counters := rfl
@[simp] theorem State.setCle_hiSnap (s : State) (v : Cle) : (s.setCle v).hiSnap = s.hiSnap := rfl
@[simp] theorem State.setCle_auditBusy (s : State) (v : Cle) : (s.setCle v).auditBusy = s.auditBusy := rfl
@[simp] theorem State.setCle_owners (s : State) (v : Cle) : (s.setCle v).owners = s.owners := rfl
@[simp] theorem State.setCle_faults (s : State) (v : Cle) : (s.setCle v).faults = s.faults := rfl
@[simp] theorem State.setCle_ledger (s : State) (v : Cle) : (s.setCle v).ledger = s.ledger := rfl
@[simp] theorem State.setCle_ledgerSnaps (s : State) (v : Cle) : (s.setCle v).ledgerSnaps = s.ledgerSnaps := rfl
@[simp] theorem State.setCle_ledgerSeqs (s : State) (v : Cle) : (s.setCle v).ledgerSeqs = s.ledgerSeqs := rfl
@[simp] theorem State.setCle_reply (s : State) (v : Cle) : (s.setCle v).reply = s.reply := rfl
@[simp] theorem State.setCle_free (s : State) (v : Cle) : (s.setCle v).free = s.free := rfl
@[simp] theorem State.setCle_clu (s : State) (v : Cle) : (s.setCle v).clu = s.clu := rfl
@[simp] theorem State.setCle_red (s : State) (v : Cle) : (s.setCle v).red = s.red := rfl
@[simp] theorem State.setCle_measSync (s : State) (v : Cle) : (s.setCle v).measSync = s.measSync := rfl
@[simp] theorem State.setCle_appMessages (s : State) (v : Cle) : (s.setCle v).appMessages = s.appMessages := rfl
@[simp] theorem State.setCle_time (s : State) (v : Cle) : (s.setCle v).time = s.time := rfl
@[simp] theorem State.setCle_ps (s : State) (v : Cle) : (s.setCle v).ps = s.ps := rfl
@[simp] theorem State.setCle_sup (s : State) (v : Cle) : (s.setCle v).sup = s.sup := rfl
@[simp] theorem State.setCle_fail (s : State) (v : Cle) : (s.setCle v).fail = s.fail := rfl
@[simp] theorem State.setCle_obs (s : State) (v : Cle) : (s.setCle v).obs = s.obs := rfl
@[simp] theorem State.setCle_net (s : State) (v : Cle) : (s.setCle v).net = s.net := rfl
@[simp] theorem State.setCle_mvbs (s : State) (v : Cle) : (s.setCle v).mvbs = s.mvbs := rfl
@[simp] theorem State.setCle_cans (s : State) (v : Cle) : (s.setCle v).cans = s.cans := rfl
@[simp] theorem State.setCle_meas (s : State) (v : Cle) : (s.setCle v).meas = s.meas := rfl
@[simp] theorem State.setCle_vme (s : State) (v : Cle) : (s.setCle v).vme = s.vme := rfl
@[simp] theorem State.setCle_mem (s : State) (v : Cle) : (s.setCle v).mem = s.mem := rfl
@[simp] theorem State.setCle_pending (s : State) (v : Cle) : (s.setCle v).pending = s.pending := rfl

/-! ### setTime -/

@[simp] theorem State.setTime_time (s : State) (v : TimeState) : (s.setTime v).time = v := rfl
@[simp] theorem State.setTime_regs (s : State) (v : TimeState) : (s.setTime v).regs = s.regs := rfl
@[simp] theorem State.setTime_pages (s : State) (v : TimeState) : (s.setTime v).pages = s.pages := rfl
@[simp] theorem State.setTime_ops (s : State) (v : TimeState) : (s.setTime v).ops = s.ops := rfl
@[simp] theorem State.setTime_counters (s : State) (v : TimeState) : (s.setTime v).counters = s.counters := rfl
@[simp] theorem State.setTime_hiSnap (s : State) (v : TimeState) : (s.setTime v).hiSnap = s.hiSnap := rfl
@[simp] theorem State.setTime_auditBusy (s : State) (v : TimeState) : (s.setTime v).auditBusy = s.auditBusy := rfl
@[simp] theorem State.setTime_owners (s : State) (v : TimeState) : (s.setTime v).owners = s.owners := rfl
@[simp] theorem State.setTime_faults (s : State) (v : TimeState) : (s.setTime v).faults = s.faults := rfl
@[simp] theorem State.setTime_ledger (s : State) (v : TimeState) : (s.setTime v).ledger = s.ledger := rfl
@[simp] theorem State.setTime_ledgerSnaps (s : State) (v : TimeState) : (s.setTime v).ledgerSnaps = s.ledgerSnaps := rfl
@[simp] theorem State.setTime_ledgerSeqs (s : State) (v : TimeState) : (s.setTime v).ledgerSeqs = s.ledgerSeqs := rfl
@[simp] theorem State.setTime_reply (s : State) (v : TimeState) : (s.setTime v).reply = s.reply := rfl
@[simp] theorem State.setTime_free (s : State) (v : TimeState) : (s.setTime v).free = s.free := rfl
@[simp] theorem State.setTime_clu (s : State) (v : TimeState) : (s.setTime v).clu = s.clu := rfl
@[simp] theorem State.setTime_red (s : State) (v : TimeState) : (s.setTime v).red = s.red := rfl
@[simp] theorem State.setTime_measSync (s : State) (v : TimeState) : (s.setTime v).measSync = s.measSync := rfl
@[simp] theorem State.setTime_appMessages (s : State) (v : TimeState) : (s.setTime v).appMessages = s.appMessages := rfl
@[simp] theorem State.setTime_cle (s : State) (v : TimeState) : (s.setTime v).cle = s.cle := rfl
@[simp] theorem State.setTime_ps (s : State) (v : TimeState) : (s.setTime v).ps = s.ps := rfl
@[simp] theorem State.setTime_sup (s : State) (v : TimeState) : (s.setTime v).sup = s.sup := rfl
@[simp] theorem State.setTime_fail (s : State) (v : TimeState) : (s.setTime v).fail = s.fail := rfl
@[simp] theorem State.setTime_obs (s : State) (v : TimeState) : (s.setTime v).obs = s.obs := rfl
@[simp] theorem State.setTime_net (s : State) (v : TimeState) : (s.setTime v).net = s.net := rfl
@[simp] theorem State.setTime_mvbs (s : State) (v : TimeState) : (s.setTime v).mvbs = s.mvbs := rfl
@[simp] theorem State.setTime_cans (s : State) (v : TimeState) : (s.setTime v).cans = s.cans := rfl
@[simp] theorem State.setTime_meas (s : State) (v : TimeState) : (s.setTime v).meas = s.meas := rfl
@[simp] theorem State.setTime_vme (s : State) (v : TimeState) : (s.setTime v).vme = s.vme := rfl
@[simp] theorem State.setTime_mem (s : State) (v : TimeState) : (s.setTime v).mem = s.mem := rfl
@[simp] theorem State.setTime_pending (s : State) (v : TimeState) : (s.setTime v).pending = s.pending := rfl

/-! ### setNet -/

@[simp] theorem State.setNet_net (s : State) (v : Net) : (s.setNet v).net = v := rfl
@[simp] theorem State.setNet_regs (s : State) (v : Net) : (s.setNet v).regs = s.regs := rfl
@[simp] theorem State.setNet_pages (s : State) (v : Net) : (s.setNet v).pages = s.pages := rfl
@[simp] theorem State.setNet_ops (s : State) (v : Net) : (s.setNet v).ops = s.ops := rfl
@[simp] theorem State.setNet_counters (s : State) (v : Net) : (s.setNet v).counters = s.counters := rfl
@[simp] theorem State.setNet_hiSnap (s : State) (v : Net) : (s.setNet v).hiSnap = s.hiSnap := rfl
@[simp] theorem State.setNet_auditBusy (s : State) (v : Net) : (s.setNet v).auditBusy = s.auditBusy := rfl
@[simp] theorem State.setNet_owners (s : State) (v : Net) : (s.setNet v).owners = s.owners := rfl
@[simp] theorem State.setNet_faults (s : State) (v : Net) : (s.setNet v).faults = s.faults := rfl
@[simp] theorem State.setNet_ledger (s : State) (v : Net) : (s.setNet v).ledger = s.ledger := rfl
@[simp] theorem State.setNet_ledgerSnaps (s : State) (v : Net) : (s.setNet v).ledgerSnaps = s.ledgerSnaps := rfl
@[simp] theorem State.setNet_ledgerSeqs (s : State) (v : Net) : (s.setNet v).ledgerSeqs = s.ledgerSeqs := rfl
@[simp] theorem State.setNet_reply (s : State) (v : Net) : (s.setNet v).reply = s.reply := rfl
@[simp] theorem State.setNet_free (s : State) (v : Net) : (s.setNet v).free = s.free := rfl
@[simp] theorem State.setNet_clu (s : State) (v : Net) : (s.setNet v).clu = s.clu := rfl
@[simp] theorem State.setNet_red (s : State) (v : Net) : (s.setNet v).red = s.red := rfl
@[simp] theorem State.setNet_measSync (s : State) (v : Net) : (s.setNet v).measSync = s.measSync := rfl
@[simp] theorem State.setNet_appMessages (s : State) (v : Net) : (s.setNet v).appMessages = s.appMessages := rfl
@[simp] theorem State.setNet_time (s : State) (v : Net) : (s.setNet v).time = s.time := rfl
@[simp] theorem State.setNet_cle (s : State) (v : Net) : (s.setNet v).cle = s.cle := rfl
@[simp] theorem State.setNet_ps (s : State) (v : Net) : (s.setNet v).ps = s.ps := rfl
@[simp] theorem State.setNet_sup (s : State) (v : Net) : (s.setNet v).sup = s.sup := rfl
@[simp] theorem State.setNet_fail (s : State) (v : Net) : (s.setNet v).fail = s.fail := rfl
@[simp] theorem State.setNet_obs (s : State) (v : Net) : (s.setNet v).obs = s.obs := rfl
@[simp] theorem State.setNet_mvbs (s : State) (v : Net) : (s.setNet v).mvbs = s.mvbs := rfl
@[simp] theorem State.setNet_cans (s : State) (v : Net) : (s.setNet v).cans = s.cans := rfl
@[simp] theorem State.setNet_meas (s : State) (v : Net) : (s.setNet v).meas = s.meas := rfl
@[simp] theorem State.setNet_vme (s : State) (v : Net) : (s.setNet v).vme = s.vme := rfl
@[simp] theorem State.setNet_mem (s : State) (v : Net) : (s.setNet v).mem = s.mem := rfl
@[simp] theorem State.setNet_pending (s : State) (v : Net) : (s.setNet v).pending = s.pending := rfl

/-! ### setMeas -/

@[simp] theorem State.setMeas_meas (s : State) (v : MeasState) : (s.setMeas v).meas = v := rfl
@[simp] theorem State.setMeas_regs (s : State) (v : MeasState) : (s.setMeas v).regs = s.regs := rfl
@[simp] theorem State.setMeas_pages (s : State) (v : MeasState) : (s.setMeas v).pages = s.pages := rfl
@[simp] theorem State.setMeas_ops (s : State) (v : MeasState) : (s.setMeas v).ops = s.ops := rfl
@[simp] theorem State.setMeas_counters (s : State) (v : MeasState) : (s.setMeas v).counters = s.counters := rfl
@[simp] theorem State.setMeas_hiSnap (s : State) (v : MeasState) : (s.setMeas v).hiSnap = s.hiSnap := rfl
@[simp] theorem State.setMeas_auditBusy (s : State) (v : MeasState) : (s.setMeas v).auditBusy = s.auditBusy := rfl
@[simp] theorem State.setMeas_owners (s : State) (v : MeasState) : (s.setMeas v).owners = s.owners := rfl
@[simp] theorem State.setMeas_faults (s : State) (v : MeasState) : (s.setMeas v).faults = s.faults := rfl
@[simp] theorem State.setMeas_ledger (s : State) (v : MeasState) : (s.setMeas v).ledger = s.ledger := rfl
@[simp] theorem State.setMeas_ledgerSnaps (s : State) (v : MeasState) : (s.setMeas v).ledgerSnaps = s.ledgerSnaps := rfl
@[simp] theorem State.setMeas_ledgerSeqs (s : State) (v : MeasState) : (s.setMeas v).ledgerSeqs = s.ledgerSeqs := rfl
@[simp] theorem State.setMeas_reply (s : State) (v : MeasState) : (s.setMeas v).reply = s.reply := rfl
@[simp] theorem State.setMeas_free (s : State) (v : MeasState) : (s.setMeas v).free = s.free := rfl
@[simp] theorem State.setMeas_clu (s : State) (v : MeasState) : (s.setMeas v).clu = s.clu := rfl
@[simp] theorem State.setMeas_red (s : State) (v : MeasState) : (s.setMeas v).red = s.red := rfl
@[simp] theorem State.setMeas_measSync (s : State) (v : MeasState) : (s.setMeas v).measSync = s.measSync := rfl
@[simp] theorem State.setMeas_appMessages (s : State) (v : MeasState) : (s.setMeas v).appMessages = s.appMessages := rfl
@[simp] theorem State.setMeas_time (s : State) (v : MeasState) : (s.setMeas v).time = s.time := rfl
@[simp] theorem State.setMeas_cle (s : State) (v : MeasState) : (s.setMeas v).cle = s.cle := rfl
@[simp] theorem State.setMeas_ps (s : State) (v : MeasState) : (s.setMeas v).ps = s.ps := rfl
@[simp] theorem State.setMeas_sup (s : State) (v : MeasState) : (s.setMeas v).sup = s.sup := rfl
@[simp] theorem State.setMeas_fail (s : State) (v : MeasState) : (s.setMeas v).fail = s.fail := rfl
@[simp] theorem State.setMeas_obs (s : State) (v : MeasState) : (s.setMeas v).obs = s.obs := rfl
@[simp] theorem State.setMeas_net (s : State) (v : MeasState) : (s.setMeas v).net = s.net := rfl
@[simp] theorem State.setMeas_mvbs (s : State) (v : MeasState) : (s.setMeas v).mvbs = s.mvbs := rfl
@[simp] theorem State.setMeas_cans (s : State) (v : MeasState) : (s.setMeas v).cans = s.cans := rfl
@[simp] theorem State.setMeas_vme (s : State) (v : MeasState) : (s.setMeas v).vme = s.vme := rfl
@[simp] theorem State.setMeas_mem (s : State) (v : MeasState) : (s.setMeas v).mem = s.mem := rfl
@[simp] theorem State.setMeas_pending (s : State) (v : MeasState) : (s.setMeas v).pending = s.pending := rfl

/-! ### setVme -/

@[simp] theorem State.setVme_vme (s : State) (v : VmeState) : (s.setVme v).vme = v := rfl
@[simp] theorem State.setVme_regs (s : State) (v : VmeState) : (s.setVme v).regs = s.regs := rfl
@[simp] theorem State.setVme_pages (s : State) (v : VmeState) : (s.setVme v).pages = s.pages := rfl
@[simp] theorem State.setVme_ops (s : State) (v : VmeState) : (s.setVme v).ops = s.ops := rfl
@[simp] theorem State.setVme_counters (s : State) (v : VmeState) : (s.setVme v).counters = s.counters := rfl
@[simp] theorem State.setVme_hiSnap (s : State) (v : VmeState) : (s.setVme v).hiSnap = s.hiSnap := rfl
@[simp] theorem State.setVme_auditBusy (s : State) (v : VmeState) : (s.setVme v).auditBusy = s.auditBusy := rfl
@[simp] theorem State.setVme_owners (s : State) (v : VmeState) : (s.setVme v).owners = s.owners := rfl
@[simp] theorem State.setVme_faults (s : State) (v : VmeState) : (s.setVme v).faults = s.faults := rfl
@[simp] theorem State.setVme_ledger (s : State) (v : VmeState) : (s.setVme v).ledger = s.ledger := rfl
@[simp] theorem State.setVme_ledgerSnaps (s : State) (v : VmeState) : (s.setVme v).ledgerSnaps = s.ledgerSnaps := rfl
@[simp] theorem State.setVme_ledgerSeqs (s : State) (v : VmeState) : (s.setVme v).ledgerSeqs = s.ledgerSeqs := rfl
@[simp] theorem State.setVme_reply (s : State) (v : VmeState) : (s.setVme v).reply = s.reply := rfl
@[simp] theorem State.setVme_free (s : State) (v : VmeState) : (s.setVme v).free = s.free := rfl
@[simp] theorem State.setVme_clu (s : State) (v : VmeState) : (s.setVme v).clu = s.clu := rfl
@[simp] theorem State.setVme_red (s : State) (v : VmeState) : (s.setVme v).red = s.red := rfl
@[simp] theorem State.setVme_measSync (s : State) (v : VmeState) : (s.setVme v).measSync = s.measSync := rfl
@[simp] theorem State.setVme_appMessages (s : State) (v : VmeState) : (s.setVme v).appMessages = s.appMessages := rfl
@[simp] theorem State.setVme_time (s : State) (v : VmeState) : (s.setVme v).time = s.time := rfl
@[simp] theorem State.setVme_cle (s : State) (v : VmeState) : (s.setVme v).cle = s.cle := rfl
@[simp] theorem State.setVme_ps (s : State) (v : VmeState) : (s.setVme v).ps = s.ps := rfl
@[simp] theorem State.setVme_sup (s : State) (v : VmeState) : (s.setVme v).sup = s.sup := rfl
@[simp] theorem State.setVme_fail (s : State) (v : VmeState) : (s.setVme v).fail = s.fail := rfl
@[simp] theorem State.setVme_obs (s : State) (v : VmeState) : (s.setVme v).obs = s.obs := rfl
@[simp] theorem State.setVme_net (s : State) (v : VmeState) : (s.setVme v).net = s.net := rfl
@[simp] theorem State.setVme_mvbs (s : State) (v : VmeState) : (s.setVme v).mvbs = s.mvbs := rfl
@[simp] theorem State.setVme_cans (s : State) (v : VmeState) : (s.setVme v).cans = s.cans := rfl
@[simp] theorem State.setVme_meas (s : State) (v : VmeState) : (s.setVme v).meas = s.meas := rfl
@[simp] theorem State.setVme_mem (s : State) (v : VmeState) : (s.setVme v).mem = s.mem := rfl
@[simp] theorem State.setVme_pending (s : State) (v : VmeState) : (s.setVme v).pending = s.pending := rfl

/-! ### setPs -/

@[simp] theorem State.setPs_ps (s : State) (v : PState) : (s.setPs v).ps = v := rfl
@[simp] theorem State.setPs_regs (s : State) (v : PState) : (s.setPs v).regs = s.regs := rfl
@[simp] theorem State.setPs_pages (s : State) (v : PState) : (s.setPs v).pages = s.pages := rfl
@[simp] theorem State.setPs_ops (s : State) (v : PState) : (s.setPs v).ops = s.ops := rfl
@[simp] theorem State.setPs_counters (s : State) (v : PState) : (s.setPs v).counters = s.counters := rfl
@[simp] theorem State.setPs_hiSnap (s : State) (v : PState) : (s.setPs v).hiSnap = s.hiSnap := rfl
@[simp] theorem State.setPs_auditBusy (s : State) (v : PState) : (s.setPs v).auditBusy = s.auditBusy := rfl
@[simp] theorem State.setPs_owners (s : State) (v : PState) : (s.setPs v).owners = s.owners := rfl
@[simp] theorem State.setPs_faults (s : State) (v : PState) : (s.setPs v).faults = s.faults := rfl
@[simp] theorem State.setPs_ledger (s : State) (v : PState) : (s.setPs v).ledger = s.ledger := rfl
@[simp] theorem State.setPs_ledgerSnaps (s : State) (v : PState) : (s.setPs v).ledgerSnaps = s.ledgerSnaps := rfl
@[simp] theorem State.setPs_ledgerSeqs (s : State) (v : PState) : (s.setPs v).ledgerSeqs = s.ledgerSeqs := rfl
@[simp] theorem State.setPs_reply (s : State) (v : PState) : (s.setPs v).reply = s.reply := rfl
@[simp] theorem State.setPs_free (s : State) (v : PState) : (s.setPs v).free = s.free := rfl
@[simp] theorem State.setPs_clu (s : State) (v : PState) : (s.setPs v).clu = s.clu := rfl
@[simp] theorem State.setPs_red (s : State) (v : PState) : (s.setPs v).red = s.red := rfl
@[simp] theorem State.setPs_measSync (s : State) (v : PState) : (s.setPs v).measSync = s.measSync := rfl
@[simp] theorem State.setPs_appMessages (s : State) (v : PState) : (s.setPs v).appMessages = s.appMessages := rfl
@[simp] theorem State.setPs_time (s : State) (v : PState) : (s.setPs v).time = s.time := rfl
@[simp] theorem State.setPs_cle (s : State) (v : PState) : (s.setPs v).cle = s.cle := rfl
@[simp] theorem State.setPs_sup (s : State) (v : PState) : (s.setPs v).sup = s.sup := rfl
@[simp] theorem State.setPs_fail (s : State) (v : PState) : (s.setPs v).fail = s.fail := rfl
@[simp] theorem State.setPs_obs (s : State) (v : PState) : (s.setPs v).obs = s.obs := rfl
@[simp] theorem State.setPs_net (s : State) (v : PState) : (s.setPs v).net = s.net := rfl
@[simp] theorem State.setPs_mvbs (s : State) (v : PState) : (s.setPs v).mvbs = s.mvbs := rfl
@[simp] theorem State.setPs_cans (s : State) (v : PState) : (s.setPs v).cans = s.cans := rfl
@[simp] theorem State.setPs_meas (s : State) (v : PState) : (s.setPs v).meas = s.meas := rfl
@[simp] theorem State.setPs_vme (s : State) (v : PState) : (s.setPs v).vme = s.vme := rfl
@[simp] theorem State.setPs_mem (s : State) (v : PState) : (s.setPs v).mem = s.mem := rfl
@[simp] theorem State.setPs_pending (s : State) (v : PState) : (s.setPs v).pending = s.pending := rfl

/-! ### setSup -/

@[simp] theorem State.setSup_sup (s : State) (v : Supervisor) : (s.setSup v).sup = v := rfl
@[simp] theorem State.setSup_regs (s : State) (v : Supervisor) : (s.setSup v).regs = s.regs := rfl
@[simp] theorem State.setSup_pages (s : State) (v : Supervisor) : (s.setSup v).pages = s.pages := rfl
@[simp] theorem State.setSup_ops (s : State) (v : Supervisor) : (s.setSup v).ops = s.ops := rfl
@[simp] theorem State.setSup_counters (s : State) (v : Supervisor) : (s.setSup v).counters = s.counters := rfl
@[simp] theorem State.setSup_hiSnap (s : State) (v : Supervisor) : (s.setSup v).hiSnap = s.hiSnap := rfl
@[simp] theorem State.setSup_auditBusy (s : State) (v : Supervisor) : (s.setSup v).auditBusy = s.auditBusy := rfl
@[simp] theorem State.setSup_owners (s : State) (v : Supervisor) : (s.setSup v).owners = s.owners := rfl
@[simp] theorem State.setSup_faults (s : State) (v : Supervisor) : (s.setSup v).faults = s.faults := rfl
@[simp] theorem State.setSup_ledger (s : State) (v : Supervisor) : (s.setSup v).ledger = s.ledger := rfl
@[simp] theorem State.setSup_ledgerSnaps (s : State) (v : Supervisor) : (s.setSup v).ledgerSnaps = s.ledgerSnaps := rfl
@[simp] theorem State.setSup_ledgerSeqs (s : State) (v : Supervisor) : (s.setSup v).ledgerSeqs = s.ledgerSeqs := rfl
@[simp] theorem State.setSup_reply (s : State) (v : Supervisor) : (s.setSup v).reply = s.reply := rfl
@[simp] theorem State.setSup_free (s : State) (v : Supervisor) : (s.setSup v).free = s.free := rfl
@[simp] theorem State.setSup_clu (s : State) (v : Supervisor) : (s.setSup v).clu = s.clu := rfl
@[simp] theorem State.setSup_red (s : State) (v : Supervisor) : (s.setSup v).red = s.red := rfl
@[simp] theorem State.setSup_measSync (s : State) (v : Supervisor) : (s.setSup v).measSync = s.measSync := rfl
@[simp] theorem State.setSup_appMessages (s : State) (v : Supervisor) : (s.setSup v).appMessages = s.appMessages := rfl
@[simp] theorem State.setSup_time (s : State) (v : Supervisor) : (s.setSup v).time = s.time := rfl
@[simp] theorem State.setSup_cle (s : State) (v : Supervisor) : (s.setSup v).cle = s.cle := rfl
@[simp] theorem State.setSup_ps (s : State) (v : Supervisor) : (s.setSup v).ps = s.ps := rfl
@[simp] theorem State.setSup_fail (s : State) (v : Supervisor) : (s.setSup v).fail = s.fail := rfl
@[simp] theorem State.setSup_obs (s : State) (v : Supervisor) : (s.setSup v).obs = s.obs := rfl
@[simp] theorem State.setSup_net (s : State) (v : Supervisor) : (s.setSup v).net = s.net := rfl
@[simp] theorem State.setSup_mvbs (s : State) (v : Supervisor) : (s.setSup v).mvbs = s.mvbs := rfl
@[simp] theorem State.setSup_cans (s : State) (v : Supervisor) : (s.setSup v).cans = s.cans := rfl
@[simp] theorem State.setSup_meas (s : State) (v : Supervisor) : (s.setSup v).meas = s.meas := rfl
@[simp] theorem State.setSup_vme (s : State) (v : Supervisor) : (s.setSup v).vme = s.vme := rfl
@[simp] theorem State.setSup_mem (s : State) (v : Supervisor) : (s.setSup v).mem = s.mem := rfl
@[simp] theorem State.setSup_pending (s : State) (v : Supervisor) : (s.setSup v).pending = s.pending := rfl

/-! ### setFail -/

@[simp] theorem State.setFail_fail (s : State) (v : Failover) : (s.setFail v).fail = v := rfl
@[simp] theorem State.setFail_regs (s : State) (v : Failover) : (s.setFail v).regs = s.regs := rfl
@[simp] theorem State.setFail_pages (s : State) (v : Failover) : (s.setFail v).pages = s.pages := rfl
@[simp] theorem State.setFail_ops (s : State) (v : Failover) : (s.setFail v).ops = s.ops := rfl
@[simp] theorem State.setFail_counters (s : State) (v : Failover) : (s.setFail v).counters = s.counters := rfl
@[simp] theorem State.setFail_hiSnap (s : State) (v : Failover) : (s.setFail v).hiSnap = s.hiSnap := rfl
@[simp] theorem State.setFail_auditBusy (s : State) (v : Failover) : (s.setFail v).auditBusy = s.auditBusy := rfl
@[simp] theorem State.setFail_owners (s : State) (v : Failover) : (s.setFail v).owners = s.owners := rfl
@[simp] theorem State.setFail_faults (s : State) (v : Failover) : (s.setFail v).faults = s.faults := rfl
@[simp] theorem State.setFail_ledger (s : State) (v : Failover) : (s.setFail v).ledger = s.ledger := rfl
@[simp] theorem State.setFail_ledgerSnaps (s : State) (v : Failover) : (s.setFail v).ledgerSnaps = s.ledgerSnaps := rfl
@[simp] theorem State.setFail_ledgerSeqs (s : State) (v : Failover) : (s.setFail v).ledgerSeqs = s.ledgerSeqs := rfl
@[simp] theorem State.setFail_reply (s : State) (v : Failover) : (s.setFail v).reply = s.reply := rfl
@[simp] theorem State.setFail_free (s : State) (v : Failover) : (s.setFail v).free = s.free := rfl
@[simp] theorem State.setFail_clu (s : State) (v : Failover) : (s.setFail v).clu = s.clu := rfl
@[simp] theorem State.setFail_red (s : State) (v : Failover) : (s.setFail v).red = s.red := rfl
@[simp] theorem State.setFail_measSync (s : State) (v : Failover) : (s.setFail v).measSync = s.measSync := rfl
@[simp] theorem State.setFail_appMessages (s : State) (v : Failover) : (s.setFail v).appMessages = s.appMessages := rfl
@[simp] theorem State.setFail_time (s : State) (v : Failover) : (s.setFail v).time = s.time := rfl
@[simp] theorem State.setFail_cle (s : State) (v : Failover) : (s.setFail v).cle = s.cle := rfl
@[simp] theorem State.setFail_ps (s : State) (v : Failover) : (s.setFail v).ps = s.ps := rfl
@[simp] theorem State.setFail_sup (s : State) (v : Failover) : (s.setFail v).sup = s.sup := rfl
@[simp] theorem State.setFail_obs (s : State) (v : Failover) : (s.setFail v).obs = s.obs := rfl
@[simp] theorem State.setFail_net (s : State) (v : Failover) : (s.setFail v).net = s.net := rfl
@[simp] theorem State.setFail_mvbs (s : State) (v : Failover) : (s.setFail v).mvbs = s.mvbs := rfl
@[simp] theorem State.setFail_cans (s : State) (v : Failover) : (s.setFail v).cans = s.cans := rfl
@[simp] theorem State.setFail_meas (s : State) (v : Failover) : (s.setFail v).meas = s.meas := rfl
@[simp] theorem State.setFail_vme (s : State) (v : Failover) : (s.setFail v).vme = s.vme := rfl
@[simp] theorem State.setFail_mem (s : State) (v : Failover) : (s.setFail v).mem = s.mem := rfl
@[simp] theorem State.setFail_pending (s : State) (v : Failover) : (s.setFail v).pending = s.pending := rfl

/-! ### setObs -/

@[simp] theorem State.setObs_obs (s : State) (v : Observe) : (s.setObs v).obs = v := rfl
@[simp] theorem State.setObs_regs (s : State) (v : Observe) : (s.setObs v).regs = s.regs := rfl
@[simp] theorem State.setObs_pages (s : State) (v : Observe) : (s.setObs v).pages = s.pages := rfl
@[simp] theorem State.setObs_ops (s : State) (v : Observe) : (s.setObs v).ops = s.ops := rfl
@[simp] theorem State.setObs_counters (s : State) (v : Observe) : (s.setObs v).counters = s.counters := rfl
@[simp] theorem State.setObs_hiSnap (s : State) (v : Observe) : (s.setObs v).hiSnap = s.hiSnap := rfl
@[simp] theorem State.setObs_auditBusy (s : State) (v : Observe) : (s.setObs v).auditBusy = s.auditBusy := rfl
@[simp] theorem State.setObs_owners (s : State) (v : Observe) : (s.setObs v).owners = s.owners := rfl
@[simp] theorem State.setObs_faults (s : State) (v : Observe) : (s.setObs v).faults = s.faults := rfl
@[simp] theorem State.setObs_ledger (s : State) (v : Observe) : (s.setObs v).ledger = s.ledger := rfl
@[simp] theorem State.setObs_ledgerSnaps (s : State) (v : Observe) : (s.setObs v).ledgerSnaps = s.ledgerSnaps := rfl
@[simp] theorem State.setObs_ledgerSeqs (s : State) (v : Observe) : (s.setObs v).ledgerSeqs = s.ledgerSeqs := rfl
@[simp] theorem State.setObs_reply (s : State) (v : Observe) : (s.setObs v).reply = s.reply := rfl
@[simp] theorem State.setObs_free (s : State) (v : Observe) : (s.setObs v).free = s.free := rfl
@[simp] theorem State.setObs_clu (s : State) (v : Observe) : (s.setObs v).clu = s.clu := rfl
@[simp] theorem State.setObs_red (s : State) (v : Observe) : (s.setObs v).red = s.red := rfl
@[simp] theorem State.setObs_measSync (s : State) (v : Observe) : (s.setObs v).measSync = s.measSync := rfl
@[simp] theorem State.setObs_appMessages (s : State) (v : Observe) : (s.setObs v).appMessages = s.appMessages := rfl
@[simp] theorem State.setObs_time (s : State) (v : Observe) : (s.setObs v).time = s.time := rfl
@[simp] theorem State.setObs_cle (s : State) (v : Observe) : (s.setObs v).cle = s.cle := rfl
@[simp] theorem State.setObs_ps (s : State) (v : Observe) : (s.setObs v).ps = s.ps := rfl
@[simp] theorem State.setObs_sup (s : State) (v : Observe) : (s.setObs v).sup = s.sup := rfl
@[simp] theorem State.setObs_fail (s : State) (v : Observe) : (s.setObs v).fail = s.fail := rfl
@[simp] theorem State.setObs_net (s : State) (v : Observe) : (s.setObs v).net = s.net := rfl
@[simp] theorem State.setObs_mvbs (s : State) (v : Observe) : (s.setObs v).mvbs = s.mvbs := rfl
@[simp] theorem State.setObs_cans (s : State) (v : Observe) : (s.setObs v).cans = s.cans := rfl
@[simp] theorem State.setObs_meas (s : State) (v : Observe) : (s.setObs v).meas = s.meas := rfl
@[simp] theorem State.setObs_vme (s : State) (v : Observe) : (s.setObs v).vme = s.vme := rfl
@[simp] theorem State.setObs_mem (s : State) (v : Observe) : (s.setObs v).mem = s.mem := rfl
@[simp] theorem State.setObs_pending (s : State) (v : Observe) : (s.setObs v).pending = s.pending := rfl

end Sys2Proof.Laws
end

