-- ==== Sys2Proof/Laws/Tables.lean ====
section
/-!
SUPPORT. The laws of the sparse tables and of the byte memories: what is read after a write, and that every operation keeps
the canonical form.
-/
namespace Sys2Proof.Laws
open Sys2Proof Sys2Proof.Machine Sys2Proof.Safety

variable {α : Type}

/-! ## Reading after a write -/

theorem tblRead_put_same (d : Nat → α) (t : Tbl α) (k : Nat) (v : α) : tblRead d (tblPut t k v) k = v := by
  induction t with
  | nil => simp [tblPut, tblRead]
  | cons e t ih =>
    obtain ⟨k', w⟩ := e
    simp only [tblPut]
    split
    · simp [tblRead]
    · split
      · simp [tblRead]
      · next h _ => simp [tblRead, h, ih]

theorem tblRead_put_other (d : Nat → α) (t : Tbl α) (k j : Nat) (v : α) (h : j ≠ k) :
    tblRead d (tblPut t k v) j = tblRead d t j := by
  induction t with
  | nil => simp [tblPut, tblRead, h.symm]
  | cons e t ih =>
    obtain ⟨k', w⟩ := e
    simp only [tblPut]
    split
    · next e => subst e; simp [tblRead, h.symm]
    · split
      · simp [tblRead, h.symm]
      · simp [tblRead, ih]

theorem tblRead_erase_other (d : Nat → α) (t : Tbl α) (k j : Nat) (h : j ≠ k) :
    tblRead d (tblErase t k) j = tblRead d t j := by
  induction t with
  | nil => rfl
  | cons e t ih =>
    obtain ⟨k', w⟩ := e
    simp only [tblErase]
    split
    · next e => subst e; simp [tblRead, h.symm, ih]
    · simp [tblRead, ih]

theorem tblRead_erase_same (d : Nat → α) (t : Tbl α) (k : Nat) : tblRead d (tblErase t k) k = d k := by
  induction t with
  | nil => rfl
  | cons e t ih =>
    obtain ⟨k', w⟩ := e
    simp only [tblErase]
    split
    · exact ih
    · next e => simp only [tblRead, e, if_false, ih]

section
variable [DecidableEq α]

/-- What is read at another key is what was read before. -/
theorem tblRead_write_other (d : Nat → α) (t : Tbl α) (k j : Nat) (v : α) (h : j ≠ k) :
    tblRead d (tblWrite d t k v) j = tblRead d t j := by
  unfold tblWrite
  split
  · exact tblRead_erase_other d t k j h
  · exact tblRead_put_other d t k j v h

/-- What was written is read back. -/
theorem tblRead_write_same (d : Nat → α) (t : Tbl α) (k : Nat) (v : α) : tblRead d (tblWrite d t k v) k = v := by
  unfold tblWrite
  split
  · next e => rw [e]; exact tblRead_erase_same d t k
  · exact tblRead_put_same d t k v

/-! ## The canonical form -/

theorem tblWfFrom_mono (d : Nat → α) (t : Tbl α) (lo hi : Nat) (h : tblWfFrom d hi t = true) (hl : lo ≤ hi) :
    tblWfFrom d lo t = true := by
  cases t with
  | nil => rfl
  | cons e t =>
    obtain ⟨k, v⟩ := e
    simp only [tblWfFrom, Bool.and_eq_true, decide_eq_true_eq] at h ⊢
    exact ⟨⟨by omega, h.1.2⟩, h.2⟩

theorem tblErase_wf (d : Nat → α) (t : Tbl α) (lo k : Nat) (h : tblWfFrom d lo t = true) :
    tblWfFrom d lo (tblErase t k) = true := by
  induction t generalizing lo with
  | nil => rfl
  | cons e t ih =>
    obtain ⟨k', w⟩ := e
    simp only [tblErase]
    split
    · simp only [tblWfFrom, Bool.and_eq_true, decide_eq_true_eq] at h
      exact ih lo (tblWfFrom_mono d t lo (k' + 1) h.2 (by omega))
    · simp only [tblWfFrom, Bool.and_eq_true, decide_eq_true_eq] at h ⊢
      exact ⟨h.1, ih (k' + 1) h.2⟩

theorem tblPut_wf (d : Nat → α) (t : Tbl α) (lo k : Nat) (v : α) (h : tblWfFrom d lo t = true) (hk : lo ≤ k) (hv : v ≠ d k) :
    tblWfFrom d lo (tblPut t k v) = true := by
  induction t generalizing lo with
  | nil => simp [tblPut, tblWfFrom, hk, hv]
  | cons e t ih =>
    obtain ⟨k', w⟩ := e
    simp only [tblWfFrom, Bool.and_eq_true, decide_eq_true_eq] at h
    simp only [tblPut]
    split
    · next e =>
      subst e
      simp only [tblWfFrom, Bool.and_eq_true, decide_eq_true_eq]
      exact ⟨⟨hk, hv⟩, h.2⟩
    · split
      · simp only [tblWfFrom, Bool.and_eq_true, decide_eq_true_eq]
        exact ⟨⟨hk, hv⟩, ⟨by omega, h.1.2⟩, h.2⟩
      · simp only [tblWfFrom, Bool.and_eq_true, decide_eq_true_eq]
        exact ⟨h.1, ih (k' + 1) h.2 (by omega)⟩

/-- Writing keeps the canonical form. -/
theorem tblWrite_wf (d : Nat → α) (t : Tbl α) (k : Nat) (v : α) (h : tblWf d t = true) : tblWf d (tblWrite d t k v) = true := by
  unfold tblWrite
  split
  · exact tblErase_wf d t 0 k h
  · next hv => exact tblPut_wf d t 0 k v h (Nat.zero_le k) hv

/-- Dropping entries keeps the canonical form. -/
theorem tblDrop_wf (d : Nat → α) (p : Nat → Bool) (t : Tbl α) (lo : Nat) (h : tblWfFrom d lo t = true) :
    tblWfFrom d lo (tblDrop p t) = true := by
  induction t generalizing lo with
  | nil => rfl
  | cons e t ih =>
    obtain ⟨k, v⟩ := e
    simp only [tblWfFrom, Bool.and_eq_true, decide_eq_true_eq] at h
    simp only [tblDrop]
    split
    · exact ih lo (tblWfFrom_mono d t lo (k + 1) h.2 (by omega))
    · simp only [tblWfFrom, Bool.and_eq_true, decide_eq_true_eq]
      exact ⟨h.1, ih (k + 1) h.2⟩

/-- No entry of a canonical table equals what its key reads as unlisted. -/
theorem tblWf_mem (d : Nat → α) (t : Tbl α) (lo : Nat) (h : tblWfFrom d lo t = true) (e : Nat × α) (he : e ∈ t) :
    e.2 ≠ d e.1 := by
  induction t generalizing lo with
  | nil => cases he
  | cons f t ih =>
    obtain ⟨k, v⟩ := f
    simp only [tblWfFrom, Bool.and_eq_true, decide_eq_true_eq] at h
    cases he with
    | head => exact h.1.2
    | tail _ he => exact ih (k + 1) h.2 he

/-- Listing entries of a canonical table in another keeps its form. -/
theorem tblPutAll_wf (d : Nat → α) (l : List (Nat × α)) (t : Tbl α) (h : tblWf d t = true) (hl : ∀ e ∈ l, e.2 ≠ d e.1) :
    tblWf d (l.foldl (fun t e => tblPut t e.1 e.2) t) = true := by
  induction l generalizing t with
  | nil => exact h
  | cons e l ih =>
    refine ih _ (tblPut_wf d t 0 e.1 e.2 h (Nat.zero_le _) (hl e List.mem_cons_self)) fun x hx => hl x (List.mem_cons_of_mem e hx)

end

/-! ## Byte memories -/

theorem memSet_wf (m : Tbl Byte) (a : Nat) (b : Byte) (h : bytesWf m = true) : bytesWf (memSet m a b) = true :=
  tblWrite_wf byteDefault m a b h

theorem memStore_wf (m : Tbl Byte) (a : Nat) (l : List Byte) (h : bytesWf m = true) : bytesWf (memStore m a l) = true := by
  induction l generalizing m a with
  | nil => exact h
  | cons b l ih => exact ih (memSet m a b) (a + 1) (memSet_wf m a b h)

/-- A store leaves every byte outside its own as it was. -/
theorem memByte_store_outside (m : Tbl Byte) (a j : Nat) (l : List Byte) (h : j < a ∨ a + l.length ≤ j) :
    memByte (memStore m a l) j = memByte m j := by
  induction l generalizing m a with
  | nil => rfl
  | cons b l ih =>
    simp only [List.length_cons] at h
    simp only [memStore]
    rw [ih (memSet m a b) (a + 1) (by omega)]
    exact tblRead_write_other byteDefault m a j b (by omega)

/-- A stored byte is read back. -/
theorem memByte_store_inside (m : Tbl Byte) (a i : Nat) (l : List Byte) (h : i < l.length) :
    memByte (memStore m a l) (a + i) = l.getD i 0#8 := by
  induction l generalizing m a i with
  | nil => simp at h
  | cons b l ih =>
    simp only [memStore]
    cases i with
    | zero =>
      rw [memByte_store_outside _ _ _ _ (by omega)]
      simpa [memByte, memSet] using tblRead_write_same byteDefault m a b
    | succ i =>
      have := ih (memSet m a b) (a + 1) i (by simpa using h)
      simpa [Nat.add_assoc, Nat.add_comm 1 i] using this

/-- Stored bytes are read back. -/
theorem memBytes_store_same (m : Tbl Byte) (a : Nat) (l : List Byte) : memBytes (memStore m a l) a l.length = l := by
  induction l generalizing m a with
  | nil => rfl
  | cons b l ih =>
    have h := memByte_store_inside m a 0 (b :: l) (by simp)
    simp only [List.length_cons, memBytes]
    simp only [Nat.add_zero, List.getD_cons_zero] at h
    rw [h]
    exact congrArg (b :: ·) (ih (memSet m a b) (a + 1))

/-- Bytes read outside a store. -/
theorem memBytes_store_outside (m : Tbl Byte) (a j n : Nat) (l : List Byte) (h : j + n ≤ a ∨ a + l.length ≤ j) :
    memBytes (memStore m a l) j n = memBytes m j n := by
  induction n generalizing j with
  | zero => rfl
  | succ n ih =>
    simp only [memBytes]
    rw [memByte_store_outside m a j l (by omega), ih (j + 1) (by omega)]

/-! ## The memories -/

theorem memoryWf_split {m : Memories} : memoryWf m = true ↔
    bytesWf m.sram = true ∧ bytesWf m.mgmt = true ∧ bytesWf m.mram = true ∧ bytesWf m.tcm.a = true ∧ bytesWf m.tcm.b = true ∧
      bytesWf m.tcm.c = true ∧ bytesWf m.data.a = true ∧ bytesWf m.data.b = true ∧ bytesWf m.data.c = true ∧
      wordsWf m.prog.a = true ∧ wordsWf m.prog.b = true ∧ wordsWf m.prog.c = true := by
  simp only [memoryWf, Bool.and_eq_true, and_assoc]

end Sys2Proof.Laws
end

