-- ==== Sys2Proof/Laws/Ops.lean ====
section
/-!
SUPPORT. What the shared operations of Machine/Ops.lean and Machine/Faults.lean may change: the fields they leave alone,
and what is read back from the registers.
-/
namespace Sys2Proof.Laws
open Sys2Proof Sys2Proof.Machine

/-! ## Registers -/

/-- A register is read back as written. -/
@[simp] theorem State.reg_setReg_same (s : State) (p off : Nat) (v : Word) :
    (s.setReg p off v).reg p off = v :=
  tblRead_write_same regReset s.regs (regKey p off) v

/-- Any other register reads as before. -/
theorem State.reg_setReg_other (s : State) (p off p' off' : Nat) (v : Word) (h : regKey p' off' ≠ regKey p off) :
    (s.setReg p off v).reg p' off' = s.reg p' off' :=
  tblRead_write_other regReset s.regs (regKey p off) (regKey p' off') v h

@[simp] theorem State.page_setPage_same (s : State) (p : Nat) (v : PageState) :
    (s.setPage p v).page p = v :=
  tblRead_write_same pageReset s.pages p v

/-- Registers of different pages or offsets have different keys. -/
theorem regKey_inj {p p' off off' : Nat} (h : off < 0x1000) (h' : off' < 0x1000) :
    regKey p' off' = regKey p off ↔ p' = p ∧ off' = off := by
  simp only [regKey]; omega

/-- Equal tables of registers read alike. -/
theorem State.reg_congr {s t : State} (h : t.regs = s.regs) (p off : Nat) : t.reg p off = s.reg p off := by
  simp only [State.reg, h]

theorem State.page_setPage_other (s : State) (p q : Nat) (v : PageState) (h : q ≠ p) : (s.setPage p v).page q = s.page q :=
  tblRead_write_other pageReset s.pages p q v h

@[simp] theorem State.op_setOp_same (s : State) (p : Nat) (v : OpState) : (s.setOp p v).op p = v :=
  tblRead_write_same opReset s.ops p v

theorem State.op_setOp_other (s : State) (p q : Nat) (v : OpState) (h : q ≠ p) : (s.setOp p v).op q = s.op q :=
  tblRead_write_other opReset s.ops p q v h

/-! ### maxReg -/

@[simp] theorem State.maxReg_pages (s : State) (p off v : Nat) : (s.maxReg p off v).pages = s.pages := by
  unfold State.maxReg; split <;> rfl
@[simp] theorem State.maxReg_ops (s : State) (p off v : Nat) : (s.maxReg p off v).ops = s.ops := by
  unfold State.maxReg; split <;> rfl
@[simp] theorem State.maxReg_counters (s : State) (p off v : Nat) : (s.maxReg p off v).counters = s.counters := by
  unfold State.maxReg; split <;> rfl
@[simp] theorem State.maxReg_hiSnap (s : State) (p off v : Nat) : (s.maxReg p off v).hiSnap = s.hiSnap := by
  unfold State.maxReg; split <;> rfl
@[simp] theorem State.maxReg_auditBusy (s : State) (p off v : Nat) : (s.maxReg p off v).auditBusy = s.auditBusy := by
  unfold State.maxReg; split <;> rfl
@[simp] theorem State.maxReg_owners (s : State) (p off v : Nat) : (s.maxReg p off v).owners = s.owners := by
  unfold State.maxReg; split <;> rfl
@[simp] theorem State.maxReg_faults (s : State) (p off v : Nat) : (s.maxReg p off v).faults = s.faults := by
  unfold State.maxReg; split <;> rfl
@[simp] theorem State.maxReg_ledger (s : State) (p off v : Nat) : (s.maxReg p off v).ledger = s.ledger := by
  unfold State.maxReg; split <;> rfl
@[simp] theorem State.maxReg_ledgerSnaps (s : State) (p off v : Nat) : (s.maxReg p off v).ledgerSnaps = s.ledgerSnaps := by
  unfold State.maxReg; split <;> rfl
@[simp] theorem State.maxReg_ledgerSeqs (s : State) (p off v : Nat) : (s.maxReg p off v).ledgerSeqs = s.ledgerSeqs := by
  unfold State.maxReg; split <;> rfl
@[simp] theorem State.maxReg_reply (s : State) (p off v : Nat) : (s.maxReg p off v).reply = s.reply := by
  unfold State.maxReg; split <;> rfl
@[simp] theorem State.maxReg_free (s : State) (p off v : Nat) : (s.maxReg p off v).free = s.free := by
  unfold State.maxReg; split <;> rfl
@[simp] theorem State.maxReg_clu (s : State) (p off v : Nat) : (s.maxReg p off v).clu = s.clu := by
  unfold State.maxReg; split <;> rfl
@[simp] theorem State.maxReg_red (s : State) (p off v : Nat) : (s.maxReg p off v).red = s.red := by
  unfold State.maxReg; split <;> rfl
@[simp] theorem State.maxReg_measSync (s : State) (p off v : Nat) : (s.maxReg p off v).measSync = s.measSync := by
  unfold State.maxReg; split <;> rfl
@[simp] theorem State.maxReg_appMessages (s : State) (p off v : Nat) : (s.maxReg p off v).appMessages = s.appMessages := by
  unfold State.maxReg; split <;> rfl
@[simp] theorem State.maxReg_time (s : State) (p off v : Nat) : (s.maxReg p off v).time = s.time := by
  unfold State.maxReg; split <;> rfl
@[simp] theorem State.maxReg_cle (s : State) (p off v : Nat) : (s.maxReg p off v).cle = s.cle := by
  unfold State.maxReg; split <;> rfl
@[simp] theorem State.maxReg_ps (s : State) (p off v : Nat) : (s.maxReg p off v).ps = s.ps := by
  unfold State.maxReg; split <;> rfl
@[simp] theorem State.maxReg_sup (s : State) (p off v : Nat) : (s.maxReg p off v).sup = s.sup := by
  unfold State.maxReg; split <;> rfl
@[simp] theorem State.maxReg_fail (s : State) (p off v : Nat) : (s.maxReg p off v).fail = s.fail := by
  unfold State.maxReg; split <;> rfl
@[simp] theorem State.maxReg_obs (s : State) (p off v : Nat) : (s.maxReg p off v).obs = s.obs := by
  unfold State.maxReg; split <;> rfl
@[simp] theorem State.maxReg_net (s : State) (p off v : Nat) : (s.maxReg p off v).net = s.net := by
  unfold State.maxReg; split <;> rfl
@[simp] theorem State.maxReg_mvbs (s : State) (p off v : Nat) : (s.maxReg p off v).mvbs = s.mvbs := by
  unfold State.maxReg; split <;> rfl
@[simp] theorem State.maxReg_cans (s : State) (p off v : Nat) : (s.maxReg p off v).cans = s.cans := by
  unfold State.maxReg; split <;> rfl
@[simp] theorem State.maxReg_meas (s : State) (p off v : Nat) : (s.maxReg p off v).meas = s.meas := by
  unfold State.maxReg; split <;> rfl
@[simp] theorem State.maxReg_vme (s : State) (p off v : Nat) : (s.maxReg p off v).vme = s.vme := by
  unfold State.maxReg; split <;> rfl
@[simp] theorem State.maxReg_mem (s : State) (p off v : Nat) : (s.maxReg p off v).mem = s.mem := by
  unfold State.maxReg; split <;> rfl
@[simp] theorem State.maxReg_pending (s : State) (p off v : Nat) : (s.maxReg p off v).pending = s.pending := by
  unfold State.maxReg; split <;> rfl

/-! ### pmcAdd -/

@[simp] theorem State.pmcAdd_regs (s : State) (k n : Nat) : (s.pmcAdd k n).regs = s.regs := rfl
@[simp] theorem State.pmcAdd_pages (s : State) (k n : Nat) : (s.pmcAdd k n).pages = s.pages := rfl
@[simp] theorem State.pmcAdd_ops (s : State) (k n : Nat) : (s.pmcAdd k n).ops = s.ops := rfl
@[simp] theorem State.pmcAdd_counters (s : State) (k n : Nat) : (s.pmcAdd k n).counters = s.counters := rfl
@[simp] theorem State.pmcAdd_hiSnap (s : State) (k n : Nat) : (s.pmcAdd k n).hiSnap = s.hiSnap := rfl
@[simp] theorem State.pmcAdd_auditBusy (s : State) (k n : Nat) : (s.pmcAdd k n).auditBusy = s.auditBusy := rfl
@[simp] theorem State.pmcAdd_owners (s : State) (k n : Nat) : (s.pmcAdd k n).owners = s.owners := rfl
@[simp] theorem State.pmcAdd_faults (s : State) (k n : Nat) : (s.pmcAdd k n).faults = s.faults := rfl
@[simp] theorem State.pmcAdd_ledger (s : State) (k n : Nat) : (s.pmcAdd k n).ledger = s.ledger := rfl
@[simp] theorem State.pmcAdd_ledgerSnaps (s : State) (k n : Nat) : (s.pmcAdd k n).ledgerSnaps = s.ledgerSnaps := rfl
@[simp] theorem State.pmcAdd_ledgerSeqs (s : State) (k n : Nat) : (s.pmcAdd k n).ledgerSeqs = s.ledgerSeqs := rfl
@[simp] theorem State.pmcAdd_reply (s : State) (k n : Nat) : (s.pmcAdd k n).reply = s.reply := rfl
@[simp] theorem State.pmcAdd_free (s : State) (k n : Nat) : (s.pmcAdd k n).free = s.free := rfl
@[simp] theorem State.pmcAdd_clu (s : State) (k n : Nat) : (s.pmcAdd k n).clu = s.clu := rfl
@[simp] theorem State.pmcAdd_red (s : State) (k n : Nat) : (s.pmcAdd k n).red = s.red := rfl
@[simp] theorem State.pmcAdd_measSync (s : State) (k n : Nat) : (s.pmcAdd k n).measSync = s.measSync := rfl
@[simp] theorem State.pmcAdd_appMessages (s : State) (k n : Nat) : (s.pmcAdd k n).appMessages = s.appMessages := rfl
@[simp] theorem State.pmcAdd_time (s : State) (k n : Nat) : (s.pmcAdd k n).time = s.time := rfl
@[simp] theorem State.pmcAdd_cle (s : State) (k n : Nat) : (s.pmcAdd k n).cle = s.cle := rfl
@[simp] theorem State.pmcAdd_ps (s : State) (k n : Nat) : (s.pmcAdd k n).ps = s.ps := rfl
@[simp] theorem State.pmcAdd_sup (s : State) (k n : Nat) : (s.pmcAdd k n).sup = s.sup := rfl
@[simp] theorem State.pmcAdd_fail (s : State) (k n : Nat) : (s.pmcAdd k n).fail = s.fail := rfl
@[simp] theorem State.pmcAdd_net (s : State) (k n : Nat) : (s.pmcAdd k n).net = s.net := rfl
@[simp] theorem State.pmcAdd_mvbs (s : State) (k n : Nat) : (s.pmcAdd k n).mvbs = s.mvbs := rfl
@[simp] theorem State.pmcAdd_cans (s : State) (k n : Nat) : (s.pmcAdd k n).cans = s.cans := rfl
@[simp] theorem State.pmcAdd_meas (s : State) (k n : Nat) : (s.pmcAdd k n).meas = s.meas := rfl
@[simp] theorem State.pmcAdd_vme (s : State) (k n : Nat) : (s.pmcAdd k n).vme = s.vme := rfl
@[simp] theorem State.pmcAdd_mem (s : State) (k n : Nat) : (s.pmcAdd k n).mem = s.mem := rfl
@[simp] theorem State.pmcAdd_pending (s : State) (k n : Nat) : (s.pmcAdd k n).pending = s.pending := rfl

/-- A fold of updates that each leave a field alone leaves it alone. -/
theorem foldl_field {α β : Type} (get : State → β) (f : State → α → State) (h : ∀ t x, get (f t x) = get t) (l : List α) (s : State) :
    get (l.foldl f s) = get s := by
  induction l generalizing s with
  | nil => rfl
  | cons x l ih => exact (ih (f s x)).trans (h s x)

/-! ### pmcEvent -/

@[simp] theorem State.pmcEvent_regs (s : State) (e i n : Nat) : (s.pmcEvent e i n).regs = s.regs := by
  refine foldl_field State.regs _ (fun t k => ?_) _ s
  dsimp only; split <;> rfl
@[simp] theorem State.pmcEvent_pages (s : State) (e i n : Nat) : (s.pmcEvent e i n).pages = s.pages := by
  refine foldl_field State.pages _ (fun t k => ?_) _ s
  dsimp only; split <;> rfl
@[simp] theorem State.pmcEvent_ops (s : State) (e i n : Nat) : (s.pmcEvent e i n).ops = s.ops := by
  refine foldl_field State.ops _ (fun t k => ?_) _ s
  dsimp only; split <;> rfl
@[simp] theorem State.pmcEvent_counters (s : State) (e i n : Nat) : (s.pmcEvent e i n).counters = s.counters := by
  refine foldl_field State.counters _ (fun t k => ?_) _ s
  dsimp only; split <;> rfl
@[simp] theorem State.pmcEvent_hiSnap (s : State) (e i n : Nat) : (s.pmcEvent e i n).hiSnap = s.hiSnap := by
  refine foldl_field State.hiSnap _ (fun t k => ?_) _ s
  dsimp only; split <;> rfl
@[simp] theorem State.pmcEvent_auditBusy (s : State) (e i n : Nat) : (s.pmcEvent e i n).auditBusy = s.auditBusy := by
  refine foldl_field State.auditBusy _ (fun t k => ?_) _ s
  dsimp only; split <;> rfl
@[simp] theorem State.pmcEvent_owners (s : State) (e i n : Nat) : (s.pmcEvent e i n).owners = s.owners := by
  refine foldl_field State.owners _ (fun t k => ?_) _ s
  dsimp only; split <;> rfl
@[simp] theorem State.pmcEvent_faults (s : State) (e i n : Nat) : (s.pmcEvent e i n).faults = s.faults := by
  refine foldl_field State.faults _ (fun t k => ?_) _ s
  dsimp only; split <;> rfl
@[simp] theorem State.pmcEvent_ledger (s : State) (e i n : Nat) : (s.pmcEvent e i n).ledger = s.ledger := by
  refine foldl_field State.ledger _ (fun t k => ?_) _ s
  dsimp only; split <;> rfl
@[simp] theorem State.pmcEvent_ledgerSnaps (s : State) (e i n : Nat) : (s.pmcEvent e i n).ledgerSnaps = s.ledgerSnaps := by
  refine foldl_field State.ledgerSnaps _ (fun t k => ?_) _ s
  dsimp only; split <;> rfl
@[simp] theorem State.pmcEvent_ledgerSeqs (s : State) (e i n : Nat) : (s.pmcEvent e i n).ledgerSeqs = s.ledgerSeqs := by
  refine foldl_field State.ledgerSeqs _ (fun t k => ?_) _ s
  dsimp only; split <;> rfl
@[simp] theorem State.pmcEvent_reply (s : State) (e i n : Nat) : (s.pmcEvent e i n).reply = s.reply := by
  refine foldl_field State.reply _ (fun t k => ?_) _ s
  dsimp only; split <;> rfl
@[simp] theorem State.pmcEvent_free (s : State) (e i n : Nat) : (s.pmcEvent e i n).free = s.free := by
  refine foldl_field State.free _ (fun t k => ?_) _ s
  dsimp only; split <;> rfl
@[simp] theorem State.pmcEvent_clu (s : State) (e i n : Nat) : (s.pmcEvent e i n).clu = s.clu := by
  refine foldl_field State.clu _ (fun t k => ?_) _ s
  dsimp only; split <;> rfl
@[simp] theorem State.pmcEvent_red (s : State) (e i n : Nat) : (s.pmcEvent e i n).red = s.red := by
  refine foldl_field State.red _ (fun t k => ?_) _ s
  dsimp only; split <;> rfl
@[simp] theorem State.pmcEvent_measSync (s : State) (e i n : Nat) : (s.pmcEvent e i n).measSync = s.measSync := by
  refine foldl_field State.measSync _ (fun t k => ?_) _ s
  dsimp only; split <;> rfl
@[simp] theorem State.pmcEvent_appMessages (s : State) (e i n : Nat) : (s.pmcEvent e i n).appMessages = s.appMessages := by
  refine foldl_field State.appMessages _ (fun t k => ?_) _ s
  dsimp only; split <;> rfl
@[simp] theorem State.pmcEvent_time (s : State) (e i n : Nat) : (s.pmcEvent e i n).time = s.time := by
  refine foldl_field State.time _ (fun t k => ?_) _ s
  dsimp only; split <;> rfl
@[simp] theorem State.pmcEvent_cle (s : State) (e i n : Nat) : (s.pmcEvent e i n).cle = s.cle := by
  refine foldl_field State.cle _ (fun t k => ?_) _ s
  dsimp only; split <;> rfl
@[simp] theorem State.pmcEvent_ps (s : State) (e i n : Nat) : (s.pmcEvent e i n).ps = s.ps := by
  refine foldl_field State.ps _ (fun t k => ?_) _ s
  dsimp only; split <;> rfl
@[simp] theorem State.pmcEvent_sup (s : State) (e i n : Nat) : (s.pmcEvent e i n).sup = s.sup := by
  refine foldl_field State.sup _ (fun t k => ?_) _ s
  dsimp only; split <;> rfl
@[simp] theorem State.pmcEvent_fail (s : State) (e i n : Nat) : (s.pmcEvent e i n).fail = s.fail := by
  refine foldl_field State.fail _ (fun t k => ?_) _ s
  dsimp only; split <;> rfl
@[simp] theorem State.pmcEvent_net (s : State) (e i n : Nat) : (s.pmcEvent e i n).net = s.net := by
  refine foldl_field State.net _ (fun t k => ?_) _ s
  dsimp only; split <;> rfl
@[simp] theorem State.pmcEvent_mvbs (s : State) (e i n : Nat) : (s.pmcEvent e i n).mvbs = s.mvbs := by
  refine foldl_field State.mvbs _ (fun t k => ?_) _ s
  dsimp only; split <;> rfl
@[simp] theorem State.pmcEvent_cans (s : State) (e i n : Nat) : (s.pmcEvent e i n).cans = s.cans := by
  refine foldl_field State.cans _ (fun t k => ?_) _ s
  dsimp only; split <;> rfl
@[simp] theorem State.pmcEvent_meas (s : State) (e i n : Nat) : (s.pmcEvent e i n).meas = s.meas := by
  refine foldl_field State.meas _ (fun t k => ?_) _ s
  dsimp only; split <;> rfl
@[simp] theorem State.pmcEvent_vme (s : State) (e i n : Nat) : (s.pmcEvent e i n).vme = s.vme := by
  refine foldl_field State.vme _ (fun t k => ?_) _ s
  dsimp only; split <;> rfl
@[simp] theorem State.pmcEvent_mem (s : State) (e i n : Nat) : (s.pmcEvent e i n).mem = s.mem := by
  refine foldl_field State.mem _ (fun t k => ?_) _ s
  dsimp only; split <;> rfl
@[simp] theorem State.pmcEvent_pending (s : State) (e i n : Nat) : (s.pmcEvent e i n).pending = s.pending := by
  refine foldl_field State.pending _ (fun t k => ?_) _ s
  dsimp only; split <;> rfl

/-! ### bump -/

@[simp] theorem State.bump_regs (s : State) (p n k : Nat) : (s.bump p n k).regs = s.regs := State.pmcEvent_regs _ _ _ _
@[simp] theorem State.bump_pages (s : State) (p n k : Nat) : (s.bump p n k).pages = s.pages := State.pmcEvent_pages _ _ _ _
@[simp] theorem State.bump_ops (s : State) (p n k : Nat) : (s.bump p n k).ops = s.ops := State.pmcEvent_ops _ _ _ _
@[simp] theorem State.bump_hiSnap (s : State) (p n k : Nat) : (s.bump p n k).hiSnap = s.hiSnap := State.pmcEvent_hiSnap _ _ _ _
@[simp] theorem State.bump_auditBusy (s : State) (p n k : Nat) : (s.bump p n k).auditBusy = s.auditBusy := State.pmcEvent_auditBusy _ _ _ _
@[simp] theorem State.bump_owners (s : State) (p n k : Nat) : (s.bump p n k).owners = s.owners := State.pmcEvent_owners _ _ _ _
@[simp] theorem State.bump_faults (s : State) (p n k : Nat) : (s.bump p n k).faults = s.faults := State.pmcEvent_faults _ _ _ _
@[simp] theorem State.bump_ledger (s : State) (p n k : Nat) : (s.bump p n k).ledger = s.ledger := State.pmcEvent_ledger _ _ _ _
@[simp] theorem State.bump_ledgerSnaps (s : State) (p n k : Nat) : (s.bump p n k).ledgerSnaps = s.ledgerSnaps := State.pmcEvent_ledgerSnaps _ _ _ _
@[simp] theorem State.bump_ledgerSeqs (s : State) (p n k : Nat) : (s.bump p n k).ledgerSeqs = s.ledgerSeqs := State.pmcEvent_ledgerSeqs _ _ _ _
@[simp] theorem State.bump_reply (s : State) (p n k : Nat) : (s.bump p n k).reply = s.reply := State.pmcEvent_reply _ _ _ _
@[simp] theorem State.bump_free (s : State) (p n k : Nat) : (s.bump p n k).free = s.free := State.pmcEvent_free _ _ _ _
@[simp] theorem State.bump_clu (s : State) (p n k : Nat) : (s.bump p n k).clu = s.clu := State.pmcEvent_clu _ _ _ _
@[simp] theorem State.bump_red (s : State) (p n k : Nat) : (s.bump p n k).red = s.red := State.pmcEvent_red _ _ _ _
@[simp] theorem State.bump_measSync (s : State) (p n k : Nat) : (s.bump p n k).measSync = s.measSync := State.pmcEvent_measSync _ _ _ _
@[simp] theorem State.bump_appMessages (s : State) (p n k : Nat) : (s.bump p n k).appMessages = s.appMessages := State.pmcEvent_appMessages _ _ _ _
@[simp] theorem State.bump_time (s : State) (p n k : Nat) : (s.bump p n k).time = s.time := State.pmcEvent_time _ _ _ _
@[simp] theorem State.bump_cle (s : State) (p n k : Nat) : (s.bump p n k).cle = s.cle := State.pmcEvent_cle _ _ _ _
@[simp] theorem State.bump_ps (s : State) (p n k : Nat) : (s.bump p n k).ps = s.ps := State.pmcEvent_ps _ _ _ _
@[simp] theorem State.bump_sup (s : State) (p n k : Nat) : (s.bump p n k).sup = s.sup := State.pmcEvent_sup _ _ _ _
@[simp] theorem State.bump_fail (s : State) (p n k : Nat) : (s.bump p n k).fail = s.fail := State.pmcEvent_fail _ _ _ _
@[simp] theorem State.bump_net (s : State) (p n k : Nat) : (s.bump p n k).net = s.net := State.pmcEvent_net _ _ _ _
@[simp] theorem State.bump_mvbs (s : State) (p n k : Nat) : (s.bump p n k).mvbs = s.mvbs := State.pmcEvent_mvbs _ _ _ _
@[simp] theorem State.bump_cans (s : State) (p n k : Nat) : (s.bump p n k).cans = s.cans := State.pmcEvent_cans _ _ _ _
@[simp] theorem State.bump_meas (s : State) (p n k : Nat) : (s.bump p n k).meas = s.meas := State.pmcEvent_meas _ _ _ _
@[simp] theorem State.bump_vme (s : State) (p n k : Nat) : (s.bump p n k).vme = s.vme := State.pmcEvent_vme _ _ _ _
@[simp] theorem State.bump_mem (s : State) (p n k : Nat) : (s.bump p n k).mem = s.mem := State.pmcEvent_mem _ _ _ _
@[simp] theorem State.bump_pending (s : State) (p n k : Nat) : (s.bump p n k).pending = s.pending := State.pmcEvent_pending _ _ _ _

/-! ### bw -/

@[simp] theorem State.bw_regs (s : State) (p n : Nat) : (s.bw p n).regs = s.regs := rfl
@[simp] theorem State.bw_pages (s : State) (p n : Nat) : (s.bw p n).pages = s.pages := rfl
@[simp] theorem State.bw_ops (s : State) (p n : Nat) : (s.bw p n).ops = s.ops := rfl
@[simp] theorem State.bw_counters (s : State) (p n : Nat) : (s.bw p n).counters = s.counters := rfl
@[simp] theorem State.bw_hiSnap (s : State) (p n : Nat) : (s.bw p n).hiSnap = s.hiSnap := rfl
@[simp] theorem State.bw_auditBusy (s : State) (p n : Nat) : (s.bw p n).auditBusy = s.auditBusy := rfl
@[simp] theorem State.bw_owners (s : State) (p n : Nat) : (s.bw p n).owners = s.owners := rfl
@[simp] theorem State.bw_faults (s : State) (p n : Nat) : (s.bw p n).faults = s.faults := rfl
@[simp] theorem State.bw_ledger (s : State) (p n : Nat) : (s.bw p n).ledger = s.ledger := rfl
@[simp] theorem State.bw_ledgerSnaps (s : State) (p n : Nat) : (s.bw p n).ledgerSnaps = s.ledgerSnaps := rfl
@[simp] theorem State.bw_ledgerSeqs (s : State) (p n : Nat) : (s.bw p n).ledgerSeqs = s.ledgerSeqs := rfl
@[simp] theorem State.bw_reply (s : State) (p n : Nat) : (s.bw p n).reply = s.reply := rfl
@[simp] theorem State.bw_free (s : State) (p n : Nat) : (s.bw p n).free = s.free := rfl
@[simp] theorem State.bw_clu (s : State) (p n : Nat) : (s.bw p n).clu = s.clu := rfl
@[simp] theorem State.bw_red (s : State) (p n : Nat) : (s.bw p n).red = s.red := rfl
@[simp] theorem State.bw_measSync (s : State) (p n : Nat) : (s.bw p n).measSync = s.measSync := rfl
@[simp] theorem State.bw_appMessages (s : State) (p n : Nat) : (s.bw p n).appMessages = s.appMessages := rfl
@[simp] theorem State.bw_time (s : State) (p n : Nat) : (s.bw p n).time = s.time := rfl
@[simp] theorem State.bw_cle (s : State) (p n : Nat) : (s.bw p n).cle = s.cle := rfl
@[simp] theorem State.bw_ps (s : State) (p n : Nat) : (s.bw p n).ps = s.ps := rfl
@[simp] theorem State.bw_sup (s : State) (p n : Nat) : (s.bw p n).sup = s.sup := rfl
@[simp] theorem State.bw_fail (s : State) (p n : Nat) : (s.bw p n).fail = s.fail := rfl
@[simp] theorem State.bw_net (s : State) (p n : Nat) : (s.bw p n).net = s.net := rfl
@[simp] theorem State.bw_mvbs (s : State) (p n : Nat) : (s.bw p n).mvbs = s.mvbs := rfl
@[simp] theorem State.bw_cans (s : State) (p n : Nat) : (s.bw p n).cans = s.cans := rfl
@[simp] theorem State.bw_meas (s : State) (p n : Nat) : (s.bw p n).meas = s.meas := rfl
@[simp] theorem State.bw_vme (s : State) (p n : Nat) : (s.bw p n).vme = s.vme := rfl
@[simp] theorem State.bw_mem (s : State) (p n : Nat) : (s.bw p n).mem = s.mem := rfl
@[simp] theorem State.bw_pending (s : State) (p n : Nat) : (s.bw p n).pending = s.pending := rfl

/-! ### latch -/

@[simp] theorem State.latch_pages (s : State) (p n : Nat) : (s.latch p n).pages = s.pages := rfl
@[simp] theorem State.latch_ops (s : State) (p n : Nat) : (s.latch p n).ops = s.ops := rfl
@[simp] theorem State.latch_counters (s : State) (p n : Nat) : (s.latch p n).counters = s.counters := rfl
@[simp] theorem State.latch_hiSnap (s : State) (p n : Nat) : (s.latch p n).hiSnap = s.hiSnap := rfl
@[simp] theorem State.latch_auditBusy (s : State) (p n : Nat) : (s.latch p n).auditBusy = s.auditBusy := rfl
@[simp] theorem State.latch_owners (s : State) (p n : Nat) : (s.latch p n).owners = s.owners := rfl
@[simp] theorem State.latch_faults (s : State) (p n : Nat) : (s.latch p n).faults = s.faults := rfl
@[simp] theorem State.latch_ledger (s : State) (p n : Nat) : (s.latch p n).ledger = s.ledger := rfl
@[simp] theorem State.latch_ledgerSnaps (s : State) (p n : Nat) : (s.latch p n).ledgerSnaps = s.ledgerSnaps := rfl
@[simp] theorem State.latch_ledgerSeqs (s : State) (p n : Nat) : (s.latch p n).ledgerSeqs = s.ledgerSeqs := rfl
@[simp] theorem State.latch_reply (s : State) (p n : Nat) : (s.latch p n).reply = s.reply := rfl
@[simp] theorem State.latch_free (s : State) (p n : Nat) : (s.latch p n).free = s.free := rfl
@[simp] theorem State.latch_clu (s : State) (p n : Nat) : (s.latch p n).clu = s.clu := rfl
@[simp] theorem State.latch_red (s : State) (p n : Nat) : (s.latch p n).red = s.red := rfl
@[simp] theorem State.latch_measSync (s : State) (p n : Nat) : (s.latch p n).measSync = s.measSync := rfl
@[simp] theorem State.latch_appMessages (s : State) (p n : Nat) : (s.latch p n).appMessages = s.appMessages := rfl
@[simp] theorem State.latch_time (s : State) (p n : Nat) : (s.latch p n).time = s.time := rfl
@[simp] theorem State.latch_cle (s : State) (p n : Nat) : (s.latch p n).cle = s.cle := rfl
@[simp] theorem State.latch_ps (s : State) (p n : Nat) : (s.latch p n).ps = s.ps := rfl
@[simp] theorem State.latch_sup (s : State) (p n : Nat) : (s.latch p n).sup = s.sup := rfl
@[simp] theorem State.latch_fail (s : State) (p n : Nat) : (s.latch p n).fail = s.fail := rfl
@[simp] theorem State.latch_obs (s : State) (p n : Nat) : (s.latch p n).obs = s.obs := rfl
@[simp] theorem State.latch_net (s : State) (p n : Nat) : (s.latch p n).net = s.net := rfl
@[simp] theorem State.latch_mvbs (s : State) (p n : Nat) : (s.latch p n).mvbs = s.mvbs := rfl
@[simp] theorem State.latch_cans (s : State) (p n : Nat) : (s.latch p n).cans = s.cans := rfl
@[simp] theorem State.latch_meas (s : State) (p n : Nat) : (s.latch p n).meas = s.meas := rfl
@[simp] theorem State.latch_vme (s : State) (p n : Nat) : (s.latch p n).vme = s.vme := rfl
@[simp] theorem State.latch_mem (s : State) (p n : Nat) : (s.latch p n).mem = s.mem := rfl
@[simp] theorem State.latch_pending (s : State) (p n : Nat) : (s.latch p n).pending = s.pending := rfl

/-! ### countFault -/

@[simp] theorem State.countFault_pages (s : State) (p : Nat) : (s.countFault p).pages = s.pages := rfl
@[simp] theorem State.countFault_ops (s : State) (p : Nat) : (s.countFault p).ops = s.ops := rfl
@[simp] theorem State.countFault_counters (s : State) (p : Nat) : (s.countFault p).counters = s.counters := rfl
@[simp] theorem State.countFault_hiSnap (s : State) (p : Nat) : (s.countFault p).hiSnap = s.hiSnap := rfl
@[simp] theorem State.countFault_auditBusy (s : State) (p : Nat) : (s.countFault p).auditBusy = s.auditBusy := rfl
@[simp] theorem State.countFault_owners (s : State) (p : Nat) : (s.countFault p).owners = s.owners := rfl
@[simp] theorem State.countFault_faults (s : State) (p : Nat) : (s.countFault p).faults = s.faults := rfl
@[simp] theorem State.countFault_ledger (s : State) (p : Nat) : (s.countFault p).ledger = s.ledger := rfl
@[simp] theorem State.countFault_ledgerSnaps (s : State) (p : Nat) : (s.countFault p).ledgerSnaps = s.ledgerSnaps := rfl
@[simp] theorem State.countFault_ledgerSeqs (s : State) (p : Nat) : (s.countFault p).ledgerSeqs = s.ledgerSeqs := rfl
@[simp] theorem State.countFault_reply (s : State) (p : Nat) : (s.countFault p).reply = s.reply := rfl
@[simp] theorem State.countFault_free (s : State) (p : Nat) : (s.countFault p).free = s.free := rfl
@[simp] theorem State.countFault_clu (s : State) (p : Nat) : (s.countFault p).clu = s.clu := rfl
@[simp] theorem State.countFault_red (s : State) (p : Nat) : (s.countFault p).red = s.red := rfl
@[simp] theorem State.countFault_measSync (s : State) (p : Nat) : (s.countFault p).measSync = s.measSync := rfl
@[simp] theorem State.countFault_appMessages (s : State) (p : Nat) : (s.countFault p).appMessages = s.appMessages := rfl
@[simp] theorem State.countFault_time (s : State) (p : Nat) : (s.countFault p).time = s.time := rfl
@[simp] theorem State.countFault_cle (s : State) (p : Nat) : (s.countFault p).cle = s.cle := rfl
@[simp] theorem State.countFault_ps (s : State) (p : Nat) : (s.countFault p).ps = s.ps := rfl
@[simp] theorem State.countFault_sup (s : State) (p : Nat) : (s.countFault p).sup = s.sup := rfl
@[simp] theorem State.countFault_fail (s : State) (p : Nat) : (s.countFault p).fail = s.fail := rfl
@[simp] theorem State.countFault_obs (s : State) (p : Nat) : (s.countFault p).obs = s.obs := rfl
@[simp] theorem State.countFault_net (s : State) (p : Nat) : (s.countFault p).net = s.net := rfl
@[simp] theorem State.countFault_mvbs (s : State) (p : Nat) : (s.countFault p).mvbs = s.mvbs := rfl
@[simp] theorem State.countFault_cans (s : State) (p : Nat) : (s.countFault p).cans = s.cans := rfl
@[simp] theorem State.countFault_meas (s : State) (p : Nat) : (s.countFault p).meas = s.meas := rfl
@[simp] theorem State.countFault_vme (s : State) (p : Nat) : (s.countFault p).vme = s.vme := rfl
@[simp] theorem State.countFault_mem (s : State) (p : Nat) : (s.countFault p).mem = s.mem := rfl
@[simp] theorem State.countFault_pending (s : State) (p : Nat) : (s.countFault p).pending = s.pending := rfl

/-! ### opFail -/

@[simp] theorem State.opFail_regs (s : State) (p : Nat) (e : Word) : (s.opFail p e).regs = s.regs := rfl
@[simp] theorem State.opFail_pages (s : State) (p : Nat) (e : Word) : (s.opFail p e).pages = s.pages := rfl
@[simp] theorem State.opFail_counters (s : State) (p : Nat) (e : Word) : (s.opFail p e).counters = s.counters := rfl
@[simp] theorem State.opFail_hiSnap (s : State) (p : Nat) (e : Word) : (s.opFail p e).hiSnap = s.hiSnap := rfl
@[simp] theorem State.opFail_auditBusy (s : State) (p : Nat) (e : Word) : (s.opFail p e).auditBusy = s.auditBusy := rfl
@[simp] theorem State.opFail_owners (s : State) (p : Nat) (e : Word) : (s.opFail p e).owners = s.owners := rfl
@[simp] theorem State.opFail_faults (s : State) (p : Nat) (e : Word) : (s.opFail p e).faults = s.faults := rfl
@[simp] theorem State.opFail_ledger (s : State) (p : Nat) (e : Word) : (s.opFail p e).ledger = s.ledger := rfl
@[simp] theorem State.opFail_ledgerSnaps (s : State) (p : Nat) (e : Word) : (s.opFail p e).ledgerSnaps = s.ledgerSnaps := rfl
@[simp] theorem State.opFail_ledgerSeqs (s : State) (p : Nat) (e : Word) : (s.opFail p e).ledgerSeqs = s.ledgerSeqs := rfl
@[simp] theorem State.opFail_reply (s : State) (p : Nat) (e : Word) : (s.opFail p e).reply = s.reply := rfl
@[simp] theorem State.opFail_free (s : State) (p : Nat) (e : Word) : (s.opFail p e).free = s.free := rfl
@[simp] theorem State.opFail_clu (s : State) (p : Nat) (e : Word) : (s.opFail p e).clu = s.clu := rfl
@[simp] theorem State.opFail_red (s : State) (p : Nat) (e : Word) : (s.opFail p e).red = s.red := rfl
@[simp] theorem State.opFail_measSync (s : State) (p : Nat) (e : Word) : (s.opFail p e).measSync = s.measSync := rfl
@[simp] theorem State.opFail_appMessages (s : State) (p : Nat) (e : Word) : (s.opFail p e).appMessages = s.appMessages := rfl
@[simp] theorem State.opFail_time (s : State) (p : Nat) (e : Word) : (s.opFail p e).time = s.time := rfl
@[simp] theorem State.opFail_cle (s : State) (p : Nat) (e : Word) : (s.opFail p e).cle = s.cle := rfl
@[simp] theorem State.opFail_ps (s : State) (p : Nat) (e : Word) : (s.opFail p e).ps = s.ps := rfl
@[simp] theorem State.opFail_sup (s : State) (p : Nat) (e : Word) : (s.opFail p e).sup = s.sup := rfl
@[simp] theorem State.opFail_fail (s : State) (p : Nat) (e : Word) : (s.opFail p e).fail = s.fail := rfl
@[simp] theorem State.opFail_obs (s : State) (p : Nat) (e : Word) : (s.opFail p e).obs = s.obs := rfl
@[simp] theorem State.opFail_net (s : State) (p : Nat) (e : Word) : (s.opFail p e).net = s.net := rfl
@[simp] theorem State.opFail_mvbs (s : State) (p : Nat) (e : Word) : (s.opFail p e).mvbs = s.mvbs := rfl
@[simp] theorem State.opFail_cans (s : State) (p : Nat) (e : Word) : (s.opFail p e).cans = s.cans := rfl
@[simp] theorem State.opFail_meas (s : State) (p : Nat) (e : Word) : (s.opFail p e).meas = s.meas := rfl
@[simp] theorem State.opFail_vme (s : State) (p : Nat) (e : Word) : (s.opFail p e).vme = s.vme := rfl
@[simp] theorem State.opFail_mem (s : State) (p : Nat) (e : Word) : (s.opFail p e).mem = s.mem := rfl
@[simp] theorem State.opFail_pending (s : State) (p : Nat) (e : Word) : (s.opFail p e).pending = s.pending := rfl

/-! ### opDone -/

@[simp] theorem State.opDone_regs (s : State) (p : Nat) : (s.opDone p).regs = s.regs := rfl
@[simp] theorem State.opDone_pages (s : State) (p : Nat) : (s.opDone p).pages = s.pages := rfl
@[simp] theorem State.opDone_counters (s : State) (p : Nat) : (s.opDone p).counters = s.counters := rfl
@[simp] theorem State.opDone_hiSnap (s : State) (p : Nat) : (s.opDone p).hiSnap = s.hiSnap := rfl
@[simp] theorem State.opDone_auditBusy (s : State) (p : Nat) : (s.opDone p).auditBusy = s.auditBusy := rfl
@[simp] theorem State.opDone_owners (s : State) (p : Nat) : (s.opDone p).owners = s.owners := rfl
@[simp] theorem State.opDone_faults (s : State) (p : Nat) : (s.opDone p).faults = s.faults := rfl
@[simp] theorem State.opDone_ledger (s : State) (p : Nat) : (s.opDone p).ledger = s.ledger := rfl
@[simp] theorem State.opDone_ledgerSnaps (s : State) (p : Nat) : (s.opDone p).ledgerSnaps = s.ledgerSnaps := rfl
@[simp] theorem State.opDone_ledgerSeqs (s : State) (p : Nat) : (s.opDone p).ledgerSeqs = s.ledgerSeqs := rfl
@[simp] theorem State.opDone_reply (s : State) (p : Nat) : (s.opDone p).reply = s.reply := rfl
@[simp] theorem State.opDone_free (s : State) (p : Nat) : (s.opDone p).free = s.free := rfl
@[simp] theorem State.opDone_clu (s : State) (p : Nat) : (s.opDone p).clu = s.clu := rfl
@[simp] theorem State.opDone_red (s : State) (p : Nat) : (s.opDone p).red = s.red := rfl
@[simp] theorem State.opDone_measSync (s : State) (p : Nat) : (s.opDone p).measSync = s.measSync := rfl
@[simp] theorem State.opDone_appMessages (s : State) (p : Nat) : (s.opDone p).appMessages = s.appMessages := rfl
@[simp] theorem State.opDone_time (s : State) (p : Nat) : (s.opDone p).time = s.time := rfl
@[simp] theorem State.opDone_cle (s : State) (p : Nat) : (s.opDone p).cle = s.cle := rfl
@[simp] theorem State.opDone_ps (s : State) (p : Nat) : (s.opDone p).ps = s.ps := rfl
@[simp] theorem State.opDone_sup (s : State) (p : Nat) : (s.opDone p).sup = s.sup := rfl
@[simp] theorem State.opDone_fail (s : State) (p : Nat) : (s.opDone p).fail = s.fail := rfl
@[simp] theorem State.opDone_obs (s : State) (p : Nat) : (s.opDone p).obs = s.obs := rfl
@[simp] theorem State.opDone_net (s : State) (p : Nat) : (s.opDone p).net = s.net := rfl
@[simp] theorem State.opDone_mvbs (s : State) (p : Nat) : (s.opDone p).mvbs = s.mvbs := rfl
@[simp] theorem State.opDone_cans (s : State) (p : Nat) : (s.opDone p).cans = s.cans := rfl
@[simp] theorem State.opDone_meas (s : State) (p : Nat) : (s.opDone p).meas = s.meas := rfl
@[simp] theorem State.opDone_vme (s : State) (p : Nat) : (s.opDone p).vme = s.vme := rfl
@[simp] theorem State.opDone_mem (s : State) (p : Nat) : (s.opDone p).mem = s.mem := rfl
@[simp] theorem State.opDone_pending (s : State) (p : Nat) : (s.opDone p).pending = s.pending := rfl

/-! ### post -/

@[simp] theorem State.post_pages (s : State) (pl : Plane) (o c r : Nat) (d : List Word) : (s.post pl o c r d).pages = s.pages := by
  unfold State.post
  extract_lets s1 r0
  split
  · exact State.bump_pages _ _ _ _
  · exact State.bump_pages _ _ _ _
@[simp] theorem State.post_ops (s : State) (pl : Plane) (o c r : Nat) (d : List Word) : (s.post pl o c r d).ops = s.ops := by
  unfold State.post
  extract_lets s1 r0
  split
  · exact State.bump_ops _ _ _ _
  · exact State.bump_ops _ _ _ _
@[simp] theorem State.post_hiSnap (s : State) (pl : Plane) (o c r : Nat) (d : List Word) : (s.post pl o c r d).hiSnap = s.hiSnap := by
  unfold State.post
  extract_lets s1 r0
  split
  · exact State.bump_hiSnap _ _ _ _
  · exact State.bump_hiSnap _ _ _ _
@[simp] theorem State.post_auditBusy (s : State) (pl : Plane) (o c r : Nat) (d : List Word) : (s.post pl o c r d).auditBusy = s.auditBusy := by
  unfold State.post
  extract_lets s1 r0
  split
  · exact State.bump_auditBusy _ _ _ _
  · exact State.bump_auditBusy _ _ _ _
@[simp] theorem State.post_owners (s : State) (pl : Plane) (o c r : Nat) (d : List Word) : (s.post pl o c r d).owners = s.owners := by
  unfold State.post
  extract_lets s1 r0
  split
  · exact State.bump_owners _ _ _ _
  · exact State.bump_owners _ _ _ _
@[simp] theorem State.post_ledger (s : State) (pl : Plane) (o c r : Nat) (d : List Word) : (s.post pl o c r d).ledger = s.ledger := by
  unfold State.post
  extract_lets s1 r0
  split
  · exact State.bump_ledger _ _ _ _
  · exact State.bump_ledger _ _ _ _
@[simp] theorem State.post_ledgerSnaps (s : State) (pl : Plane) (o c r : Nat) (d : List Word) : (s.post pl o c r d).ledgerSnaps = s.ledgerSnaps := by
  unfold State.post
  extract_lets s1 r0
  split
  · exact State.bump_ledgerSnaps _ _ _ _
  · exact State.bump_ledgerSnaps _ _ _ _
@[simp] theorem State.post_ledgerSeqs (s : State) (pl : Plane) (o c r : Nat) (d : List Word) : (s.post pl o c r d).ledgerSeqs = s.ledgerSeqs := by
  unfold State.post
  extract_lets s1 r0
  split
  · exact State.bump_ledgerSeqs _ _ _ _
  · exact State.bump_ledgerSeqs _ _ _ _
@[simp] theorem State.post_reply (s : State) (pl : Plane) (o c r : Nat) (d : List Word) : (s.post pl o c r d).reply = s.reply := by
  unfold State.post
  extract_lets s1 r0
  split
  · exact State.bump_reply _ _ _ _
  · exact State.bump_reply _ _ _ _
@[simp] theorem State.post_free (s : State) (pl : Plane) (o c r : Nat) (d : List Word) : (s.post pl o c r d).free = s.free := by
  unfold State.post
  extract_lets s1 r0
  split
  · exact State.bump_free _ _ _ _
  · exact State.bump_free _ _ _ _
@[simp] theorem State.post_clu (s : State) (pl : Plane) (o c r : Nat) (d : List Word) : (s.post pl o c r d).clu = s.clu := by
  unfold State.post
  extract_lets s1 r0
  split
  · exact State.bump_clu _ _ _ _
  · exact State.bump_clu _ _ _ _
@[simp] theorem State.post_red (s : State) (pl : Plane) (o c r : Nat) (d : List Word) : (s.post pl o c r d).red = s.red := by
  unfold State.post
  extract_lets s1 r0
  split
  · exact State.bump_red _ _ _ _
  · exact State.bump_red _ _ _ _
@[simp] theorem State.post_measSync (s : State) (pl : Plane) (o c r : Nat) (d : List Word) : (s.post pl o c r d).measSync = s.measSync := by
  unfold State.post
  extract_lets s1 r0
  split
  · exact State.bump_measSync _ _ _ _
  · exact State.bump_measSync _ _ _ _
@[simp] theorem State.post_appMessages (s : State) (pl : Plane) (o c r : Nat) (d : List Word) : (s.post pl o c r d).appMessages = s.appMessages := by
  unfold State.post
  extract_lets s1 r0
  split
  · exact State.bump_appMessages _ _ _ _
  · exact State.bump_appMessages _ _ _ _
@[simp] theorem State.post_time (s : State) (pl : Plane) (o c r : Nat) (d : List Word) : (s.post pl o c r d).time = s.time := by
  unfold State.post
  extract_lets s1 r0
  split
  · exact State.bump_time _ _ _ _
  · exact State.bump_time _ _ _ _
@[simp] theorem State.post_cle (s : State) (pl : Plane) (o c r : Nat) (d : List Word) : (s.post pl o c r d).cle = s.cle := by
  unfold State.post
  extract_lets s1 r0
  split
  · exact State.bump_cle _ _ _ _
  · exact State.bump_cle _ _ _ _
@[simp] theorem State.post_ps (s : State) (pl : Plane) (o c r : Nat) (d : List Word) : (s.post pl o c r d).ps = s.ps := by
  unfold State.post
  extract_lets s1 r0
  split
  · exact State.bump_ps _ _ _ _
  · exact State.bump_ps _ _ _ _
@[simp] theorem State.post_sup (s : State) (pl : Plane) (o c r : Nat) (d : List Word) : (s.post pl o c r d).sup = s.sup := by
  unfold State.post
  extract_lets s1 r0
  split
  · exact State.bump_sup _ _ _ _
  · exact State.bump_sup _ _ _ _
@[simp] theorem State.post_fail (s : State) (pl : Plane) (o c r : Nat) (d : List Word) : (s.post pl o c r d).fail = s.fail := by
  unfold State.post
  extract_lets s1 r0
  split
  · exact State.bump_fail _ _ _ _
  · exact State.bump_fail _ _ _ _
@[simp] theorem State.post_net (s : State) (pl : Plane) (o c r : Nat) (d : List Word) : (s.post pl o c r d).net = s.net := by
  unfold State.post
  extract_lets s1 r0
  split
  · exact State.bump_net _ _ _ _
  · exact State.bump_net _ _ _ _
@[simp] theorem State.post_mvbs (s : State) (pl : Plane) (o c r : Nat) (d : List Word) : (s.post pl o c r d).mvbs = s.mvbs := by
  unfold State.post
  extract_lets s1 r0
  split
  · exact State.bump_mvbs _ _ _ _
  · exact State.bump_mvbs _ _ _ _
@[simp] theorem State.post_cans (s : State) (pl : Plane) (o c r : Nat) (d : List Word) : (s.post pl o c r d).cans = s.cans := by
  unfold State.post
  extract_lets s1 r0
  split
  · exact State.bump_cans _ _ _ _
  · exact State.bump_cans _ _ _ _
@[simp] theorem State.post_meas (s : State) (pl : Plane) (o c r : Nat) (d : List Word) : (s.post pl o c r d).meas = s.meas := by
  unfold State.post
  extract_lets s1 r0
  split
  · exact State.bump_meas _ _ _ _
  · exact State.bump_meas _ _ _ _
@[simp] theorem State.post_vme (s : State) (pl : Plane) (o c r : Nat) (d : List Word) : (s.post pl o c r d).vme = s.vme := by
  unfold State.post
  extract_lets s1 r0
  split
  · exact State.bump_vme _ _ _ _
  · exact State.bump_vme _ _ _ _
@[simp] theorem State.post_mem (s : State) (pl : Plane) (o c r : Nat) (d : List Word) : (s.post pl o c r d).mem = s.mem := by
  unfold State.post
  extract_lets s1 r0
  split
  · exact State.bump_mem _ _ _ _
  · exact State.bump_mem _ _ _ _
@[simp] theorem State.post_pending (s : State) (pl : Plane) (o c r : Nat) (d : List Word) : (s.post pl o c r d).pending = s.pending := by
  unfold State.post
  extract_lets s1 r0
  split
  · exact State.bump_pending _ _ _ _
  · exact State.bump_pending _ _ _ _

/-! ### raise -/

@[simp] theorem State.raise_pages (s : State) (p b : Nat) (d : List Word) : (s.raise p b d).pages = s.pages := State.post_pages _ _ _ _ _ _
@[simp] theorem State.raise_ops (s : State) (p b : Nat) (d : List Word) : (s.raise p b d).ops = s.ops := State.post_ops _ _ _ _ _ _
@[simp] theorem State.raise_hiSnap (s : State) (p b : Nat) (d : List Word) : (s.raise p b d).hiSnap = s.hiSnap := State.post_hiSnap _ _ _ _ _ _
@[simp] theorem State.raise_auditBusy (s : State) (p b : Nat) (d : List Word) : (s.raise p b d).auditBusy = s.auditBusy := State.post_auditBusy _ _ _ _ _ _
@[simp] theorem State.raise_owners (s : State) (p b : Nat) (d : List Word) : (s.raise p b d).owners = s.owners := State.post_owners _ _ _ _ _ _
@[simp] theorem State.raise_ledger (s : State) (p b : Nat) (d : List Word) : (s.raise p b d).ledger = s.ledger := State.post_ledger _ _ _ _ _ _
@[simp] theorem State.raise_ledgerSnaps (s : State) (p b : Nat) (d : List Word) : (s.raise p b d).ledgerSnaps = s.ledgerSnaps := State.post_ledgerSnaps _ _ _ _ _ _
@[simp] theorem State.raise_ledgerSeqs (s : State) (p b : Nat) (d : List Word) : (s.raise p b d).ledgerSeqs = s.ledgerSeqs := State.post_ledgerSeqs _ _ _ _ _ _
@[simp] theorem State.raise_reply (s : State) (p b : Nat) (d : List Word) : (s.raise p b d).reply = s.reply := State.post_reply _ _ _ _ _ _
@[simp] theorem State.raise_free (s : State) (p b : Nat) (d : List Word) : (s.raise p b d).free = s.free := State.post_free _ _ _ _ _ _
@[simp] theorem State.raise_clu (s : State) (p b : Nat) (d : List Word) : (s.raise p b d).clu = s.clu := State.post_clu _ _ _ _ _ _
@[simp] theorem State.raise_red (s : State) (p b : Nat) (d : List Word) : (s.raise p b d).red = s.red := State.post_red _ _ _ _ _ _
@[simp] theorem State.raise_measSync (s : State) (p b : Nat) (d : List Word) : (s.raise p b d).measSync = s.measSync := State.post_measSync _ _ _ _ _ _
@[simp] theorem State.raise_appMessages (s : State) (p b : Nat) (d : List Word) : (s.raise p b d).appMessages = s.appMessages := State.post_appMessages _ _ _ _ _ _
@[simp] theorem State.raise_time (s : State) (p b : Nat) (d : List Word) : (s.raise p b d).time = s.time := State.post_time _ _ _ _ _ _
@[simp] theorem State.raise_cle (s : State) (p b : Nat) (d : List Word) : (s.raise p b d).cle = s.cle := State.post_cle _ _ _ _ _ _
@[simp] theorem State.raise_ps (s : State) (p b : Nat) (d : List Word) : (s.raise p b d).ps = s.ps := State.post_ps _ _ _ _ _ _
@[simp] theorem State.raise_sup (s : State) (p b : Nat) (d : List Word) : (s.raise p b d).sup = s.sup := State.post_sup _ _ _ _ _ _
@[simp] theorem State.raise_fail (s : State) (p b : Nat) (d : List Word) : (s.raise p b d).fail = s.fail := State.post_fail _ _ _ _ _ _
@[simp] theorem State.raise_net (s : State) (p b : Nat) (d : List Word) : (s.raise p b d).net = s.net := State.post_net _ _ _ _ _ _
@[simp] theorem State.raise_mvbs (s : State) (p b : Nat) (d : List Word) : (s.raise p b d).mvbs = s.mvbs := State.post_mvbs _ _ _ _ _ _
@[simp] theorem State.raise_cans (s : State) (p b : Nat) (d : List Word) : (s.raise p b d).cans = s.cans := State.post_cans _ _ _ _ _ _
@[simp] theorem State.raise_meas (s : State) (p b : Nat) (d : List Word) : (s.raise p b d).meas = s.meas := State.post_meas _ _ _ _ _ _
@[simp] theorem State.raise_vme (s : State) (p b : Nat) (d : List Word) : (s.raise p b d).vme = s.vme := State.post_vme _ _ _ _ _ _
@[simp] theorem State.raise_mem (s : State) (p b : Nat) (d : List Word) : (s.raise p b d).mem = s.mem := State.post_mem _ _ _ _ _ _
@[simp] theorem State.raise_pending (s : State) (p b : Nat) (d : List Word) : (s.raise p b d).pending = s.pending := State.post_pending _ _ _ _ _ _

/-! ### raiseStop -/

@[simp] theorem State.raiseStop_ops (s : State) (p b : Nat) (d : List Word) : (s.raiseStop p b d).ops = s.ops := State.post_ops _ _ _ _ _ _
@[simp] theorem State.raiseStop_hiSnap (s : State) (p b : Nat) (d : List Word) : (s.raiseStop p b d).hiSnap = s.hiSnap := State.post_hiSnap _ _ _ _ _ _
@[simp] theorem State.raiseStop_auditBusy (s : State) (p b : Nat) (d : List Word) : (s.raiseStop p b d).auditBusy = s.auditBusy := State.post_auditBusy _ _ _ _ _ _
@[simp] theorem State.raiseStop_owners (s : State) (p b : Nat) (d : List Word) : (s.raiseStop p b d).owners = s.owners := State.post_owners _ _ _ _ _ _
@[simp] theorem State.raiseStop_ledger (s : State) (p b : Nat) (d : List Word) : (s.raiseStop p b d).ledger = s.ledger := State.post_ledger _ _ _ _ _ _
@[simp] theorem State.raiseStop_ledgerSnaps (s : State) (p b : Nat) (d : List Word) : (s.raiseStop p b d).ledgerSnaps = s.ledgerSnaps := State.post_ledgerSnaps _ _ _ _ _ _
@[simp] theorem State.raiseStop_ledgerSeqs (s : State) (p b : Nat) (d : List Word) : (s.raiseStop p b d).ledgerSeqs = s.ledgerSeqs := State.post_ledgerSeqs _ _ _ _ _ _
@[simp] theorem State.raiseStop_reply (s : State) (p b : Nat) (d : List Word) : (s.raiseStop p b d).reply = s.reply := State.post_reply _ _ _ _ _ _
@[simp] theorem State.raiseStop_free (s : State) (p b : Nat) (d : List Word) : (s.raiseStop p b d).free = s.free := State.post_free _ _ _ _ _ _
@[simp] theorem State.raiseStop_clu (s : State) (p b : Nat) (d : List Word) : (s.raiseStop p b d).clu = s.clu := State.post_clu _ _ _ _ _ _
@[simp] theorem State.raiseStop_red (s : State) (p b : Nat) (d : List Word) : (s.raiseStop p b d).red = s.red := State.post_red _ _ _ _ _ _
@[simp] theorem State.raiseStop_measSync (s : State) (p b : Nat) (d : List Word) : (s.raiseStop p b d).measSync = s.measSync := State.post_measSync _ _ _ _ _ _
@[simp] theorem State.raiseStop_appMessages (s : State) (p b : Nat) (d : List Word) : (s.raiseStop p b d).appMessages = s.appMessages := State.post_appMessages _ _ _ _ _ _
@[simp] theorem State.raiseStop_time (s : State) (p b : Nat) (d : List Word) : (s.raiseStop p b d).time = s.time := State.post_time _ _ _ _ _ _
@[simp] theorem State.raiseStop_cle (s : State) (p b : Nat) (d : List Word) : (s.raiseStop p b d).cle = s.cle := State.post_cle _ _ _ _ _ _
@[simp] theorem State.raiseStop_ps (s : State) (p b : Nat) (d : List Word) : (s.raiseStop p b d).ps = s.ps := State.post_ps _ _ _ _ _ _
@[simp] theorem State.raiseStop_sup (s : State) (p b : Nat) (d : List Word) : (s.raiseStop p b d).sup = s.sup := State.post_sup _ _ _ _ _ _
@[simp] theorem State.raiseStop_fail (s : State) (p b : Nat) (d : List Word) : (s.raiseStop p b d).fail = s.fail := State.post_fail _ _ _ _ _ _
@[simp] theorem State.raiseStop_net (s : State) (p b : Nat) (d : List Word) : (s.raiseStop p b d).net = s.net := State.post_net _ _ _ _ _ _
@[simp] theorem State.raiseStop_mvbs (s : State) (p b : Nat) (d : List Word) : (s.raiseStop p b d).mvbs = s.mvbs := State.post_mvbs _ _ _ _ _ _
@[simp] theorem State.raiseStop_cans (s : State) (p b : Nat) (d : List Word) : (s.raiseStop p b d).cans = s.cans := State.post_cans _ _ _ _ _ _
@[simp] theorem State.raiseStop_meas (s : State) (p b : Nat) (d : List Word) : (s.raiseStop p b d).meas = s.meas := State.post_meas _ _ _ _ _ _
@[simp] theorem State.raiseStop_vme (s : State) (p b : Nat) (d : List Word) : (s.raiseStop p b d).vme = s.vme := State.post_vme _ _ _ _ _ _
@[simp] theorem State.raiseStop_mem (s : State) (p b : Nat) (d : List Word) : (s.raiseStop p b d).mem = s.mem := State.post_mem _ _ _ _ _ _
@[simp] theorem State.raiseStop_pending (s : State) (p b : Nat) (d : List Word) : (s.raiseStop p b d).pending = s.pending := State.post_pending _ _ _ _ _ _

/-! ### The programmable counters and the counting of an event leave workshop access alone -/

@[simp] theorem State.pmcEvent_wsOpen (s : State) (e i n : Nat) : (s.pmcEvent e i n).obs.wsOpen = s.obs.wsOpen := by
  refine foldl_field (fun t => t.obs.wsOpen) _ (fun t k => ?_) _ s
  dsimp only; split <;> rfl
@[simp] theorem State.pmcEvent_wsOpened (s : State) (e i n : Nat) : (s.pmcEvent e i n).obs.wsOpened = s.obs.wsOpened := by
  refine foldl_field (fun t => t.obs.wsOpened) _ (fun t k => ?_) _ s
  dsimp only; split <;> rfl
@[simp] theorem State.bump_wsOpen (s : State) (p n k : Nat) : (s.bump p n k).obs.wsOpen = s.obs.wsOpen :=
  State.pmcEvent_wsOpen _ _ _ _
@[simp] theorem State.bump_wsOpened (s : State) (p n k : Nat) : (s.bump p n k).obs.wsOpened = s.obs.wsOpened :=
  State.pmcEvent_wsOpened _ _ _ _
@[simp] theorem State.post_wsOpened (s : State) (pl : Plane) (o c r : Nat) (d : List Word) :
    (s.post pl o c r d).obs.wsOpened = s.obs.wsOpened := by
  unfold State.post
  extract_lets s1 r0
  split
  · exact State.bump_wsOpened _ _ _ _
  · exact State.bump_wsOpened _ _ _ _
@[simp] theorem State.post_wsOpen (s : State) (pl : Plane) (o c r : Nat) (d : List Word) :
    (s.post pl o c r d).obs.wsOpen = s.obs.wsOpen := by
  unfold State.post
  extract_lets s1 r0
  split
  · exact State.bump_wsOpen _ _ _ _
  · exact State.bump_wsOpen _ _ _ _
@[simp] theorem State.raise_wsOpened (s : State) (p b : Nat) (d : List Word) : (s.raise p b d).obs.wsOpened = s.obs.wsOpened :=
  State.post_wsOpened _ _ _ _ _ _
@[simp] theorem State.raise_wsOpen (s : State) (p b : Nat) (d : List Word) : (s.raise p b d).obs.wsOpen = s.obs.wsOpen :=
  State.post_wsOpen _ _ _ _ _ _

/-! ### Refused accesses -/

/-- A refused access counts at the page it addressed, or nowhere. -/
theorem State.countAddressed_cases (s : State) (a : Nat) :
    s.countAddressed a = s ∨ ∃ p, s.countAddressed a = s.countFault p := by
  unfold State.countAddressed
  generalize regionOf a = r
  generalize localPage a = x
  generalize remotePageNo a = y
  generalize remoteStack a = z
  cases r <;> (try exact .inl rfl) <;> dsimp only <;> split
  · exact .inr ⟨_, rfl⟩
  · exact .inl rfl
  · exact .inr ⟨_, rfl⟩
  · exact .inl rfl

/-- A violation changes registers, event counters, FIFOs and the answer, nothing else. -/
theorem State.violation_frame (s : State) (m : Master) (a : Nat) :
    { s.violation m a with regs := s.regs, counters := s.counters, obs := s.obs, faults := s.faults, reply := s.reply } = s := by
  simp only [State.violation, State.violationReport, State.answer]
  rcases State.countAddressed_cases s a with h | ⟨p, h⟩ <;> rw [h] <;> simp

end Sys2Proof.Laws
end

