-- ==== Sys2Proof/Laws/Kept.lean ====
section
/-!
SUPPORT. What a command may do to the queue, the report FIFOs, the memories and the safe outputs: the relation `Kept`
between the states before and after, its closure properties, and that the primitive updates have it.
-/
namespace Sys2Proof.Laws
open Sys2Proof Sys2Proof.Machine Sys2Proof.Safety

/-- From `s` to `t` the queue stays, and the invariants of Safety.lean carry over. -/
structure Kept (s t : State) : Prop where
  queue : t.pending = s.pending
  fifos : fifosOk s = true → fifosOk t = true
  mem : memoryWf s.mem = true → memoryWf t.mem = true
  outs : outputsSafe s = true → outputsSafe t = true
  grant : s.sup.grant = s.sup.live → t.sup.grant = t.sup.live

theorem Kept.refl (s : State) : Kept s s := ⟨rfl, id, id, id, id⟩

theorem Kept.trans {s t u : State} (h : Kept s t) (k : Kept t u) : Kept s u :=
  ⟨k.queue.trans h.queue, k.fifos ∘ h.fifos, k.mem ∘ h.mem, k.outs ∘ h.outs, k.grant ∘ h.grant⟩

/-- The outputs' invariant reads three fields of the state. -/
theorem outputsSafe_congr {s t : State} (hs : t.sup = s.sup) (hc : t.clu.mode = s.clu.mode)
    (ho : t.obs.wsOpened = s.obs.wsOpened) (h : outputsSafe s = true) : outputsSafe t = true := by
  simpa [outputsSafe, mayLive, hs, hc, ho] using h

/-- The memories' canonical form reads the byte and word tables alone. -/
theorem memoryWf_congr {m n : Memories} (h1 : m.sram = n.sram) (h2 : m.mgmt = n.mgmt) (h3 : m.mram = n.mram)
    (h4 : m.tcm = n.tcm) (h5 : m.data = n.data) (h6 : m.prog = n.prog) : memoryWf m = memoryWf n := by
  simp only [memoryWf, h1, h2, h3, h4, h5, h6]

/-- An update of other fields, as a rewriting rule. -/
theorem Kept.upd_iff {s₀ s : State} {regs pages ops counters hiSnap auditBusy owners ledger ledgerSnaps ledgerSeqs
    reply free red measSync appMessages time cle ps fail net mvbs cans meas vme clu obs mem}
    (hc : clu.mode = s.clu.mode) (ho : obs.wsOpened = s.obs.wsOpened) (h1 : mem.sram = s.mem.sram)
    (h2 : mem.mgmt = s.mem.mgmt) (h3 : mem.mram = s.mem.mram) (h4 : mem.tcm = s.mem.tcm) (h5 : mem.data = s.mem.data)
    (h6 : mem.prog = s.mem.prog) :
    Kept s₀
      { s with
        regs := regs, pages := pages, ops := ops, counters := counters, hiSnap := hiSnap, auditBusy := auditBusy,
        owners := owners, ledger := ledger, ledgerSnaps := ledgerSnaps, ledgerSeqs := ledgerSeqs, reply := reply,
        free := free, red := red, measSync := measSync, appMessages := appMessages, time := time, cle := cle, ps := ps,
        fail := fail, net := net, mvbs := mvbs, cans := cans, meas := meas, vme := vme, clu := clu, obs := obs,
        mem := mem } ↔
      Kept s₀ s :=
  have e := memoryWf_congr h1 h2 h3 h4 h5 h6
  ⟨fun h => h.trans ⟨rfl, id, fun k => e ▸ k, outputsSafe_congr rfl hc.symm ho.symm, id⟩,
    fun h => h.trans ⟨rfl, id, fun k => e.trans k, outputsSafe_congr rfl hc ho, id⟩⟩

/-- `Kept` of a state written out field by field. -/
def KeptMk (s t : State) : Prop := Kept s t

theorem Kept.mk_iff {s₀ : State} {a0 a1 a2 a3 a4 a5 a6 a7 a8 a9 a10 a11 a12 a13 a14 a15 a16 a17 a18 a19 a20 a21 a22 a23 a24 a25 a26 a27 a28 a29} :
    Kept s₀ (State.mk a0 a1 a2 a3 a4 a5 a6 a7 a8 a9 a10 a11 a12 a13 a14 a15 a16 a17 a18 a19 a20 a21 a22 a23 a24 a25 a26 a27 a28 a29) ↔
      KeptMk s₀ (State.mk a0 a1 a2 a3 a4 a5 a6 a7 a8 a9 a10 a11 a12 a13 a14 a15 a16 a17 a18 a19 a20 a21 a22 a23 a24 a25 a26 a27 a28 a29) :=
  Iff.rfl

/-- An update of other fields, of a state written out. -/
theorem KeptMk.upd {s₀ s : State} {regs pages ops counters hiSnap auditBusy owners ledger ledgerSnaps ledgerSeqs
    reply free red measSync appMessages time cle ps fail net mvbs cans meas vme clu obs mem} (h : Kept s₀ s)
    (hc : clu.mode = s.clu.mode) (ho : obs.wsOpened = s.obs.wsOpened) (h1 : mem.sram = s.mem.sram)
    (h2 : mem.mgmt = s.mem.mgmt) (h3 : mem.mram = s.mem.mram) (h4 : mem.tcm = s.mem.tcm) (h5 : mem.data = s.mem.data)
    (h6 : mem.prog = s.mem.prog) :
    KeptMk s₀
      { s with
        regs := regs, pages := pages, ops := ops, counters := counters, hiSnap := hiSnap, auditBusy := auditBusy,
        owners := owners, ledger := ledger, ledgerSnaps := ledgerSnaps, ledgerSeqs := ledgerSeqs, reply := reply,
        free := free, red := red, measSync := measSync, appMessages := appMessages, time := time, cle := cle, ps := ps,
        fail := fail, net := net, mvbs := mvbs, cans := cans, meas := meas, vme := vme, clu := clu, obs := obs,
        mem := mem } :=
  (Kept.upd_iff hc ho h1 h2 h3 h4 h5 h6).mpr h

/-- An update of the memories that keeps their form. -/
theorem Kept.updMem {s₀ s : State} {m : Memories} (h : Kept s₀ s) (hm : memoryWf s.mem = true → memoryWf m = true) :
    Kept s₀ { s with mem := m } :=
  h.trans ⟨rfl, id, hm, id, id⟩

/-- An update by its effect on the fields that matter. -/
theorem Kept.of {s₀ s t : State} (h : Kept s₀ s) (hp : t.pending = s.pending) (hf : t.faults = s.faults) (hs : t.sup = s.sup)
    (hc : t.clu.mode = s.clu.mode) (ho : t.obs.wsOpened = s.obs.wsOpened)
    (hm : memoryWf s.mem = true → memoryWf t.mem = true) : Kept s₀ t :=
  h.trans ⟨hp, fun k => by simpa only [fifosOk, hf] using k, hm, outputsSafe_congr hs hc ho, fun k => hs ▸ k⟩

theorem Kept.ite {s₀ a b : State} {c : Prop} [Decidable c] (ha : Kept s₀ a) (hb : Kept s₀ b) : Kept s₀ (if c then a else b) := by
  split <;> assumption

theorem Kept.fst_mk {α : Type} {s₀ t : State} {x : α} (h : Kept s₀ t) : Kept s₀ (t, x).1 := h

theorem Kept.snd_mk {α : Type} {s₀ t : State} {x : α} (h : Kept s₀ t) : Kept s₀ (x, t).2 := h

/-- `Kept` of the state in a pair. -/
def KeptFst {α : Type} (s : State) (p : State × α) : Prop := Kept s p.1
def KeptSnd {α : Type} (s : State) (p : α × State) : Prop := Kept s p.2
def KeptThird {α β : Type} (s : State) (p : α × β × State) : Prop := Kept s p.2.2

theorem KeptFst.of {α : Type} {s₀ : State} {p : State × α} (h : Kept s₀ p.1) : KeptFst s₀ p := h

theorem KeptFst.mk {α : Type} {s₀ t : State} {x : α} (h : Kept s₀ t) : KeptFst s₀ (t, x) := h

theorem KeptFst.out {α : Type} {s₀ : State} {p : State × α} (h : KeptFst s₀ p) : Kept s₀ p.1 := h

theorem KeptSnd.of {α : Type} {s₀ : State} {p : α × State} (h : Kept s₀ p.2) : KeptSnd s₀ p := h

theorem KeptThird.of {α β : Type} {s₀ : State} {p : α × β × State} (h : Kept s₀ p.2.2) : KeptThird s₀ p := h

theorem KeptFst.mk_iff {α : Type} {s₀ t : State} {x : α} : KeptFst s₀ (t, x) ↔ Kept s₀ t := Iff.rfl

theorem KeptSnd.mk_iff {α : Type} {s₀ t : State} {x : α} : KeptSnd s₀ (x, t) ↔ Kept s₀ t := Iff.rfl

theorem KeptThird.mk_iff {α β : Type} {s₀ t : State} {x : α} {y : β} : KeptThird s₀ (x, y, t) ↔ Kept s₀ t := Iff.rfl

theorem KeptFst.ite {α : Type} {s₀ : State} {a b : State × α} {c : Prop} [Decidable c] (ha : KeptFst s₀ a) (hb : KeptFst s₀ b) :
    KeptFst s₀ (if c then a else b) := by
  split <;> assumption

theorem KeptSnd.ite {α : Type} {s₀ : State} {a b : α × State} {c : Prop} [Decidable c] (ha : KeptSnd s₀ a) (hb : KeptSnd s₀ b) :
    KeptSnd s₀ (if c then a else b) := by
  split <;> assumption

theorem KeptThird.ite {α β : Type} {s₀ : State} {a b : α × β × State} {c : Prop} [Decidable c] (ha : KeptThird s₀ a)
    (hb : KeptThird s₀ b) : KeptThird s₀ (if c then a else b) := by
  split <;> assumption

theorem Kept.ite_fst {α : Type} {s₀ : State} {a b : State × α} {c : Prop} [Decidable c] (ha : Kept s₀ a.1) (hb : Kept s₀ b.1) :
    Kept s₀ (if c then a else b).1 := by
  split <;> assumption

theorem Kept.ite_snd {α : Type} {s₀ : State} {a b : α × State} {c : Prop} [Decidable c] (ha : Kept s₀ a.2) (hb : Kept s₀ b.2) :
    Kept s₀ (if c then a else b).2 := by
  split <;> assumption

theorem Kept.foldl {α : Type} {s₀ s : State} {f : State → α → State} {l : List α} (h : Kept s₀ s)
    (hf : ∀ t x, Kept s₀ t → Kept s₀ (f t x)) : Kept s₀ (l.foldl f s) := by
  induction l generalizing s with
  | nil => exact h
  | cons x l ih => exact ih (hf s x h)

theorem Kept.foldlFst {α β : Type} {s₀ : State} {f : State × β → α → State × β} {l : List α} {p : State × β}
    (h : Kept s₀ p.1) (hf : ∀ t x, Kept s₀ t.1 → Kept s₀ (f t x).1) : Kept s₀ (l.foldl f p).1 := by
  induction l generalizing p with
  | nil => exact h
  | cons x l ih => exact ih (hf p x h)

theorem Kept.foldlSnd {α β : Type} {s₀ : State} {f : β × State → α → β × State} {l : List α} {p : β × State}
    (h : Kept s₀ p.2) (hf : ∀ t x, Kept s₀ t.2 → Kept s₀ (f t x).2) : Kept s₀ (l.foldl f p).2 := by
  induction l generalizing p with
  | nil => exact h
  | cons x l ih => exact ih (hf p x h)

theorem Kept.snd {α : Type} {s₀ t : State} {p : α × State} {x : α} (e : p = (x, t)) (h : Kept s₀ p.2) : Kept s₀ t := by
  subst e; exact h

theorem Kept.snd2 {α β : Type} {s₀ t : State} {p : α × β × State} {x : α} {y : β} (e : p = (x, y, t)) (h : Kept s₀ p.2.2) :
    Kept s₀ t := by
  subst e; exact h

theorem Kept.fst {α : Type} {s₀ t : State} {p : State × α} {x : α} (e : p = (t, x)) (h : Kept s₀ p.1) : Kept s₀ t := by
  subst e; exact h

/-! ## The memories -/

theorem memoryWf_tcmOf {m : Memories} (h : memoryWf m = true) (k : Copy) : bytesWf (m.tcm.copy k) = true := by
  rw [memoryWf_split] at h
  obtain ⟨_, _, _, ha, hb, hc, _⟩ := h
  cases k
  · exact ha
  · exact hb
  · exact hc

theorem memoryWf_dataOf {m : Memories} (h : memoryWf m = true) (e : Engine) : bytesWf (m.data.eng e) = true := by
  rw [memoryWf_split] at h
  obtain ⟨_, _, _, _, _, _, ha, hb, hc, _⟩ := h
  cases e
  · exact ha
  · exact hb
  · exact hc

theorem memoryWf_progOf {m : Memories} (h : memoryWf m = true) (e : Engine) : wordsWf (m.prog.eng e) = true := by
  rw [memoryWf_split] at h
  obtain ⟨_, _, _, _, _, _, _, _, _, ha, hb, hc⟩ := h
  cases e
  · exact ha
  · exact hb
  · exact hc

/-- A copy's TCM replaced by a canonical one. -/
theorem memoryWf_setTcm {m n : Memories} (h : memoryWf m = true) (k : Copy) (t : Tbl Byte) (ht : bytesWf t = true)
    (h1 : n.sram = m.sram) (h2 : n.mgmt = m.mgmt) (h3 : n.mram = m.mram) (h4 : n.tcm = m.tcm.setCopy k t)
    (h5 : n.data = m.data) (h6 : n.prog = m.prog) : memoryWf n = true := by
  rw [memoryWf_split] at h ⊢
  obtain ⟨p, q, r, ha, hb, hc, hr⟩ := h
  rw [h1, h2, h3, h4, h5, h6]
  cases k
  · exact ⟨p, q, r, ht, hb, hc, hr⟩
  · exact ⟨p, q, r, ha, ht, hc, hr⟩
  · exact ⟨p, q, r, ha, hb, ht, hr⟩

/-- Data and program memories replaced by canonical ones. -/
theorem memoryWf_engines {m n : Memories} (h : memoryWf m = true) (h1 : n.sram = m.sram) (h2 : n.mgmt = m.mgmt)
    (h3 : n.mram = m.mram) (h4 : n.tcm = m.tcm) (hd : ∀ e, bytesWf (n.data.eng e) = true)
    (hp : ∀ e, wordsWf (n.prog.eng e) = true) : memoryWf n = true := by
  rw [memoryWf_split] at h ⊢
  obtain ⟨p, q, r, ha, hb, hc, _⟩ := h
  rw [h1, h2, h3, h4]
  exact ⟨p, q, r, ha, hb, hc, hd .e0, hd .e1, hd .e2, hp .e0, hp .e1, hp .e2⟩

theorem Trio.eng_map {α β : Type} (f : α → β) (t : Trio α) (e : Engine) : (t.map f).eng e = f (t.eng e) := by
  cases e <;> rfl

theorem Trio.eng_setEng {α : Type} (t : Trio α) (e k : Engine) (v : α) :
    (t.setEng e v).eng k = if k = e then v else t.eng k := by
  cases e <;> cases k <;> rfl

/-! ## The report FIFOs -/

theorem seqsRise_mono (l : List FaultReport) (n m : Nat) (hm : n ≤ m) (h : seqsRise l n = true) : seqsRise l m = true := by
  induction l with
  | nil => rfl
  | cons r l ih =>
    cases l with
    | nil => simp only [seqsRise, decide_eq_true_eq] at h ⊢; omega
    | cons q l =>
      simp only [seqsRise, Bool.and_eq_true, decide_eq_true_eq] at h ⊢
      exact ⟨h.1, ih h.2⟩

theorem seqsRise_append (l : List FaultReport) (r : FaultReport) (n : Nat) (hr : r.seq = n) (h : seqsRise l n = true) :
    seqsRise (l ++ [r]) (n + 1) = true := by
  induction l with
  | nil => simp [seqsRise, hr]
  | cons q l ih =>
    cases l with
    | nil => simp only [seqsRise, decide_eq_true_eq] at h; simp [seqsRise, hr, h]
    | cons p l =>
      simp only [seqsRise, Bool.and_eq_true] at h
      simp only [List.cons_append, seqsRise, Bool.and_eq_true]
      exact ⟨h.1, ih h.2⟩

theorem seqsRise_tail (r : FaultReport) (l : List FaultReport) (n : Nat) (h : seqsRise (r :: l) n = true) : seqsRise l n = true := by
  cases l with
  | nil => rfl
  | cons q l => simp only [seqsRise, Bool.and_eq_true] at h; exact h.2

theorem fifoOk_mono {l : List FaultReport} {n m : Nat} (hm : n ≤ m) (h : fifoOk l n = true) : fifoOk l m = true := by
  simp only [fifoOk, Bool.and_eq_true] at h ⊢
  exact ⟨h.1, seqsRise_mono l n m hm h.2⟩

theorem fifoOk_append {l : List FaultReport} {r : FaultReport} {n : Nat} (hl : l.length < 32) (hr : r.seq = n)
    (h : fifoOk l n = true) : fifoOk (l ++ [r]) (n + 1) = true := by
  simp only [fifoOk, Bool.and_eq_true, decide_eq_true_eq] at h ⊢
  exact ⟨by simp; omega, seqsRise_append l r n hr h.2⟩

theorem fifoOk_tail {r : FaultReport} {l : List FaultReport} {n : Nat} (h : fifoOk (r :: l) n = true) : fifoOk l n = true := by
  simp only [fifoOk, Bool.and_eq_true, decide_eq_true_eq, List.length_cons] at h ⊢
  exact ⟨by omega, seqsRise_tail r l n h.2⟩

theorem fifosOk_split {s : State} : fifosOk s = true ↔
    fifoOk s.faults.control s.faults.nextSeq = true ∧ fifoOk s.faults.data s.faults.nextSeq = true ∧
      fifoOk s.faults.management s.faults.nextSeq = true := by
  simp only [fifosOk, Bool.and_eq_true, and_assoc]

/-- A report put into a FIFO with room. -/
theorem Kept.report {s₀ s : State} (pl : Plane) (r : FaultReport) (h : Kept s₀ s) (hl : (s.faults.fifo pl).length < 32)
    (hr : r.seq = s.faults.nextSeq) :
    Kept s₀
      { s with
        faults := { s.faults.setFifo pl (s.faults.fifo pl ++ [r]) with nextSeq := s.faults.nextSeq + 1 } } := by
  refine h.trans ⟨rfl, fun k => ?_, id, id, id⟩
  rw [fifosOk_split] at k ⊢
  have hs : s.faults.nextSeq ≤ s.faults.nextSeq + 1 := Nat.le_succ _
  cases pl
  · exact ⟨fifoOk_append hl hr k.1, fifoOk_mono hs k.2.1, fifoOk_mono hs k.2.2⟩
  · exact ⟨fifoOk_mono hs k.1, fifoOk_append hl hr k.2.1, fifoOk_mono hs k.2.2⟩
  · exact ⟨fifoOk_mono hs k.1, fifoOk_mono hs k.2.1, fifoOk_append hl hr k.2.2⟩

theorem fifoOk_drop {l : List FaultReport} {n : Nat} (h : fifoOk l n = true) : fifoOk (l.drop 1) n = true := by
  cases l with
  | nil => exact h
  | cons r l => exact fifoOk_tail h

/-- The oldest report of a FIFO taken out. -/
theorem Kept.taken {s₀ s : State} (pl : Plane) (h : Kept s₀ s) :
    Kept s₀ { s with faults := s.faults.setFifo pl ((s.faults.fifo pl).drop 1) } := by
  refine h.trans ⟨rfl, fun k => ?_, id, id, id⟩
  rw [fifosOk_split] at k ⊢
  cases pl
  · exact ⟨fifoOk_drop k.1, k.2.1, k.2.2⟩
  · exact ⟨k.1, fifoOk_drop k.2.1, k.2.2⟩
  · exact ⟨k.1, k.2.1, fifoOk_drop k.2.2⟩

/-! ## The outputs -/

theorem outputsSafe_off {s : State} (hl : s.sup.live = false) (hg : s.sup.grant = false) : outputsSafe s = true := by
  simp [outputsSafe, hl, hg]

theorem outputsSafe_live {s : State} : outputsSafe s = true ↔
    (s.sup.live = true → mayLive s = true) ∧ s.sup.grant = s.sup.live := by
  simp only [outputsSafe, Bool.and_eq_true, Bool.or_eq_true, Bool.not_eq_true', beq_iff_eq]
  constructor
  · exact fun h => ⟨fun k => h.1.resolve_left (by simp [k]), h.2⟩
  · refine fun h => ⟨?_, h.2⟩
    cases hl : s.sup.live
    · exact .inl rfl
    · exact .inr (h.1 hl)

/-- A change of the supervisor that neither lights the outputs nor breaks a condition of theirs. -/
theorem Kept.sup {s₀ s : State} {u : Supervisor} (h : Kept s₀ s) (hl : u.live = s.sup.live) (hg : u.grant = s.sup.grant)
    (hm : u.startMode = s.sup.startMode) (hs : u.safeState = s.sup.safeState) (hk : u.latch.locked = s.sup.latch.locked)
    (hp : u.pfwLow = s.sup.pfwLow) : Kept s₀ { s with sup := u } :=
  h.trans ⟨rfl, id, id, fun k => by simpa only [outputsSafe, mayLive, hl, hg, hm, hs, hk, hp] using k,
    fun k => by simpa only [hl, hg] using k⟩

/-- The outputs switched off. -/
theorem Kept.supOff {s₀ s : State} {u : Supervisor} (h : Kept s₀ s) (hl : u.live = false) (hg : u.grant = false) :
    Kept s₀ { s with sup := u } :=
  h.trans ⟨rfl, id, id, fun _ => outputsSafe_off hl hg, fun _ => hg.trans hl.symm⟩

end Sys2Proof.Laws
end

