-- ==== Sys2Proof/Laws/KeptOps.lean ====
section
/-!
SUPPORT. `Kept` for the operations of Machine/Ops.lean.
-/
namespace Sys2Proof.Laws
open Sys2Proof Sys2Proof.Machine Sys2Proof.Safety

-- State.setReg
theorem State.setReg_kept {s₀ s : State} (p : Nat) (off : Nat) (v : Word) (hK : Kept s₀ s) :
    Kept s₀ (State.setReg s p off v) := by
  unfold State.setReg
  repeat' first
    | with_reducible assumption
    | (simp only [Kept.mk_iff]; refine KeptMk.upd ?_ rfl rfl rfl rfl rfl rfl rfl rfl)

-- State.setReg64
theorem State.setReg64_kept {s₀ s : State} (p : Nat) (off : Nat) (v : DWord) (hK : Kept s₀ s) :
    Kept s₀ (State.setReg64 s p off v) := by
  unfold State.setReg64
  repeat' first
    | with_reducible assumption
    | with_reducible apply State.setReg_kept

-- State.satReg
theorem State.satReg_kept {s₀ s : State} (p : Nat) (off : Nat) (k : Nat) (hK : Kept s₀ s) :
    Kept s₀ (State.satReg s p off k) := by
  unfold State.satReg
  repeat' first
    | with_reducible assumption
    | with_reducible apply State.setReg_kept

-- State.incReg
theorem State.incReg_kept {s₀ s : State} (p : Nat) (off : Nat) (k : Nat) (hK : Kept s₀ s) :
    Kept s₀ (State.incReg s p off k) := by
  unfold State.incReg
  repeat' first
    | with_reducible assumption
    | with_reducible apply State.setReg_kept

-- State.maxReg
theorem State.maxReg_kept {s₀ s : State} (p : Nat) (off : Nat) (v : Nat) (hK : Kept s₀ s) :
    Kept s₀ (State.maxReg s p off v) := by
  unfold State.maxReg
  repeat' first
    | with_reducible assumption
    | with_reducible apply State.setReg_kept
    | with_reducible refine Kept.ite ?_ ?_

-- State.answer
theorem State.answer_kept {s₀ s : State} (r : Reply) (hK : Kept s₀ s) :
    Kept s₀ (State.answer s r) := by
  unfold State.answer
  repeat' first
    | with_reducible assumption
    | (simp only [Kept.mk_iff]; refine KeptMk.upd ?_ rfl rfl rfl rfl rfl rfl rfl rfl)

-- State.drawWord
theorem State.drawWord_kept {s₀ s : State}  (hK : Kept s₀ s) :
    Kept s₀ (State.drawWord s).2 := by
  show KeptSnd s₀ _
  unfold State.drawWord
  repeat' first
    | with_reducible assumption
    | simp only [KeptSnd.mk_iff]
    | (simp only [Kept.mk_iff]; refine KeptMk.upd ?_ rfl rfl rfl rfl rfl rfl rfl rfl)

-- State.drawDword
theorem State.drawDword_kept {s₀ s : State}  (hK : Kept s₀ s) :
    Kept s₀ (State.drawDword s).2 := by
  show KeptSnd s₀ _
  unfold State.drawDword
  repeat' first
    | with_reducible assumption
    | simp only [KeptSnd.mk_iff]
    | (simp only [Kept.mk_iff]; refine KeptMk.upd ?_ rfl rfl rfl rfl rfl rfl rfl rfl)

-- State.setPage
theorem State.setPage_kept {s₀ s : State} (p : Nat) (v : PageState) (hK : Kept s₀ s) :
    Kept s₀ (State.setPage s p v) := by
  unfold State.setPage
  repeat' first
    | with_reducible assumption
    | (simp only [Kept.mk_iff]; refine KeptMk.upd ?_ rfl rfl rfl rfl rfl rfl rfl rfl)

-- State.setOp
theorem State.setOp_kept {s₀ s : State} (p : Nat) (v : OpState) (hK : Kept s₀ s) :
    Kept s₀ (State.setOp s p v) := by
  unfold State.setOp
  repeat' first
    | with_reducible assumption
    | (simp only [Kept.mk_iff]; refine KeptMk.upd ?_ rfl rfl rfl rfl rfl rfl rfl rfl)

-- State.opFail
theorem State.opFail_kept {s₀ s : State} (p : Nat) (e : Word) (hK : Kept s₀ s) :
    Kept s₀ (State.opFail s p e) := by
  unfold State.opFail
  repeat' first
    | with_reducible assumption
    | with_reducible apply State.setOp_kept

-- State.opDone
theorem State.opDone_kept {s₀ s : State} (p : Nat) (hK : Kept s₀ s) :
    Kept s₀ (State.opDone s p) := by
  unfold State.opDone
  repeat' first
    | with_reducible assumption
    | with_reducible apply State.setOp_kept

-- State.opAborted
theorem State.opAborted_kept {s₀ s : State} (p : Nat) (e : Word) (hK : Kept s₀ s) :
    Kept s₀ (State.opAborted s p e) := by
  unfold State.opAborted
  repeat' first
    | with_reducible assumption
    | with_reducible apply State.setOp_kept
    | with_reducible refine Kept.ite ?_ ?_

-- State.pmcAdd
theorem State.pmcAdd_kept {s₀ s : State} (k : Nat) (amt : Nat) (hK : Kept s₀ s) :
    Kept s₀ (State.pmcAdd s k amt) := by
  unfold State.pmcAdd
  repeat' first
    | with_reducible assumption
    | (simp only [Kept.mk_iff]; refine KeptMk.upd ?_ rfl rfl rfl rfl rfl rfl rfl rfl)

-- State.pmcEvent
theorem State.pmcEvent_kept {s₀ s : State} (ev : Nat) (inst : Nat) (amt : Nat) (hK : Kept s₀ s) :
    Kept s₀ (State.pmcEvent s ev inst amt) := by
  unfold State.pmcEvent
  repeat' first
    | with_reducible assumption
    | intro x
    | lift_lets
    | with_reducible apply State.pmcAdd_kept
    | with_reducible refine Kept.foldl ?_ (fun _ _ _ => ?_)
    | with_reducible refine Kept.ite ?_ ?_

-- State.bump
theorem State.bump_kept {s₀ s : State} (p : Nat) (n : Nat) (amt : Nat) (hK : Kept s₀ s) :
    Kept s₀ (State.bump s p n amt) := by
  unfold State.bump
  repeat' first
    | with_reducible assumption
    | intro x
    | lift_lets
    | with_reducible apply State.pmcEvent_kept
    | (simp only [Kept.mk_iff]; refine KeptMk.upd ?_ rfl rfl rfl rfl rfl rfl rfl rfl)

-- State.coreEvent
theorem State.coreEvent_kept {s₀ s : State} (set : Nat) (priv : Fin 3) (n : Nat) (amt : Nat) (hK : Kept s₀ s) :
    Kept s₀ (State.coreEvent s set priv n amt) := by
  unfold State.coreEvent
  repeat' first
    | with_reducible assumption
    | intro x
    | lift_lets
    | with_reducible apply State.pmcAdd_kept
    | with_reducible refine Kept.foldl ?_ (fun _ _ _ => ?_)
    | with_reducible refine Kept.ite ?_ ?_

-- State.bw
theorem State.bw_kept {s₀ s : State} (point : Nat) (bytes : Nat) (hK : Kept s₀ s) :
    Kept s₀ (State.bw s point bytes) := by
  unfold State.bw
  repeat' first
    | with_reducible assumption
    | (simp only [Kept.mk_iff]; refine KeptMk.upd ?_ rfl rfl rfl rfl rfl rfl rfl rfl)

-- State.latch
theorem State.latch_kept {s₀ s : State} (p : Nat) (bit : Nat) (hK : Kept s₀ s) :
    Kept s₀ (State.latch s p bit) := by
  unfold State.latch
  repeat' first
    | with_reducible assumption
    | with_reducible apply State.setReg_kept

-- State.countFault
theorem State.countFault_kept {s₀ s : State} (p : Nat) (hK : Kept s₀ s) :
    Kept s₀ (State.countFault s p) := by
  unfold State.countFault
  repeat' first
    | with_reducible assumption
    | with_reducible apply State.setReg_kept

-- State.spendInject
theorem State.spendInject_kept {s₀ s : State} (p : Nat) (hK : Kept s₀ s) :
    Kept s₀ (State.spendInject s p) := by
  unfold State.spendInject
  repeat' first
    | with_reducible assumption
    | intro x
    | lift_lets
    | with_reducible apply State.setReg_kept
    | with_reducible refine Kept.ite ?_ ?_

-- State.sramWrite
theorem State.sramWrite_kept {s₀ s : State} (off : Nat) (bs : List Byte) (h : Kept s₀ s) :
    Kept s₀ (State.sramWrite s off bs) := by
  have hm : ∀ m : Memories, m.sram = memStore s.mem.sram off bs → m.mgmt = s.mem.mgmt → m.mram = s.mem.mram →
      m.tcm = s.mem.tcm → m.data = s.mem.data → m.prog = s.mem.prog → memoryWf s.mem = true → memoryWf m = true := by
    intro m h1 h2 h3 h4 h5 h6 k
    simp only [memoryWf_split, h1, h2, h3, h4, h5, h6] at k ⊢
    exact ⟨memStore_wf _ _ _ k.1, k.2⟩
  unfold State.sramWrite
  dsimp only
  split
  · exact State.spendInject_kept _ (h.of rfl rfl rfl rfl rfl (hm _ rfl rfl rfl rfl rfl rfl))
  · exact h.of rfl rfl rfl rfl rfl (hm _ rfl rfl rfl rfl rfl rfl)

end Sys2Proof.Laws
end

