-- ==== Sys2Proof/Laws/KeptFaults.lean ====
section
/-!
SUPPORT. `Kept` for the operations of Machine/Faults.lean.
-/
namespace Sys2Proof.Laws
open Sys2Proof Sys2Proof.Machine Sys2Proof.Safety

-- State.post
theorem State.post_kept {s₀ s : State} (pl : Plane) (origin cls reaction : Nat) (detail : List Word) (h : Kept s₀ s) :
    Kept s₀ (State.post s pl origin cls reaction detail) := by
  unfold State.post
  have h1 := State.bump_kept 0x004 (planeIndex pl) 1 (State.setReg_kept 0x004 Reg.faultMgr.classSummary
    (setBit (s.reg 0x004 Reg.faultMgr.classSummary) cls true) (State.countFault_kept origin h))
  extract_lets s1 r
  split
  · next hl => exact h1.report pl r hl rfl
  · exact State.satReg_kept _ _ _ h1

-- State.raise
theorem State.raise_kept {s₀ s : State} (p : Nat) (bit : Nat) (detail : List Word) (hK : Kept s₀ s) :
    Kept s₀ (State.raise s p bit detail) := by
  unfold State.raise
  repeat' first
    | with_reducible assumption
    | (intro x; first | (have hx : Kept s₀ x := (by dsimp only [x]; repeat' first | with_reducible assumption | with_reducible apply State.latch_kept)) | skip)
    | lift_lets
    | with_reducible apply State.post_kept

-- State.raiseStop
theorem State.raiseStop_kept {s₀ s : State} (p : Nat) (bit : Nat) (detail : List Word) (hK : Kept s₀ s) :
    Kept s₀ (State.raiseStop s p bit detail) := by
  unfold State.raiseStop
  repeat' first
    | with_reducible assumption
    | (intro x; first | (have hx : Kept s₀ x := (by dsimp only [x]; repeat' first | with_reducible assumption | with_reducible apply State.latch_kept | with_reducible apply State.post_kept)) | skip)
    | lift_lets
    | with_reducible apply State.setPage_kept

-- State.countAddressed
theorem State.countAddressed_kept {s₀ s : State} (a : Nat) (hK : Kept s₀ s) :
    Kept s₀ (State.countAddressed s a) := by
  unfold State.countAddressed
  repeat' first
    | with_reducible assumption
    | with_reducible apply State.countFault_kept
    | with_reducible refine Kept.ite ?_ ?_
    | split

-- State.violationReport
theorem State.violationReport_kept {s₀ s : State} (origin : Nat) (pl : Plane) (hK : Kept s₀ s) :
    Kept s₀ (State.violationReport s origin pl) := by
  unfold State.violationReport
  repeat' first
    | with_reducible assumption
    | with_reducible apply State.post_kept

-- State.violation
theorem State.violation_kept {s₀ s : State} (m : Master) (a : Nat) (hK : Kept s₀ s) :
    Kept s₀ (State.violation s m a) := by
  unfold State.violation
  repeat' first
    | with_reducible assumption
    | with_reducible apply State.countAddressed_kept
    | with_reducible apply State.violationReport_kept
    | with_reducible apply State.answer_kept

-- State.safeOff
theorem State.safeOff_kept {s₀ s : State} (cls origin : Nat) (h : Kept s₀ s) : Kept s₀ (State.safeOff s cls origin) := by
  unfold State.safeOff
  exact Kept.foldl (h.supOff rfl rfl) fun t p k => State.setReg_kept _ _ _ k

-- State.markLockout
theorem State.markLockout_kept {s₀ s : State}  (hK : Kept s₀ s) :
    Kept s₀ (State.markLockout s) := by
  unfold State.markLockout
  repeat' first
    | with_reducible assumption
    | (simp only [Kept.mk_iff]; refine KeptMk.upd ?_ rfl rfl rfl rfl rfl rfl rfl rfl)

end Sys2Proof.Laws
end

