-- ==== Sys2Proof/Laws/KeptNv.lean ====
section
/-!
SUPPORT. `Kept` for the operations of Machine/Nv.lean.
-/
namespace Sys2Proof.Laws
open Sys2Proof Sys2Proof.Machine Sys2Proof.Safety

-- State.setPs
theorem State.setPs_kept {s₀ s : State} (p : PState) (hK : Kept s₀ s) :
    Kept s₀ (State.setPs s p) := by
  unfold State.setPs
  repeat' first
    | with_reducible assumption
    | (simp only [Kept.mk_iff]; refine KeptMk.upd ?_ rfl rfl rfl rfl rfl rfl rfl rfl)

-- State.setNv
theorem State.setNv_kept {s₀ s : State} (n : Nv) (hK : Kept s₀ s) :
    Kept s₀ (State.setNv s n) := by
  unfold State.setNv
  repeat' first
    | with_reducible assumption
    | (simp only [Kept.mk_iff]; refine KeptMk.upd ?_ rfl rfl rfl rfl rfl rfl rfl rfl)

-- State.countWrites
theorem State.countWrites_kept {s₀ s : State} (off : Nat) (n : Nat) (hK : Kept s₀ s) :
    Kept s₀ (State.countWrites s off n) := by
  unfold State.countWrites
  repeat' first
    | with_reducible assumption
    | (intro x; first | (have hx : Kept s₀ x := (by dsimp only [x]; repeat' first | with_reducible assumption | with_reducible apply State.setPs_kept)) | skip)
    | lift_lets
    | with_reducible apply State.raise_kept
    | with_reducible refine Kept.ite ?_ ?_

-- State.mramLine
theorem State.mramLine_kept {s₀ s : State} (off : Nat) (bs : List Byte) (h : Kept s₀ s) :
    Kept s₀ (State.mramLine s off bs) := by
  unfold State.mramLine
  extract_lets src m s1
  have hm : memoryWf s.mem = true → memoryWf m = true := by
    intro k
    rw [memoryWf_split] at k ⊢
    exact ⟨k.1, k.2.1, memStore_wf _ _ _ k.2.2.1, k.2.2.2⟩
  have h1 : Kept s₀ s1 := State.bw_kept _ _ (State.countWrites_kept _ _ (h.updMem hm))
  split
  · apply State.spendInject_kept
    exact h1.of rfl rfl rfl rfl rfl id
  · exact h1

-- State.mramWrite
theorem State.mramWrite_kept {s₀ s : State} (cls : Nat) (off : Nat) (bs : List Byte) (hK : Kept s₀ s) :
    Kept s₀ (State.mramWrite s cls off bs) := by
  unfold State.mramWrite
  repeat' first
    | with_reducible assumption
    | intro x
    | lift_lets
    | with_reducible apply State.mramLine_kept
    | with_reducible apply State.bump_kept
    | with_reducible refine Kept.foldlFst ?_ (fun _ _ _ => ?_)

-- State.writePlace
theorem State.writePlace_kept {s₀ s : State} (cls : Nat) (pl : NvPlace) (bs : List Byte) (hK : Kept s₀ s) :
    Kept s₀ (State.writePlace s cls pl bs) := by
  unfold State.writePlace
  repeat' first
    | with_reducible assumption
    | with_reducible apply State.mramWrite_kept
    | with_reducible refine Kept.foldlFst ?_ (fun _ _ _ => ?_)
    | split

-- State.issueNext
theorem State.issueNext_kept {s₀ s : State}  (hK : Kept s₀ s) :
    Kept s₀ (State.issueNext s) := by
  unfold State.issueNext
  repeat' first
    | with_reducible assumption
    | with_reducible apply State.setPs_kept
    | with_reducible apply State.bump_kept
    | split

-- State.submit
theorem State.submit_kept {s₀ s : State} (r : NvRecord) (hK : Kept s₀ s) :
    Kept s₀ (State.submit s r) := by
  unfold State.submit
  repeat' first
    | with_reducible assumption
    | with_reducible apply State.setPs_kept
    | with_reducible apply State.issueNext_kept
    | with_reducible refine Kept.ite ?_ ?_

-- State.journalSeqIs
theorem State.journalSeqIs_kept {s₀ s : State} (j : DWord) (hK : Kept s₀ s) :
    Kept s₀ (State.journalSeqIs s j) := by
  unfold State.journalSeqIs
  repeat' first
    | with_reducible assumption
    | (simp only [Kept.mk_iff]; refine KeptMk.upd ?_ rfl rfl rfl rfl rfl rfl rfl rfl)

-- State.setPort
theorem State.setPort_kept {s₀ s : State} (mgmt : Bool) (l : List CpReq) (hK : Kept s₀ s) :
    Kept s₀ (State.setPort s mgmt l) := by
  unfold State.setPort
  repeat' first
    | with_reducible assumption
    | with_reducible apply State.setPs_kept
    | with_reducible refine Kept.ite ?_ ?_

-- State.cpDone
theorem State.cpDone_kept {s₀ s : State} (mgmt : Bool) (j : DWord) (hK : Kept s₀ s) :
    Kept s₀ (State.cpDone s mgmt j) := by
  unfold State.cpDone
  repeat' first
    | with_reducible assumption
    | with_reducible apply State.setPort_kept
    | with_reducible apply State.incReg_kept
    | with_reducible apply State.setReg64_kept

-- State.setSlotEntry
theorem State.setSlotEntry_kept {s₀ s : State} (n : Nat) (e : SlotEntry) (hK : Kept s₀ s) :
    Kept s₀ (State.setSlotEntry s n e) := by
  unfold State.setSlotEntry
  repeat' first
    | with_reducible assumption
    | with_reducible apply State.setPs_kept
    | with_reducible apply State.submit_kept
    | with_reducible apply State.bump_kept

-- State.freeBefore
theorem State.freeBefore_kept {s₀ s : State} (p : Nat) (line : Nat) (hK : Kept s₀ s) :
    Kept s₀ (State.freeBefore s p line) := by
  unfold State.freeBefore
  repeat' first
    | with_reducible assumption
    | with_reducible apply State.setSlotEntry_kept
    | with_reducible refine Kept.foldl ?_ (fun _ _ _ => ?_)

-- State.markEffect
theorem State.markEffect_kept {s₀ s : State} (e : NvEffect) (j : DWord) (hK : Kept s₀ s) :
    Kept s₀ (State.markEffect s e j) := by
  unfold State.markEffect
  repeat' first
    | with_reducible assumption
    | intro x
    | lift_lets
    | with_reducible apply State.setNv_kept
    | with_reducible apply State.setReg64_kept
    | with_reducible apply State.freeBefore_kept
    | with_reducible apply State.setPs_kept
    | with_reducible apply State.cpDone_kept
    | with_reducible apply State.bump_kept
    | with_reducible refine Kept.ite ?_ ?_
    | split

-- State.completeMark
theorem State.completeMark_kept {s₀ s : State}  (hK : Kept s₀ s) :
    Kept s₀ (State.completeMark s) := by
  unfold State.completeMark
  repeat' first
    | with_reducible assumption
    | (intro x; first | (have hx : Kept s₀ x := (by dsimp only [x]; repeat' first | with_reducible assumption | with_reducible apply State.writePlace_kept | with_reducible apply State.setPs_kept | with_reducible apply State.journalSeqIs_kept)) | skip)
    | lift_lets
    | with_reducible apply State.markEffect_kept
    | with_reducible apply State.issueNext_kept
    | split

-- State.commitNow
theorem State.commitNow_kept {s₀ s : State} (r : NvRecord) (hK : Kept s₀ s) :
    Kept s₀ (State.commitNow s r) := by
  unfold State.commitNow
  repeat' first
    | with_reducible assumption
    | (intro x; first | (have hx : Kept s₀ x := (by dsimp only [x]; repeat' first | with_reducible assumption | with_reducible apply State.writePlace_kept | with_reducible apply State.setPs_kept | with_reducible apply State.journalSeqIs_kept | with_reducible apply State.markEffect_kept | with_reducible apply State.bump_kept | split)) | skip)
    | lift_lets
    | with_reducible apply State.submit_kept
    | with_reducible apply State.writePlace_kept
    | with_reducible apply State.journalSeqIs_kept
    | with_reducible apply State.markEffect_kept
    | with_reducible apply State.issueNext_kept
    | with_reducible refine Kept.ite ?_ ?_

-- State.journal
theorem State.journal_kept {s₀ s : State} (body : List Byte) (step : Option (DWord × Nat)) (hK : Kept s₀ s) :
    Kept s₀ (State.journal s body step) := by
  unfold State.journal
  repeat' first
    | with_reducible assumption
    | intro x
    | lift_lets
    | with_reducible apply State.setNv_kept
    | with_reducible apply State.submit_kept

-- State.commitRetirement
theorem State.commitRetirement_kept {s₀ s : State} (r : Option (Copy × Nat)) (hK : Kept s₀ s) :
    Kept s₀ (State.commitRetirement s r) := by
  unfold State.commitRetirement
  repeat' first
    | with_reducible assumption
    | intro x
    | lift_lets
    | with_reducible apply State.setNv_kept
    | with_reducible apply State.submit_kept

-- State.commitPowerFail
theorem State.commitPowerFail_kept {s₀ s : State} (cause : Nat) (hK : Kept s₀ s) :
    Kept s₀ (State.commitPowerFail s cause) := by
  unfold State.commitPowerFail
  repeat' first
    | with_reducible assumption
    | intro x
    | lift_lets
    | with_reducible apply State.setNv_kept
    | with_reducible apply State.submit_kept

-- State.commitTable
theorem State.commitTable_kept {s₀ s : State}  (hK : Kept s₀ s) :
    Kept s₀ (State.commitTable s) := by
  unfold State.commitTable
  repeat' first
    | with_reducible assumption
    | intro x
    | lift_lets
    | with_reducible apply State.setPs_kept
    | with_reducible apply State.submit_kept

-- State.commitRunning
theorem State.commitRunning_kept {s₀ s : State}  (hK : Kept s₀ s) :
    Kept s₀ (State.commitRunning s) := by
  unfold State.commitRunning
  repeat' first
    | with_reducible assumption
    | intro x
    | lift_lets
    | with_reducible apply State.setNv_kept
    | with_reducible apply State.submit_kept

-- State.commitLifetime
theorem State.commitLifetime_kept {s₀ s : State}  (hK : Kept s₀ s) :
    Kept s₀ (State.commitLifetime s) := by
  unfold State.commitLifetime
  repeat' first
    | with_reducible assumption
    | intro x
    | lift_lets
    | with_reducible apply State.setNv_kept
    | with_reducible apply State.submit_kept

-- State.recAdd
theorem State.recAdd_kept {s₀ s : State} (off : Nat) (k : Nat) (hK : Kept s₀ s) :
    Kept s₀ (State.recAdd s off k) := by
  unfold State.recAdd
  repeat' first
    | with_reducible assumption
    | intro x
    | lift_lets
    | with_reducible apply State.setNv_kept

-- State.recSet
theorem State.recSet_kept {s₀ s : State} (off : Nat) (v : Nat) (hK : Kept s₀ s) :
    Kept s₀ (State.recSet s off v) := by
  unfold State.recSet
  repeat' first
    | with_reducible assumption
    | intro x
    | lift_lets
    | with_reducible apply State.setNv_kept

-- State.recMax
theorem State.recMax_kept {s₀ s : State} (off : Nat) (ntOff : Nat) (first : Bool) (v : Int) (hK : Kept s₀ s) :
    Kept s₀ (State.recMax s off ntOff first v) := by
  unfold State.recMax
  repeat' first
    | with_reducible assumption
    | with_reducible apply State.recSet_kept
    | with_reducible refine Kept.ite ?_ ?_

-- State.recMin
theorem State.recMin_kept {s₀ s : State} (off : Nat) (ntOff : Nat) (first : Bool) (v : Int) (hK : Kept s₀ s) :
    Kept s₀ (State.recMin s off ntOff first v) := by
  unfold State.recMin
  repeat' first
    | with_reducible assumption
    | with_reducible apply State.recSet_kept
    | with_reducible refine Kept.ite ?_ ?_

-- State.recScan
theorem State.recScan_kept {s₀ s : State} (p : Nat) (us : Nat) (limit : Nat) (hK : Kept s₀ s) :
    Kept s₀ (State.recScan s p us limit) := by
  unfold State.recScan
  repeat' first
    | with_reducible assumption
    | (intro x; first | (have hx : Kept s₀ x := (by dsimp only [x]; repeat' first | with_reducible assumption | with_reducible apply State.recAdd_kept)) | skip)
    | lift_lets
    | with_reducible apply State.recMax_kept

end Sys2Proof.Laws
end

