-- ==== Sys2Proof/Laws/KeptCluster.lean ====
section
/-!
SUPPORT. `Kept` for the operations of Machine/Cluster.lean.
-/
namespace Sys2Proof.Laws
open Sys2Proof Sys2Proof.Machine Sys2Proof.Safety

-- State.setCp
theorem State.setCp_kept {s₀ s : State} (k : Copy) (v : CopyState) (hK : Kept s₀ s) :
    Kept s₀ (State.setCp s k v) := by
  unfold State.setCp
  repeat' first
    | with_reducible assumption
    | (simp only [Kept.mk_iff]; refine KeptMk.upd ?_ rfl rfl rfl rfl rfl rfl rfl rfl)

-- State.ptApplied
theorem State.ptApplied_kept {s₀ s : State}  (hK : Kept s₀ s) :
    Kept s₀ (State.ptApplied s) := by
  unfold State.ptApplied
  repeat' first
    | with_reducible assumption
    | with_reducible apply State.satReg_kept
    | with_reducible apply State.bump_kept

-- State.tussock
theorem State.tussock_kept {s₀ s : State} (k : Copy) (trig : BitVec 6) (hK : Kept s₀ s) :
    Kept s₀ (State.tussock s k trig) := by
  unfold State.tussock
  repeat' first
    | with_reducible assumption
    | (intro x; first | (have hx : Kept s₀ x := (by dsimp only [x]; repeat' first | with_reducible assumption | with_reducible apply State.setCp_kept | with_reducible apply State.setReg64_kept | with_reducible apply State.setReg_kept | with_reducible apply State.ptApplied_kept | with_reducible apply State.bump_kept | with_reducible refine Kept.foldl ?_ (fun _ _ _ => ?_) | with_reducible refine Kept.ite ?_ ?_ | (simp only [Kept.mk_iff]; refine KeptMk.upd ?_ rfl rfl rfl rfl rfl rfl rfl rfl))) | skip)
    | lift_lets
    | with_reducible apply State.bump_kept

-- State.dropTargets
theorem State.dropTargets_kept {s₀ s : State}  (hK : Kept s₀ s) :
    Kept s₀ (State.dropTargets s) := by
  unfold State.dropTargets
  repeat' first
    | with_reducible assumption
    | intro x
    | lift_lets
    | (simp only [Kept.mk_iff]; refine KeptMk.upd ?_ rfl rfl rfl rfl rfl rfl rfl rfl)

-- State.arriveAt
theorem State.arriveAt_kept {s₀ s : State} (k : Copy) (trig : BitVec 6) (hK : Kept s₀ s) :
    Kept s₀ (State.arriveAt s k trig) := by
  unfold State.arriveAt
  repeat' first
    | with_reducible assumption
    | (intro x; first | (have hx : Kept s₀ x := (by dsimp only [x]; repeat' first | with_reducible assumption | with_reducible apply State.tussock_kept | with_reducible apply State.setCp_kept | with_reducible apply State.setReg64_kept | with_reducible apply State.bump_kept | with_reducible refine Kept.ite ?_ ?_ | (simp only [Kept.mk_iff]; refine KeptMk.upd ?_ rfl rfl rfl rfl rfl rfl rfl rfl))) | skip)
    | lift_lets
    | with_reducible apply State.dropTargets_kept

-- State.injectOther
theorem State.injectOther_kept {s₀ s : State} (target : Nat) (key : Nat) (hK : Kept s₀ s) :
    Kept s₀ (State.injectOther s target key) := by
  unfold State.injectOther
  repeat' first
    | with_reducible assumption
    | with_reducible apply State.spendInject_kept
    | split
    | (simp only [Kept.mk_iff]; refine KeptMk.upd ?_ rfl rfl rfl rfl rfl rfl rfl rfl)

-- State.appendEntry
theorem State.appendEntry_kept {s₀ s : State} (k : Copy) (e : ReplayEntry) (hK : Kept s₀ s) :
    Kept s₀ (State.appendEntry s k e) := by
  unfold State.appendEntry
  repeat' first
    | with_reducible assumption
    | intro x
    | lift_lets
    | with_reducible apply State.setCp_kept
    | with_reducible apply State.maxReg_kept
    | with_reducible apply State.injectOther_kept

-- State.giveWfi
theorem State.giveWfi_kept {s₀ s : State} (j : Copy) (hK : Kept s₀ s) :
    Kept s₀ (State.giveWfi s j) := by
  unfold State.giveWfi
  repeat' first
    | with_reducible assumption
    | intro x
    | lift_lets
    | with_reducible apply State.setCp_kept
    | with_reducible apply State.bump_kept
    | with_reducible apply State.appendEntry_kept
    | with_reducible refine Kept.ite ?_ ?_

-- State.wakeWfi
theorem State.wakeWfi_kept {s₀ s : State}  (hK : Kept s₀ s) :
    Kept s₀ (State.wakeWfi s) := by
  unfold State.wakeWfi
  repeat' first
    | with_reducible assumption
    | (intro x; first | (have hx : Kept s₀ x := (by dsimp only [x]; repeat' first | with_reducible assumption | with_reducible apply State.setCp_kept | (simp only [Kept.mk_iff]; refine KeptMk.upd ?_ rfl rfl rfl rfl rfl rfl rfl rfl))) | skip)
    | lift_lets
    | with_reducible apply State.giveWfi_kept
    | with_reducible apply State.bump_kept
    | with_reducible refine Kept.foldl ?_ (fun _ _ _ => ?_)
    | split

-- State.setTarget
theorem State.setTarget_kept {s₀ s : State} (kind : TargetKind) (hK : Kept s₀ s) :
    Kept s₀ (State.setTarget s kind) := by
  unfold State.setTarget
  repeat' first
    | with_reducible assumption
    | (intro x; first | (have hx : Kept s₀ x := (by dsimp only [x]; repeat' first | with_reducible assumption | with_reducible apply State.setReg64_kept | with_reducible apply State.wakeWfi_kept | (simp only [Kept.mk_iff]; refine KeptMk.upd ?_ rfl rfl rfl rfl rfl rfl rfl rfl))) | skip)
    | lift_lets
    | with_reducible apply State.arriveAt_kept
    | with_reducible refine Kept.foldl ?_ (fun _ _ _ => ?_)
    | with_reducible refine Kept.ite ?_ ?_

-- State.irqChange
theorem State.irqChange_kept {s₀ s : State} (lines : DWord) (hK : Kept s₀ s) :
    Kept s₀ (State.irqChange s lines) := by
  unfold State.irqChange
  repeat' first
    | with_reducible assumption
    | (intro x; first | (have hx : Kept s₀ x := (by dsimp only [x]; repeat' first | with_reducible assumption | (simp only [Kept.mk_iff]; refine KeptMk.upd ?_ rfl rfl rfl rfl rfl rfl rfl rfl))) | skip)
    | lift_lets
    | with_reducible apply State.setTarget_kept
    | with_reducible apply State.bump_kept
    | with_reducible refine Kept.ite ?_ ?_
    | (simp only [Kept.mk_iff]; refine KeptMk.upd ?_ rfl rfl rfl rfl rfl rfl rfl rfl)

-- State.meipFollows
theorem State.meipFollows_kept {s₀ s : State}  (hK : Kept s₀ s) :
    Kept s₀ (State.meipFollows s) := by
  unfold State.meipFollows
  repeat' first
    | with_reducible assumption
    | intro x
    | lift_lets
    | with_reducible apply State.irqChange_kept

-- State.message
theorem State.message_kept {s₀ s : State} (vector : BitVec 16) (hK : Kept s₀ s) :
    Kept s₀ (State.message s vector) := by
  unfold State.message
  repeat' first
    | with_reducible assumption
    | with_reducible apply State.meipFollows_kept
    | with_reducible refine Kept.ite ?_ ?_
    | (simp only [Kept.mk_iff]; refine KeptMk.upd ?_ rfl rfl rfl rfl rfl rfl rfl rfl)

-- State.abandonReseed
theorem State.abandonReseed_kept {s₀ s : State}  (hK : Kept s₀ s) :
    Kept s₀ (State.abandonReseed s) := by
  unfold State.abandonReseed
  repeat' first
    | with_reducible assumption
    | (intro x; first | (have hx : Kept s₀ x := (by dsimp only [x]; repeat' first | with_reducible assumption | with_reducible apply State.setCp_kept | with_reducible refine Kept.foldl ?_ (fun _ _ _ => ?_) | with_reducible refine Kept.ite ?_ ?_ | (simp only [Kept.mk_iff]; refine KeptMk.upd ?_ rfl rfl rfl rfl rfl rfl rfl rfl))) | skip)
    | lift_lets
    | with_reducible apply State.setReg_kept
    | split
    | (simp only [Kept.mk_iff]; refine KeptMk.upd ?_ rfl rfl rfl rfl rfl rfl rfl rfl)

-- State.lockoutCause
theorem State.lockoutCause_kept {s₀ s : State} (p : Nat) (bit : Nat) (detail : List Word) (hK : Kept s₀ s) :
    Kept s₀ (State.lockoutCause s p bit detail) := by
  unfold State.lockoutCause
  repeat' first
    | with_reducible assumption
    | (intro x; first | (have hx : Kept s₀ x := (by dsimp only [x]; repeat' first | with_reducible assumption | with_reducible apply State.raise_kept)) | skip)
    | lift_lets
    | with_reducible apply State.markLockout_kept
    | with_reducible apply State.abandonReseed_kept
    | with_reducible refine Kept.ite ?_ ?_

-- State.readOther
theorem State.readOther_kept {s₀ s : State} (key : Nat) (bit : Nat) (hK : Kept s₀ s) :
    Kept s₀ (State.readOther s key bit) := by
  unfold State.readOther
  repeat' first
    | with_reducible assumption
    | (intro x; first | (have hx : Kept s₀ x := (by dsimp only [x]; repeat' first | with_reducible assumption | (simp only [Kept.mk_iff]; refine KeptMk.upd ?_ rfl rfl rfl rfl rfl rfl rfl rfl))) | skip)
    | lift_lets
    | with_reducible apply State.lockoutCause_kept
    | with_reducible refine Kept.ite ?_ ?_

-- State.popEntry
theorem State.popEntry_kept {s₀ s : State} (k : Copy) (hK : Kept s₀ s) :
    Kept s₀ (State.popEntry s k) := by
  unfold State.popEntry
  repeat' first
    | with_reducible assumption
    | (intro x; first | (have hx : Kept s₀ x := (by dsimp only [x]; repeat' first | with_reducible assumption | with_reducible apply State.setCp_kept)) | skip)
    | lift_lets
    | with_reducible apply State.bump_kept
    | with_reducible apply State.readOther_kept

-- State.noMajority
theorem State.noMajority_kept {s₀ s : State}  (hK : Kept s₀ s) :
    Kept s₀ (State.noMajority s) := by
  unfold State.noMajority
  repeat' first
    | with_reducible assumption
    | with_reducible apply State.raise_kept
    | with_reducible apply State.latch_kept
    | with_reducible apply State.lockoutCause_kept
    | with_reducible refine Kept.ite ?_ ?_

-- State.dropSlot
theorem State.dropSlot_kept {s₀ s : State} (ord : DWord) (hK : Kept s₀ s) :
    Kept s₀ (State.dropSlot s ord) := by
  unfold State.dropSlot
  repeat' first
    | with_reducible assumption
    | (simp only [Kept.mk_iff]; refine KeptMk.upd ?_ rfl rfl rfl rfl rfl rfl rfl rfl)

-- State.setSlot
theorem State.setSlot_kept {s₀ s : State} (v : VoterSlot) (hK : Kept s₀ s) :
    Kept s₀ (State.setSlot s v) := by
  unfold State.setSlot
  repeat' first
    | with_reducible assumption
    | (simp only [Kept.mk_iff]; refine KeptMk.upd ?_ rfl rfl rfl rfl rfl rfl rfl rfl)

-- State.voterRemove
theorem State.voterRemove_kept {s₀ s : State} (k : Copy) (hK : Kept s₀ s) :
    Kept s₀ (State.voterRemove s k) := by
  unfold State.voterRemove
  repeat' first
    | with_reducible assumption
    | (intro x; first | (have hx : Kept s₀ x := (by dsimp only [x]; repeat' first | with_reducible assumption | (simp only [Kept.mk_iff]; refine KeptMk.upd ?_ rfl rfl rfl rfl rfl rfl rfl rfl))) | skip)
    | lift_lets
    | with_reducible apply State.noMajority_kept
    | with_reducible refine Kept.foldl ?_ (fun _ _ _ => ?_)

-- State.holdCopy
theorem State.holdCopy_kept {s₀ s : State} (k : Copy) (hK : Kept s₀ s) :
    Kept s₀ (State.holdCopy s k) := by
  unfold State.holdCopy
  repeat' first
    | with_reducible assumption
    | intro x
    | lift_lets
    | with_reducible apply State.setCp_kept
    | with_reducible apply State.voterRemove_kept
    | with_reducible apply State.dropTargets_kept

-- State.beginReseed
theorem State.beginReseed_kept {s₀ s : State} (k : Copy) (h : Kept s₀ s) : Kept s₀ (State.beginReseed s k) := by
  unfold State.beginReseed
  split
  · exact h
  · split
    · exact h
    · have h1 := State.setCp_kept k { s.cp k with x := [], f := [], csr := [], mip := 0#64 } h
      apply State.bump_kept
      apply State.satReg_kept
      exact h1.of rfl rfl rfl rfl rfl id

-- State.retireCopy
theorem State.retireCopy_kept {s₀ s : State} (k : Copy) (hK : Kept s₀ s) :
    Kept s₀ (State.retireCopy s k) := by
  unfold State.retireCopy
  repeat' first
    | with_reducible assumption
    | intro x
    | lift_lets
    | with_reducible apply State.raise_kept
    | with_reducible apply State.commitRetirement_kept
    | (simp only [Kept.mk_iff]; refine KeptMk.upd ?_ rfl rfl rfl rfl rfl rfl rfl rfl)

-- State.formVerdict
theorem State.formVerdict_kept {s₀ s : State} (cmp : Comparator) (j : Judgement) (hK : Kept s₀ s) :
    Kept s₀ (State.formVerdict s cmp j) := by
  unfold State.formVerdict
  repeat' first
    | with_reducible assumption
    | (intro x; first | (have hx : Kept s₀ x := (by dsimp only [x]; repeat' first | with_reducible assumption | with_reducible apply State.setReg_kept | with_reducible apply State.setReg64_kept | with_reducible apply State.maxReg_kept | with_reducible apply State.bump_kept | with_reducible refine Kept.ite ?_ ?_ | (simp only [Kept.mk_iff]; refine KeptMk.upd ?_ rfl rfl rfl rfl rfl rfl rfl rfl))) | (have hx : Kept s₀ x.2 := (show KeptSnd s₀ x from (by dsimp only [x]; repeat' first | with_reducible assumption | (refine KeptSnd.of ?_; first | with_reducible assumption | with_reducible apply State.drawWord_kept | with_reducible apply State.setReg_kept | with_reducible apply State.setReg64_kept | with_reducible apply State.maxReg_kept | with_reducible apply State.bump_kept | with_reducible refine Kept.foldlFst ?_ (fun _ _ _ => ?_) | with_reducible refine Kept.foldlSnd ?_ (fun _ _ _ => ?_))))) | skip)
    | lift_lets
    | with_reducible apply State.bump_kept
    | with_reducible refine Kept.ite ?_ ?_

-- State.settleJudgements
theorem State.settleJudgements_kept {s₀ s : State}  (hK : Kept s₀ s) :
    Kept s₀ (State.settleJudgements s) := by
  unfold State.settleJudgements
  repeat' first
    | with_reducible assumption
    | with_reducible apply State.formVerdict_kept
    | with_reducible refine Kept.foldl ?_ (fun _ _ _ => ?_)
    | with_reducible refine Kept.ite ?_ ?_

-- State.nameOdd
theorem State.nameOdd_kept {s₀ s : State} (k : Copy) (byVerdict : Bool) (hK : Kept s₀ s) :
    Kept s₀ (State.nameOdd s k byVerdict) := by
  unfold State.nameOdd
  repeat' first
    | with_reducible assumption
    | (intro x; first | (have hx : Kept s₀ x := (by dsimp only [x]; repeat' first | with_reducible assumption | with_reducible apply State.latch_kept | with_reducible apply State.holdCopy_kept | with_reducible apply State.post_kept | with_reducible apply State.recAdd_kept | with_reducible apply State.retireCopy_kept | with_reducible apply State.beginReseed_kept | with_reducible refine Kept.ite ?_ ?_ | (simp only [Kept.mk_iff]; refine KeptMk.upd ?_ rfl rfl rfl rfl rfl rfl rfl rfl))) | skip)
    | lift_lets
    | with_reducible apply State.lockoutCause_kept
    | with_reducible apply State.settleJudgements_kept
    | with_reducible refine Kept.ite ?_ ?_
    | split

-- State.copyCause
theorem State.copyCause_kept {s₀ s : State} (k : Copy) (bit : Nat) (hK : Kept s₀ s) :
    Kept s₀ (State.copyCause s k bit) := by
  unfold State.copyCause
  repeat' first
    | with_reducible assumption
    | with_reducible apply State.raise_kept
    | with_reducible apply State.latch_kept
    | with_reducible apply State.nameOdd_kept
    | with_reducible apply State.lockoutCause_kept
    | with_reducible refine Kept.ite ?_ ?_

-- State.slotAgreed
theorem State.slotAgreed_kept {s₀ s : State} (t : VoterSlot) (w : WriteReq) (hK : Kept s₀ s) :
    Kept s₀ (State.slotAgreed s t w) := by
  unfold State.slotAgreed
  repeat' first
    | with_reducible assumption
    | with_reducible apply State.setSlot_kept
    | with_reducible apply State.bump_kept
    | with_reducible refine Kept.ite ?_ ?_

-- State.voteIn
theorem State.voteIn_kept {s₀ s : State} (k : Copy) (w : WriteReq) (t : VoterSlot) (hK : Kept s₀ s) :
    Kept s₀ (State.voteIn s k w t) := by
  unfold State.voteIn
  repeat' first
    | with_reducible assumption
    | intro x
    | lift_lets
    | with_reducible apply State.dropSlot_kept
    | with_reducible apply State.copyCause_kept
    | with_reducible apply State.setSlot_kept
    | with_reducible apply State.slotAgreed_kept
    | with_reducible apply State.noMajority_kept
    | with_reducible refine Kept.ite ?_ ?_
    | split

-- State.voteDelayed
theorem State.voteDelayed_kept {s₀ s : State} (k : Copy) (hK : Kept s₀ s) :
    Kept s₀ (State.voteDelayed s k) := by
  unfold State.voteDelayed
  repeat' first
    | with_reducible assumption
    | with_reducible apply State.ptApplied_kept
    | with_reducible refine Kept.ite ?_ ?_

-- State.present
theorem State.present_kept {s₀ s0 : State} (k : Copy) (w : WriteReq) (hK : Kept s₀ s0) :
    Kept s₀ (State.present s0 k w) := by
  unfold State.present
  repeat' first
    | with_reducible assumption
    | (intro x; first | (have hx : Kept s₀ x := (by dsimp only [x]; repeat' first | with_reducible assumption | with_reducible apply State.voteDelayed_kept | with_reducible apply State.setCp_kept | with_reducible apply State.bump_kept)) | skip)
    | lift_lets
    | with_reducible apply State.setCp_kept
    | with_reducible apply State.injectOther_kept
    | with_reducible apply State.answer_kept
    | with_reducible apply State.readOther_kept
    | with_reducible apply State.voteIn_kept
    | with_reducible refine Kept.ite ?_ ?_
    | split
    | (simp only [Kept.mk_iff]; refine KeptMk.upd ?_ rfl rfl rfl rfl rfl rfl rfl rfl)

end Sys2Proof.Laws
end

