-- ==== Sys2Proof/Laws/KeptTriplex.lean ====
section
/-!
SUPPORT. `Kept` for the operations of Machine/Triplex.lean.
-/
namespace Sys2Proof.Laws
open Sys2Proof Sys2Proof.Machine Sys2Proof.Safety

-- State.doVotedWritePresent
theorem State.doVotedWritePresent_kept {s₀ s : State} (k : Copy) (addr : BitVec 40) (size : Nat) (data : DWord) (hK : Kept s₀ s) :
    Kept s₀ (State.doVotedWritePresent s k addr size data) := by
  unfold State.doVotedWritePresent
  repeat' first
    | with_reducible assumption
    | with_reducible apply State.answer_kept
    | with_reducible apply State.present_kept
    | with_reducible refine Kept.ite ?_ ?_

-- State.takeResult
theorem State.takeResult_kept {s₀ s : State} (k : Copy) (hK : Kept s₀ s) :
    Kept s₀ (State.takeResult s k) := by
  unfold State.takeResult
  repeat' first
    | with_reducible assumption
    | (intro x; first | (have hx : Kept s₀ x := (by dsimp only [x]; repeat' first | with_reducible assumption | with_reducible apply State.popEntry_kept)) | skip)
    | lift_lets
    | with_reducible apply State.setCp_kept
    | with_reducible apply State.answer_kept
    | with_reducible refine Kept.ite ?_ ?_
    | split

-- State.presentAtomic
theorem State.presentAtomic_kept {s₀ s : State} (k : Copy) (w : WriteReq) (hK : Kept s₀ s) :
    Kept s₀ (State.presentAtomic s k w) := by
  unfold State.presentAtomic
  repeat' first
    | with_reducible assumption
    | (intro x; first | (have hx : Kept s₀ x := (by dsimp only [x]; repeat' first | with_reducible assumption | with_reducible apply State.answer_kept | with_reducible apply State.present_kept)) | skip)
    | lift_lets
    | with_reducible apply State.answer_kept
    | with_reducible apply State.setCp_kept
    | with_reducible apply State.takeResult_kept
    | with_reducible refine Kept.ite ?_ ?_

-- State.doVoteLate
theorem State.doVoteLate_kept {s₀ s : State} (ord : DWord) (hK : Kept s₀ s) :
    Kept s₀ (State.doVoteLate s ord) := by
  unfold State.doVoteLate
  repeat' first
    | with_reducible assumption
    | intro x
    | lift_lets
    | with_reducible apply State.raise_kept
    | with_reducible apply State.bump_kept
    | with_reducible apply State.dropSlot_kept
    | with_reducible refine Kept.foldl ?_ (fun _ _ _ => ?_)
    | with_reducible refine Kept.ite ?_ ?_
    | split
    | (simp only [Kept.mk_iff]; refine KeptMk.upd ?_ rfl rfl rfl rfl rfl rfl rfl rfl)

-- State.doVoterStallResume
theorem State.doVoterStallResume_kept {s₀ s : State} (k : Copy) (hK : Kept s₀ s) :
    Kept s₀ (State.doVoterStallResume s k) := by
  unfold State.doVoterStallResume
  repeat' first
    | with_reducible assumption
    | (intro x; first | (have hx : Kept s₀ x := (by dsimp only [x]; repeat' first | with_reducible assumption | with_reducible apply State.setCp_kept | with_reducible apply State.present_kept)) | skip)
    | lift_lets
    | with_reducible apply State.setCp_kept
    | with_reducible apply State.takeResult_kept
    | with_reducible refine Kept.ite ?_ ?_
    | split

-- State.doMsgClaim
theorem State.doMsgClaim_kept {s₀ s : State} (m : Master) (hK : Kept s₀ s) :
    Kept s₀ (State.doMsgClaim s m) := by
  unfold State.doMsgClaim
  repeat' first
    | with_reducible assumption
    | (intro x; first | (have hx : Kept s₀ x := (by dsimp only [x]; repeat' first | with_reducible assumption | with_reducible apply State.answer_kept)) | skip)
    | lift_lets
    | with_reducible apply State.meipFollows_kept
    | split
    | (simp only [Kept.mk_iff]; refine KeptMk.upd ?_ rfl rfl rfl rfl rfl rfl rfl rfl)

-- State.stallRead
theorem State.stallRead_kept {s₀ s : State} (k : Copy) (reason : Nat) (q : ReadReq) (hK : Kept s₀ s) :
    Kept s₀ (State.stallRead s k reason q) := by
  unfold State.stallRead
  repeat' first
    | with_reducible assumption
    | with_reducible apply State.setCp_kept
    | with_reducible apply State.answer_kept

-- State.doWfi
theorem State.doWfi_kept {s₀ s : State} (k : Copy) (hK : Kept s₀ s) :
    Kept s₀ (State.doWfi s k) := by
  unfold State.doWfi
  repeat' first
    | with_reducible assumption
    | intro x
    | lift_lets
    | with_reducible apply State.answer_kept
    | with_reducible apply State.popEntry_kept
    | with_reducible apply State.copyCause_kept
    | with_reducible apply State.stallRead_kept
    | with_reducible apply State.setCp_kept
    | with_reducible apply State.bump_kept
    | with_reducible refine Kept.ite ?_ ?_
    | split

-- State.setSampler
theorem State.setSampler_kept {s₀ s : State} (n : Nat) (v : Sampler) (hK : Kept s₀ s) :
    Kept s₀ (State.setSampler s n v) := by
  unfold State.setSampler
  repeat' first
    | with_reducible assumption
    | (simp only [Kept.mk_iff]; refine KeptMk.upd ?_ rfl rfl rfl rfl rfl rfl rfl rfl)

-- State.sample
theorem State.sample_kept {s₀ s : State} (n : Nat) (r : Retirement) (instret : DWord) (hK : Kept s₀ s) :
    Kept s₀ (State.sample s n r instret) := by
  unfold State.sample
  repeat' first
    | with_reducible assumption
    | (intro x; first | (have hx : Kept s₀ x := (by dsimp only [x]; repeat' first | with_reducible assumption | with_reducible apply State.setSampler_kept)) | skip)
    | lift_lets
    | with_reducible apply State.setSampler_kept
    | with_reducible apply State.satReg_kept
    | with_reducible apply State.bump_kept
    | with_reducible apply State.sramWrite_kept
    | with_reducible apply State.incReg_kept
    | with_reducible refine Kept.ite ?_ ?_

-- State.tcmStore
theorem State.tcmStore_kept {s₀ s : State} (k : Copy) (off : Nat) (bs : List Byte) (h : Kept s₀ s) :
    Kept s₀ (State.tcmStore s k off bs) := by
  unfold State.tcmStore
  extract_lets p src m s1 src2 s2
  have h1 : Kept s₀ s1 := h.updMem fun w =>
    memoryWf_setTcm w k _ (memStore_wf _ off bs (memoryWf_tcmOf w k)) rfl rfl rfl rfl rfl rfl
  have h2 : Kept s₀ s2 := by
    dsimp only [s2]
    split
    · exact State.spendInject_kept _ (h1.of rfl rfl rfl rfl rfl id)
    · exact h1
  repeat' split
  · exact h2.of rfl rfl rfl rfl rfl id
  · exact h2
  · exact h2

-- State.easeLead
theorem State.easeLead_kept {s₀ s : State}  (hK : Kept s₀ s) :
    Kept s₀ (State.easeLead s) := by
  unfold State.easeLead
  repeat' first
    | with_reducible assumption
    | with_reducible apply State.setCp_kept
    | with_reducible refine Kept.foldl ?_ (fun _ _ _ => ?_)
    | with_reducible refine Kept.ite ?_ ?_

-- State.haltNow
theorem State.haltNow_kept {s₀ s : State} (k : Copy) (hK : Kept s₀ s) :
    Kept s₀ (State.haltNow s k) := by
  unfold State.haltNow
  repeat' first
    | with_reducible assumption
    | (intro x; first | (have hx : Kept s₀ x := (by dsimp only [x]; repeat' first | with_reducible assumption | with_reducible apply State.setCp_kept | with_reducible apply State.setReg64_kept | with_reducible apply State.bump_kept | with_reducible refine Kept.ite ?_ ?_)) | skip)
    | lift_lets
    | with_reducible refine Kept.ite ?_ ?_
    | (simp only [Kept.mk_iff]; refine KeptMk.upd ?_ rfl rfl rfl rfl rfl rfl rfl rfl)

-- State.doRetireCopy
theorem State.doRetireCopy_kept {s₀ s : State} (k : Copy) (r : Retirement) (hK : Kept s₀ s) :
    Kept s₀ (State.doRetireCopy s k r) := by
  unfold State.doRetireCopy
  repeat' first
    | with_reducible assumption
    | (intro x; first | (have hx : Kept s₀ x := (by dsimp only [x]; repeat' first | with_reducible assumption | with_reducible apply State.setCp_kept | with_reducible apply State.answer_kept | with_reducible apply State.bump_kept | with_reducible apply State.tcmStore_kept | with_reducible apply State.arriveAt_kept | with_reducible apply State.maxReg_kept | with_reducible apply State.easeLead_kept | with_reducible apply State.sample_kept | with_reducible refine Kept.ite ?_ ?_ | split | (simp only [Kept.mk_iff]; refine KeptMk.upd ?_ rfl rfl rfl rfl rfl rfl rfl rfl))) | skip)
    | lift_lets
    | with_reducible apply State.setCp_kept
    | with_reducible apply State.answer_kept
    | with_reducible apply State.copyCause_kept
    | with_reducible apply State.haltNow_kept
    | with_reducible refine Kept.ite ?_ ?_
    | split

-- State.doInstructionRetire
theorem State.doInstructionRetire_kept {s₀ s : State} (core : RetiringCore) (r : Retirement) (hK : Kept s₀ s) :
    Kept s₀ (State.doInstructionRetire s core r) := by
  unfold State.doInstructionRetire
  repeat' first
    | with_reducible assumption
    | (intro x; first | (have hx : Kept s₀ x := (by dsimp only [x]; repeat' first | with_reducible assumption | with_reducible apply State.doRetireCopy_kept | with_reducible apply State.sample_kept | split)) | skip)
    | lift_lets
    | with_reducible apply State.coreEvent_kept
    | with_reducible refine Kept.foldl ?_ (fun _ _ _ => ?_)
    | split

-- State.arriveReport
theorem State.arriveReport_kept {s₀ s : State} (cmp : Comparator) (r : TussockReport) (hK : Kept s₀ s) :
    Kept s₀ (State.arriveReport s cmp r) := by
  unfold State.arriveReport
  repeat' first
    | with_reducible assumption
    | (intro x; first | (have hx : Kept s₀ x := (by dsimp only [x]; repeat' first | with_reducible assumption | with_reducible refine Kept.ite ?_ ?_ | split | (simp only [Kept.mk_iff]; refine KeptMk.upd ?_ rfl rfl rfl rfl rfl rfl rfl rfl))) | skip)
    | lift_lets
    | with_reducible apply State.settleJudgements_kept

-- State.doTussockReportArrival
theorem State.doTussockReportArrival_kept {s₀ s : State} (cmp : Comparator) (k : Copy) (retries : Nat) (linkOk : Bool) (hK : Kept s₀ s) :
    Kept s₀ (State.doTussockReportArrival s cmp k retries linkOk) := by
  unfold State.doTussockReportArrival
  repeat' first
    | with_reducible assumption
    | (intro x; first | (have hx : Kept s₀ x := (by dsimp only [x]; repeat' first | with_reducible assumption | with_reducible apply State.satReg_kept | with_reducible apply State.bump_kept | with_reducible refine Kept.ite ?_ ?_ | (simp only [Kept.mk_iff]; refine KeptMk.upd ?_ rfl rfl rfl rfl rfl rfl rfl rfl))) | skip)
    | lift_lets
    | with_reducible apply State.raise_kept
    | with_reducible apply State.arriveReport_kept
    | with_reducible refine Kept.ite ?_ ?_
    | split

-- State.doCkptTimeout
theorem State.doCkptTimeout_kept {s₀ s : State} (cmp : Comparator) (h : Kept s₀ s) : Kept s₀ (State.doCkptTimeout s cmp) := by
  unfold State.doCkptTimeout
  split
  · exact h
  · next q _ =>
    split
    · exact h
    · have h1 : Kept s₀ (if cmp = .x then
          (s.participants.filter fun k => (q.2.reports.copy k).isNone).foldl (fun t k => t.raise (copyPage k) 0 []) s
          else s) := by
        split
        · exact Kept.foldl h fun t k kt => State.raise_kept _ _ _ kt
        · exact h
      apply State.settleJudgements_kept
      refine Kept.ite ?_ ?_
      · exact State.lockoutCause_kept _ _ _ (h1.of rfl rfl rfl rfl rfl id)
      · exact h1.of rfl rfl rfl rfl rfl id

-- State.doCkptGap
theorem State.doCkptGap_kept {s₀ s : State}  (hK : Kept s₀ s) :
    Kept s₀ (State.doCkptGap s) := by
  unfold State.doCkptGap
  repeat' first
    | with_reducible assumption
    | with_reducible apply State.setTarget_kept
    | with_reducible refine Kept.ite ?_ ?_
    | (simp only [Kept.mk_iff]; refine KeptMk.upd ?_ rfl rfl rfl rfl rfl rfl rfl rfl)

-- State.doCkptStall
theorem State.doCkptStall_kept {s₀ s : State}  (hK : Kept s₀ s) :
    Kept s₀ (State.doCkptStall s) := by
  unfold State.doCkptStall
  repeat' first
    | with_reducible assumption
    | with_reducible apply State.raise_kept
    | with_reducible refine Kept.ite ?_ ?_
    | (simp only [Kept.mk_iff]; refine KeptMk.upd ?_ rfl rfl rfl rfl rfl rfl rfl rfl)

-- State.forceTussock
theorem State.forceTussock_kept {s₀ s : State} (who : ForcedBy) (hK : Kept s₀ s) :
    Kept s₀ (State.forceTussock s who) := by
  unfold State.forceTussock
  repeat' first
    | with_reducible assumption
    | intro x
    | lift_lets
    | with_reducible apply State.setTarget_kept
    | with_reducible refine Kept.ite ?_ ?_
    | (simp only [Kept.mk_iff]; refine KeptMk.upd ?_ rfl rfl rfl rfl rfl rfl rfl rfl)

-- State.doCkptIntervalWrite
theorem State.doCkptIntervalWrite_kept {s₀ s : State} (m : Master) (v : Word) (hK : Kept s₀ s) :
    Kept s₀ (State.doCkptIntervalWrite s m v) := by
  unfold State.doCkptIntervalWrite
  repeat' first
    | with_reducible assumption
    | with_reducible apply State.violation_kept
    | with_reducible apply State.answer_kept
    | with_reducible apply State.setReg_kept
    | with_reducible apply State.setTarget_kept
    | with_reducible refine Kept.ite ?_ ?_

-- State.doTcmScrub
theorem State.doTcmScrub_kept {s₀ s : State} (k : Copy) (u : Option Upset) (hK : Kept s₀ s) :
    Kept s₀ (State.doTcmScrub s k u) := by
  unfold State.doTcmScrub
  repeat' first
    | with_reducible assumption
    | (intro x; first | (have hx : Kept s₀ x := (by dsimp only [x]; repeat' first | with_reducible assumption | with_reducible apply State.satReg_kept | with_reducible apply State.bump_kept | with_reducible refine Kept.ite ?_ ?_ | (simp only [Kept.mk_iff]; refine KeptMk.upd ?_ rfl rfl rfl rfl rfl rfl rfl rfl))) | skip)
    | lift_lets
    | with_reducible apply State.copyCause_kept
    | with_reducible refine Kept.ite ?_ ?_

-- State.doSharedScrub
theorem State.doSharedScrub_kept {s₀ s : State} (u : Option Upset) (hK : Kept s₀ s) :
    Kept s₀ (State.doSharedScrub s u) := by
  unfold State.doSharedScrub
  repeat' first
    | with_reducible assumption
    | (simp only [Kept.mk_iff]; refine KeptMk.upd ?_ rfl rfl rfl rfl rfl rfl rfl rfl)

-- State.setEcho
theorem State.setEcho_kept {s₀ s : State} (i : Word) (t : Word) (g : Word) (v : Word) (hK : Kept s₀ s) :
    Kept s₀ (State.setEcho s i t g v) := by
  unfold State.setEcho
  repeat' first
    | with_reducible assumption
    | with_reducible apply State.setReg_kept

-- State.doConfigEchoMismatch
theorem State.doConfigEchoMismatch_kept {s₀ s : State} (i : Word) (t : Word) (g : Word) (v : Word) (hK : Kept s₀ s) :
    Kept s₀ (State.doConfigEchoMismatch s i t g v) := by
  unfold State.doConfigEchoMismatch
  repeat' first
    | with_reducible assumption
    | (intro x; first | (have hx : Kept s₀ x := (by dsimp only [x]; repeat' first | with_reducible assumption | with_reducible apply State.setEcho_kept)) | skip)
    | lift_lets
    | with_reducible apply State.lockoutCause_kept
    | with_reducible refine Kept.ite ?_ ?_

end Sys2Proof.Laws
end

