-- ==== Sys2Proof/Laws/KeptDivergence.lean ====
section
/-!
SUPPORT. `Kept` for the operations of Machine/Divergence.lean.
-/
namespace Sys2Proof.Laws
open Sys2Proof Sys2Proof.Machine Sys2Proof.Safety

-- State.takePair
theorem State.takePair_kept {s₀ s : State} (k : DWord) (agreed : Option Verdict) (hK : Kept s₀ s) :
    Kept s₀ (State.takePair s k agreed) := by
  unfold State.takePair
  repeat' first
    | with_reducible assumption
    | intro x
    | lift_lets
    | with_reducible apply State.bump_kept
    | (simp only [Kept.mk_iff]; refine KeptMk.upd ?_ rfl rfl rfl rfl rfl rfl rfl rfl)

-- State.answerForced
theorem State.answerForced_kept {s₀ s : State} (n : DWord) (ok : Bool) (hK : Kept s₀ s) :
    Kept s₀ (State.answerForced s n ok) := by
  unfold State.answerForced
  repeat' first
    | with_reducible assumption
    | intro x
    | lift_lets
    | (simp only [Kept.mk_iff]; refine KeptMk.upd ?_ rfl rfl rfl rfl rfl rfl rfl rfl)

-- State.pairOutcome
theorem State.pairOutcome_kept {s₀ s : State} (v : Verdict) (hK : Kept s₀ s) :
    Kept s₀ (State.pairOutcome s v).1 := by
  show KeptFst s₀ _
  unfold State.pairOutcome
  repeat' first
    | with_reducible assumption
    | with_reducible refine KeptFst.ite ?_ ?_
    | simp only [KeptFst.mk_iff]
    | with_reducible apply State.lockoutCause_kept
    | with_reducible apply State.nameOdd_kept
    | split

-- State.doVerdictPair
theorem State.doVerdictPair_kept {s₀ s : State} (k : DWord) (hK : Kept s₀ s) :
    Kept s₀ (State.doVerdictPair s k) := by
  unfold State.doVerdictPair
  repeat' first
    | with_reducible assumption
    | lift_lets
    | with_reducible apply State.takePair_kept
    | with_reducible apply State.pairOutcome_kept
    | with_reducible apply State.answerForced_kept
    | with_reducible apply State.lockoutCause_kept
    | with_reducible refine Kept.ite ?_ ?_
    | split
    | (simp only [Kept.mk_iff]; refine KeptMk.upd ?_ rfl rfl rfl rfl rfl rfl rfl rfl)

-- State.doVerdictMissing
theorem State.doVerdictMissing_kept {s₀ s : State} (k : DWord) (hK : Kept s₀ s) :
    Kept s₀ (State.doVerdictMissing s k) := by
  unfold State.doVerdictMissing
  repeat' first
    | with_reducible assumption
    | with_reducible apply State.takePair_kept
    | with_reducible apply State.lockoutCause_kept
    | with_reducible apply State.answerForced_kept
    | split

-- State.doReseedResetDone
theorem State.doReseedResetDone_kept {s₀ s : State}  (hK : Kept s₀ s) :
    Kept s₀ (State.doReseedResetDone s) := by
  unfold State.doReseedResetDone
  repeat' first
    | with_reducible assumption
    | with_reducible refine Kept.ite ?_ ?_
    | split
    | (simp only [Kept.mk_iff]; refine KeptMk.upd ?_ rfl rfl rfl rfl rfl rfl rfl rfl)

-- State.copyTcm
theorem State.copyTcm_kept {s₀ s : State} (src dst : Copy) (pages : List Nat) (h : Kept s₀ s) :
    Kept s₀ (State.copyTcm s src dst pages) := by
  unfold State.copyTcm
  refine h.updMem fun w => memoryWf_setTcm w dst _ ?_ rfl rfl rfl rfl rfl rfl
  refine tblPutAll_wf _ _ _ (tblDrop_wf _ _ _ 0 (memoryWf_tcmOf w dst)) fun e he => ?_
  exact tblWf_mem _ _ 0 (memoryWf_tcmOf w src) e (List.mem_filter.mp he).1

-- State.reseedFails
theorem State.reseedFails_kept {s₀ s : State}  (hK : Kept s₀ s) :
    Kept s₀ (State.reseedFails s) := by
  unfold State.reseedFails
  repeat' first
    | with_reducible assumption
    | with_reducible apply State.lockoutCause_kept

-- State.doReseedPassEnd
theorem State.doReseedPassEnd_kept {s₀ s : State}  (hK : Kept s₀ s) :
    Kept s₀ (State.doReseedPassEnd s) := by
  unfold State.doReseedPassEnd
  repeat' first
    | with_reducible assumption
    | (intro x; first | (have hx : Kept s₀ x := (by dsimp only [x]; repeat' first | with_reducible assumption | with_reducible apply State.copyTcm_kept | with_reducible apply State.bump_kept)) | skip)
    | lift_lets
    | with_reducible apply State.reseedFails_kept
    | with_reducible apply State.setTarget_kept
    | with_reducible refine Kept.ite ?_ ?_
    | split
    | (simp only [Kept.mk_iff]; refine KeptMk.upd ?_ rfl rfl rfl rfl rfl rfl rfl rfl)

-- State.doReseedRelease
theorem State.doReseedRelease_kept {s₀ s : State}  (hK : Kept s₀ s) :
    Kept s₀ (State.doReseedRelease s) := by
  unfold State.doReseedRelease
  repeat' first
    | with_reducible assumption
    | (intro x; first | (have hx : Kept s₀ x := (by dsimp only [x]; repeat' first | with_reducible assumption | with_reducible apply State.copyTcm_kept | with_reducible apply State.setCp_kept | with_reducible apply State.setReg_kept | with_reducible apply State.maxReg_kept | with_reducible apply State.bump_kept | with_reducible refine Kept.foldl ?_ (fun _ _ _ => ?_) | (simp only [Kept.mk_iff]; refine KeptMk.upd ?_ rfl rfl rfl rfl rfl rfl rfl rfl))) | skip)
    | lift_lets
    | with_reducible apply State.reseedFails_kept
    | with_reducible apply State.setTarget_kept
    | with_reducible refine Kept.ite ?_ ?_
    | split
    | (simp only [Kept.mk_iff]; refine KeptMk.upd ?_ rfl rfl rfl rfl rfl rfl rfl rfl)

-- State.doReseedFailed
theorem State.doReseedFailed_kept {s₀ s : State} (_why : ReseedFailure) (hK : Kept s₀ s) :
    Kept s₀ (State.doReseedFailed s _why) := by
  unfold State.doReseedFailed
  repeat' first
    | with_reducible assumption
    | with_reducible apply State.reseedFails_kept
    | with_reducible refine Kept.ite ?_ ?_

-- State.doRetirementRecordCommit
theorem State.doRetirementRecordCommit_kept {s₀ s : State}  (hK : Kept s₀ s) :
    Kept s₀ (State.doRetirementRecordCommit s) := by
  unfold State.doRetirementRecordCommit
  repeat' first
    | with_reducible assumption
    | intro x
    | lift_lets
    | with_reducible apply State.commitRetirement_kept
    | split
    | (simp only [Kept.mk_iff]; refine KeptMk.upd ?_ rfl rfl rfl rfl rfl rfl rfl rfl)

-- State.duckboardActs
theorem State.duckboardActs_kept {s₀ s : State}  (hK : Kept s₀ s) :
    Kept s₀ (State.duckboardActs s) := by
  unfold State.duckboardActs
  repeat' first
    | with_reducible assumption
    | with_reducible apply State.post_kept
    | with_reducible apply State.markLockout_kept
    | with_reducible apply State.abandonReseed_kept
    | (simp only [Kept.mk_iff]; refine KeptMk.upd ?_ rfl rfl rfl rfl rfl rfl rfl rfl)

-- State.doDuckboardExpired
theorem State.doDuckboardExpired_kept {s₀ s : State}  (hK : Kept s₀ s) :
    Kept s₀ (State.doDuckboardExpired s) := by
  unfold State.doDuckboardExpired
  repeat' first
    | with_reducible assumption
    | (intro x; first | (have hx : Kept s₀ x := (by dsimp only [x]; repeat' first | with_reducible assumption | with_reducible apply State.setReg_kept | with_reducible apply State.raise_kept)) | skip)
    | lift_lets
    | with_reducible apply State.duckboardActs_kept
    | with_reducible refine Kept.ite ?_ ?_
    | (simp only [Kept.mk_iff]; refine KeptMk.upd ?_ rfl rfl rfl rfl rfl rfl rfl rfl)

-- State.doDuckboardGraceEnd
theorem State.doDuckboardGraceEnd_kept {s₀ s : State}  (hK : Kept s₀ s) :
    Kept s₀ (State.doDuckboardGraceEnd s) := by
  unfold State.doDuckboardGraceEnd
  repeat' first
    | with_reducible assumption
    | with_reducible apply State.setReg_kept
    | with_reducible apply State.duckboardActs_kept
    | with_reducible refine Kept.ite ?_ ?_

-- State.latchSelftest
theorem State.latchSelftest_kept {s₀ s : State} (cmp : Comparator) (bits : BitVec 6) (hK : Kept s₀ s) :
    Kept s₀ (State.latchSelftest s cmp bits) := by
  unfold State.latchSelftest
  repeat' first
    | with_reducible assumption
    | with_reducible apply State.setReg_kept

-- State.doComparatorSelftest
theorem State.doComparatorSelftest_kept {s₀ s : State} (x : BitVec 6) (y : BitVec 6) (hK : Kept s₀ s) :
    Kept s₀ (State.doComparatorSelftest s x y) := by
  unfold State.doComparatorSelftest
  repeat' first
    | with_reducible assumption
    | (intro x; first | (have hx : Kept s₀ x := (by dsimp only [x]; repeat' first | with_reducible assumption | with_reducible apply State.latchSelftest_kept | with_reducible apply State.satReg_kept | with_reducible apply State.bump_kept | with_reducible refine Kept.ite ?_ ?_ | (simp only [Kept.mk_iff]; refine KeptMk.upd ?_ rfl rfl rfl rfl rfl rfl rfl rfl))) | skip)
    | lift_lets
    | with_reducible apply State.lockoutCause_kept
    | with_reducible refine Kept.ite ?_ ?_

-- State.startCore
theorem State.startCore_kept {s₀ s : State} (k : Copy) (hK : Kept s₀ s) :
    Kept s₀ (State.startCore s k) := by
  unfold State.startCore
  repeat' first
    | with_reducible assumption
    | intro x
    | lift_lets
    | with_reducible apply State.setCp_kept
    | with_reducible refine Kept.ite ?_ ?_

-- State.doCoreStart
theorem State.doCoreStart_kept {s₀ s : State} (m : Master) (v : Word) (hK : Kept s₀ s) :
    Kept s₀ (State.doCoreStart s m v) := by
  unfold State.doCoreStart
  repeat' first
    | with_reducible assumption
    | (intro x; first | (have hx : Kept s₀ x := (by dsimp only [x]; repeat' first | with_reducible assumption | with_reducible apply State.startCore_kept | with_reducible refine Kept.ite ?_ ?_)) | skip)
    | lift_lets
    | with_reducible apply State.violation_kept
    | with_reducible apply State.answer_kept
    | with_reducible refine Kept.ite ?_ ?_

-- State.doDebugHaltRequest
theorem State.doDebugHaltRequest_kept {s₀ s : State}  (hK : Kept s₀ s) :
    Kept s₀ (State.doDebugHaltRequest s) := by
  unfold State.doDebugHaltRequest
  repeat' first
    | with_reducible assumption
    | with_reducible apply State.setTarget_kept
    | with_reducible refine Kept.ite ?_ ?_
    | (simp only [Kept.mk_iff]; refine KeptMk.upd ?_ rfl rfl rfl rfl rfl rfl rfl rfl)

-- State.debugAction
theorem State.debugAction_kept {s₀ s : State} (act : State → State) (hact : ∀ t, Kept s₀ t → Kept s₀ (act t)) (hK : Kept s₀ s) :
    Kept s₀ (State.debugAction s act) := by
  unfold State.debugAction
  repeat' first
    | with_reducible assumption
    | (intro x; first | (have hx : Kept s₀ x := (by dsimp only [x]; repeat' first | with_reducible assumption | with_reducible apply State.answer_kept | with_reducible apply hact)) | skip)
    | lift_lets
    | with_reducible apply State.answer_kept
    | with_reducible apply State.raise_kept
    | with_reducible apply State.bump_kept
    | with_reducible apply State.satReg_kept
    | with_reducible refine Kept.ite ?_ ?_

-- State.doDebugRegisterWrite
theorem State.doDebugRegisterWrite_kept {s₀ s : State} (r : DebugReg) (v : DWord) (hK : Kept s₀ s) :
    Kept s₀ (State.doDebugRegisterWrite s r v) := by
  unfold State.doDebugRegisterWrite
  repeat' first
    | with_reducible assumption
    | with_reducible apply State.debugAction_kept
    | with_reducible apply State.setCp_kept
    | with_reducible refine Kept.foldl ?_ (fun _ _ _ => ?_)
    | intro _

-- State.doDebugTcmWrite
theorem State.doDebugTcmWrite_kept {s₀ s : State} (addr : BitVec 40) (size : Nat) (data : DWord) (hK : Kept s₀ s) :
    Kept s₀ (State.doDebugTcmWrite s addr size data) := by
  unfold State.doDebugTcmWrite
  repeat' first
    | with_reducible assumption
    | with_reducible apply State.debugAction_kept
    | with_reducible apply State.tcmStore_kept
    | with_reducible apply State.violation_kept
    | with_reducible apply State.answer_kept
    | with_reducible refine Kept.foldl ?_ (fun _ _ _ => ?_)
    | intro _
    | with_reducible refine Kept.ite ?_ ?_
    | split

-- State.unhalt
theorem State.unhalt_kept {s₀ s : State}  (hK : Kept s₀ s) :
    Kept s₀ (State.unhalt s) := by
  unfold State.unhalt
  repeat' first
    | with_reducible assumption
    | with_reducible apply State.setCp_kept
    | with_reducible refine Kept.foldl ?_ (fun _ _ _ => ?_)

-- State.doDebugStep
theorem State.doDebugStep_kept {s₀ s : State}  (hK : Kept s₀ s) :
    Kept s₀ (State.doDebugStep s) := by
  unfold State.doDebugStep
  repeat' first
    | with_reducible assumption
    | (intro x; first | (have hx : Kept s₀ x := (by dsimp only [x]; repeat' first | with_reducible assumption | split | (simp only [Kept.mk_iff]; refine KeptMk.upd ?_ rfl rfl rfl rfl rfl rfl rfl rfl))) | skip)
    | lift_lets
    | with_reducible apply State.debugAction_kept
    | with_reducible apply State.setReg64_kept
    | with_reducible apply State.unhalt_kept

-- State.reportEntry
theorem State.reportEntry_kept {s₀ s : State} (i : Nat) (e : ReseedEntry) (hK : Kept s₀ s) :
    Kept s₀ (State.reportEntry s i e) := by
  unfold State.reportEntry
  repeat' first
    | with_reducible assumption
    | intro x
    | lift_lets
    | with_reducible apply State.setReg64_kept
    | with_reducible apply State.setReg_kept

-- State.doReseedReport
theorem State.doReseedReport_kept {s₀ s : State}  (hK : Kept s₀ s) :
    Kept s₀ (State.doReseedReport s) := by
  unfold State.doReseedReport
  repeat' first
    | with_reducible assumption
    | (intro x; first | (have hx : Kept s₀ x := (by dsimp only [x]; repeat' first | with_reducible assumption | with_reducible apply State.reportEntry_kept | with_reducible refine Kept.foldlFst ?_ (fun _ _ _ => ?_))) | skip)
    | lift_lets
    | with_reducible apply State.opFail_kept
    | with_reducible apply State.setOp_kept
    | with_reducible apply State.opDone_kept
    | with_reducible refine Kept.ite ?_ ?_

end Sys2Proof.Laws
end

