-- ==== Sys2Proof/Laws/KeptTimebase.lean ====
section
/-!
SUPPORT. `Kept` for the operations of Machine/Timebase.lean.
-/
namespace Sys2Proof.Laws
open Sys2Proof Sys2Proof.Machine Sys2Proof.Safety

-- State.setTime
theorem State.setTime_kept {s₀ s : State} (t : TimeState) (hK : Kept s₀ s) :
    Kept s₀ (State.setTime s t) := by
  unfold State.setTime
  repeat' first
    | with_reducible assumption
    | (simp only [Kept.mk_iff]; refine KeptMk.upd ?_ rfl rfl rfl rfl rfl rfl rfl rfl)

-- State.setAxle
theorem State.setAxle_kept {s₀ s : State} (n : Nat) (a : Axle) (hK : Kept s₀ s) :
    Kept s₀ (State.setAxle s n a) := by
  unfold State.setAxle
  repeat' first
    | with_reducible assumption
    | with_reducible apply State.setTime_kept

-- State.setSlotState
theorem State.setSlotState_kept {s₀ s : State} (n : Nat) (v : Slot) (hK : Kept s₀ s) :
    Kept s₀ (State.setSlotState s n v) := by
  unfold State.setSlotState
  repeat' first
    | with_reducible assumption
    | with_reducible apply State.setTime_kept

-- State.armSlot
theorem State.armSlot_kept {s₀ s : State} (n : Nat) (hK : Kept s₀ s) :
    Kept s₀ (State.armSlot s n) := by
  unfold State.armSlot
  repeat' first
    | with_reducible assumption
    | (intro x; first | (have hx : Kept s₀ x := (by dsimp only [x]; repeat' first | with_reducible assumption | with_reducible apply State.setSlotState_kept)) | skip)
    | lift_lets
    | with_reducible apply State.setSlotState_kept
    | with_reducible apply State.raise_kept
    | with_reducible refine Kept.ite ?_ ?_

-- State.applySlot
theorem State.applySlot_kept {s₀ s : State} (n : Nat) (v : Word) (hK : Kept s₀ s) :
    Kept s₀ (State.applySlot s n v) := by
  unfold State.applySlot
  repeat' first
    | with_reducible assumption
    | (intro x; first | (have hx : Kept s₀ x := (by dsimp only [x]; repeat' first | with_reducible assumption | with_reducible apply State.setSlotState_kept)) | skip)
    | lift_lets
    | with_reducible apply State.raise_kept
    | with_reducible apply State.armSlot_kept
    | with_reducible refine Kept.ite ?_ ?_

-- State.doSlotCtrlWrite
theorem State.doSlotCtrlWrite_kept {s₀ s : State} (m : Master) (n : Nat) (v : Word) (hK : Kept s₀ s) :
    Kept s₀ (State.doSlotCtrlWrite s m n v) := by
  unfold State.doSlotCtrlWrite
  repeat' first
    | with_reducible assumption
    | intro x
    | lift_lets
    | with_reducible apply State.violation_kept
    | with_reducible apply State.applySlot_kept
    | with_reducible apply State.answer_kept
    | with_reducible refine Kept.ite ?_ ?_

-- State.fireSlot
theorem State.fireSlot_kept {s₀ s : State} (n : Nat) (hK : Kept s₀ s) :
    Kept s₀ (State.fireSlot s n) := by
  unfold State.fireSlot
  repeat' first
    | with_reducible assumption
    | (intro x; first | (have hx : Kept s₀ x := (by dsimp only [x]; repeat' first | with_reducible assumption | with_reducible apply State.setSlotState_kept)) | skip)
    | lift_lets
    | with_reducible apply State.setTime_kept
    | with_reducible apply State.bump_kept

-- State.takeAction
theorem State.takeAction_kept {s₀ s : State} (n : Nat) (a : Nat) (act : State → Word → State) (hact : ∀ t x1, Kept s₀ t → Kept s₀ (act t x1)) (hK : Kept s₀ s) :
    Kept s₀ (State.takeAction s n a act) := by
  unfold State.takeAction
  repeat' first
    | with_reducible assumption
    | with_reducible apply State.setTime_kept
    | with_reducible apply hact
    | split

-- State.messageTo
theorem State.messageTo_kept {s₀ s : State} (target : Nat) (vector : BitVec 16) (hK : Kept s₀ s) :
    Kept s₀ (State.messageTo s target vector) := by
  unfold State.messageTo
  repeat' first
    | with_reducible assumption
    | with_reducible apply State.message_kept
    | with_reducible refine Kept.ite ?_ ?_
    | (simp only [Kept.mk_iff]; refine KeptMk.upd ?_ rfl rfl rfl rfl rfl rfl rfl rfl)

-- State.applySync
theorem State.applySync_kept {s₀ s : State}  (hK : Kept s₀ s) :
    Kept s₀ (State.applySync s) := by
  unfold State.applySync
  repeat' first
    | with_reducible assumption
    | (intro x; first | (have hx : Kept s₀ x := (by dsimp only [x]; repeat' first | with_reducible assumption | with_reducible apply State.setTime_kept | with_reducible apply State.setReg_kept | with_reducible apply State.bump_kept)) | skip)
    | lift_lets
    | (simp only [Kept.mk_iff]; refine KeptMk.upd ?_ rfl rfl rfl rfl rfl rfl rfl rfl)

-- State.syncTargetIs
theorem State.syncTargetIs_kept {s₀ s : State} (target : DWord) (masterNoNt : Bool) (hK : Kept s₀ s) :
    Kept s₀ (State.syncTargetIs s target masterNoNt) := by
  unfold State.syncTargetIs
  repeat' first
    | with_reducible assumption
    | (intro x; first | (have hx : Kept s₀ x := (by dsimp only [x]; repeat' first | with_reducible assumption | with_reducible apply State.setReg64_kept)) | skip)
    | lift_lets
    | with_reducible apply State.applySync_kept
    | with_reducible apply State.raise_kept
    | with_reducible apply State.setTime_kept
    | with_reducible refine Kept.ite ?_ ?_

-- State.syncRequest
theorem State.syncRequest_kept {s₀ s : State}  (hK : Kept s₀ s) :
    Kept s₀ (State.syncRequest s) := by
  unfold State.syncRequest
  repeat' first
    | with_reducible assumption
    | with_reducible apply State.syncTargetIs_kept
    | with_reducible apply State.setReg_kept
    | with_reducible apply State.bump_kept
    | with_reducible refine Kept.ite ?_ ?_

-- State.doSyncCmd
theorem State.doSyncCmd_kept {s₀ s : State} (m : Master) (v : Word) (hK : Kept s₀ s) :
    Kept s₀ (State.doSyncCmd s m v) := by
  unfold State.doSyncCmd
  repeat' first
    | with_reducible assumption
    | with_reducible apply State.violation_kept
    | with_reducible apply State.syncRequest_kept
    | with_reducible apply State.answer_kept
    | with_reducible refine Kept.ite ?_ ?_

-- State.doSyncApply
theorem State.doSyncApply_kept {s₀ s : State}  (hK : Kept s₀ s) :
    Kept s₀ (State.doSyncApply s) := by
  unfold State.doSyncApply
  repeat' first
    | with_reducible assumption
    | with_reducible apply State.applySync_kept
    | with_reducible refine Kept.ite ?_ ?_
    | split

-- State.stepSlot
theorem State.stepSlot_kept {s₀ s : State} (old : DWord) (n : Nat) (hK : Kept s₀ s) :
    Kept s₀ (State.stepSlot s old n) := by
  unfold State.stepSlot
  repeat' first
    | with_reducible assumption
    | (intro x; first | (have hx : Kept s₀ x := (by dsimp only [x]; repeat' first | with_reducible assumption | with_reducible apply State.setSlotState_kept)) | skip)
    | lift_lets
    | with_reducible apply State.raise_kept
    | with_reducible apply State.satReg_kept
    | with_reducible refine Kept.ite ?_ ?_

-- State.ntStep
theorem State.ntStep_kept {s₀ s : State} (time : DWord) (hK : Kept s₀ s) :
    Kept s₀ (State.ntStep s time) := by
  unfold State.ntStep
  repeat' first
    | with_reducible assumption
    | (intro x; first | (have hx : Kept s₀ x := (by dsimp only [x]; repeat' first | with_reducible assumption | with_reducible apply State.setTime_kept | with_reducible apply State.satReg_kept | with_reducible apply State.raise_kept | with_reducible apply State.bump_kept)) | skip)
    | lift_lets
    | with_reducible apply State.stepSlot_kept
    | with_reducible refine Kept.foldl ?_ (fun _ _ _ => ?_)
    | with_reducible refine Kept.ite ?_ ?_

-- State.ntBecomesValid
theorem State.ntBecomesValid_kept {s₀ s : State}  (hK : Kept s₀ s) :
    Kept s₀ (State.ntBecomesValid s) := by
  unfold State.ntBecomesValid
  repeat' first
    | with_reducible assumption
    | (intro x; first | (have hx : Kept s₀ x := (by dsimp only [x]; repeat' first | with_reducible assumption | with_reducible apply State.setTime_kept)) | skip)
    | lift_lets
    | with_reducible apply State.setTime_kept
    | with_reducible apply State.armSlot_kept
    | with_reducible refine Kept.foldl ?_ (fun _ _ _ => ?_)
    | with_reducible refine Kept.ite ?_ ?_

-- State.drawIn
theorem State.drawIn_kept {s₀ s : State} (lo : Int) (hi : Int) (hK : Kept s₀ s) :
    Kept s₀ (State.drawIn s lo hi).2 := by
  show KeptSnd s₀ _
  unfold State.drawIn
  repeat' first
    | with_reducible assumption
    | (intro x; first | (have hx : Kept s₀ x.2 := (show KeptSnd s₀ x from (by dsimp only [x]; repeat' first | with_reducible assumption | (refine KeptSnd.of ?_; first | with_reducible assumption | with_reducible apply State.drawWord_kept | with_reducible refine Kept.foldlFst ?_ (fun _ _ _ => ?_) | with_reducible refine Kept.foldlSnd ?_ (fun _ _ _ => ?_))))) | skip)
    | lift_lets
    | simp only [KeptSnd.mk_iff]

-- State.ntMeasure
theorem State.ntMeasure_kept {s₀ s : State} (time : DWord) (source : Nat) (hK : Kept s₀ s) :
    Kept s₀ (State.ntMeasure s time source) := by
  unfold State.ntMeasure
  repeat' first
    | with_reducible assumption
    | (intro x; first | (have hx : Kept s₀ x := (by dsimp only [x]; repeat' first | with_reducible assumption | with_reducible apply State.setReg_kept | with_reducible apply State.bump_kept | with_reducible apply State.setTime_kept | with_reducible apply State.ntStep_kept | with_reducible refine Kept.ite ?_ ?_)) | (have hx : Kept s₀ x.2 := (show KeptSnd s₀ x from (by dsimp only [x]; repeat' first | with_reducible assumption | (refine KeptSnd.of ?_; first | with_reducible assumption | with_reducible apply State.setReg_kept | with_reducible apply State.bump_kept | with_reducible apply State.setTime_kept | with_reducible apply State.ntStep_kept | with_reducible apply State.drawIn_kept | with_reducible apply State.ntBecomesValid_kept | with_reducible refine Kept.foldlFst ?_ (fun _ _ _ => ?_) | with_reducible refine Kept.foldlSnd ?_ (fun _ _ _ => ?_))))) | skip)
    | lift_lets
    | with_reducible apply State.ntBecomesValid_kept
    | with_reducible refine Kept.ite ?_ ?_

-- State.asSync
theorem State.asSync_kept {s₀ s : State} (b : Bool) (hK : Kept s₀ s) :
    Kept s₀ (State.asSync s b) := by
  unfold State.asSync
  repeat' first
    | with_reducible assumption
    | with_reducible apply State.setReg_kept

-- State.doNtHoldover
theorem State.doNtHoldover_kept {s₀ s : State}  (hK : Kept s₀ s) :
    Kept s₀ (State.doNtHoldover s) := by
  unfold State.doNtHoldover
  repeat' first
    | with_reducible assumption
    | with_reducible apply State.asSync_kept
    | with_reducible apply State.setTime_kept
    | with_reducible apply State.bump_kept
    | with_reducible refine Kept.ite ?_ ?_

-- State.doNtLost
theorem State.doNtLost_kept {s₀ s : State}  (hK : Kept s₀ s) :
    Kept s₀ (State.doNtLost s) := by
  unfold State.doNtLost
  repeat' first
    | with_reducible assumption
    | with_reducible apply State.setTime_kept
    | with_reducible apply State.raise_kept
    | with_reducible refine Kept.ite ?_ ?_

-- State.doMpUpdate
theorem State.doMpUpdate_kept {s₀ s : State} (freq : Word) (hK : Kept s₀ s) :
    Kept s₀ (State.doMpUpdate s freq) := by
  unfold State.doMpUpdate
  repeat' first
    | with_reducible assumption
    | (intro x; first | (have hx : Kept s₀ x.2 := (show KeptSnd s₀ x from (by dsimp only [x]; repeat' first | with_reducible assumption | (refine KeptSnd.of ?_; first | with_reducible assumption | with_reducible apply State.ptApplied_kept | with_reducible apply State.drawIn_kept | with_reducible apply State.setTime_kept | with_reducible apply State.setReg_kept | with_reducible refine Kept.foldlFst ?_ (fun _ _ _ => ?_) | with_reducible refine Kept.foldlSnd ?_ (fun _ _ _ => ?_))))) | skip)
    | lift_lets
    | with_reducible apply State.ptApplied_kept
    | with_reducible apply State.setTime_kept
    | with_reducible apply State.setReg_kept
    | with_reducible refine Kept.ite ?_ ?_

-- State.enterMpHoldover
theorem State.enterMpHoldover_kept {s₀ s : State}  (hK : Kept s₀ s) :
    Kept s₀ (State.enterMpHoldover s) := by
  unfold State.enterMpHoldover
  repeat' first
    | with_reducible assumption
    | (intro x; first | (have hx : Kept s₀ x := (by dsimp only [x]; repeat' first | with_reducible assumption | with_reducible apply State.setTime_kept | with_reducible apply State.setReg_kept)) | skip)
    | lift_lets
    | with_reducible apply State.raise_kept
    | with_reducible apply State.bump_kept
    | with_reducible refine Kept.ite ?_ ?_

-- State.doMpHoldoverClear
theorem State.doMpHoldoverClear_kept {s₀ s : State}  (hK : Kept s₀ s) :
    Kept s₀ (State.doMpHoldoverClear s) := by
  unfold State.doMpHoldoverClear
  repeat' first
    | with_reducible assumption
    | with_reducible apply State.setTime_kept
    | with_reducible refine Kept.ite ?_ ?_

-- State.edge
theorem State.edge_kept {s₀ s : State} (n : Nat) (d : Int) (hK : Kept s₀ s) :
    Kept s₀ (State.edge s n d) := by
  unfold State.edge
  repeat' first
    | with_reducible assumption
    | (intro x; first | (have hx : Kept s₀ x := (by dsimp only [x]; repeat' first | with_reducible assumption | with_reducible apply State.setAxle_kept | with_reducible apply State.bump_kept)) | skip)
    | lift_lets
    | with_reducible apply State.setTime_kept
    | with_reducible refine Kept.ite ?_ ?_

-- State.doTachoEdge
theorem State.doTachoEdge_kept {s₀ s : State} (n : Nat) (a : Bool) (b : Bool) (hK : Kept s₀ s) :
    Kept s₀ (State.doTachoEdge s n a b) := by
  unfold State.doTachoEdge
  repeat' first
    | with_reducible assumption
    | (intro x; first | (have hx : Kept s₀ x := (by dsimp only [x]; repeat' first | with_reducible assumption | with_reducible apply State.setAxle_kept)) | skip)
    | lift_lets
    | with_reducible apply State.setReg_kept
    | with_reducible apply State.raise_kept
    | with_reducible apply State.bump_kept
    | with_reducible apply State.edge_kept
    | with_reducible refine Kept.ite ?_ ?_

-- State.doSpeedUpdate
theorem State.doSpeedUpdate_kept {s₀ s : State}  (hK : Kept s₀ s) :
    Kept s₀ (State.doSpeedUpdate s) := by
  unfold State.doSpeedUpdate
  repeat' first
    | with_reducible assumption
    | (intro x; first | (have hx : Kept s₀ x := (by dsimp only [x]; repeat' first | with_reducible assumption | with_reducible apply State.setReg_kept | with_reducible apply State.setAxle_kept | with_reducible apply State.setTime_kept | with_reducible apply State.setReg64_kept | with_reducible refine Kept.foldl ?_ (fun _ _ _ => ?_) | with_reducible refine Kept.ite ?_ ?_)) | skip)
    | lift_lets
    | with_reducible apply State.duckboardActs_kept
    | with_reducible refine Kept.ite ?_ ?_

-- State.tick
theorem State.tick_kept {s₀ s : State}  (hK : Kept s₀ s) :
    Kept s₀ (State.tick s) := by
  unfold State.tick
  repeat' first
    | with_reducible assumption
    | intro x
    | lift_lets
    | with_reducible apply State.setTime_kept

end Sys2Proof.Laws
end

