-- ==== Sys2Proof/Laws/KeptEngines.lean ====
section
/-!
SUPPORT. `Kept` for the operations of Machine/Engines.lean.
-/
namespace Sys2Proof.Laws
open Sys2Proof Sys2Proof.Machine Sys2Proof.Safety

-- State.setCle
theorem State.setCle_kept {s₀ s : State} (c : Cle) (hK : Kept s₀ s) :
    Kept s₀ (State.setCle s c) := by
  unfold State.setCle
  repeat' first
    | with_reducible assumption
    | (simp only [Kept.mk_iff]; refine KeptMk.upd ?_ rfl rfl rfl rfl rfl rfl rfl rfl)

-- State.putData
theorem State.putData_kept {s₀ s : State} (off : Nat) (bs : List Byte) (h : Kept s₀ s) : Kept s₀ (State.putData s off bs) := by
  unfold State.putData
  extract_lets old changed src m src2 s1
  have h1 : Kept s₀ s1 := by
    refine h.of rfl rfl rfl rfl rfl fun w => memoryWf_engines w rfl rfl rfl rfl (fun e => ?_) (fun e => show wordsWf (s.mem.prog.eng e) = true from memoryWf_progOf w e)
    exact (Trio.eng_map _ _ e).symm ▸ memStore_wf _ off bs (memoryWf_dataOf w e)
  refine Kept.foldl h1 fun t e k => ?_
  split
  · exact State.spendInject_kept _ (k.of rfl rfl rfl rfl rfl id)
  · exact k

-- State.votedData
theorem State.votedData_kept {s₀ s : State} (off : Nat) (bs : List Byte) (hK : Kept s₀ s) :
    Kept s₀ (State.votedData s off bs) := by
  unfold State.votedData
  repeat' first
    | with_reducible assumption
    | with_reducible apply State.putData_kept
    | with_reducible apply State.setReg64_kept
    | with_reducible apply State.bump_kept
    | with_reducible refine Kept.ite ?_ ?_

-- State.insertData
theorem State.insertData_kept {s₀ s : State} (off : Nat) (bs : List Byte) (hK : Kept s₀ s) :
    Kept s₀ (State.insertData s off bs) := by
  unfold State.insertData
  repeat' first
    | with_reducible assumption
    | with_reducible apply State.putData_kept
    | with_reducible apply State.setReg64_kept
    | with_reducible apply State.bump_kept
    | with_reducible refine Kept.ite ?_ ?_

-- State.dataWord
theorem State.dataWord_kept {s₀ s : State} (off : Nat) (v : Nat) (hK : Kept s₀ s) :
    Kept s₀ (State.dataWord s off v) := by
  unfold State.dataWord
  repeat' first
    | with_reducible assumption
    | with_reducible apply State.votedData_kept

-- State.putProg
theorem State.putProg_kept {s₀ s : State} (i : Nat) (w : Word) (h : Kept s₀ s) : Kept s₀ (State.putProg s i w) := by
  unfold State.putProg
  extract_lets src m
  have h1 : Kept s₀ { s with mem := m } := by
    refine h.updMem fun k => memoryWf_engines k rfl rfl rfl rfl (fun e => show bytesWf (s.mem.data.eng e) = true from memoryWf_dataOf k e) (fun e => ?_)
    exact (Trio.eng_map _ _ e).symm ▸ tblWrite_wf _ _ _ _ (memoryWf_progOf k e)
  refine Kept.foldl h1 fun t e k => ?_
  split
  · exact State.spendInject_kept _ (k.of rfl rfl rfl rfl rfl id)
  · exact k

-- State.setProg
theorem State.setProg_kept {s₀ s : State} (p : Nat) (v : ProgState) (hK : Kept s₀ s) :
    Kept s₀ (State.setProg s p v) := by
  unfold State.setProg
  repeat' first
    | with_reducible assumption
    | with_reducible apply State.setCle_kept

-- State.nameEngine
theorem State.nameEngine_kept {s₀ s : State} (e : Engine) (bit : Nat) (hK : Kept s₀ s) :
    Kept s₀ (State.nameEngine s e bit) := by
  unfold State.nameEngine
  repeat' first
    | with_reducible assumption
    | (intro x; first | (have hx : Kept s₀ x := (by dsimp only [x]; repeat' first | with_reducible assumption | with_reducible apply State.latch_kept | with_reducible apply State.recAdd_kept | with_reducible apply State.setCle_kept)) | skip)
    | lift_lets
    | with_reducible apply State.lockoutCause_kept
    | with_reducible apply State.post_kept
    | with_reducible refine Kept.ite ?_ ?_

-- State.engineCause
theorem State.engineCause_kept {s₀ s : State} (e : Engine) (bit : Nat) (hK : Kept s₀ s) :
    Kept s₀ (State.engineCause s e bit) := by
  unfold State.engineCause
  repeat' first
    | with_reducible assumption
    | with_reducible apply State.latch_kept
    | with_reducible apply State.nameEngine_kept
    | with_reducible apply State.lockoutCause_kept
    | with_reducible refine Kept.ite ?_ ?_

-- State.engineMismatch
theorem State.engineMismatch_kept {s₀ s : State}  (hK : Kept s₀ s) :
    Kept s₀ (State.engineMismatch s) := by
  unfold State.engineMismatch
  repeat' first
    | with_reducible assumption
    | with_reducible apply State.setCle_kept
    | with_reducible apply State.lockoutCause_kept
    | with_reducible refine Kept.ite ?_ ?_

-- State.secondOddEngine
theorem State.secondOddEngine_kept {s₀ s : State} (l : List (Engine × Nat)) (hK : Kept s₀ s) :
    Kept s₀ (State.secondOddEngine s l) := by
  unfold State.secondOddEngine
  repeat' first
    | with_reducible assumption
    | with_reducible apply State.latch_kept
    | with_reducible apply State.lockoutCause_kept
    | with_reducible refine Kept.foldl ?_ (fun _ _ _ => ?_)

end Sys2Proof.Laws
end

