-- ==== Sys2Proof/Laws/KeptScanOps.lean ====
section
/-!
SUPPORT. `Kept` for the operations of Machine/ScanOps.lean.
-/
namespace Sys2Proof.Laws
open Sys2Proof Sys2Proof.Machine Sys2Proof.Safety

-- State.portRead
theorem State.portRead_kept {s₀ s : State} (off : Nat) (n : Nat) (hK : Kept s₀ s) :
    Kept s₀ (State.portRead s off n).2 := by
  show KeptSnd s₀ _
  unfold State.portRead
  repeat' first
    | with_reducible assumption
    | (intro x; first | (have hx : Kept s₀ x := (by dsimp only [x]; repeat' first | with_reducible assumption | with_reducible apply State.bw_kept)) | skip)
    | lift_lets
    | with_reducible refine KeptSnd.ite ?_ ?_
    | simp only [KeptSnd.mk_iff]
    | with_reducible apply State.violation_kept
    | split

-- State.portWrite
theorem State.portWrite_kept {s₀ s : State} (off : Nat) (bs : List Byte) (hK : Kept s₀ s) :
    Kept s₀ (State.portWrite s off bs) := by
  unfold State.portWrite
  repeat' first
    | with_reducible assumption
    | with_reducible apply State.bw_kept
    | with_reducible apply State.sramWrite_kept
    | with_reducible apply State.violation_kept
    | with_reducible refine Kept.ite ?_ ?_

-- State.readBuffer
theorem State.readBuffer_kept {s₀ s : State} (off : Nat) (seq : Nat) (b : Nat) (hK : Kept s₀ s) :
    Kept s₀ (State.readBuffer s off seq b).2 := by
  show KeptSnd s₀ _
  unfold State.readBuffer
  repeat' first
    | with_reducible assumption
    | (intro x; first | (have hx : Kept s₀ x.2 := (show KeptSnd s₀ x from (by dsimp only [x]; repeat' first | with_reducible assumption | (refine KeptSnd.of ?_; first | with_reducible assumption | with_reducible apply State.portRead_kept | with_reducible refine Kept.foldlFst ?_ (fun _ _ _ => ?_) | with_reducible refine Kept.foldlSnd ?_ (fun _ _ _ => ?_))))) | skip)
    | lift_lets
    | simp only [KeptSnd.mk_iff]

-- State.readMailbox
theorem State.readMailbox_kept {s₀ s : State} (off : Nat) (hK : Kept s₀ s) :
    Kept s₀ (State.readMailbox s off).2 := by
  show KeptSnd s₀ _
  unfold State.readMailbox
  repeat' first
    | with_reducible assumption
    | (intro x; first | (have hx : Kept s₀ x.2 := (show KeptSnd s₀ x from (by dsimp only [x]; repeat' first | with_reducible assumption | (refine KeptSnd.of ?_; first | with_reducible assumption | with_reducible apply State.portRead_kept | with_reducible apply State.readBuffer_kept | with_reducible refine Kept.foldlFst ?_ (fun _ _ _ => ?_) | with_reducible refine Kept.foldlSnd ?_ (fun _ _ _ => ?_))))) | skip)
    | lift_lets
    | with_reducible refine KeptSnd.ite ?_ ?_
    | simp only [KeptSnd.mk_iff]

-- State.writeMailbox
theorem State.writeMailbox_kept {s₀ s : State} (off : Nat) (payload : List Byte) (hK : Kept s₀ s) :
    Kept s₀ (State.writeMailbox s off payload) := by
  unfold State.writeMailbox
  repeat' first
    | with_reducible assumption
    | (intro x; first | (have hx : Kept s₀ x.2 := (show KeptSnd s₀ x from (by dsimp only [x]; repeat' first | with_reducible assumption | (refine KeptSnd.of ?_; first | with_reducible assumption | with_reducible apply State.portRead_kept | with_reducible apply State.portWrite_kept | with_reducible refine Kept.foldlFst ?_ (fun _ _ _ => ?_) | with_reducible refine Kept.foldlSnd ?_ (fun _ _ _ => ?_))))) | skip)
    | lift_lets
    | with_reducible apply State.portWrite_kept

-- State.setStation
theorem State.setStation_kept {s₀ s : State} (k : Nat) (state : Nat) (err : Bool) (undelivered : Bool) (d : Option Delivery) (hK : Kept s₀ s) :
    Kept s₀ (State.setStation s k state err undelivered d) := by
  unfold State.setStation
  repeat' first
    | with_reducible assumption
    | intro x
    | lift_lets
    | with_reducible apply State.votedData_kept

-- State.ledgerUndelivered
theorem State.ledgerUndelivered_kept {s₀ s : State} (k : Nat) (b : Bool) (hK : Kept s₀ s) :
    Kept s₀ (State.ledgerUndelivered s k b) := by
  unfold State.ledgerUndelivered
  repeat' first
    | with_reducible assumption
    | (intro x; first | (have hx : Kept s₀ x := (by dsimp only [x]; repeat' first | with_reducible assumption | (simp only [Kept.mk_iff]; refine KeptMk.upd ?_ rfl rfl rfl rfl rfl rfl rfl rfl))) | skip)
    | lift_lets
    | with_reducible apply State.bump_kept
    | with_reducible refine Kept.ite ?_ ?_

-- State.writeSafe
theorem State.writeSafe_kept {s₀ s : State} (p : Nat) (hK : Kept s₀ s) :
    Kept s₀ (State.writeSafe s p) := by
  unfold State.writeSafe
  repeat' first
    | with_reducible assumption
    | (intro x; first | (have hx : Kept s₀ x := (by dsimp only [x]; repeat' first | with_reducible assumption | with_reducible apply State.writeMailbox_kept | with_reducible refine Kept.foldl ?_ (fun _ _ _ => ?_))) | skip)
    | lift_lets
    | with_reducible apply State.portWrite_kept

-- State.writeOut
theorem State.writeOut_kept {s₀ s : State} (p : Nat) (hK : Kept s₀ s) :
    Kept s₀ (State.writeOut s p) := by
  unfold State.writeOut
  repeat' first
    | with_reducible assumption
    | (intro x; first | (have hx : Kept s₀ x := (by dsimp only [x]; repeat' first | with_reducible assumption | with_reducible apply State.writeMailbox_kept | with_reducible apply State.portWrite_kept | with_reducible refine Kept.foldl ?_ (fun _ _ _ => ?_) | (simp only [Kept.mk_iff]; refine KeptMk.upd ?_ rfl rfl rfl rfl rfl rfl rfl rfl))) | skip)
    | lift_lets
    | with_reducible apply State.setProg_kept
    | split

-- State.allocate
theorem State.allocate_kept {s₀ s : State} (p : Nat) (line : Nat) (n : Nat) (hK : Kept s₀ s) :
    Kept s₀ (State.allocate s p line n) := by
  unfold State.allocate
  repeat' first
    | with_reducible assumption
    | intro x
    | lift_lets
    | with_reducible apply State.setSlotEntry_kept
    | with_reducible refine Kept.foldl ?_ (fun _ _ _ => ?_)
    | with_reducible refine Kept.ite ?_ ?_
    | split

-- State.handOver
theorem State.handOver_kept {s₀ s : State} (p : Nat) (set : List Nat) (lines : List (Nat × List Byte)) (full : Bool) (hK : Kept s₀ s) :
    Kept s₀ (State.handOver s p set lines full) := by
  unfold State.handOver
  repeat' first
    | with_reducible assumption
    | (intro x; first | (have hx : Kept s₀ x := (by dsimp only [x]; repeat' first | with_reducible assumption | with_reducible apply State.bump_kept | with_reducible apply State.allocate_kept | with_reducible apply State.submit_kept)) | skip)
    | lift_lets
    | with_reducible apply State.setPs_kept
    | with_reducible refine Kept.ite ?_ ?_

-- State.release
theorem State.release_kept {s₀ s : State} (p : Nat) (hK : Kept s₀ s) :
    Kept s₀ (State.release s p) := by
  unfold State.release
  repeat' first
    | with_reducible assumption
    | with_reducible apply State.setCle_kept
    | with_reducible refine Kept.ite ?_ ?_

-- State.haltProgram
theorem State.haltProgram_kept {s₀ s : State} (p : Nat) (cause : Nat) (hK : Kept s₀ s) :
    Kept s₀ (State.haltProgram s p cause) := by
  unfold State.haltProgram
  repeat' first
    | with_reducible assumption
    | (intro x; first | (have hx : Kept s₀ x := (by dsimp only [x]; repeat' first | with_reducible assumption | with_reducible apply State.writeOut_kept | with_reducible apply State.release_kept | with_reducible apply State.writeSafe_kept | with_reducible apply State.setReg_kept | with_reducible refine Kept.ite ?_ ?_)) | skip)
    | lift_lets
    | with_reducible apply State.setProg_kept

-- State.stopProgram
theorem State.stopProgram_kept {s₀ s : State} (p : Nat) (cause : Nat) (bit : Nat) (hK : Kept s₀ s) :
    Kept s₀ (State.stopProgram s p cause bit) := by
  unfold State.stopProgram
  repeat' first
    | with_reducible assumption
    | with_reducible apply State.haltProgram_kept
    | with_reducible apply State.raise_kept

end Sys2Proof.Laws
end

