-- ==== Sys2Proof/Laws/KeptBenmi.lean ====
section
/-!
SUPPORT. `Kept` for the operations of Machine/Benmi.lean.
-/
namespace Sys2Proof.Laws
open Sys2Proof Sys2Proof.Machine Sys2Proof.Safety

-- State.judgeEngines
theorem State.judgeEngines_kept {s₀ s : State} (l : List EngineOut) (hK : Kept s₀ s) :
    Kept s₀ (State.judgeEngines s l).2 := by
  show KeptSnd s₀ _
  unfold State.judgeEngines
  repeat' first
    | with_reducible assumption
    | intro x
    | lift_lets
    | with_reducible refine KeptSnd.ite ?_ ?_
    | simp only [KeptSnd.mk_iff]
    | with_reducible apply State.nameEngine_kept
    | with_reducible apply State.secondOddEngine_kept
    | with_reducible apply State.latch_kept
    | with_reducible apply State.lockoutCause_kept
    | with_reducible apply State.setCle_kept
    | with_reducible apply State.engineMismatch_kept
    | with_reducible refine Kept.foldl ?_ (fun _ _ _ => ?_)
    | split

-- State.bookCycles
theorem State.bookCycles_kept {s₀ s : State} (p : Nat) (n : Nat) (op : Option Nat) (hK : Kept s₀ s) :
    Kept s₀ (State.bookCycles s p n op) := by
  unfold State.bookCycles
  repeat' first
    | with_reducible assumption
    | (intro x; first | (have hx : Kept s₀ x := (by dsimp only [x]; repeat' first | with_reducible assumption | with_reducible apply State.setReg64_kept | with_reducible apply State.bump_kept | with_reducible refine Kept.foldl ?_ (fun _ _ _ => ?_) | split)) | skip)
    | lift_lets
    | with_reducible apply State.setProg_kept

-- State.putRegs
theorem State.putRegs_kept {s₀ s : State} (l : List EngineOut) (hK : Kept s₀ s) :
    Kept s₀ (State.putRegs s l) := by
  unfold State.putRegs
  repeat' first
    | with_reducible assumption
    | with_reducible apply State.setCle_kept

-- State.applyEff
theorem State.applyEff_kept {s₀ s : State} (p : Nat) (codeWords : Nat) (op : Nat) (l : List EngineOut) (eff : Eff) (hK : Kept s₀ s) :
    Kept s₀ (State.applyEff s p codeWords op l eff) := by
  unfold State.applyEff
  repeat' first
    | with_reducible assumption
    | (intro x; first | (have hx : Kept s₀ x := (by dsimp only [x]; repeat' first | with_reducible assumption | with_reducible apply State.votedData_kept | with_reducible apply State.putRegs_kept | with_reducible apply State.bookCycles_kept | with_reducible refine Kept.foldl ?_ (fun _ _ _ => ?_))) | skip)
    | lift_lets
    | with_reducible apply State.stopProgram_kept
    | with_reducible apply State.setProg_kept
    | with_reducible apply State.setCle_kept
    | with_reducible refine Kept.ite ?_ ?_
    | split

-- State.runInsn
theorem State.runInsn_kept {s₀ s : State} (op : Nat) (sp : Nat) (ad : Nat) (second : Option Word) (sem : Ctx → Eff) (hK : Kept s₀ s) :
    Kept s₀ (State.runInsn s op sp ad second sem) := by
  unfold State.runInsn
  repeat' first
    | with_reducible assumption
    | (intro x; first | (have hx : Kept s₀ x := (by dsimp only [x]; repeat' first | with_reducible assumption | with_reducible apply State.ptApplied_kept | with_reducible refine Kept.ite ?_ ?_)) | skip)
    | lift_lets
    | with_reducible apply State.stopProgram_kept
    | with_reducible apply State.judgeEngines_kept
    | with_reducible apply State.applyEff_kept
    | with_reducible apply State.putRegs_kept
    | with_reducible refine Kept.ite ?_ ?_
    | split
    | refine Kept.snd ‹_ = (_, _)› ?_

-- State.doBenmiEnd
theorem State.doBenmiEnd_kept {s₀ s : State} (sp : Nat) (ad : Nat) (hK : Kept s₀ s) :
    Kept s₀ (State.doBenmiEnd s sp ad) := by
  unfold State.doBenmiEnd
  repeat' first
    | with_reducible assumption
    | intro x
    | lift_lets
    | with_reducible apply State.stopProgram_kept
    | with_reducible apply State.runInsn_kept
    | with_reducible refine Kept.ite ?_ ?_
    | split

end Sys2Proof.Laws
end

