-- ==== Sys2Proof/Laws/KeptNet.lean ====
section
/-!
SUPPORT. `Kept` for the operations of Machine/Net.lean.
-/
namespace Sys2Proof.Laws
open Sys2Proof Sys2Proof.Machine Sys2Proof.Safety

-- State.setNet
theorem State.setNet_kept {s₀ s : State} (n : Net) (hK : Kept s₀ s) :
    Kept s₀ (State.setNet s n) := by
  unfold State.setNet
  repeat' first
    | with_reducible assumption
    | (simp only [Kept.mk_iff]; refine KeptMk.upd ?_ rfl rfl rfl rfl rfl rfl rfl rfl)

-- State.written
theorem State.written_kept {s₀ s : State} (m : Master) (p : Nat) (off : Nat) (act : State → State) (hact : ∀ t, Kept s₀ t → Kept s₀ (act t)) (hK : Kept s₀ s) :
    Kept s₀ (State.written s m p off act) := by
  unfold State.written
  repeat' first
    | with_reducible assumption
    | with_reducible apply State.violation_kept
    | with_reducible apply State.answer_kept
    | with_reducible apply hact
    | with_reducible refine Kept.ite ?_ ?_

-- State.storeReg
theorem State.storeReg_kept {s₀ s : State} (p : Nat) (off : Nat) (v : Word) (hK : Kept s₀ s) :
    Kept s₀ (State.storeReg s p off v) := by
  unfold State.storeReg
  repeat' first
    | with_reducible assumption
    | with_reducible apply State.setReg_kept
    | split

-- State.setSwPort
theorem State.setSwPort_kept {s₀ s : State} (p : Nat) (v : PortState) (hK : Kept s₀ s) :
    Kept s₀ (State.setSwPort s p v) := by
  unfold State.setSwPort
  repeat' first
    | with_reducible assumption
    | with_reducible apply State.setNet_kept

-- State.dmaRead
theorem State.dmaRead_kept {s₀ s : State} (a : Nat) (n : Nat) (hK : Kept s₀ s) :
    Kept s₀ (State.dmaRead s a n).2 := by
  show KeptSnd s₀ _
  unfold State.dmaRead
  repeat' first
    | with_reducible assumption
    | with_reducible refine KeptSnd.ite ?_ ?_
    | simp only [KeptSnd.mk_iff]
    | with_reducible apply State.bw_kept
    | with_reducible apply State.violation_kept
    | split

-- State.dmaWrite
theorem State.dmaWrite_kept {s₀ s : State} (a : Nat) (bs : List Byte) (hK : Kept s₀ s) :
    Kept s₀ (State.dmaWrite s a bs).2 := by
  show KeptSnd s₀ _
  unfold State.dmaWrite
  repeat' first
    | with_reducible assumption
    | with_reducible refine KeptSnd.ite ?_ ?_
    | simp only [KeptSnd.mk_iff]
    | with_reducible apply State.bw_kept
    | with_reducible apply State.sramWrite_kept
    | with_reducible apply State.violation_kept

-- State.setRing
theorem State.setRing_kept {s₀ s : State} (q : Nat) (r : RingState) (hK : Kept s₀ s) :
    Kept s₀ (State.setRing s q r) := by
  unfold State.setRing
  repeat' first
    | with_reducible assumption
    | with_reducible apply State.setNet_kept

-- State.queueAccessError
theorem State.queueAccessError_kept {s₀ s : State} (q : Nat) (hK : Kept s₀ s) :
    Kept s₀ (State.queueAccessError s q) := by
  unfold State.queueAccessError
  repeat' first
    | with_reducible assumption
    | with_reducible apply State.raise_kept
    | with_reducible apply State.bump_kept

-- State.moved
theorem State.moved_kept {s₀ s : State} (q : Nat) (n : Nat) (hK : Kept s₀ s) :
    Kept s₀ (State.moved s q n) := by
  unfold State.moved
  repeat' first
    | with_reducible assumption
    | with_reducible apply State.bump_kept
    | with_reducible apply State.bw_kept

-- State.fetchOne
theorem State.fetchOne_tail {s₀ : State} (q n : Nat) (r : Option (List Byte) × State) (hK : Kept s₀ r.2) :
    KeptSnd s₀ (match r.1 with
      | none => (none, r.2.queueAccessError q)
      | some l =>
        let d : ActiveDesc := ⟨n, ofLeBytes (l.take 8) % 2 ^ 40, ofLeBytes ((l.drop 8).take 2), none⟩
        let s1 := (r.2.bump (qPage q) 4 1).moved q 32
        (some d, s1.setRing q { s1.ring q with active := (s1.ring q).active ++ [d] })) := by
  split
  · exact KeptSnd.mk_iff.mpr (State.queueAccessError_kept q hK)
  · exact KeptSnd.mk_iff.mpr (State.setRing_kept _ _ (State.moved_kept _ _ (State.bump_kept _ _ _ hK)))

theorem State.fetchOne_kept {s₀ s : State} (q : Nat) (hK : Kept s₀ s) : Kept s₀ (State.fetchOne s q).2 := by
  show KeptSnd s₀ _
  unfold State.fetchOne
  exact KeptSnd.ite (KeptSnd.mk_iff.mpr hK) (State.fetchOne_tail q _ _ (State.dmaRead_kept _ _ hK))

-- State.rxDiscard
theorem State.rxDiscard_kept {s₀ s : State} (q : Nat) (hK : Kept s₀ s) :
    Kept s₀ (State.rxDiscard s q) := by
  unfold State.rxDiscard
  repeat' first
    | with_reducible assumption
    | with_reducible apply State.satReg_kept
    | with_reducible apply State.bump_kept

-- State.rxDeliver
theorem State.rxDeliver_kept {s₀ s : State} (q : Nat) (data : List Byte) (lt : DWord) (code : Nat) (flags : Nat) (ingress : Nat) (info : Word) (hK : Kept s₀ s) :
    Kept s₀ (State.rxDeliver s q data lt code flags ingress info) := by
  unfold State.rxDeliver
  repeat' first
    | with_reducible assumption
    | (intro x; first | (have hx : Kept s₀ x := (by dsimp only [x]; repeat' first | with_reducible assumption | with_reducible apply State.fetchOne_kept | with_reducible refine Kept.ite ?_ ?_)) | skip)
    | lift_lets
    | with_reducible apply State.rxDiscard_kept
    | with_reducible apply State.setRing_kept
    | with_reducible refine Kept.ite ?_ ?_
    | split

-- State.ringIrq
theorem State.ringIrq_kept {s₀ s : State} (irq : Word) (hK : Kept s₀ s) :
    Kept s₀ (State.ringIrq s irq) := by
  unfold State.ringIrq
  repeat' first
    | with_reducible assumption
    | with_reducible apply State.messageTo_kept
    | with_reducible refine Kept.ite ?_ ?_

-- State.queueIrq
theorem State.queueIrq_kept {s₀ s : State} (q : Nat) (hK : Kept s₀ s) :
    Kept s₀ (State.queueIrq s q) := by
  unfold State.queueIrq
  repeat' first
    | with_reducible assumption
    | with_reducible apply State.setRing_kept
    | with_reducible apply State.ringIrq_kept
    | with_reducible apply State.bump_kept

-- State.countWriteBack
theorem State.countWriteBack_kept {s₀ s : State} (q : Nat) (hK : Kept s₀ s) :
    Kept s₀ (State.countWriteBack s q) := by
  unfold State.countWriteBack
  repeat' first
    | with_reducible assumption
    | (intro x; first | (have hx : Kept s₀ x := (by dsimp only [x]; repeat' first | with_reducible assumption | with_reducible apply State.setRing_kept)) | skip)
    | lift_lets
    | with_reducible apply State.queueIrq_kept
    | with_reducible refine Kept.ite ?_ ?_

-- State.writeDescriptor
theorem State.writeDescriptor_tail {s₀ : State} (a : Nat) (l m : List Byte) (w : Bool × State) (hK : Kept s₀ w.2) :
    KeptSnd s₀ (if (!w.1) = true then w else
      let w1 := w.2.dmaWrite a l
      if (!w1.1) = true then w1 else w1.2.dmaWrite (a + 16) m) :=
  KeptSnd.ite (KeptSnd.of hK) (KeptSnd.ite (KeptSnd.of (State.dmaWrite_kept _ _ hK))
    (KeptSnd.of (State.dmaWrite_kept _ _ (State.dmaWrite_kept _ _ hK))))

theorem State.writeDescriptor_kept {s₀ s : State} (q : Nat) (d : ActiveDesc) (o : FinalStatus) (hK : Kept s₀ s) :
    Kept s₀ (State.writeDescriptor s q d o).2 := by
  show KeptSnd s₀ _
  unfold State.writeDescriptor
  exact State.writeDescriptor_tail _ _ _ _ (State.dmaWrite_kept _ _ hK)

-- State.doWriteBack
theorem State.doWriteBack_kept {s₀ s : State} (q : Nat) (hK : Kept s₀ s) :
    Kept s₀ (State.doWriteBack s q) := by
  unfold State.doWriteBack
  repeat' first
    | with_reducible assumption
    | (intro x; first | (have hx : Kept s₀ x := (by dsimp only [x]; repeat' first | with_reducible assumption | with_reducible apply State.queueAccessError_kept | with_reducible apply State.setRing_kept | (simp only [Kept.mk_iff]; refine KeptMk.upd ?_ rfl rfl rfl rfl rfl rfl rfl rfl))) | (have hx : Kept s₀ x.2 := (show KeptSnd s₀ x from (by dsimp only [x]; repeat' first | with_reducible assumption | (refine KeptSnd.of ?_; first | with_reducible assumption | with_reducible apply State.writeDescriptor_kept | with_reducible apply State.queueAccessError_kept | with_reducible apply State.setRing_kept | with_reducible apply State.rxDiscard_kept | with_reducible apply State.bump_kept | with_reducible apply State.moved_kept | with_reducible apply State.countWriteBack_kept | with_reducible refine Kept.foldlFst ?_ (fun _ _ _ => ?_) | with_reducible refine Kept.foldlSnd ?_ (fun _ _ _ => ?_))))) | skip)
    | lift_lets
    | with_reducible apply State.setRing_kept
    | with_reducible apply State.rxDiscard_kept
    | with_reducible apply State.bump_kept
    | with_reducible apply State.moved_kept
    | with_reducible apply State.countWriteBack_kept
    | with_reducible refine Kept.ite ?_ ?_
    | split

-- State.txOutcome
theorem State.txOutcome_kept {s₀ s : State} (src : FrameSource) (left : Nat) (lost : Nat) (len : Nat) (lt : Option DWord) (hK : Kept s₀ s) :
    Kept s₀ (State.txOutcome s src left lost len lt) := by
  unfold State.txOutcome
  repeat' first
    | with_reducible assumption
    | (intro x; first | (have hx : Kept s₀ x.2 := (show KeptSnd s₀ x from (by dsimp only [x]; repeat' first | with_reducible assumption | simp only [KeptSnd.mk_iff] | (refine KeptSnd.of ?_; first | with_reducible assumption | with_reducible apply State.drawDword_kept | with_reducible apply State.setRing_kept | with_reducible refine Kept.foldlFst ?_ (fun _ _ _ => ?_) | with_reducible refine Kept.foldlSnd ?_ (fun _ _ _ => ?_)) | split))) | skip)
    | lift_lets
    | with_reducible apply State.setRing_kept
    | split

-- State.finish
theorem State.finish_kept {s₀ s : State} (h : Nat) (hK : Kept s₀ s) :
    Kept s₀ (State.finish s h) := by
  unfold State.finish
  repeat' first
    | with_reducible assumption
    | with_reducible apply State.setNet_kept
    | with_reducible apply State.txOutcome_kept
    | with_reducible refine Kept.ite ?_ ?_
    | split

-- State.putFrame
theorem State.putFrame_kept {s₀ s : State} (f : StoredFrame) (hK : Kept s₀ s) :
    Kept s₀ (State.putFrame s f) := by
  unfold State.putFrame
  repeat' first
    | with_reducible assumption
    | with_reducible apply State.setNet_kept

-- State.discardCopies
theorem State.discardCopies_kept {s₀ s : State} (code : Nat) (p : StoredFrame → EgressCopy → Bool) (hK : Kept s₀ s) :
    Kept s₀ (State.discardCopies s code p) := by
  unfold State.discardCopies
  repeat' first
    | with_reducible assumption
    | intro x
    | lift_lets
    | with_reducible apply State.putFrame_kept
    | with_reducible apply State.finish_kept
    | with_reducible refine Kept.foldl ?_ (fun _ _ _ => ?_)

-- State.setCredit
theorem State.setCredit_kept {s₀ s : State} (p : Nat) (n : Nat) (v : Credit) (hK : Kept s₀ s) :
    Kept s₀ (State.setCredit s p n v) := by
  unfold State.setCredit
  repeat' first
    | with_reducible assumption
    | with_reducible apply State.setNet_kept

-- State.settleOne
theorem State.settleOne_kept {s₀ s : State} (p : Nat) (n : Nat) (hK : Kept s₀ s) :
    Kept s₀ (State.settleOne s p n) := by
  unfold State.settleOne
  repeat' first
    | with_reducible assumption
    | intro x
    | lift_lets
    | with_reducible apply State.setCredit_kept
    | with_reducible refine Kept.ite ?_ ?_

-- State.settle
theorem State.settle_kept {s₀ s : State} (p : Nat) (hK : Kept s₀ s) :
    Kept s₀ (State.settle s p) := by
  unfold State.settle
  repeat' first
    | with_reducible assumption
    | with_reducible apply State.settleOne_kept
    | with_reducible refine Kept.foldl ?_ (fun _ _ _ => ?_)
    | with_reducible refine Kept.ite ?_ ?_

-- State.markGated
theorem State.markGated_kept {s₀ s : State} (p : Nat) (hK : Kept s₀ s) :
    Kept s₀ (State.markGated s p) := by
  unfold State.markGated
  repeat' first
    | with_reducible assumption
    | with_reducible apply State.putFrame_kept
    | with_reducible apply State.bump_kept
    | with_reducible refine Kept.foldl ?_ (fun _ _ _ => ?_)
    | with_reducible refine Kept.ite ?_ ?_
    | split

-- State.markPerturbed
theorem State.markPerturbed_kept {s₀ s : State} (p : Nat) (hK : Kept s₀ s) :
    Kept s₀ (State.markPerturbed s p) := by
  unfold State.markPerturbed
  repeat' first
    | with_reducible assumption
    | with_reducible apply State.ptApplied_kept
    | with_reducible refine Kept.ite ?_ ?_

-- State.countSent
theorem State.countSent_kept {s₀ s : State} (p : Nat) (c : Nat) (n : Nat) (hK : Kept s₀ s) :
    Kept s₀ (State.countSent s p c n) := by
  unfold State.countSent
  repeat' first
    | with_reducible assumption
    | (intro x; first | (have hx : Kept s₀ x := (by dsimp only [x]; repeat' first | with_reducible assumption | with_reducible apply State.bump_kept | with_reducible apply State.bw_kept)) | skip)
    | lift_lets
    | with_reducible apply State.setCredit_kept
    | split

-- State.sendCopy
theorem State.sendCopy_kept {s₀ s : State} (f : StoredFrame) (k : EgressCopy) (hK : Kept s₀ s) :
    Kept s₀ (State.sendCopy s f k) := by
  unfold State.sendCopy
  repeat' first
    | with_reducible assumption
    | (intro x; first | (have hx : Kept s₀ x := (by dsimp only [x]; repeat' first | with_reducible assumption | with_reducible apply State.countSent_kept | with_reducible apply State.setSwPort_kept)) | skip)
    | lift_lets
    | with_reducible apply State.putFrame_kept
    | with_reducible apply State.finish_kept
    | with_reducible apply State.settle_kept

-- State.admitted
theorem State.admitted_kept {s₀ s : State} (f : Frame) (src : FrameSource) (ingress : Nat) (lan : Nat) (cls : Nat) (host : Option (Nat × Nat)) (copies : List EgressCopy) (hK : Kept s₀ s) :
    Kept s₀ (State.admitted s f src ingress lan cls host copies) := by
  unfold State.admitted
  repeat' first
    | with_reducible assumption
    | (intro x; first | (have hx : Kept s₀ x := (by dsimp only [x]; repeat' first | with_reducible assumption | with_reducible apply State.bump_kept | with_reducible apply State.spendInject_kept | with_reducible apply State.settle_kept | with_reducible refine Kept.foldl ?_ (fun _ _ _ => ?_) | with_reducible refine Kept.ite ?_ ?_)) | skip)
    | lift_lets
    | with_reducible apply State.txOutcome_kept
    | with_reducible apply State.bump_kept
    | with_reducible apply State.spendInject_kept
    | with_reducible apply State.raise_kept
    | with_reducible apply State.setNet_kept
    | with_reducible refine Kept.ite ?_ ?_
    | split

end Sys2Proof.Laws
end

