-- ==== Sys2Proof/Laws/KeptTrdp.lean ====
section
/-!
SUPPORT. `Kept` for the operations of Machine/Trdp.lean.
-/
namespace Sys2Proof.Laws
open Sys2Proof Sys2Proof.Machine Sys2Proof.Safety

-- State.setTrdp
theorem State.setTrdp_kept {s₀ s : State} (e : Nat) (v : TrdpEntry) (hK : Kept s₀ s) :
    Kept s₀ (State.setTrdp s e v) := by
  unfold State.setTrdp
  repeat' first
    | with_reducible assumption
    | with_reducible apply State.setNet_kept

-- State.setChannel
theorem State.setChannel_kept {s₀ s : State} (c : Nat) (v : SdtChannel) (hK : Kept s₀ s) :
    Kept s₀ (State.setChannel s c v) := by
  unfold State.setChannel
  repeat' first
    | with_reducible assumption
    | with_reducible apply State.setNet_kept

-- State.sdtError
theorem State.sdtError_kept {s₀ s : State} (c : Nat) (hK : Kept s₀ s) :
    Kept s₀ (State.sdtError s c) := by
  unfold State.sdtError
  repeat' first
    | with_reducible assumption
    | intro x
    | lift_lets
    | with_reducible apply State.setChannel_kept
    | with_reducible apply State.raise_kept
    | with_reducible refine Kept.ite ?_ ?_

-- State.sdtSink
theorem State.sdtSink_kept {s₀ s : State} (c : Nat) (data : List Byte) (hK : Kept s₀ s) :
    Kept s₀ (State.sdtSink s c data).2 := by
  show KeptSnd s₀ _
  unfold State.sdtSink
  repeat' first
    | with_reducible assumption
    | intro x
    | lift_lets
    | with_reducible refine KeptSnd.ite ?_ ?_
    | simp only [KeptSnd.mk_iff]
    | with_reducible apply State.bump_kept
    | with_reducible apply State.sdtError_kept
    | with_reducible apply State.setChannel_kept
    | with_reducible refine Kept.ite ?_ ?_
    | split

-- State.boxWrite
theorem State.boxWrite_kept {s₀ s : State} (off : Nat) (payload : List Byte) (lt : DWord) (hK : Kept s₀ s) :
    Kept s₀ (State.boxWrite s off payload lt) := by
  unfold State.boxWrite
  repeat' first
    | with_reducible assumption
    | (intro x; first | (have hx : Kept s₀ x.2 := (show KeptSnd s₀ x from (by dsimp only [x]; repeat' first | with_reducible assumption | (refine KeptSnd.of ?_; first | with_reducible assumption | with_reducible apply State.dmaRead_kept | with_reducible apply State.dmaWrite_kept | with_reducible refine Kept.foldlFst ?_ (fun _ _ _ => ?_) | with_reducible refine Kept.foldlSnd ?_ (fun _ _ _ => ?_))))) | skip)
    | lift_lets
    | with_reducible apply State.dmaWrite_kept
    | split

-- State.entryBoxWrite
theorem State.entryBoxWrite_kept {s₀ s : State} (e : Nat) (payload : List Byte) (lt : DWord) (hK : Kept s₀ s) :
    Kept s₀ (State.entryBoxWrite s e payload lt) := by
  unfold State.entryBoxWrite
  repeat' first
    | with_reducible assumption
    | (intro x; first | (have hx : Kept s₀ x := (by dsimp only [x]; repeat' first | with_reducible assumption | with_reducible apply State.boxWrite_kept)) | skip)
    | lift_lets
    | with_reducible apply State.setTrdp_kept

-- State.mailDeliver
theorem State.mailDeliver_kept {s₀ s : State} (e : Nat) (payload : List Byte) (hK : Kept s₀ s) :
    Kept s₀ (State.mailDeliver s e payload) := by
  unfold State.mailDeliver
  repeat' first
    | with_reducible assumption
    | intro x
    | lift_lets
    | with_reducible apply State.setTrdp_kept
    | with_reducible apply State.bump_kept
    | with_reducible apply State.entryBoxWrite_kept
    | with_reducible refine Kept.ite ?_ ?_
    | split

-- State.entryDeliver
theorem State.entryDeliver_kept {s₀ s : State} (e : Nat) (f : Frame) (t : Telegram) (lan : Nat) (flags : Nat) (ingress : Nat) (lt : DWord) (hK : Kept s₀ s) :
    Kept s₀ (State.entryDeliver s e f t lan flags ingress lt) := by
  unfold State.entryDeliver
  repeat' first
    | with_reducible assumption
    | (intro x; first | (have hx : Kept s₀ x := (by dsimp only [x]; repeat' first | with_reducible assumption | with_reducible apply State.setTrdp_kept | with_reducible apply State.bump_kept | with_reducible apply State.mailDeliver_kept | with_reducible refine Kept.ite ?_ ?_)) | skip)
    | lift_lets
    | with_reducible apply State.rxDeliver_kept

-- State.entryTake
theorem State.entryTake_kept {s₀ s : State} (e : Nat) (f : Frame) (lan : Nat) (flags : Nat) (ingress : Nat) (lt : DWord) (hK : Kept s₀ s) :
    Kept s₀ (State.entryTake s e f lan flags ingress lt) := by
  unfold State.entryTake
  repeat' first
    | with_reducible assumption
    | (intro x; first | (have hx : Kept s₀ x.2 := (show KeptSnd s₀ x from (by dsimp only [x]; repeat' first | with_reducible assumption | (refine KeptSnd.of ?_; first | with_reducible assumption | with_reducible apply State.bump_kept | with_reducible apply State.sdtSink_kept | with_reducible apply State.entryDeliver_kept | with_reducible refine Kept.foldlFst ?_ (fun _ _ _ => ?_) | with_reducible refine Kept.foldlSnd ?_ (fun _ _ _ => ?_))))) | skip)
    | lift_lets
    | with_reducible apply State.bump_kept
    | with_reducible apply State.entryDeliver_kept
    | with_reducible refine Kept.ite ?_ ?_
    | split

-- State.sendHost
theorem State.sendHost_kept {s₀ s : State} (f : StoredFrame) (k : EgressCopy) (hK : Kept s₀ s) :
    Kept s₀ (State.sendHost s f k) := by
  unfold State.sendHost
  repeat' first
    | with_reducible assumption
    | (intro x; first | (have hx : Kept s₀ x := (by dsimp only [x]; repeat' first | with_reducible assumption | with_reducible apply State.sendCopy_kept)) | skip)
    | lift_lets
    | with_reducible apply State.entryTake_kept
    | with_reducible apply State.rxDeliver_kept
    | with_reducible refine Kept.ite ?_ ?_
    | split

-- State.toHost
theorem State.toHost_kept {s₀ s : State} (h : Nat) (hK : Kept s₀ s) :
    Kept s₀ (State.toHost s h) := by
  unfold State.toHost
  repeat' first
    | with_reducible assumption
    | with_reducible apply State.ptApplied_kept
    | with_reducible apply State.sendHost_kept
    | with_reducible refine Kept.ite ?_ ?_
    | split

-- State.setTwins
theorem State.setTwins_kept {s₀ s : State} (t : Tbl TwinSlot) (hK : Kept s₀ s) :
    Kept s₀ (State.setTwins s t) := by
  unfold State.setTwins
  repeat' first
    | with_reducible assumption
    | with_reducible apply State.setNet_kept

-- State.missedLan
theorem State.missedLan_kept {s₀ s : State} (lan : Nat) (hK : Kept s₀ s) :
    Kept s₀ (State.missedLan s lan) := by
  unfold State.missedLan
  repeat' first
    | with_reducible assumption
    | (intro x; first | (have hx : Kept s₀ x := (by dsimp only [x]; repeat' first | with_reducible assumption | with_reducible apply State.setNet_kept | with_reducible apply State.recAdd_kept)) | skip)
    | lift_lets
    | with_reducible apply State.setNet_kept
    | with_reducible apply State.raise_kept
    | with_reducible refine Kept.ite ?_ ?_

-- State.twinDeliver
theorem State.twinDeliver_kept {s₀ s : State} (h : Nat) (lan : Nat) (flags : Nat) (hK : Kept s₀ s) :
    Kept s₀ (State.twinDeliver s h lan flags) := by
  unfold State.twinDeliver
  repeat' first
    | with_reducible assumption
    | with_reducible apply State.putFrame_kept
    | with_reducible apply State.toHost_kept
    | split

-- State.dropHost
theorem State.dropHost_kept {s₀ s : State} (h : Nat) (hK : Kept s₀ s) :
    Kept s₀ (State.dropHost s h) := by
  unfold State.dropHost
  repeat' first
    | with_reducible assumption
    | with_reducible apply State.putFrame_kept
    | with_reducible apply State.finish_kept
    | split

-- State.twinExpire
theorem State.twinExpire_kept {s₀ s : State} (i : Nat) (t : TwinSlot) (hK : Kept s₀ s) :
    Kept s₀ (State.twinExpire s i t) := by
  unfold State.twinExpire
  repeat' first
    | with_reducible assumption
    | (intro x; first | (have hx : Kept s₀ x := (by dsimp only [x]; repeat' first | with_reducible assumption | with_reducible apply State.setTwins_kept | with_reducible apply State.missedLan_kept)) | skip)
    | lift_lets
    | with_reducible apply State.bump_kept
    | with_reducible apply State.twinDeliver_kept
    | split

-- State.twinCatchUp
theorem State.twinCatchUp_kept {s₀ s : State} (i : Nat) (t : TwinSlot) (hK : Kept s₀ s) :
    Kept s₀ (State.twinCatchUp s i t) := by
  unfold State.twinCatchUp
  repeat' first
    | with_reducible assumption
    | (intro x; first | (have hx : Kept s₀ x := (by dsimp only [x]; repeat' first | with_reducible assumption | with_reducible apply State.twinExpire_kept | with_reducible refine Kept.ite ?_ ?_)) | skip)
    | lift_lets
    | with_reducible apply State.setTwins_kept
    | with_reducible refine Kept.ite ?_ ?_

-- State.twinMatch
theorem State.twinMatch_kept {s₀ s : State} (i : Nat) (held : Nat) (arrived : Nat) (hK : Kept s₀ s) :
    Kept s₀ (State.twinMatch s i held arrived) := by
  unfold State.twinMatch
  repeat' first
    | with_reducible assumption
    | (intro x; first | (have hx : Kept s₀ x := (by dsimp only [x]; repeat' first | with_reducible assumption | with_reducible apply State.setTwins_kept | with_reducible apply State.dropHost_kept | with_reducible apply State.setNet_kept)) | skip)
    | lift_lets
    | with_reducible apply State.bump_kept
    | with_reducible apply State.twinDeliver_kept

-- State.twinMismatch
theorem State.twinMismatch_kept {s₀ s : State} (i : Nat) (held : Nat) (arrived : Nat) (hK : Kept s₀ s) :
    Kept s₀ (State.twinMismatch s i held arrived) := by
  unfold State.twinMismatch
  repeat' first
    | with_reducible assumption
    | (intro x; first | (have hx : Kept s₀ x := (by dsimp only [x]; repeat' first | with_reducible assumption | with_reducible apply State.setTwins_kept | with_reducible apply State.dropHost_kept)) | skip)
    | lift_lets
    | with_reducible apply State.satReg_kept
    | with_reducible apply State.raise_kept
    | with_reducible apply State.bump_kept

-- State.twinArrive
theorem State.twinArrive_kept {s₀ s : State} (h : Nat) (f : Frame) (dst : Nat × Nat) (lan : Nat) (seq : BitVec 16) (hK : Kept s₀ s) :
    Kept s₀ (State.twinArrive s h f dst lan seq) := by
  unfold State.twinArrive
  repeat' first
    | with_reducible assumption
    | (intro x; first | (have hx : Kept s₀ x := (by dsimp only [x]; repeat' first | with_reducible assumption | with_reducible apply State.twinCatchUp_kept | split)) | skip)
    | lift_lets
    | with_reducible apply State.dropHost_kept
    | with_reducible apply State.raise_kept
    | with_reducible apply State.bump_kept
    | with_reducible apply State.setTwins_kept
    | with_reducible apply State.twinMatch_kept
    | with_reducible apply State.twinMismatch_kept
    | with_reducible refine Kept.ite ?_ ?_
    | split

end Sys2Proof.Laws
end

