-- ==== Sys2Proof/Laws/KeptSwitch.lean ====
section
/-!
SUPPORT. `Kept` for the operations of Machine/Switch.lean.
-/
namespace Sys2Proof.Laws
open Sys2Proof Sys2Proof.Machine Sys2Proof.Safety

-- State.gptpReceive
theorem State.gptpReceive_kept {s₀ s : State} (port : Nat) (f : Frame) (hK : Kept s₀ s) :
    Kept s₀ (State.gptpReceive s port f) := by
  unfold State.gptpReceive
  repeat' first
    | with_reducible assumption
    | with_reducible apply State.bump_kept
    | with_reducible apply State.setReg_kept
    | with_reducible refine Kept.ite ?_ ?_

-- State.learnProxy
theorem State.learnProxy_kept {s₀ s : State} (port : Nat) (mac : Nat) (hK : Kept s₀ s) :
    Kept s₀ (State.learnProxy s port mac) := by
  unfold State.learnProxy
  repeat' first
    | with_reducible assumption
    | with_reducible apply State.setNet_kept
    | with_reducible apply State.raise_kept
    | with_reducible refine Kept.ite ?_ ?_
    | split

-- State.takePrpSeq
theorem State.takePrpSeq_kept {s₀ s : State} (o : PrpOrigin) (hK : Kept s₀ s) :
    Kept s₀ (State.takePrpSeq s o).2 := by
  show KeptSnd s₀ _
  unfold State.takePrpSeq
  repeat' first
    | with_reducible assumption
    | simp only [KeptSnd.mk_iff]
    | with_reducible apply State.setNet_kept
    | split

-- State.copiesFor
theorem State.copiesFor_kept {s₀ s : State} (ports : Nat) (cls : Nat) (o : PrpOrigin) (hK : Kept s₀ s) :
    Kept s₀ (State.copiesFor s ports cls o).2 := by
  show KeptSnd s₀ _
  unfold State.copiesFor
  repeat' first
    | with_reducible assumption
    | (intro x; first | (have hx : Kept s₀ x.2 := (show KeptSnd s₀ x from (by dsimp only [x]; repeat' first | with_reducible assumption | (refine KeptSnd.of ?_; first | with_reducible assumption | with_reducible apply State.takePrpSeq_kept | with_reducible apply State.bump_kept | with_reducible refine Kept.foldlFst ?_ (fun _ _ _ => ?_) | with_reducible refine Kept.foldlSnd ?_ (fun _ _ _ => ?_))))) | skip)
    | lift_lets
    | with_reducible refine KeptSnd.ite ?_ ?_
    | simp only [KeptSnd.mk_iff]
    | with_reducible apply State.bump_kept

-- State.duplicate
theorem State.duplicate_kept {s₀ s : State} (src : Nat) (seq : BitVec 16) (lan : Nat) (hK : Kept s₀ s) :
    Kept s₀ (State.duplicate s src seq lan).2 := by
  show KeptSnd s₀ _
  unfold State.duplicate
  repeat' first
    | with_reducible assumption
    | intro x
    | lift_lets
    | with_reducible refine KeptSnd.ite ?_ ?_
    | simp only [KeptSnd.mk_iff]
    | with_reducible apply State.setNet_kept
    | with_reducible apply State.raise_kept
    | with_reducible apply State.bump_kept
    | split

-- State.setMeter
theorem State.setMeter_kept {s₀ s : State} (i : Nat) (v : Meter) (hK : Kept s₀ s) :
    Kept s₀ (State.setMeter s i v) := by
  unfold State.setMeter
  repeat' first
    | with_reducible assumption
    | with_reducible apply State.setNet_kept

-- State.meterPass
theorem State.meterPass_kept {s₀ s : State} (i : Nat) (n : Nat) (hK : Kept s₀ s) :
    Kept s₀ (State.meterPass s i n).2 := by
  show KeptSnd s₀ _
  unfold State.meterPass
  repeat' first
    | with_reducible assumption
    | intro x
    | lift_lets
    | with_reducible refine KeptSnd.ite ?_ ?_
    | simp only [KeptSnd.mk_iff]
    | with_reducible apply State.setMeter_kept

-- State.recover
theorem State.recover_kept {s₀ s : State} (i : Nat) (f : Frame) (hK : Kept s₀ s) :
    Kept s₀ (State.recover s i f).2 := by
  show KeptSnd s₀ _
  unfold State.recover
  repeat' first
    | with_reducible assumption
    | lift_lets
    | simp only [KeptSnd.mk_iff]
    | with_reducible apply State.bump_kept
    | with_reducible apply State.setNet_kept
    | split

-- State.streamPass
theorem State.streamPass_kept {s₀ s : State} (f : Frame) (hK : Kept s₀ s) :
    Kept s₀ (State.streamPass s f).2 := by
  show KeptSnd s₀ _
  unfold State.streamPass
  repeat' first
    | with_reducible assumption
    | lift_lets
    | with_reducible refine KeptSnd.ite ?_ ?_
    | simp only [KeptSnd.mk_iff]
    | (refine KeptSnd.of ?_; first | with_reducible assumption | with_reducible apply State.bump_kept | with_reducible apply State.meterPass_kept | with_reducible apply State.recover_kept | with_reducible refine Kept.foldlFst ?_ (fun _ _ _ => ?_) | with_reducible refine Kept.foldlSnd ?_ (fun _ _ _ => ?_))
    | with_reducible apply State.bump_kept
    | split

-- State.learn
theorem State.learn_kept {s₀ s : State} (port : Nat) (f : Frame) (hK : Kept s₀ s) :
    Kept s₀ (State.learn s port f) := by
  unfold State.learn
  repeat' first
    | with_reducible assumption
    | intro x
    | lift_lets
    | with_reducible apply State.setNet_kept
    | with_reducible apply State.bump_kept
    | with_reducible refine Kept.ite ?_ ?_
    | split

-- State.lookup
theorem State.lookup_kept {s₀ s : State} (port : Nat) (f : Frame) (hK : Kept s₀ s) :
    Kept s₀ (State.lookup s port f).2 := by
  show KeptSnd s₀ _
  unfold State.lookup
  repeat' first
    | with_reducible assumption
    | intro x
    | lift_lets
    | with_reducible refine KeptSnd.ite ?_ ?_
    | simp only [KeptSnd.mk_iff]
    | with_reducible apply State.bump_kept
    | split

-- State.takeTrailer
theorem State.takeTrailer_kept {s₀ s : State} (port : Nat) (f : Frame) (hK : Kept s₀ s) :
    Kept s₀ (State.takeTrailer s port f).2.2 := by
  show KeptThird s₀ _
  unfold State.takeTrailer
  repeat' first
    | with_reducible assumption
    | with_reducible refine KeptThird.ite ?_ ?_
    | simp only [KeptThird.mk_iff]
    | with_reducible apply State.bump_kept
    | with_reducible refine Kept.ite ?_ ?_
    | split

-- State.hostPlan
theorem State.hostPlan_kept {s₀ s : State} (port : Nat) (ports : Nat) (f : Frame) (tr : Option (BitVec 16)) (hK : Kept s₀ s) :
    Kept s₀ (State.hostPlan s port ports f tr).2.2 := by
  show KeptThird s₀ _
  unfold State.hostPlan
  repeat' first
    | with_reducible assumption
    | with_reducible refine KeptThird.ite ?_ ?_
    | simp only [KeptThird.mk_iff]
    | with_reducible apply State.bump_kept
    | split

-- State.admitReceived
theorem State.admitReceived_tail {s₀ : State} (s : State) (port set : Nat) (f : Frame) (tr : Option (BitVec 16)) (o : PrpOrigin)
    (h : Option (Nat × Nat)) (twin : Bool) (d : Bool × State) (cls : Nat) (hK : Kept s₀ d.2) :
    Kept s₀ (if d.1 then d.2 else
      let c := d.2.copiesFor set cls o
      if c.1.isEmpty then c.2
      else
        let s1 := c.2.admitted f .port port (if tr.isSome then 1 + port else 0) cls h c.1
        let k := c.2.net.nextHandle
        if s1.net.nextHandle = k then s1
        else match h, tr, twin with
          | some dst, some q, true =>
            if s1.net.frames.any fun g => g.handle == k && g.copies.any (·.port == 6) then s1.twinArrive k f dst port q
            else s1
          | _, _, _ => s1.toHost k) := by
  have hc := State.copiesFor_kept set cls o hK
  generalize d.2.copiesFor set cls o = c at hc
  have h1 := State.admitted_kept f .port port (if tr.isSome then 1 + port else 0) cls h c.1 hc
  refine Kept.ite hK (Kept.ite hc (Kept.ite h1 ?_))
  split
  · exact Kept.ite (State.twinArrive_kept _ _ _ _ _ h1) h1
  · exact State.toHost_kept _ h1

theorem State.admitReceived_kept {s₀ s : State} (port ports : Nat) (f : Frame) (tr : Option (BitVec 16)) (o : PrpOrigin)
    (hK : Kept s₀ s) : Kept s₀ (State.admitReceived s port ports f tr o) := by
  unfold State.admitReceived
  have hh := State.hostPlan_kept port ports f tr hK
  generalize s.hostPlan port ports f tr = h at hh
  refine State.admitReceived_tail s port _ f tr o h.1 h.2.1 _ _ ?_
  split
  · exact State.duplicate_kept _ _ _ hh
  · exact hh

-- State.forward
theorem State.forward_kept {s₀ s : State} (port : Nat) (f0 : Frame) (tr : Option (BitVec 16)) (forced : Bool) (hK : Kept s₀ s) :
    Kept s₀ (State.forward s port f0 tr forced) := by
  unfold State.forward
  repeat' first
    | with_reducible assumption
    | (intro x; first | (have hx : Kept s₀ x := (by dsimp only [x]; repeat' first | with_reducible assumption | with_reducible apply State.learn_kept | with_reducible apply State.learnProxy_kept)) | (have hx : Kept s₀ x.2 := (show KeptSnd s₀ x from (by dsimp only [x]; repeat' first | with_reducible assumption | (refine KeptSnd.of ?_; first | with_reducible assumption | with_reducible apply State.bump_kept | with_reducible apply State.streamPass_kept | with_reducible apply State.admitReceived_kept | with_reducible apply State.learn_kept | with_reducible apply State.learnProxy_kept | with_reducible apply State.lookup_kept | with_reducible refine Kept.foldlFst ?_ (fun _ _ _ => ?_) | with_reducible refine Kept.foldlSnd ?_ (fun _ _ _ => ?_))))) | skip)
    | lift_lets
    | with_reducible apply State.bump_kept
    | with_reducible apply State.admitReceived_kept
    | with_reducible refine Kept.ite ?_ ?_

-- State.ptDrop
theorem State.ptDrop_kept {s₀ s : State} (port : Nat) (hK : Kept s₀ s) :
    Kept s₀ (State.ptDrop s port).2 := by
  show KeptSnd s₀ _
  unfold State.ptDrop
  repeat' first
    | with_reducible assumption
    | (intro x; first | (have hx : Kept s₀ x := (by dsimp only [x]; repeat' first | with_reducible assumption | (simp only [Kept.mk_iff]; refine KeptMk.upd ?_ rfl rfl rfl rfl rfl rfl rfl rfl))) | skip)
    | lift_lets
    | with_reducible refine KeptSnd.ite ?_ ?_
    | simp only [KeptSnd.mk_iff]
    | with_reducible apply State.ptApplied_kept
    | with_reducible refine Kept.ite ?_ ?_

-- State.receivePath
theorem State.receivePath_kept {s₀ s : State} (port : Nat) (f : Frame) (forced : Bool) (hK : Kept s₀ s) :
    Kept s₀ (State.receivePath s port f forced) := by
  unfold State.receivePath
  repeat' first
    | with_reducible assumption
    | (intro x; first | (have hx : Kept s₀ x := (by dsimp only [x]; repeat' first | with_reducible assumption | with_reducible apply State.bump_kept | with_reducible refine Kept.ite ?_ ?_)) | (have hx : Kept s₀ x.2.2 := (show KeptThird s₀ x from (by dsimp only [x]; repeat' first | with_reducible assumption | (refine KeptThird.of ?_; first | with_reducible assumption | with_reducible apply State.ptDrop_kept | with_reducible apply State.bump_kept | with_reducible apply State.gptpReceive_kept | with_reducible apply State.takeTrailer_kept | with_reducible apply State.forward_kept | with_reducible refine Kept.foldlFst ?_ (fun _ _ _ => ?_) | with_reducible refine Kept.foldlSnd ?_ (fun _ _ _ => ?_))))) | (have hx : Kept s₀ x.2 := (show KeptSnd s₀ x from (by dsimp only [x]; repeat' first | with_reducible assumption | (refine KeptSnd.of ?_; first | with_reducible assumption | with_reducible apply State.ptDrop_kept | with_reducible apply State.bump_kept | with_reducible apply State.gptpReceive_kept | with_reducible apply State.takeTrailer_kept | with_reducible apply State.forward_kept | with_reducible refine Kept.foldlFst ?_ (fun _ _ _ => ?_) | with_reducible refine Kept.foldlSnd ?_ (fun _ _ _ => ?_))))) | skip)
    | lift_lets
    | with_reducible apply State.bump_kept
    | with_reducible apply State.gptpReceive_kept
    | with_reducible apply State.forward_kept
    | with_reducible refine Kept.ite ?_ ?_

-- State.doFrameReceive
theorem State.doFrameReceive_kept {s₀ s : State} (port : Nat) (bs : List Byte) (fcsOk : Bool) (hK : Kept s₀ s) :
    Kept s₀ (State.doFrameReceive s port bs fcsOk) := by
  unfold State.doFrameReceive
  repeat' first
    | with_reducible assumption
    | (intro x; first | (have hx : Kept s₀ x := (by dsimp only [x]; repeat' first | with_reducible assumption | with_reducible apply State.bump_kept | with_reducible apply State.bw_kept)) | skip)
    | lift_lets
    | with_reducible apply State.bump_kept
    | with_reducible apply State.receivePath_kept
    | with_reducible refine Kept.ite ?_ ?_

-- State.enterHost
theorem State.enterHost_kept {s₀ s : State} (f0 : Frame) (src : FrameSource) (cls : Nat) (ports : Nat) (lines : Bool) (hK : Kept s₀ s) :
    Kept s₀ (State.enterHost s f0 src cls ports lines) := by
  unfold State.enterHost
  repeat' first
    | with_reducible assumption
    | (intro x; first | (have hx : Kept s₀ x := (by dsimp only [x]; repeat' first | with_reducible assumption | with_reducible apply State.bump_kept | with_reducible apply State.bw_kept)) | (have hx : Kept s₀ x.2 := (show KeptSnd s₀ x from (by dsimp only [x]; repeat' first | with_reducible assumption | with_reducible refine KeptSnd.ite ?_ ?_ | simp only [KeptSnd.mk_iff] | (refine KeptSnd.of ?_; first | with_reducible assumption | with_reducible apply State.txOutcome_kept | with_reducible apply State.bump_kept | with_reducible apply State.bw_kept | with_reducible apply State.lookup_kept | with_reducible apply State.copiesFor_kept | with_reducible apply State.admitted_kept | with_reducible refine Kept.foldlFst ?_ (fun _ _ _ => ?_) | with_reducible refine Kept.foldlSnd ?_ (fun _ _ _ => ?_))))) | skip)
    | lift_lets
    | with_reducible apply State.txOutcome_kept
    | with_reducible apply State.bump_kept
    | with_reducible apply State.admitted_kept
    | with_reducible refine Kept.ite ?_ ?_

-- State.doDescriptorFetch
theorem State.doDescriptorFetch_kept {s₀ s : State} (q : Nat) (hK : Kept s₀ s) :
    Kept s₀ (State.doDescriptorFetch s q) := by
  unfold State.doDescriptorFetch
  repeat' first
    | with_reducible assumption
    | (intro x; first | (have hx : Kept s₀ x.2 := (show KeptSnd s₀ x from (by dsimp only [x]; repeat' first | with_reducible assumption | (refine KeptSnd.of ?_; first | with_reducible assumption | with_reducible apply State.fetchOne_kept | with_reducible apply State.dmaRead_kept | with_reducible apply State.queueAccessError_kept | with_reducible apply State.txOutcome_kept | with_reducible apply State.moved_kept | with_reducible apply State.enterHost_kept | with_reducible refine Kept.foldlFst ?_ (fun _ _ _ => ?_) | with_reducible refine Kept.foldlSnd ?_ (fun _ _ _ => ?_))))) | skip)
    | lift_lets
    | with_reducible apply State.queueAccessError_kept
    | with_reducible apply State.txOutcome_kept
    | with_reducible apply State.moved_kept
    | with_reducible apply State.enterHost_kept
    | with_reducible refine Kept.ite ?_ ?_
    | split

-- State.doQueueIrqTimer
theorem State.doQueueIrqTimer_kept {s₀ s : State} (q : Nat) (hK : Kept s₀ s) :
    Kept s₀ (State.doQueueIrqTimer s q) := by
  unfold State.doQueueIrqTimer
  repeat' first
    | with_reducible assumption
    | with_reducible apply State.queueIrq_kept
    | with_reducible refine Kept.ite ?_ ?_

-- State.postQueue
theorem State.postQueue_kept {s₀ s : State} (q : Nat) (v : Word) (hK : Kept s₀ s) :
    Kept s₀ (State.postQueue s q v) := by
  unfold State.postQueue
  repeat' first
    | with_reducible assumption
    | with_reducible apply State.setRing_kept
    | with_reducible apply State.raise_kept
    | with_reducible refine Kept.ite ?_ ?_

-- State.offloadRead
theorem State.offloadRead_kept {s₀ s : State} (off : Nat) (n : Nat) (hK : Kept s₀ s) :
    Kept s₀ (State.offloadRead s off n).2 := by
  show KeptSnd s₀ _
  unfold State.offloadRead
  repeat' first
    | with_reducible assumption
    | (intro x; first | (have hx : Kept s₀ x.2 := (show KeptSnd s₀ x from (by dsimp only [x]; repeat' first | with_reducible assumption | (refine KeptSnd.of ?_; first | with_reducible assumption | with_reducible apply State.dmaRead_kept | with_reducible refine Kept.foldlFst ?_ (fun _ _ _ => ?_) | with_reducible refine Kept.foldlSnd ?_ (fun _ _ _ => ?_))))) | skip)
    | lift_lets
    | simp only [KeptSnd.mk_iff]

-- State.boxSource
theorem State.boxSource_kept {s₀ s : State} (off : Nat) (n : Nat) (hK : Kept s₀ s) :
    Kept s₀ (State.boxSource s off n).2.2 := by
  show KeptThird s₀ _
  unfold State.boxSource
  repeat' first
    | with_reducible assumption
    | (intro x; first | (have hx : Kept s₀ x.2 := (show KeptSnd s₀ x from (by dsimp only [x]; repeat' first | with_reducible assumption | (refine KeptSnd.of ?_; first | with_reducible assumption | with_reducible apply State.offloadRead_kept | with_reducible refine Kept.foldlFst ?_ (fun _ _ _ => ?_) | with_reducible refine Kept.foldlSnd ?_ (fun _ _ _ => ?_))))) | skip)
    | lift_lets
    | with_reducible refine KeptThird.ite ?_ ?_
    | simp only [KeptThird.mk_iff]

-- State.publishData
theorem State.publishData_kept {s₀ s : State} (e : Nat) (hK : Kept s₀ s) :
    Kept s₀ (State.publishData s e).2 := by
  show KeptSnd s₀ _
  unfold State.publishData
  repeat' first
    | with_reducible assumption
    | (intro x; first | (have hx : Kept s₀ x.2 := (show KeptSnd s₀ x from (by dsimp only [x]; repeat' first | with_reducible assumption | (refine KeptSnd.of ?_; first | with_reducible assumption | with_reducible apply State.offloadRead_kept | with_reducible apply State.boxSource_kept | with_reducible apply State.bump_kept | with_reducible apply State.setChannel_kept | with_reducible refine Kept.foldlFst ?_ (fun _ _ _ => ?_) | with_reducible refine Kept.foldlSnd ?_ (fun _ _ _ => ?_))))) | (have hx : Kept s₀ x.2.2 := (show KeptThird s₀ x from (by dsimp only [x]; repeat' first | with_reducible assumption | (refine KeptThird.of ?_; first | with_reducible assumption | with_reducible apply State.offloadRead_kept | with_reducible apply State.boxSource_kept | with_reducible apply State.bump_kept | with_reducible apply State.setChannel_kept | with_reducible refine Kept.foldlFst ?_ (fun _ _ _ => ?_) | with_reducible refine Kept.foldlSnd ?_ (fun _ _ _ => ?_))))) | skip)
    | lift_lets
    | with_reducible refine KeptSnd.ite ?_ ?_
    | simp only [KeptSnd.mk_iff]
    | with_reducible apply State.bump_kept
    | with_reducible apply State.setChannel_kept

-- State.supersede
theorem State.supersede_kept {s₀ s : State} (e : Nat) (hK : Kept s₀ s) :
    Kept s₀ (State.supersede s e) := by
  unfold State.supersede
  repeat' first
    | with_reducible assumption
    | with_reducible apply State.setNet_kept
    | with_reducible apply State.bump_kept
    | with_reducible refine Kept.ite ?_ ?_

-- State.inject
theorem State.inject_kept {s₀ s : State} (f : Frame) (seq : Option (BitVec 16)) (hK : Kept s₀ s) :
    Kept s₀ (State.inject s f seq) := by
  unfold State.inject
  repeat' first
    | with_reducible assumption
    | with_reducible apply State.bump_kept
    | with_reducible apply State.receivePath_kept
    | with_reducible refine Kept.foldl ?_ (fun _ _ _ => ?_)
    | with_reducible refine Kept.ite ?_ ?_

-- State.publishNow
theorem State.publishNow_kept {s₀ s : State} (e : Nat) (hK : Kept s₀ s) :
    Kept s₀ (State.publishNow s e) := by
  unfold State.publishNow
  repeat' first
    | with_reducible assumption
    | (intro x; first | (have hx : Kept s₀ x := (by dsimp only [x]; repeat' first | with_reducible assumption | with_reducible apply State.supersede_kept | with_reducible apply State.setTrdp_kept | with_reducible apply State.setNet_kept | with_reducible apply State.bump_kept | with_reducible apply State.enterHost_kept)) | (have hx : Kept s₀ x.2 := (show KeptSnd s₀ x from (by dsimp only [x]; repeat' first | with_reducible assumption | (refine KeptSnd.of ?_; first | with_reducible assumption | with_reducible apply State.publishData_kept | with_reducible apply State.supersede_kept | with_reducible apply State.setTrdp_kept | with_reducible apply State.setNet_kept | with_reducible apply State.bump_kept | with_reducible apply State.enterHost_kept | with_reducible apply State.inject_kept | with_reducible refine Kept.foldlFst ?_ (fun _ _ _ => ?_) | with_reducible refine Kept.foldlSnd ?_ (fun _ _ _ => ?_))))) | skip)
    | lift_lets
    | with_reducible apply State.inject_kept
    | with_reducible refine Kept.ite ?_ ?_
    | split

-- State.fireEntry
theorem State.fireEntry_kept {s₀ s : State} (e : Nat) (hK : Kept s₀ s) :
    Kept s₀ (State.fireEntry s e) := by
  unfold State.fireEntry
  repeat' first
    | with_reducible assumption
    | (intro x; first | (have hx : Kept s₀ x := (by dsimp only [x]; repeat' first | with_reducible assumption | with_reducible apply State.dmaWrite_kept)) | skip)
    | lift_lets
    | with_reducible apply State.setNet_kept
    | with_reducible apply State.publishNow_kept
    | with_reducible refine Kept.ite ?_ ?_

-- State.announce
theorem State.announce_kept {s₀ s : State}  (hK : Kept s₀ s) :
    Kept s₀ (State.announce s) := by
  unfold State.announce
  repeat' first
    | with_reducible assumption
    | intro x
    | lift_lets
    | with_reducible apply State.fireEntry_kept
    | with_reducible refine Kept.ite ?_ ?_

-- State.doSlotFire
theorem State.doSlotFire_kept {s₀ s : State} (n : Nat) (hK : Kept s₀ s) :
    Kept s₀ (State.doSlotFire s n) := by
  unfold State.doSlotFire
  repeat' first
    | with_reducible assumption
    | (intro x; first | (have hx : Kept s₀ x := (by dsimp only [x]; repeat' first | with_reducible assumption | with_reducible apply State.fireSlot_kept)) | skip)
    | lift_lets
    | with_reducible apply State.fireEntry_kept
    | with_reducible refine Kept.foldl ?_ (fun _ _ _ => ?_)
    | with_reducible refine Kept.ite ?_ ?_

-- State.doFrameTransmit
theorem State.doFrameTransmit_kept {s₀ s : State} (p : Nat) (hK : Kept s₀ s) :
    Kept s₀ (State.doFrameTransmit s p) := by
  unfold State.doFrameTransmit
  repeat' first
    | with_reducible assumption
    | (intro x; first | (have hx : Kept s₀ x := (by dsimp only [x]; repeat' first | with_reducible assumption | with_reducible apply State.settle_kept | with_reducible apply State.markGated_kept)) | skip)
    | lift_lets
    | with_reducible apply State.markPerturbed_kept
    | with_reducible apply State.sendHost_kept
    | with_reducible apply State.sendCopy_kept
    | with_reducible refine Kept.ite ?_ ?_
    | split

-- State.doTxAgeLimit
theorem State.doTxAgeLimit_kept {s₀ s : State} (p : Nat) (c : Nat) (hK : Kept s₀ s) :
    Kept s₀ (State.doTxAgeLimit s p c) := by
  unfold State.doTxAgeLimit
  repeat' first
    | with_reducible assumption
    | with_reducible apply State.settle_kept
    | with_reducible apply State.discardCopies_kept
    | with_reducible apply State.bump_kept
    | split

-- State.dropEgress
theorem State.dropEgress_kept {s₀ s : State} (p : Nat) (hK : Kept s₀ s) :
    Kept s₀ (State.dropEgress s p) := by
  unfold State.dropEgress
  repeat' first
    | with_reducible assumption
    | with_reducible apply State.settle_kept
    | with_reducible apply State.discardCopies_kept

-- State.doLinkLost
theorem State.doLinkLost_kept {s₀ s : State} (p : Nat) (hK : Kept s₀ s) :
    Kept s₀ (State.doLinkLost s p) := by
  unfold State.doLinkLost
  repeat' first
    | with_reducible assumption
    | (intro x; first | (have hx : Kept s₀ x := (by dsimp only [x]; repeat' first | with_reducible assumption | with_reducible apply State.setSwPort_kept)) | skip)
    | lift_lets
    | with_reducible apply State.dropEgress_kept
    | with_reducible apply State.raise_kept
    | with_reducible apply State.bump_kept
    | with_reducible refine Kept.ite ?_ ?_

-- State.doLinkUp
theorem State.doLinkUp_kept {s₀ s : State} (p : Nat) (partner : Nat) (hK : Kept s₀ s) :
    Kept s₀ (State.doLinkUp s p partner) := by
  unfold State.doLinkUp
  repeat' first
    | with_reducible assumption
    | intro x
    | lift_lets
    | with_reducible apply State.setSwPort_kept
    | with_reducible refine Kept.ite ?_ ?_

-- State.gateSwap
theorem State.gateSwap_kept {s₀ s : State} (p : Nat) (hK : Kept s₀ s) :
    Kept s₀ (State.gateSwap s p) := by
  unfold State.gateSwap
  repeat' first
    | with_reducible assumption
    | with_reducible apply State.raise_kept
    | with_reducible apply State.setSwPort_kept
    | with_reducible refine Kept.ite ?_ ?_

-- State.doGateCycleStart
theorem State.doGateCycleStart_kept {s₀ s : State} (p : Nat) (hK : Kept s₀ s) :
    Kept s₀ (State.doGateCycleStart s p) := by
  unfold State.doGateCycleStart
  repeat' first
    | with_reducible assumption
    | (intro x; first | (have hx : Kept s₀ x := (by dsimp only [x]; repeat' first | with_reducible assumption | with_reducible apply State.settle_kept)) | skip)
    | lift_lets
    | with_reducible apply State.setSwPort_kept
    | with_reducible refine Kept.ite ?_ ?_

-- State.doGateEntryChange
theorem State.doGateEntryChange_kept {s₀ s : State} (p : Nat) (hK : Kept s₀ s) :
    Kept s₀ (State.doGateEntryChange s p) := by
  unfold State.doGateEntryChange
  repeat' first
    | with_reducible assumption
    | intro x
    | lift_lets
    | with_reducible apply State.settle_kept
    | with_reducible apply State.setSwPort_kept
    | with_reducible refine Kept.ite ?_ ?_

-- State.doFdbAgeOut
theorem State.doFdbAgeOut_kept {s₀ s : State} (mac : Nat) (vid : Nat) (hK : Kept s₀ s) :
    Kept s₀ (State.doFdbAgeOut s mac vid) := by
  unfold State.doFdbAgeOut
  repeat' first
    | with_reducible assumption
    | with_reducible apply State.setNet_kept
    | with_reducible apply State.bump_kept
    | with_reducible refine Kept.ite ?_ ?_
    | split

-- State.supervise
theorem State.supervise_kept {s₀ s : State} (mac : Nat) (o : PrpOrigin) (hK : Kept s₀ s) :
    Kept s₀ (State.supervise s mac o) := by
  unfold State.supervise
  repeat' first
    | with_reducible assumption
    | (intro x; first | (have hx : Kept s₀ x := (by dsimp only [x]; repeat' first | with_reducible assumption | with_reducible apply State.setNet_kept | with_reducible apply State.bump_kept)) | (have hx : Kept s₀ x.2 := (show KeptSnd s₀ x from (by dsimp only [x]; repeat' first | with_reducible assumption | (refine KeptSnd.of ?_; first | with_reducible assumption | with_reducible apply State.setNet_kept | with_reducible apply State.bump_kept | with_reducible apply State.copiesFor_kept | with_reducible apply State.admitted_kept | with_reducible refine Kept.foldlFst ?_ (fun _ _ _ => ?_) | with_reducible refine Kept.foldlSnd ?_ (fun _ _ _ => ?_))))) | skip)
    | lift_lets
    | with_reducible apply State.admitted_kept
    | with_reducible refine Kept.ite ?_ ?_

-- State.doLifeCheck
theorem State.doLifeCheck_kept {s₀ s : State}  (hK : Kept s₀ s) :
    Kept s₀ (State.doLifeCheck s) := by
  unfold State.doLifeCheck
  repeat' first
    | with_reducible assumption
    | with_reducible apply State.supervise_kept
    | with_reducible refine Kept.foldl ?_ (fun _ _ _ => ?_)
    | with_reducible refine Kept.ite ?_ ?_

-- State.doGptpSyncSend
theorem State.doGptpSyncSend_kept {s₀ s : State}  (hK : Kept s₀ s) :
    Kept s₀ (State.doGptpSyncSend s) := by
  unfold State.doGptpSyncSend
  repeat' first
    | with_reducible assumption
    | lift_lets
    | with_reducible apply State.drawIn_kept
    | with_reducible apply State.bump_kept
    | with_reducible apply State.bw_kept
    | with_reducible refine Kept.foldl ?_ (fun _ _ _ => ?_)
    | with_reducible refine Kept.ite ?_ ?_

-- State.doPeerDelay
theorem State.doPeerDelay_kept {s₀ s : State} (p : Nat) (delay : Option Word) (hK : Kept s₀ s) :
    Kept s₀ (State.doPeerDelay s p delay) := by
  unfold State.doPeerDelay
  repeat' first
    | with_reducible assumption
    | intro x
    | lift_lets
    | with_reducible apply State.bump_kept
    | with_reducible apply State.setReg_kept
    | with_reducible refine Kept.ite ?_ ?_
    | split

-- State.fdbAnswer
theorem State.fdbAnswer_kept {s₀ s : State} (n : Nat) (hK : Kept s₀ s) :
    Kept s₀ (State.fdbAnswer s n) := by
  unfold State.fdbAnswer
  repeat' first
    | with_reducible assumption
    | with_reducible apply State.setReg_kept

-- State.fdbLookup
theorem State.fdbLookup_kept {s₀ s : State}  (hK : Kept s₀ s) :
    Kept s₀ (State.fdbLookup s) := by
  unfold State.fdbLookup
  repeat' first
    | with_reducible assumption
    | with_reducible apply State.setReg_kept
    | with_reducible apply State.fdbAnswer_kept
    | split

-- State.fdbAdd
theorem State.fdbAdd_kept {s₀ s : State}  (hK : Kept s₀ s) :
    Kept s₀ (State.fdbAdd s) := by
  unfold State.fdbAdd
  repeat' first
    | with_reducible assumption
    | intro x
    | lift_lets
    | with_reducible apply State.fdbAnswer_kept
    | with_reducible apply State.setNet_kept
    | with_reducible refine Kept.ite ?_ ?_

-- State.fdbDelete
theorem State.fdbDelete_kept {s₀ s : State}  (hK : Kept s₀ s) :
    Kept s₀ (State.fdbDelete s) := by
  unfold State.fdbDelete
  repeat' first
    | with_reducible assumption
    | with_reducible apply State.setNet_kept
    | with_reducible apply State.fdbAnswer_kept
    | with_reducible refine Kept.ite ?_ ?_

-- State.vlanRead
theorem State.vlanRead_kept {s₀ s : State}  (hK : Kept s₀ s) :
    Kept s₀ (State.vlanRead s) := by
  unfold State.vlanRead
  repeat' first
    | with_reducible assumption
    | with_reducible apply State.setReg_kept

-- State.vlanWrite
theorem State.vlanWrite_kept {s₀ s : State}  (hK : Kept s₀ s) :
    Kept s₀ (State.vlanWrite s) := by
  unfold State.vlanWrite
  repeat' first
    | with_reducible assumption
    | intro x
    | lift_lets
    | with_reducible apply State.setNet_kept

-- State.streamAnswer
theorem State.streamAnswer_kept {s₀ s : State} (n : Nat) (hK : Kept s₀ s) :
    Kept s₀ (State.streamAnswer s n) := by
  unfold State.streamAnswer
  repeat' first
    | with_reducible assumption
    | with_reducible apply State.setReg_kept

-- State.streamRead
theorem State.streamRead_kept {s₀ s : State}  (hK : Kept s₀ s) :
    Kept s₀ (State.streamRead s) := by
  unfold State.streamRead
  repeat' first
    | with_reducible assumption
    | intro x
    | lift_lets
    | with_reducible apply State.setReg_kept
    | with_reducible apply State.streamAnswer_kept

-- State.streamWrite
theorem State.streamWrite_kept {s₀ s : State}  (hK : Kept s₀ s) :
    Kept s₀ (State.streamWrite s) := by
  unfold State.streamWrite
  repeat' first
    | with_reducible assumption
    | intro x
    | lift_lets
    | with_reducible apply State.streamAnswer_kept
    | with_reducible apply State.setNet_kept
    | with_reducible refine Kept.ite ?_ ?_

-- State.meterRead
theorem State.meterRead_kept {s₀ s : State}  (hK : Kept s₀ s) :
    Kept s₀ (State.meterRead s) := by
  unfold State.meterRead
  repeat' first
    | with_reducible assumption
    | intro x
    | lift_lets
    | with_reducible apply State.setReg_kept
    | with_reducible apply State.streamAnswer_kept

-- State.meterWrite
theorem State.meterWrite_kept {s₀ s : State}  (hK : Kept s₀ s) :
    Kept s₀ (State.meterWrite s) := by
  unfold State.meterWrite
  repeat' first
    | with_reducible assumption
    | (intro x; first | (have hx : Kept s₀ x.2 := (show KeptSnd s₀ x from (by dsimp only [x]; repeat' first | with_reducible assumption | (refine KeptSnd.of ?_; first | with_reducible assumption | with_reducible apply State.drawIn_kept | with_reducible apply State.setMeter_kept | with_reducible apply State.streamAnswer_kept | with_reducible refine Kept.foldlFst ?_ (fun _ _ _ => ?_) | with_reducible refine Kept.foldlSnd ?_ (fun _ _ _ => ?_))))) | skip)
    | lift_lets
    | with_reducible apply State.setMeter_kept
    | with_reducible apply State.streamAnswer_kept

-- State.entryAnswer
theorem State.entryAnswer_kept {s₀ s : State} (p : Nat) (n : Nat) (hK : Kept s₀ s) :
    Kept s₀ (State.entryAnswer s p n) := by
  unfold State.entryAnswer
  repeat' first
    | with_reducible assumption
    | with_reducible apply State.setReg_kept

-- State.entryRead
theorem State.entryRead_kept {s₀ s : State} (p : Nat) (hK : Kept s₀ s) :
    Kept s₀ (State.entryRead s p) := by
  unfold State.entryRead
  repeat' first
    | with_reducible assumption
    | (intro x; first | (have hx : Kept s₀ x := (by dsimp only [x]; repeat' first | with_reducible assumption | with_reducible apply State.setReg_kept | with_reducible refine Kept.foldl ?_ (fun _ _ _ => ?_))) | skip)
    | lift_lets
    | with_reducible apply State.entryAnswer_kept
    | with_reducible apply State.setReg_kept
    | with_reducible apply State.setReg64_kept
    | with_reducible refine Kept.ite ?_ ?_

-- State.entryWrite
theorem State.entryWrite_kept {s₀ s : State} (p : Nat) (hK : Kept s₀ s) :
    Kept s₀ (State.entryWrite s p) := by
  unfold State.entryWrite
  repeat' first
    | with_reducible assumption
    | intro x
    | lift_lets
    | with_reducible apply State.entryAnswer_kept
    | with_reducible apply State.raise_kept
    | with_reducible apply State.setTrdp_kept
    | with_reducible refine Kept.ite ?_ ?_

-- State.doHeldDelivery
theorem State.doHeldDelivery_kept {s₀ s : State} (e : Nat) (hK : Kept s₀ s) :
    Kept s₀ (State.doHeldDelivery s e) := by
  unfold State.doHeldDelivery
  repeat' first
    | with_reducible assumption
    | with_reducible apply State.entryBoxWrite_kept
    | with_reducible refine Kept.ite ?_ ?_
    | split

-- State.doTrdpTimeout
theorem State.doTrdpTimeout_kept {s₀ s : State} (e : Nat) (hK : Kept s₀ s) :
    Kept s₀ (State.doTrdpTimeout s e) := by
  unfold State.doTrdpTimeout
  repeat' first
    | with_reducible assumption
    | (intro x; first | (have hx : Kept s₀ x := (by dsimp only [x]; repeat' first | with_reducible assumption | with_reducible apply State.setTrdp_kept | with_reducible apply State.bump_kept)) | (have hx : Kept s₀ x.2 := (show KeptSnd s₀ x from (by dsimp only [x]; repeat' first | with_reducible assumption | with_reducible refine KeptSnd.ite ?_ ?_ | simp only [KeptSnd.mk_iff] | (refine KeptSnd.of ?_; first | with_reducible assumption | with_reducible apply State.setTrdp_kept | with_reducible apply State.bump_kept | with_reducible apply State.offloadRead_kept | with_reducible apply State.rxDeliver_kept | with_reducible refine Kept.foldlFst ?_ (fun _ _ _ => ?_) | with_reducible refine Kept.foldlSnd ?_ (fun _ _ _ => ?_))))) | skip)
    | lift_lets
    | with_reducible apply State.rxDeliver_kept
    | with_reducible refine Kept.ite ?_ ?_

-- State.captureCells
theorem State.captureCells_kept {s₀ s : State}  (hK : Kept s₀ s) :
    Kept s₀ (State.captureCells s) := by
  unfold State.captureCells
  repeat' first
    | with_reducible assumption
    | intro x
    | lift_lets
    | with_reducible apply State.setReg_kept
    | with_reducible apply State.bump_kept

-- State.capturePort
theorem State.capturePort_kept {s₀ s : State} (p : Nat) (hK : Kept s₀ s) :
    Kept s₀ (State.capturePort s p) := by
  unfold State.capturePort
  repeat' first
    | with_reducible assumption
    | with_reducible apply State.setReg_kept
    | with_reducible refine Kept.foldl ?_ (fun _ _ _ => ?_)

-- State.captureQueue
theorem State.captureQueue_kept {s₀ s : State} (q : Nat) (hK : Kept s₀ s) :
    Kept s₀ (State.captureQueue s q) := by
  unfold State.captureQueue
  repeat' first
    | with_reducible assumption
    | with_reducible apply State.setReg_kept

-- State.queueReset
theorem State.queueReset_kept {s₀ s : State} (q : Nat) (hK : Kept s₀ s) :
    Kept s₀ (State.queueReset s q) := by
  unfold State.queueReset
  repeat' first
    | with_reducible assumption
    | (intro x; first | (have hx : Kept s₀ x := (by dsimp only [x]; repeat' first | with_reducible assumption | with_reducible apply State.setNet_kept)) | skip)
    | lift_lets
    | with_reducible apply State.setRing_kept

-- State.trdpRestart
theorem State.trdpRestart_kept {s₀ s : State} (p : Nat) (hK : Kept s₀ s) :
    Kept s₀ (State.trdpRestart s p) := by
  unfold State.trdpRestart
  repeat' first
    | with_reducible assumption
    | intro x
    | lift_lets
    | with_reducible apply State.setNet_kept

end Sys2Proof.Laws
end

