-- ==== Sys2Proof/Laws/KeptSafeData.lean ====
section
/-!
SUPPORT. `Kept` for the operations of Machine/SafeData.lean.
-/
namespace Sys2Proof.Laws
open Sys2Proof Sys2Proof.Machine Sys2Proof.Safety

-- State.doTwinWindow
theorem State.doTwinWindow_kept {s₀ s : State} (i : Nat) (hK : Kept s₀ s) :
    Kept s₀ (State.doTwinWindow s i) := by
  unfold State.doTwinWindow
  repeat' first
    | with_reducible assumption
    | with_reducible apply State.twinExpire_kept
    | split

-- State.doTwinLingerEnd
theorem State.doTwinLingerEnd_kept {s₀ s : State} (i : Nat) (hK : Kept s₀ s) :
    Kept s₀ (State.doTwinLingerEnd s i) := by
  unfold State.doTwinLingerEnd
  repeat' first
    | with_reducible assumption
    | with_reducible apply State.setTwins_kept
    | with_reducible refine Kept.ite ?_ ?_
    | split

-- State.chanRead
theorem State.chanRead_kept {s₀ s : State}  (hK : Kept s₀ s) :
    Kept s₀ (State.chanRead s) := by
  unfold State.chanRead
  repeat' first
    | with_reducible assumption
    | intro x
    | lift_lets
    | with_reducible apply State.setReg_kept

-- State.chanWrite
theorem State.chanWrite_kept {s₀ s : State}  (hK : Kept s₀ s) :
    Kept s₀ (State.chanWrite s) := by
  unfold State.chanWrite
  repeat' first
    | with_reducible assumption
    | intro x
    | lift_lets
    | with_reducible apply State.setChannel_kept
    | with_reducible apply State.setReg_kept

-- State.captureSafe
theorem State.captureSafe_kept {s₀ s : State}  (hK : Kept s₀ s) :
    Kept s₀ (State.captureSafe s) := by
  unfold State.captureSafe
  repeat' first
    | with_reducible assumption
    | with_reducible apply State.setReg_kept

end Sys2Proof.Laws
end

