-- ==== Sys2Proof/Laws/KeptMvb.lean ====
section
/-!
SUPPORT. `Kept` for the operations of Machine/Mvb.lean.
-/
namespace Sys2Proof.Laws
open Sys2Proof Sys2Proof.Machine Sys2Proof.Safety

-- State.setMvb
theorem State.setMvb_kept {s₀ s : State} (c : Nat) (v : MvbState) (hK : Kept s₀ s) :
    Kept s₀ (State.setMvb s c v) := by
  unfold State.setMvb
  repeat' first
    | with_reducible assumption
    | (simp only [Kept.mk_iff]; refine KeptMk.upd ?_ rfl rfl rfl rfl rfl rfl rfl rfl)

-- State.mvbReply
theorem State.mvbReply_kept {s₀ s : State} (c : Nat) (bs : List Byte) (hK : Kept s₀ s) :
    Kept s₀ (State.mvbReply s c bs) := by
  unfold State.mvbReply
  repeat' first
    | with_reducible assumption
    | with_reducible apply State.setMvb_kept
    | with_reducible apply State.bump_kept

-- State.mvbAnswer
theorem State.mvbAnswer_kept {s₀ s : State} (c : Nat) (fcode : Nat) (addr : Nat) (hK : Kept s₀ s) :
    Kept s₀ (State.mvbAnswer s c fcode addr) := by
  unfold State.mvbAnswer
  repeat' first
    | with_reducible assumption
    | (intro x; first | (have hx : Kept s₀ x.2.2 := (show KeptThird s₀ x from (by dsimp only [x]; repeat' first | with_reducible assumption | (refine KeptThird.of ?_; first | with_reducible assumption | with_reducible apply State.mvbReply_kept | with_reducible apply State.bump_kept | with_reducible apply State.boxSource_kept | with_reducible refine Kept.foldlFst ?_ (fun _ _ _ => ?_) | with_reducible refine Kept.foldlSnd ?_ (fun _ _ _ => ?_))))) | skip)
    | lift_lets
    | with_reducible apply State.mvbReply_kept
    | with_reducible apply State.bump_kept
    | with_reducible refine Kept.ite ?_ ?_
    | split

-- State.mvbSendNext
theorem State.mvbSendNext_kept {s₀ s : State} (c : Nat) (hK : Kept s₀ s) :
    Kept s₀ (State.mvbSendNext s c) := by
  unfold State.mvbSendNext
  repeat' first
    | with_reducible assumption
    | intro x
    | lift_lets
    | with_reducible apply State.setMvb_kept
    | with_reducible apply State.bump_kept
    | with_reducible apply State.mvbAnswer_kept
    | split
    | (simp only [Kept.mk_iff]; refine KeptMk.upd ?_ rfl rfl rfl rfl rfl rfl rfl rfl)

-- State.lineEnd
theorem State.lineEnd_kept {s₀ s : State} (c : Nat) (line : Nat) (n : Nat) (hK : Kept s₀ s) :
    Kept s₀ (State.lineEnd s c line n) := by
  unfold State.lineEnd
  repeat' first
    | with_reducible assumption
    | with_reducible apply State.setMvb_kept
    | with_reducible apply State.raise_kept
    | with_reducible refine Kept.ite ?_ ?_

-- State.mvbClose
theorem State.mvbClose_kept {s₀ s : State} (c : Nat) (hK : Kept s₀ s) :
    Kept s₀ (State.mvbClose s c) := by
  unfold State.mvbClose
  repeat' first
    | with_reducible assumption
    | (intro x; first | (have hx : Kept s₀ x := (by dsimp only [x]; repeat' first | with_reducible assumption | with_reducible apply State.satReg_kept | with_reducible apply State.raise_kept | with_reducible apply State.bump_kept | with_reducible refine Kept.ite ?_ ?_)) | skip)
    | lift_lets
    | with_reducible apply State.setMvb_kept
    | with_reducible apply State.lineEnd_kept

-- State.doBasicPeriod
theorem State.doBasicPeriod_kept {s₀ s : State} (c : Nat) (hK : Kept s₀ s) :
    Kept s₀ (State.doBasicPeriod s c) := by
  unfold State.doBasicPeriod
  repeat' first
    | with_reducible assumption
    | (intro x; first | (have hx : Kept s₀ x := (by dsimp only [x]; repeat' first | with_reducible assumption | with_reducible apply State.mvbClose_kept | with_reducible apply State.setMvb_kept)) | skip)
    | lift_lets
    | with_reducible apply State.mvbSendNext_kept
    | with_reducible refine Kept.ite ?_ ?_

-- State.doMvbReplyTimeout
theorem State.doMvbReplyTimeout_kept {s₀ s : State} (c : Nat) (hK : Kept s₀ s) :
    Kept s₀ (State.doMvbReplyTimeout s c) := by
  unfold State.doMvbReplyTimeout
  repeat' first
    | with_reducible assumption
    | with_reducible apply State.satReg_kept
    | with_reducible apply State.bump_kept
    | with_reducible apply State.mvbSendNext_kept
    | with_reducible refine Kept.ite ?_ ?_

-- State.lineHeard
theorem State.lineHeard_kept {s₀ s : State} (c : Nat) (line : Nat) (hK : Kept s₀ s) :
    Kept s₀ (State.lineHeard s c line) := by
  unfold State.lineHeard
  repeat' first
    | with_reducible assumption
    | intro x
    | lift_lets
    | with_reducible apply State.setMvb_kept
    | with_reducible apply State.bump_kept

-- State.lineBad
theorem State.lineBad_kept {s₀ s : State} (c : Nat) (line : Nat) (hK : Kept s₀ s) :
    Kept s₀ (State.lineBad s c line) := by
  unfold State.lineBad
  repeat' first
    | with_reducible assumption
    | with_reducible apply State.setReg_kept
    | with_reducible apply State.bump_kept

-- State.lineFrame
theorem State.lineFrame_kept {s₀ s : State} (c : Nat) (line : Nat) (f : LineFrame) (hK : Kept s₀ s) :
    Kept s₀ (State.lineFrame s c line f) := by
  unfold State.lineFrame
  repeat' first
    | with_reducible assumption
    | with_reducible apply State.lineHeard_kept
    | with_reducible apply State.lineBad_kept
    | with_reducible refine Kept.ite ?_ ?_
    | split

-- State.doMvbMasterFrame
theorem State.doMvbMasterFrame_kept {s₀ s : State} (c : Nat) (fcode : Nat) (addr : Nat) (hK : Kept s₀ s) :
    Kept s₀ (State.doMvbMasterFrame s c fcode addr) := by
  unfold State.doMvbMasterFrame
  repeat' first
    | with_reducible assumption
    | (intro x; first | (have hx : Kept s₀ x := (by dsimp only [x]; repeat' first | with_reducible assumption | with_reducible apply State.lineHeard_kept)) | skip)
    | lift_lets
    | with_reducible apply State.setMvb_kept
    | with_reducible apply State.mvbAnswer_kept
    | with_reducible refine Kept.ite ?_ ?_

-- State.mvbSink
theorem State.mvbSink_kept {s₀ s : State} (c : Nat) (line : Nat) (key : Nat) (data : List Byte) (hK : Kept s₀ s) :
    Kept s₀ (State.mvbSink s c line key data) := by
  unfold State.mvbSink
  repeat' first
    | with_reducible assumption
    | with_reducible apply State.boxWrite_kept
    | with_reducible apply State.lineBad_kept
    | with_reducible refine Kept.ite ?_ ?_
    | split

-- State.doMvbSlaveFrame
theorem State.doMvbSlaveFrame_kept {s₀ s : State} (c : Nat) (a : LineFrame) (b : LineFrame) (hK : Kept s₀ s) :
    Kept s₀ (State.doMvbSlaveFrame s c a b) := by
  unfold State.doMvbSlaveFrame
  repeat' first
    | with_reducible assumption
    | (intro x; first | (have hx : Kept s₀ x := (by dsimp only [x]; repeat' first | with_reducible assumption | with_reducible apply State.lineFrame_kept | with_reducible apply State.setMvb_kept | with_reducible apply State.bump_kept | with_reducible apply State.mvbSink_kept | with_reducible refine Kept.ite ?_ ?_ | split | (dsimp +zetaDelta only; split))) | skip)
    | lift_lets
    | with_reducible apply State.setMvb_kept
    | with_reducible apply State.mvbSendNext_kept
    | with_reducible refine Kept.ite ?_ ?_

-- State.mvbResult
theorem State.mvbResult_kept {s₀ s : State} (c : Nat) (n : Nat) (hK : Kept s₀ s) :
    Kept s₀ (State.mvbResult s c n) := by
  unfold State.mvbResult
  repeat' first
    | with_reducible assumption
    | with_reducible apply State.setReg_kept

-- State.mvbPortRead
theorem State.mvbPortRead_kept {s₀ s : State} (c : Nat) (hK : Kept s₀ s) :
    Kept s₀ (State.mvbPortRead s c) := by
  unfold State.mvbPortRead
  repeat' first
    | with_reducible assumption
    | intro x
    | lift_lets
    | with_reducible apply State.setReg_kept
    | with_reducible apply State.mvbResult_kept

-- State.mvbPortWrite
theorem State.mvbPortWrite_kept {s₀ s : State} (c : Nat) (hK : Kept s₀ s) :
    Kept s₀ (State.mvbPortWrite s c) := by
  unfold State.mvbPortWrite
  repeat' first
    | with_reducible assumption
    | intro x
    | lift_lets
    | with_reducible apply State.mvbResult_kept
    | with_reducible apply State.setMvb_kept
    | with_reducible refine Kept.ite ?_ ?_

-- State.mvbPollRead
theorem State.mvbPollRead_kept {s₀ s : State} (c : Nat) (hK : Kept s₀ s) :
    Kept s₀ (State.mvbPollRead s c) := by
  unfold State.mvbPollRead
  repeat' first
    | with_reducible assumption
    | with_reducible apply State.setReg_kept
    | with_reducible apply State.mvbResult_kept

-- State.mvbPollWrite
theorem State.mvbPollWrite_kept {s₀ s : State} (c : Nat) (hK : Kept s₀ s) :
    Kept s₀ (State.mvbPollWrite s c) := by
  unfold State.mvbPollWrite
  repeat' first
    | with_reducible assumption
    | intro x
    | lift_lets
    | with_reducible apply State.mvbResult_kept
    | with_reducible apply State.setMvb_kept
    | with_reducible refine Kept.ite ?_ ?_

end Sys2Proof.Laws
end

