-- ==== Sys2Proof/Laws/KeptCan.lean ====
section
/-!
SUPPORT. `Kept` for the operations of Machine/Can.lean.
-/
namespace Sys2Proof.Laws
open Sys2Proof Sys2Proof.Machine Sys2Proof.Safety

-- State.setCan
theorem State.setCan_kept {s₀ s : State} (c : Nat) (v : CanState) (hK : Kept s₀ s) :
    Kept s₀ (State.setCan s c v) := by
  unfold State.setCan
  repeat' first
    | with_reducible assumption
    | (simp only [Kept.mk_iff]; refine KeptMk.upd ?_ rfl rfl rfl rfl rfl rfl rfl rfl)

-- State.canAccessError
theorem State.canAccessError_kept {s₀ s : State} (c : Nat) (hK : Kept s₀ s) :
    Kept s₀ (State.canAccessError s c) := by
  unfold State.canAccessError
  repeat' first
    | with_reducible assumption
    | with_reducible apply State.raise_kept

-- State.canIrq
theorem State.canIrq_kept {s₀ s : State} (c : Nat) (hK : Kept s₀ s) :
    Kept s₀ (State.canIrq s c) := by
  unfold State.canIrq
  repeat' first
    | with_reducible assumption
    | intro x
    | lift_lets
    | with_reducible apply State.setCan_kept
    | with_reducible apply State.ringIrq_kept

-- State.canSignal
theorem State.canSignal_kept {s₀ s : State} (c : Nat) (hK : Kept s₀ s) :
    Kept s₀ (State.canSignal s c) := by
  unfold State.canSignal
  repeat' first
    | with_reducible assumption
    | (intro x; first | (have hx : Kept s₀ x := (by dsimp only [x]; repeat' first | with_reducible assumption | with_reducible apply State.setCan_kept)) | skip)
    | lift_lets
    | with_reducible apply State.canIrq_kept
    | with_reducible refine Kept.ite ?_ ?_

-- State.recDown
theorem State.recDown_kept {s₀ s : State} (c : Nat) (hK : Kept s₀ s) :
    Kept s₀ (State.recDown s c) := by
  unfold State.recDown
  repeat' first
    | with_reducible assumption
    | (intro x; first | (have hx : Kept s₀ x.2 := (show KeptSnd s₀ x from (by dsimp only [x]; repeat' first | with_reducible assumption | (refine KeptSnd.of ?_; first | with_reducible assumption | with_reducible apply State.drawIn_kept | with_reducible apply State.setCan_kept | with_reducible refine Kept.foldlFst ?_ (fun _ _ _ => ?_) | with_reducible refine Kept.foldlSnd ?_ (fun _ _ _ => ?_))))) | skip)
    | lift_lets
    | with_reducible apply State.setCan_kept
    | with_reducible refine Kept.ite ?_ ?_

-- State.canWriteRx
theorem State.canWriteRx_kept {s₀ s : State} (c : Nat) (f : CanFrame) (filter : Nat) (hK : Kept s₀ s) :
    Kept s₀ (State.canWriteRx s c f filter).2 := by
  show KeptSnd s₀ _
  unfold State.canWriteRx
  repeat' first
    | with_reducible assumption
    | (intro x; first | (have hx : Kept s₀ x.2 := (show KeptSnd s₀ x from (by dsimp only [x]; repeat' first | with_reducible assumption | (refine KeptSnd.of ?_; first | with_reducible assumption | with_reducible apply State.dmaWrite_kept | with_reducible refine Kept.foldlFst ?_ (fun _ _ _ => ?_) | with_reducible refine Kept.foldlSnd ?_ (fun _ _ _ => ?_))))) | skip)
    | lift_lets
    | with_reducible refine KeptSnd.ite ?_ ?_
    | (refine KeptSnd.of ?_; first | with_reducible assumption | with_reducible apply State.dmaWrite_kept | with_reducible refine Kept.foldlFst ?_ (fun _ _ _ => ?_) | with_reducible refine Kept.foldlSnd ?_ (fun _ _ _ => ?_))

-- State.canAccept
theorem State.canAccept_kept {s₀ s : State} (c : Nat) (f : CanFrame) (filter : Nat) (hK : Kept s₀ s) :
    Kept s₀ (State.canAccept s c f filter) := by
  unfold State.canAccept
  repeat' first
    | with_reducible assumption
    | (intro x; first | (have hx : Kept s₀ x.2 := (show KeptSnd s₀ x from (by dsimp only [x]; repeat' first | with_reducible assumption | (refine KeptSnd.of ?_; first | with_reducible assumption | with_reducible apply State.satReg_kept | with_reducible apply State.bump_kept | with_reducible apply State.canWriteRx_kept | with_reducible apply State.canAccessError_kept | with_reducible apply State.setCan_kept | with_reducible apply State.canSignal_kept | with_reducible refine Kept.foldlFst ?_ (fun _ _ _ => ?_) | with_reducible refine Kept.foldlSnd ?_ (fun _ _ _ => ?_))))) | skip)
    | lift_lets
    | with_reducible apply State.satReg_kept
    | with_reducible apply State.bump_kept
    | with_reducible apply State.canAccessError_kept
    | with_reducible apply State.setCan_kept
    | with_reducible apply State.canSignal_kept
    | with_reducible refine Kept.ite ?_ ?_

-- State.doCanReceive
theorem State.doCanReceive_kept {s₀ s : State} (c : Nat) (f : CanFrame) (hK : Kept s₀ s) :
    Kept s₀ (State.doCanReceive s c f) := by
  unfold State.doCanReceive
  repeat' first
    | with_reducible assumption
    | (intro x; first | (have hx : Kept s₀ x := (by dsimp only [x]; repeat' first | with_reducible assumption | with_reducible apply State.bump_kept | with_reducible apply State.recDown_kept)) | skip)
    | lift_lets
    | with_reducible apply State.setCan_kept
    | with_reducible apply State.bump_kept
    | with_reducible apply State.canAccept_kept
    | with_reducible refine Kept.ite ?_ ?_
    | split

-- State.canFetch
theorem State.canFetch_kept {s₀ s : State} (c : Nat) (hK : Kept s₀ s) : Kept s₀ (State.canFetch s c) := by
  unfold State.canFetch
  refine Kept.ite hK ?_
  have h1 := State.dmaRead_kept (s.canDesc c true (s.can c).txSeq.toNat) 96 hK
  rcases h : s.dmaRead (s.canDesc c true (s.can c).txSeq.toNat) 96 with ⟨l, t⟩
  rw [h] at h1
  simp only [h]
  cases l
  · exact State.canAccessError_kept c h1
  · exact State.setCan_kept _ _ h1

-- State.canTxDone
theorem State.canTxDone_kept {s₀ s : State} (c : Nat) (code : Nat) (lt : DWord) (hK : Kept s₀ s) :
    Kept s₀ (State.canTxDone s c code lt) := by
  unfold State.canTxDone
  repeat' first
    | with_reducible assumption
    | intro x
    | lift_lets
    | with_reducible apply State.dmaWrite_kept
    | with_reducible apply State.canAccessError_kept
    | with_reducible apply State.setCan_kept
    | with_reducible apply State.canSignal_kept
    | with_reducible refine Kept.ite ?_ ?_
    | split
    | (simp only [Kept.mk_iff]; refine KeptMk.upd ?_ rfl rfl rfl rfl rfl rfl rfl rfl)

-- State.canAttempt
theorem State.canAttempt_kept {s₀ s : State} (c : Nat) (hK : Kept s₀ s) :
    Kept s₀ (State.canAttempt s c) := by
  unfold State.canAttempt
  repeat' first
    | with_reducible assumption
    | (intro x; first | (have hx : Kept s₀ x := (by dsimp only [x]; repeat' first | with_reducible assumption | with_reducible apply State.setCan_kept)) | skip)
    | lift_lets
    | with_reducible apply State.bump_kept
    | with_reducible refine Kept.ite ?_ ?_
    | split

-- State.doCanTransmit
theorem State.doCanTransmit_kept {s₀ s : State} (c : Nat) (r : CanResult) (hK : Kept s₀ s) :
    Kept s₀ (State.doCanTransmit s c r) := by
  unfold State.doCanTransmit
  repeat' first
    | with_reducible assumption
    | (intro x; first | (have hx : Kept s₀ x := (by dsimp only [x]; repeat' first | with_reducible assumption | with_reducible apply State.canFetch_kept | with_reducible apply State.canAttempt_kept | with_reducible apply State.setCan_kept | with_reducible apply State.bump_kept)) | (have hx : Kept s₀ x.2 := (show KeptSnd s₀ x from (by dsimp only [x]; repeat' first | with_reducible assumption | (refine KeptSnd.of ?_; first | with_reducible assumption | with_reducible apply State.canFetch_kept | with_reducible apply State.drawDword_kept | with_reducible apply State.canTxDone_kept | with_reducible apply State.canAttempt_kept | with_reducible apply State.setCan_kept | with_reducible apply State.bump_kept | with_reducible refine Kept.foldlFst ?_ (fun _ _ _ => ?_) | with_reducible refine Kept.foldlSnd ?_ (fun _ _ _ => ?_))))) | skip)
    | lift_lets
    | with_reducible apply State.canTxDone_kept
    | with_reducible apply State.setCan_kept
    | with_reducible apply State.bump_kept
    | with_reducible refine Kept.ite ?_ ?_
    | split

-- State.doBusOff
theorem State.doBusOff_kept {s₀ s : State} (c : Nat) (hK : Kept s₀ s) :
    Kept s₀ (State.doBusOff s c) := by
  unfold State.doBusOff
  repeat' first
    | with_reducible assumption
    | (intro x; first | (have hx : Kept s₀ x := (by dsimp only [x]; repeat' first | with_reducible assumption | with_reducible apply State.setCan_kept)) | skip)
    | lift_lets
    | with_reducible apply State.canTxDone_kept
    | with_reducible apply State.raise_kept
    | with_reducible apply State.bump_kept
    | with_reducible refine Kept.ite ?_ ?_

-- State.canRecover
theorem State.canRecover_kept {s₀ s : State} (c : Nat) (hK : Kept s₀ s) :
    Kept s₀ (State.canRecover s c) := by
  unfold State.canRecover
  repeat' first
    | with_reducible assumption
    | intro x
    | lift_lets
    | with_reducible apply State.setCan_kept
    | with_reducible refine Kept.ite ?_ ?_

-- State.doRecoveryDone
theorem State.doRecoveryDone_kept {s₀ s : State} (c : Nat) (hK : Kept s₀ s) :
    Kept s₀ (State.doRecoveryDone s c) := by
  unfold State.doRecoveryDone
  repeat' first
    | with_reducible assumption
    | intro x
    | lift_lets
    | with_reducible apply State.setCan_kept
    | with_reducible refine Kept.ite ?_ ?_

-- State.canPost
theorem State.canPost_kept {s₀ s : State} (c : Nat) (tx : Bool) (v : Word) (hK : Kept s₀ s) :
    Kept s₀ (State.canPost s c tx v) := by
  unfold State.canPost
  repeat' first
    | with_reducible assumption
    | intro x
    | lift_lets
    | with_reducible apply State.setCan_kept
    | with_reducible apply State.raise_kept
    | with_reducible refine Kept.ite ?_ ?_

-- State.doCanIrqTimer
theorem State.doCanIrqTimer_kept {s₀ s : State} (c : Nat) (hK : Kept s₀ s) :
    Kept s₀ (State.doCanIrqTimer s c) := by
  unfold State.doCanIrqTimer
  repeat' first
    | with_reducible assumption
    | with_reducible apply State.canIrq_kept
    | with_reducible refine Kept.ite ?_ ?_

-- State.canStop
theorem State.canStop_kept {s₀ s : State} (c : Nat) (hK : Kept s₀ s) :
    Kept s₀ (State.canStop s c) := by
  unfold State.canStop
  repeat' first
    | with_reducible assumption
    | (intro x; first | (have hx : Kept s₀ x.2 := (show KeptSnd s₀ x from (by dsimp only [x]; repeat' first | with_reducible assumption | (refine KeptSnd.of ?_; first | with_reducible assumption | with_reducible apply State.drawDword_kept | with_reducible apply State.canTxDone_kept | with_reducible refine Kept.foldlFst ?_ (fun _ _ _ => ?_) | with_reducible refine Kept.foldlSnd ?_ (fun _ _ _ => ?_))))) | skip)
    | lift_lets
    | with_reducible apply State.canTxDone_kept
    | with_reducible refine Kept.ite ?_ ?_

end Sys2Proof.Laws
end

