-- ==== Sys2Proof/Laws/KeptScan.lean ====
section
/-!
SUPPORT. `Kept` for the operations of Machine/Scan.lean.
-/
namespace Sys2Proof.Laws
open Sys2Proof Sys2Proof.Machine Sys2Proof.Safety

-- State.saveContext
theorem State.saveContext_kept {s₀ s : State} (q : Nat) (hK : Kept s₀ s) :
    Kept s₀ (State.saveContext s q) := by
  unfold State.saveContext
  repeat' first
    | with_reducible assumption
    | (intro x; first | (have hx : Kept s₀ x.2 := (show KeptSnd s₀ x from (by dsimp only [x]; repeat' first | with_reducible assumption | simp only [KeptSnd.mk_iff] | (refine KeptSnd.of ?_; first | with_reducible assumption | with_reducible apply State.drawWord_kept | with_reducible apply State.votedData_kept | with_reducible apply State.bump_kept | with_reducible refine Kept.foldlFst ?_ (fun _ _ _ => ?_) | with_reducible refine Kept.foldlSnd ?_ (fun _ _ _ => ?_))))) | skip)
    | lift_lets
    | with_reducible apply State.votedData_kept
    | with_reducible apply State.bump_kept

-- State.preempt
theorem State.preempt_kept {s₀ s : State} (q : Nat) (hK : Kept s₀ s) :
    Kept s₀ (State.preempt s q) := by
  unfold State.preempt
  repeat' first
    | with_reducible assumption
    | (intro x; first | (have hx : Kept s₀ x := (by dsimp only [x]; repeat' first | with_reducible assumption | with_reducible apply State.saveContext_kept | with_reducible apply State.setProg_kept)) | skip)
    | lift_lets
    | with_reducible apply State.setCle_kept
    | with_reducible apply State.satReg_kept
    | with_reducible apply State.bump_kept

-- State.trigger
theorem State.trigger_kept {s₀ s : State} (p : Nat) (hK : Kept s₀ s) :
    Kept s₀ (State.trigger s p) := by
  unfold State.trigger
  repeat' first
    | with_reducible assumption
    | (intro x; first | (have hx : Kept s₀ x := (by dsimp only [x]; repeat' first | with_reducible assumption | with_reducible apply State.bump_kept | with_reducible apply State.setProg_kept)) | skip)
    | lift_lets
    | with_reducible apply State.satReg_kept
    | with_reducible apply State.bump_kept
    | with_reducible apply State.raise_kept
    | with_reducible apply State.preempt_kept
    | with_reducible refine Kept.ite ?_ ?_
    | split

-- State.doCyclicTrigger
theorem State.doCyclicTrigger_kept {s₀ s : State} (p : Nat) (hK : Kept s₀ s) :
    Kept s₀ (State.doCyclicTrigger s p) := by
  unfold State.doCyclicTrigger
  repeat' first
    | with_reducible assumption
    | intro x
    | lift_lets
    | with_reducible apply State.setProg_kept
    | with_reducible apply State.trigger_kept
    | with_reducible refine Kept.ite ?_ ?_

-- State.cleTriggerTo
theorem State.cleTriggerTo_kept {s₀ s : State} (arg : Word) (hK : Kept s₀ s) :
    Kept s₀ (State.cleTriggerTo s arg) := by
  unfold State.cleTriggerTo
  repeat' first
    | with_reducible assumption
    | with_reducible apply State.trigger_kept
    | with_reducible refine Kept.ite ?_ ?_

-- State.freezeStation
theorem State.freezeStation_kept {s₀ s : State} (e : StationEntry) (hK : Kept s₀ s) :
    Kept s₀ (State.freezeStation s e).2 := by
  show KeptSnd s₀ _
  unfold State.freezeStation
  repeat' first
    | with_reducible assumption
    | (intro x; first | (have hx : Kept s₀ x := (by dsimp only [x]; repeat' first | with_reducible assumption | with_reducible apply State.setStation_kept)) | (have hx : Kept s₀ x.2 := (show KeptSnd s₀ x from (by dsimp only [x]; repeat' first | with_reducible assumption | (refine KeptSnd.of ?_; first | with_reducible assumption | with_reducible apply State.readMailbox_kept | with_reducible apply State.setStation_kept | with_reducible apply State.satReg_kept | with_reducible apply State.bump_kept | with_reducible apply State.raise_kept | with_reducible refine Kept.foldlFst ?_ (fun _ _ _ => ?_) | with_reducible refine Kept.foldlSnd ?_ (fun _ _ _ => ?_))))) | skip)
    | lift_lets
    | with_reducible refine KeptSnd.ite ?_ ?_
    | simp only [KeptSnd.mk_iff]
    | with_reducible apply State.setStation_kept
    | with_reducible apply State.satReg_kept
    | with_reducible apply State.bump_kept
    | with_reducible apply State.raise_kept

-- State.putInput
theorem State.putInput_kept {s₀ s : State} (e : InputEntry) (v : Word) (hK : Kept s₀ s) :
    Kept s₀ (State.putInput s e v) := by
  unfold State.putInput
  repeat' first
    | with_reducible assumption
    | intro x
    | lift_lets
    | with_reducible apply State.insertData_kept
    | with_reducible refine Kept.ite ?_ ?_

-- State.applyInput
theorem State.applyInput_kept {s₀ s : State} (ds : List (Nat × Option Delivery)) (e : InputEntry) (hK : Kept s₀ s) :
    Kept s₀ (State.applyInput s ds e) := by
  unfold State.applyInput
  repeat' first
    | with_reducible assumption
    | with_reducible apply State.putInput_kept
    | with_reducible refine Kept.ite ?_ ?_
    | split

-- State.setPairWord
theorem State.setPairWord_kept {s₀ s : State} (n : Nat) (w : Word) (hK : Kept s₀ s) :
    Kept s₀ (State.setPairWord s n w) := by
  unfold State.setPairWord
  repeat' first
    | with_reducible assumption
    | with_reducible apply State.dataWord_kept
    | with_reducible refine Kept.ite ?_ ?_

-- State.freezePair
theorem State.freezePair_kept {s₀ s : State} (n : Nat) (hK : Kept s₀ s) :
    Kept s₀ (State.freezePair s n) := by
  unfold State.freezePair
  repeat' first
    | with_reducible assumption
    | with_reducible apply State.setPairWord_kept

-- State.writeSWords
theorem State.writeSWords_kept {s₀ s : State} (p : Nat) (t : ScanTables) (hK : Kept s₀ s) :
    Kept s₀ (State.writeSWords s p t) := by
  unfold State.writeSWords
  repeat' first
    | with_reducible assumption
    | intro x
    | lift_lets
    | with_reducible apply State.dataWord_kept
    | with_reducible refine Kept.foldl ?_ (fun _ _ _ => ?_)

-- State.doInputFreeze
theorem State.doInputFreeze_kept {s₀ s : State} (p : Nat) (hK : Kept s₀ s) :
    Kept s₀ (State.doInputFreeze s p) := by
  unfold State.doInputFreeze
  repeat' first
    | with_reducible assumption
    | (intro x; first | (have hx : Kept s₀ x := (by dsimp only [x]; repeat' first | with_reducible assumption | with_reducible apply State.setProg_kept | with_reducible apply State.applyInput_kept | with_reducible apply State.freezePair_kept | with_reducible apply State.writeSWords_kept | with_reducible refine Kept.foldl ?_ (fun _ _ _ => ?_))) | (have hx : Kept s₀ x.2 := (show KeptSnd s₀ x from (by dsimp only [x]; repeat' first | with_reducible assumption | simp only [KeptSnd.mk_iff] | (refine KeptSnd.of ?_; first | with_reducible assumption | with_reducible apply State.setProg_kept | with_reducible apply State.freezeStation_kept | with_reducible apply State.applyInput_kept | with_reducible apply State.freezePair_kept | with_reducible apply State.writeSWords_kept | with_reducible apply State.setCle_kept | with_reducible refine Kept.foldlFst ?_ (fun _ _ _ => ?_) | with_reducible refine Kept.foldlSnd ?_ (fun _ _ _ => ?_))))) | skip)
    | lift_lets
    | with_reducible apply State.setCle_kept
    | with_reducible refine Kept.ite ?_ ?_

-- State.restoreContext
theorem State.restoreContext_kept {s₀ s : State} (p : Nat) (hK : Kept s₀ s) :
    Kept s₀ (State.restoreContext s p) := by
  unfold State.restoreContext
  repeat' first
    | with_reducible assumption
    | (intro x; first | (have hx : Kept s₀ x := (by dsimp only [x]; repeat' first | with_reducible assumption | with_reducible apply State.engineCause_kept | with_reducible refine Kept.foldl ?_ (fun _ _ _ => ?_) | with_reducible refine Kept.ite ?_ ?_)) | skip)
    | lift_lets
    | with_reducible apply State.setCle_kept
    | with_reducible apply State.bump_kept

-- State.beginExecute
theorem State.beginExecute_kept {s₀ s : State} (p : Nat) (hK : Kept s₀ s) :
    Kept s₀ (State.beginExecute s p) := by
  unfold State.beginExecute
  repeat' first
    | with_reducible assumption
    | (intro x; first | (have hx : Kept s₀ x := (by dsimp only [x]; repeat' first | with_reducible assumption | with_reducible apply State.setProg_kept)) | skip)
    | lift_lets
    | with_reducible apply State.setCle_kept
    | with_reducible apply State.dataWord_kept
    | with_reducible apply State.bookCycles_kept
    | split
    | (simp only [Kept.mk_iff]; refine KeptMk.upd ?_ rfl rfl rfl rfl rfl rfl rfl rfl)

-- State.doExecuteResume
theorem State.doExecuteResume_kept {s₀ s : State} (p : Nat) (hK : Kept s₀ s) :
    Kept s₀ (State.doExecuteResume s p) := by
  unfold State.doExecuteResume
  repeat' first
    | with_reducible assumption
    | (intro x; first | (have hx : Kept s₀ x := (by dsimp only [x]; repeat' first | with_reducible assumption | with_reducible apply State.restoreContext_kept | with_reducible apply State.beginExecute_kept | with_reducible apply State.setProg_kept | with_reducible refine Kept.ite ?_ ?_)) | skip)
    | lift_lets
    | with_reducible apply State.setCle_kept
    | with_reducible refine Kept.ite ?_ ?_

-- State.compareRead
theorem State.compareRead_kept {s₀ s : State} (bit : Nat) (n : Nat) (l : List (Engine × Option (List Byte))) (hK : Kept s₀ s) :
    Kept s₀ (State.compareRead s bit n l).2 := by
  show KeptSnd s₀ _
  unfold State.compareRead
  repeat' first
    | with_reducible assumption
    | intro x
    | lift_lets
    | with_reducible refine KeptSnd.ite ?_ ?_
    | simp only [KeptSnd.mk_iff]
    | with_reducible apply State.nameEngine_kept
    | with_reducible apply State.lockoutCause_kept
    | with_reducible apply State.engineMismatch_kept
    | split

-- State.readData
theorem State.readData_kept {s₀ s : State} (off : Nat) (n : Nat) (hK : Kept s₀ s) :
    Kept s₀ (State.readData s off n).2 := by
  show KeptSnd s₀ _
  unfold State.readData
  repeat' first
    | with_reducible assumption
    | (refine KeptSnd.of ?_; first | with_reducible assumption | with_reducible apply State.compareRead_kept | with_reducible refine Kept.foldlFst ?_ (fun _ _ _ => ?_) | with_reducible refine Kept.foldlSnd ?_ (fun _ _ _ => ?_))

-- State.cleanLine
theorem State.cleanLine_kept {s₀ s : State} (p : Nat) (l : Nat) (hK : Kept s₀ s) :
    Kept s₀ (State.cleanLine s p l) := by
  unfold State.cleanLine
  repeat' first
    | with_reducible assumption
    | intro x
    | lift_lets
    | with_reducible apply State.setCle_kept

-- State.capture
theorem State.capture_kept {s₀ s : State} (p : Nat) (set : List Nat) (full : Bool) (hK : Kept s₀ s) :
    Kept s₀ (State.capture s p set full).2 := by
  show KeptSnd s₀ _
  unfold State.capture
  repeat' first
    | with_reducible assumption
    | lift_lets
    | simp only [KeptSnd.mk_iff]
    | (refine KeptSnd.of ?_; first | with_reducible assumption | with_reducible apply State.readData_kept | with_reducible apply State.cleanLine_kept | with_reducible refine Kept.foldlFst ?_ (fun _ _ _ => ?_) | with_reducible refine Kept.foldlSnd ?_ (fun _ _ _ => ?_))
    | with_reducible apply State.cleanLine_kept

-- State.doOutputStaging
theorem State.doOutputStaging_kept {s₀ s : State} (p : Nat) (hK : Kept s₀ s) :
    Kept s₀ (State.doOutputStaging s p) := by
  unfold State.doOutputStaging
  repeat' first
    | with_reducible assumption
    | (intro x; first | (have hx : Kept s₀ x := (by dsimp only [x]; repeat' first | with_reducible assumption | with_reducible apply State.setProg_kept | with_reducible apply State.setCle_kept)) | (have hx : Kept s₀ x.2 := (show KeptSnd s₀ x from (by dsimp only [x]; repeat' first | with_reducible assumption | (refine KeptSnd.of ?_; first | with_reducible assumption | with_reducible apply State.capture_kept | with_reducible apply State.setProg_kept | with_reducible apply State.setCle_kept | with_reducible apply State.forceTussock_kept | with_reducible refine Kept.foldlFst ?_ (fun _ _ _ => ?_) | with_reducible refine Kept.foldlSnd ?_ (fun _ _ _ => ?_))))) | skip)
    | lift_lets
    | with_reducible apply State.forceTussock_kept
    | with_reducible refine Kept.ite ?_ ?_

-- State.dropForced
theorem State.dropForced_kept {s₀ s : State} (p : Nat) (hK : Kept s₀ s) :
    Kept s₀ (State.dropForced s p) := by
  unfold State.dropForced
  repeat' first
    | with_reducible assumption
    | intro x
    | lift_lets
    | (simp only [Kept.mk_iff]; refine KeptMk.upd ?_ rfl rfl rfl rfl rfl rfl rfl rfl)

-- State.releaseStation
theorem State.releaseStation_kept {s₀ s : State} (e : StationEntry) (hK : Kept s₀ s) :
    Kept s₀ (State.releaseStation s e).2 := by
  show KeptSnd s₀ _
  unfold State.releaseStation
  repeat' first
    | with_reducible assumption
    | (intro x; first | (have hx : Kept s₀ x := (by dsimp only [x]; repeat' first | with_reducible assumption)) | (have hx : Kept s₀ x.2 := (show KeptSnd s₀ x from (by dsimp only [x]; repeat' first | with_reducible assumption | (refine KeptSnd.of ?_; first | with_reducible assumption | with_reducible apply State.readMailbox_kept | with_reducible apply State.setStation_kept | with_reducible apply State.bump_kept | with_reducible refine Kept.foldlFst ?_ (fun _ _ _ => ?_) | with_reducible refine Kept.foldlSnd ?_ (fun _ _ _ => ?_))))) | skip)
    | lift_lets
    | with_reducible refine KeptSnd.ite ?_ ?_
    | simp only [KeptSnd.mk_iff]
    | with_reducible apply State.setStation_kept
    | with_reducible apply State.bump_kept

-- State.decideStation
theorem State.decideStation_kept {s₀ s : State} (permit : Bool) (q : StagedStation) (out : Bool) (hK : Kept s₀ s) :
    Kept s₀ (State.decideStation s permit q out).2 := by
  show KeptSnd s₀ _
  unfold State.decideStation
  repeat' first
    | with_reducible assumption
    | (intro x; first | (have hx : Kept s₀ x := (by dsimp only [x]; repeat' first | with_reducible assumption | with_reducible apply State.ledgerUndelivered_kept)) | skip)
    | lift_lets
    | simp only [KeptSnd.mk_iff]
    | with_reducible apply State.dataWord_kept
    | with_reducible refine Kept.ite ?_ ?_

-- State.stationPayload
theorem State.stationPayload_kept {s₀ s : State} (t : ScanTables) (k : Nat) (n : Nat) (hK : Kept s₀ s) :
    Kept s₀ (State.stationPayload s t k n).2 := by
  show KeptSnd s₀ _
  unfold State.stationPayload
  repeat' first
    | with_reducible assumption
    | lift_lets
    | with_reducible refine KeptSnd.ite ?_ ?_
    | simp only [KeptSnd.mk_iff]
    | (refine KeptSnd.of ?_; first | with_reducible assumption | with_reducible apply State.readMailbox_kept | with_reducible refine Kept.foldlFst ?_ (fun _ _ _ => ?_) | with_reducible refine Kept.foldlSnd ?_ (fun _ _ _ => ?_))
    | split

-- State.setRuns
theorem State.setRuns_kept {s₀ s : State} (a : Nat) (f : Nat) (mis : Nat) (hK : Kept s₀ s) :
    Kept s₀ (State.setRuns s a f mis) := by
  unfold State.setRuns
  repeat' first
    | with_reducible assumption
    | with_reducible apply State.setReg_kept

-- State.runReached
theorem State.runReached_kept {s₀ s : State} (a : Nat) (f : Nat) (hK : Kept s₀ s) :
    Kept s₀ (State.runReached s a f) := by
  unfold State.runReached
  repeat' first
    | with_reducible assumption
    | intro x
    | lift_lets
    | with_reducible apply State.raise_kept
    | with_reducible refine Kept.ite ?_ ?_
    | (simp only [Kept.mk_iff]; refine KeptMk.upd ?_ rfl rfl rfl rfl rfl rfl rfl rfl)

-- State.outputCompare
theorem State.outputCompare_kept {s₀ s : State} (p : Nat) (block : List Byte) (hK : Kept s₀ s) :
    Kept s₀ (State.outputCompare s p block) := by
  unfold State.outputCompare
  repeat' first
    | with_reducible assumption
    | (intro x; first | (have hx : Kept s₀ x := (by dsimp only [x]; repeat' first | with_reducible assumption | with_reducible apply State.bump_kept)) | (have hx : Kept s₀ x.2 := (show KeptSnd s₀ x from (by dsimp only [x]; repeat' first | with_reducible assumption | (refine KeptSnd.of ?_; first | with_reducible assumption | with_reducible apply State.stationPayload_kept | with_reducible apply State.portRead_kept | with_reducible apply State.bump_kept | with_reducible apply State.setRuns_kept | with_reducible apply State.runReached_kept | with_reducible refine Kept.foldlFst ?_ (fun _ _ _ => ?_) | with_reducible refine Kept.foldlSnd ?_ (fun _ _ _ => ?_))))) | skip)
    | lift_lets
    | with_reducible apply State.bump_kept
    | with_reducible apply State.setRuns_kept
    | with_reducible apply State.runReached_kept
    | with_reducible refine Kept.ite ?_ ?_
    | split
    | (simp only [Kept.mk_iff]; refine KeptMk.upd ?_ rfl rfl rfl rfl rfl rfl rfl rfl)

-- State.discardOutputs
theorem State.discardOutputs_kept {s₀ s : State} (p : Nat) (hK : Kept s₀ s) :
    Kept s₀ (State.discardOutputs s p) := by
  unfold State.discardOutputs
  repeat' first
    | with_reducible assumption
    | with_reducible apply State.setProg_kept

-- State.releaseOutputs
theorem State.releaseOutputs_kept {s₀ s : State} (p : Nat) (im : Staged) (hK : Kept s₀ s) :
    Kept s₀ (State.releaseOutputs s p im) := by
  unfold State.releaseOutputs
  repeat' first
    | with_reducible assumption
    | (intro x; first | (have hx : Kept s₀ x := (by dsimp only [x]; repeat' first | with_reducible assumption | with_reducible apply State.outputCompare_kept | with_reducible apply State.bump_kept)) | (have hx : Kept s₀ x.2 := (show KeptSnd s₀ x from (by dsimp only [x]; repeat' first | with_reducible assumption | simp only [KeptSnd.mk_iff] | (refine KeptSnd.of ?_; first | with_reducible assumption | with_reducible apply State.releaseStation_kept | with_reducible apply State.decideStation_kept | with_reducible apply State.outputCompare_kept | with_reducible apply State.bump_kept | with_reducible apply State.setProg_kept | with_reducible refine Kept.foldlFst ?_ (fun _ _ _ => ?_) | with_reducible refine Kept.foldlSnd ?_ (fun _ _ _ => ?_))))) | skip)
    | lift_lets
    | with_reducible apply State.setProg_kept

-- State.doOutputRelease
theorem State.doOutputRelease_kept {s₀ s : State} (p : Nat) (hK : Kept s₀ s) :
    Kept s₀ (State.doOutputRelease s p) := by
  unfold State.doOutputRelease
  repeat' first
    | with_reducible assumption
    | intro x
    | lift_lets
    | with_reducible apply State.dropForced_kept
    | with_reducible apply State.discardOutputs_kept
    | with_reducible apply State.releaseOutputs_kept
    | with_reducible refine Kept.ite ?_ ?_
    | split

-- State.commitInstantOf
theorem State.commitInstantOf_kept {s₀ s : State} (arg : Word) (hK : Kept s₀ s) :
    Kept s₀ (State.commitInstantOf s arg) := by
  unfold State.commitInstantOf
  repeat' first
    | with_reducible assumption
    | intro x
    | lift_lets
    | with_reducible apply State.setProg_kept
    | with_reducible refine Kept.ite ?_ ?_

-- State.doOutputWriteOut
theorem State.doOutputWriteOut_kept {s₀ s : State} (p : Nat) (hK : Kept s₀ s) :
    Kept s₀ (State.doOutputWriteOut s p) := by
  unfold State.doOutputWriteOut
  repeat' first
    | with_reducible assumption
    | (intro x; first | (have hx : Kept s₀ x := (by dsimp only [x]; repeat' first | with_reducible assumption | with_reducible apply State.writeOut_kept | with_reducible apply State.handOver_kept)) | skip)
    | lift_lets
    | with_reducible apply State.setProg_kept
    | with_reducible refine Kept.ite ?_ ?_
    | split

-- State.zeroInstance
theorem State.zeroInstance_kept {s₀ s : State} (e : Instance) (hK : Kept s₀ s) :
    Kept s₀ (State.zeroInstance s e) := by
  unfold State.zeroInstance
  repeat' first
    | with_reducible assumption
    | intro x
    | lift_lets
    | with_reducible apply State.votedData_kept
    | with_reducible refine Kept.ite ?_ ?_

-- State.zeroInstances
theorem State.zeroInstances_kept {s₀ s : State} (l : List Instance) (hK : Kept s₀ s) :
    Kept s₀ (State.zeroInstances s l) := by
  unfold State.zeroInstances
  repeat' first
    | with_reducible assumption
    | with_reducible apply State.zeroInstance_kept
    | with_reducible refine Kept.foldl ?_ (fun _ _ _ => ?_)

-- State.putLines
theorem State.putLines_kept {s₀ s : State} (l : List (Nat × List Byte)) (hK : Kept s₀ s) :
    Kept s₀ (State.putLines s l) := by
  unfold State.putLines
  repeat' first
    | with_reducible assumption
    | with_reducible apply State.votedData_kept
    | with_reducible refine Kept.foldl ?_ (fun _ _ _ => ?_)

-- State.startSet
theorem State.startSet_kept {s₀ s : State} (p : Nat) (set : List Nat) (warm : Bool) (insts : List Instance) (hK : Kept s₀ s) :
    Kept s₀ (State.startSet s p set warm insts) := by
  unfold State.startSet
  repeat' first
    | with_reducible assumption
    | (intro x; first | (have hx : Kept s₀ x := (by dsimp only [x]; repeat' first | with_reducible assumption | with_reducible apply State.putLines_kept)) | skip)
    | lift_lets
    | with_reducible apply State.putLines_kept
    | with_reducible apply State.zeroInstances_kept
    | with_reducible refine Kept.ite ?_ ?_
    | split

-- State.stationFresh
theorem State.stationFresh_kept {s₀ s : State} (k : Nat) (hK : Kept s₀ s) :
    Kept s₀ (State.stationFresh s k) := by
  unfold State.stationFresh
  repeat' first
    | with_reducible assumption
    | with_reducible apply State.setStation_kept

-- State.pairFresh
theorem State.pairFresh_kept {s₀ s : State} (n : Nat) (hK : Kept s₀ s) :
    Kept s₀ (State.pairFresh s n) := by
  unfold State.pairFresh
  repeat' first
    | with_reducible assumption
    | with_reducible apply State.setPairWord_kept

-- State.start
theorem State.start_kept {s₀ s : State} (p : Nat) (warm : Bool) (hK : Kept s₀ s) :
    Kept s₀ (State.start s p warm) := by
  unfold State.start
  repeat' first
    | with_reducible assumption
    | (intro x; first | (have hx : Kept s₀ x := (by dsimp only [x]; repeat' first | with_reducible assumption | with_reducible apply State.zeroInstances_kept | with_reducible apply State.startSet_kept | with_reducible apply State.stationFresh_kept | with_reducible apply State.pairFresh_kept | with_reducible refine Kept.foldl ?_ (fun _ _ _ => ?_))) | skip)
    | lift_lets
    | with_reducible apply State.setProg_kept
    | with_reducible refine Kept.ite ?_ ?_

-- State.doOverrun
theorem State.doOverrun_kept {s₀ s : State} (p : Nat) (hK : Kept s₀ s) :
    Kept s₀ (State.doOverrun s p) := by
  unfold State.doOverrun
  repeat' first
    | with_reducible assumption
    | with_reducible apply State.bump_kept
    | with_reducible apply State.stopProgram_kept
    | with_reducible refine Kept.ite ?_ ?_

-- State.stopCommand
theorem State.stopCommand_kept {s₀ s : State} (p : Nat) (hK : Kept s₀ s) :
    Kept s₀ (State.stopCommand s p) := by
  unfold State.stopCommand
  repeat' first
    | with_reducible assumption
    | intro x
    | lift_lets
    | with_reducible apply State.haltProgram_kept
    | with_reducible apply State.setProg_kept
    | with_reducible refine Kept.ite ?_ ?_

-- State.putInstance
theorem State.putInstance_kept {s₀ s : State} (e : Instance) (l : List Byte) (hK : Kept s₀ s) :
    Kept s₀ (State.putInstance s e l) := by
  unfold State.putInstance
  repeat' first
    | with_reducible assumption
    | with_reducible apply State.votedData_kept
    | with_reducible refine Kept.ite ?_ ?_

-- State.setFresh
theorem State.setFresh_kept {s₀ s : State} (l : List Nat) (hK : Kept s₀ s) :
    Kept s₀ (State.setFresh s l) := by
  unfold State.setFresh
  repeat' first
    | with_reducible assumption
    | with_reducible apply State.votedData_kept
    | with_reducible refine Kept.foldl ?_ (fun _ _ _ => ?_)

-- State.applyExchange
theorem State.applyExchange_kept {s₀ s : State} (p : Nat) (hK : Kept s₀ s) :
    Kept s₀ (State.applyExchange s p) := by
  unfold State.applyExchange
  repeat' first
    | with_reducible assumption
    | (intro x; first | (have hx : Kept s₀ x := (by dsimp only [x]; repeat' first | with_reducible assumption | with_reducible apply State.putInstance_kept | with_reducible apply State.zeroInstance_kept | with_reducible apply State.setFresh_kept | with_reducible apply State.setReg_kept | with_reducible apply State.stationFresh_kept | with_reducible apply State.pairFresh_kept | with_reducible apply State.setProg_kept | with_reducible apply State.bump_kept | with_reducible refine Kept.foldl ?_ (fun _ _ _ => ?_))) | skip)
    | lift_lets
    | with_reducible apply State.setCle_kept

-- State.exchangeCommand
theorem State.exchangeCommand_kept {s₀ s : State} (p : Nat) (hK : Kept s₀ s) :
    Kept s₀ (State.exchangeCommand s p) := by
  unfold State.exchangeCommand
  repeat' first
    | with_reducible assumption
    | (intro x; first | (have hx : Kept s₀ x := (by dsimp only [x]; repeat' first | with_reducible assumption | with_reducible apply State.setReg_kept | with_reducible apply State.setProg_kept)) | skip)
    | lift_lets
    | with_reducible apply State.setReg_kept
    | with_reducible apply State.bump_kept
    | with_reducible apply State.applyExchange_kept
    | with_reducible refine Kept.ite ?_ ?_
    | split

-- State.progCommand
theorem State.progCommand_kept {s₀ s : State} (p : Nat) (v : Word) (hK : Kept s₀ s) :
    Kept s₀ (State.progCommand s p v) := by
  unfold State.progCommand
  repeat' first
    | with_reducible assumption
    | with_reducible apply State.start_kept
    | with_reducible apply State.stopCommand_kept
    | with_reducible apply State.exchangeCommand_kept
    | with_reducible refine Kept.ite ?_ ?_

-- State.progCommandBy
theorem State.progCommandBy_kept {s₀ s : State} (m : Master) (p : Nat) (v : Word) (hK : Kept s₀ s) :
    Kept s₀ (State.progCommandBy s m p v) := by
  unfold State.progCommandBy
  repeat' first
    | with_reducible assumption
    | with_reducible apply State.violation_kept
    | with_reducible apply State.progCommand_kept
    | with_reducible apply State.answer_kept
    | with_reducible refine Kept.ite ?_ ?_

-- State.doHousekeeping
theorem State.doHousekeeping_kept {s₀ s : State} (p : Nat) (hK : Kept s₀ s) :
    Kept s₀ (State.doHousekeeping s p) := by
  unfold State.doHousekeeping
  repeat' first
    | with_reducible assumption
    | (intro x; first | (have hx : Kept s₀ x := (by dsimp only [x]; repeat' first | with_reducible assumption | with_reducible apply State.setReg_kept | with_reducible apply State.maxReg_kept | with_reducible apply State.bump_kept | with_reducible apply State.recScan_kept | with_reducible apply State.setFresh_kept | with_reducible apply State.setCle_kept | with_reducible apply State.setProg_kept | with_reducible apply State.haltProgram_kept | with_reducible apply State.applyExchange_kept | with_reducible refine Kept.ite ?_ ?_)) | skip)
    | lift_lets
    | with_reducible apply State.setCle_kept
    | with_reducible refine Kept.ite ?_ ?_

-- State.tickDelivery
theorem State.tickDelivery_kept {s₀ s : State} (e : StationEntry) (hK : Kept s₀ s) :
    Kept s₀ (State.tickDelivery s e).2 := by
  show KeptSnd s₀ _
  unfold State.tickDelivery
  repeat' first
    | with_reducible assumption
    | (intro x; first | (have hx : Kept s₀ x.2 := (show KeptSnd s₀ x from (by dsimp only [x]; repeat' first | with_reducible assumption | (refine KeptSnd.of ?_; first | with_reducible assumption | with_reducible apply State.readMailbox_kept | with_reducible apply State.readBuffer_kept | with_reducible refine Kept.foldlFst ?_ (fun _ _ _ => ?_) | with_reducible refine Kept.foldlSnd ?_ (fun _ _ _ => ?_))))) | skip)
    | lift_lets
    | with_reducible refine KeptSnd.ite ?_ ?_
    | simp only [KeptSnd.mk_iff]
    | (refine KeptSnd.of ?_; first | with_reducible assumption | with_reducible apply State.readMailbox_kept | with_reducible apply State.readBuffer_kept | with_reducible refine Kept.foldlFst ?_ (fun _ _ _ => ?_) | with_reducible refine Kept.foldlSnd ?_ (fun _ _ _ => ?_))
    | split

-- State.channel
theorem State.channel_kept {s₀ s : State} (t : ScanTables) (k : Nat) (bit : Nat) (hK : Kept s₀ s) :
    Kept s₀ (State.channel s t k bit).2 := by
  show KeptSnd s₀ _
  unfold State.channel
  repeat' first
    | with_reducible assumption
    | simp only [KeptSnd.mk_iff]
    | (refine KeptSnd.of ?_; first | with_reducible assumption | with_reducible apply State.tickDelivery_kept | with_reducible refine Kept.foldlFst ?_ (fun _ _ _ => ?_) | with_reducible refine Kept.foldlSnd ?_ (fun _ _ _ => ?_))
    | split

-- State.tickPair
theorem State.tickPair_kept {s₀ s : State} (t : ScanTables) (e : PairEntry) (hK : Kept s₀ s) :
    Kept s₀ (State.tickPair s t e) := by
  unfold State.tickPair
  repeat' first
    | with_reducible assumption
    | (intro x; first | (have hx : Kept s₀ x := (by dsimp only [x]; repeat' first | with_reducible assumption | with_reducible apply State.setPairWord_kept | with_reducible apply State.bump_kept | with_reducible refine Kept.ite ?_ ?_)) | (have hx : Kept s₀ x.2 := (show KeptSnd s₀ x from (by dsimp only [x]; repeat' first | with_reducible assumption | (refine KeptSnd.of ?_; first | with_reducible assumption | with_reducible apply State.channel_kept | with_reducible apply State.setPairWord_kept | with_reducible apply State.bump_kept | with_reducible apply State.satReg_kept | with_reducible apply State.raise_kept | with_reducible refine Kept.foldlFst ?_ (fun _ _ _ => ?_) | with_reducible refine Kept.foldlSnd ?_ (fun _ _ _ => ?_))))) | skip)
    | lift_lets
    | with_reducible apply State.bump_kept
    | with_reducible apply State.satReg_kept
    | with_reducible apply State.raise_kept
    | with_reducible refine Kept.ite ?_ ?_

-- State.doPairTick
theorem State.doPairTick_kept {s₀ s : State}  (hK : Kept s₀ s) :
    Kept s₀ (State.doPairTick s) := by
  unfold State.doPairTick
  repeat' first
    | with_reducible assumption
    | intro x
    | lift_lets
    | with_reducible apply State.tickPair_kept
    | with_reducible refine Kept.foldl ?_ (fun _ _ _ => ?_)

-- State.insertionStall
theorem State.insertionStall_kept {s₀ s : State}  (hK : Kept s₀ s) :
    Kept s₀ (State.insertionStall s) := by
  unfold State.insertionStall
  repeat' first
    | with_reducible assumption
    | with_reducible apply State.setProg_kept
    | split

-- State.putProgBytes
theorem State.putProgBytes_kept {s₀ s : State} (off : Nat) (bs : List Byte) (hK : Kept s₀ s) :
    Kept s₀ (State.putProgBytes s off bs) := by
  unfold State.putProgBytes
  repeat' first
    | with_reducible assumption
    | intro x
    | lift_lets
    | with_reducible apply State.putProg_kept
    | with_reducible refine Kept.foldl ?_ (fun _ _ _ => ?_)

-- State.viewWrite
theorem State.viewWrite_kept {s₀ s : State} (view : Nat) (off : Nat) (bs : List Byte) (hK : Kept s₀ s) :
    Kept s₀ (State.viewWrite s view off bs) := by
  unfold State.viewWrite
  repeat' first
    | with_reducible assumption
    | (intro x; first | (have hx : Kept s₀ x := (by dsimp only [x]; repeat' first | with_reducible assumption | with_reducible apply State.putProgBytes_kept | with_reducible apply State.insertionStall_kept | with_reducible apply State.setReg64_kept | with_reducible apply State.bump_kept)) | skip)
    | lift_lets
    | with_reducible apply State.violation_kept
    | with_reducible apply State.raise_kept
    | with_reducible apply State.insertionStall_kept
    | with_reducible apply State.setCle_kept
    | with_reducible apply State.answer_kept
    | with_reducible apply State.insertData_kept
    | with_reducible refine Kept.ite ?_ ?_

-- State.doInsertion
theorem State.doInsertion_kept {s₀ s : State} (w : Insertion) (hK : Kept s₀ s) :
    Kept s₀ (State.doInsertion s w) := by
  unfold State.doInsertion
  repeat' first
    | with_reducible assumption
    | with_reducible apply State.viewWrite_kept
    | with_reducible apply State.insertData_kept
    | with_reducible apply State.insertionStall_kept
    | with_reducible refine Kept.ite ?_ ?_
    | split

-- State.viewBytes
theorem State.viewBytes_kept {s₀ s : State} (view : Nat) (off : Nat) (n : Nat) (hK : Kept s₀ s) :
    Kept s₀ (State.viewBytes s view off n).2 := by
  show KeptSnd s₀ _
  unfold State.viewBytes
  repeat' first
    | with_reducible assumption
    | (intro x; first | (have hx : Kept s₀ x.2 := (show KeptSnd s₀ x from (by dsimp only [x]; repeat' first | with_reducible assumption | (refine KeptSnd.of ?_; first | with_reducible assumption | with_reducible apply State.bump_kept | with_reducible apply State.compareRead_kept | with_reducible apply State.readData_kept | with_reducible refine Kept.foldlFst ?_ (fun _ _ _ => ?_) | with_reducible refine Kept.foldlSnd ?_ (fun _ _ _ => ?_)) | with_reducible apply State.bump_kept))) | skip)
    | lift_lets
    | with_reducible refine KeptSnd.ite ?_ ?_
    | simp only [KeptSnd.mk_iff]

-- State.doViewRead
theorem State.doViewRead_kept {s₀ s : State} (view : Nat) (off : Nat) (hK : Kept s₀ s) :
    Kept s₀ (State.doViewRead s view off) := by
  unfold State.doViewRead
  repeat' first
    | with_reducible assumption
    | with_reducible apply State.viewBytes_kept
    | with_reducible apply State.answer_kept
    | with_reducible apply State.violation_kept
    | split
    | refine Kept.snd ‹_ = (_, _)› ?_

-- State.doBenmiScrub
theorem State.doBenmiScrub_kept {s₀ s : State} (e : Engine) (prog : Option Upset) (data : Option Upset) (hK : Kept s₀ s) :
    Kept s₀ (State.doBenmiScrub s e prog data) := by
  unfold State.doBenmiScrub
  repeat' first
    | with_reducible assumption
    | (intro x; first | (have hx : Kept s₀ x := (by dsimp only [x]; repeat' first | with_reducible assumption | with_reducible apply State.satReg_kept | with_reducible apply State.bump_kept | with_reducible apply State.engineCause_kept | with_reducible refine Kept.ite ?_ ?_ | (simp only [Kept.mk_iff]; refine KeptMk.upd ?_ rfl rfl rfl rfl rfl rfl rfl rfl))) | skip)
    | lift_lets
    | with_reducible apply State.engineCause_kept
    | with_reducible refine Kept.ite ?_ ?_

-- State.doEngineReseed
theorem State.doEngineReseed_kept {s₀ s : State} (hK : Kept s₀ s) : Kept s₀ (State.doEngineReseed s) := by
  unfold State.doEngineReseed
  split
  · exact hK
  · next e _ =>
    refine Kept.ite hK ?_
    have h0 : Kept s₀ (s.setCle { s.cle with waiting := false, begun := (e, s.time.lt) :: s.cle.begun }) :=
      State.setCle_kept _ hK
    refine Kept.ite (State.lockoutCause_kept _ _ _ h0) ?_
    refine State.bump_kept _ _ _ (State.setReg_kept _ _ _ (State.maxReg_kept _ _ _ (State.setReg_kept _ _ _
      (State.setReg_kept _ _ _ (State.setCle_kept _ (h0.updMem fun w => ?_))))))
    refine memoryWf_engines w rfl rfl rfl rfl (fun k => ?_) (fun k => ?_)
    · refine (Trio.eng_setEng _ e k _).symm ▸ ?_
      split
      · exact memoryWf_dataOf w _
      · exact memoryWf_dataOf w k
    · dsimp only
      split
      · rw [Trio.eng_setEng]
        split
        · exact memoryWf_progOf w _
        · exact memoryWf_progOf w k
      · exact memoryWf_progOf w k

-- State.doEngineReseedFailed
theorem State.doEngineReseedFailed_kept {s₀ s : State} (why : EngineReseedFailure) (hK : Kept s₀ s) :
    Kept s₀ (State.doEngineReseedFailed s why) := by
  unfold State.doEngineReseedFailed
  repeat' first
    | with_reducible assumption
    | (intro x; first | (have hx : Kept s₀ x := (by dsimp only [x]; repeat' first | with_reducible assumption | with_reducible apply State.setCle_kept | with_reducible apply State.lockoutCause_kept)) | skip)
    | lift_lets
    | with_reducible apply State.engineMismatch_kept
    | with_reducible refine Kept.ite ?_ ?_

-- State.doCleSelftest
theorem State.doCleSelftest_kept {s₀ s : State} (r : CleSelftest) (hK : Kept s₀ s) :
    Kept s₀ (State.doCleSelftest s r) := by
  unfold State.doCleSelftest
  repeat' first
    | with_reducible assumption
    | (intro x; first | (have hx : Kept s₀ x := (by dsimp only [x]; repeat' first | with_reducible assumption | with_reducible apply State.setCle_kept | with_reducible apply State.satReg_kept | with_reducible apply State.bump_kept | with_reducible refine Kept.ite ?_ ?_)) | skip)
    | lift_lets
    | with_reducible apply State.lockoutCause_kept
    | with_reducible refine Kept.ite ?_ ?_

-- State.doImageCheck
theorem State.doImageCheck_kept {s₀ s : State}  (hK : Kept s₀ s) :
    Kept s₀ (State.doImageCheck s) := by
  unfold State.doImageCheck
  repeat' first
    | with_reducible assumption
    | (intro x; first | (have hx : Kept s₀ x := (by dsimp only [x]; repeat' first | with_reducible assumption | with_reducible apply State.setReg_kept | with_reducible apply State.bump_kept)) | skip)
    | lift_lets
    | with_reducible apply State.setReg_kept
    | with_reducible apply State.setOp_kept
    | with_reducible apply State.opFail_kept
    | with_reducible apply State.opDone_kept
    | with_reducible apply State.setCle_kept
    | with_reducible refine Kept.ite ?_ ?_
    | split

end Sys2Proof.Laws
end

