-- ==== Sys2Proof/Laws/KeptSupervisor.lean ====
section
/-!
SUPPORT. `Kept` for the operations of Machine/Supervisor.lean.
-/
namespace Sys2Proof.Laws
open Sys2Proof Sys2Proof.Machine Sys2Proof.Safety

-- State.setSup
/-- A change of the supervisor that neither lights the outputs nor breaks a condition of theirs. -/
theorem State.setSup_same {s₀ s : State} (u : Supervisor) (hK : Kept s₀ s) (hl : u.live = s.sup.live)
    (hg : u.grant = s.sup.grant) (hm : u.startMode = s.sup.startMode) (hs : u.safeState = s.sup.safeState)
    (hk : u.latch.locked = s.sup.latch.locked) (hp : u.pfwLow = s.sup.pfwLow) : Kept s₀ (s.setSup u) :=
  hK.sup hl hg hm hs hk hp

/-- The outputs switched off. -/
theorem State.setSup_off {s₀ s : State} (u : Supervisor) (hK : Kept s₀ s) (hl : u.live = false) (hg : u.grant = false) :
    Kept s₀ (s.setSup u) :=
  hK.supOff hl hg

-- State.setFail
theorem State.setFail_kept {s₀ s : State} (f : Failover) (hK : Kept s₀ s) :
    Kept s₀ (State.setFail s f) := by
  unfold State.setFail
  repeat' first
    | with_reducible assumption
    | (simp only [Kept.mk_iff]; refine KeptMk.upd ?_ rfl rfl rfl rfl rfl rfl rfl rfl)

-- State.review
theorem blockBit_zero {b : Bool} {k : Nat} (h : (if b = true then 0 else 2 ^ k) = 0) : b = true := by
  cases b
  · have : 0 < 2 ^ k := Nat.pow_pos (by decide)
    simp only [Bool.false_eq_true, if_false] at h
    omega
  · rfl

/-- With no bit of ENABLE_BLOCK set, the conditions of R430 hold. -/
theorem mayLive_of_enableBlock {s : State} (h : s.enableBlock = 0) : mayLive s = true := by
  unfold State.enableBlock at h
  simp only [Nat.add_eq_zero_iff] at h
  obtain ⟨⟨⟨⟨⟨⟨⟨h0, h1⟩, h2⟩, h3⟩, h4⟩, _⟩, _⟩, h7⟩ := h
  unfold mayLive
  rw [blockBit_zero h0, blockBit_zero h1, blockBit_zero h2, blockBit_zero h3, blockBit_zero h4, blockBit_zero h7]
  rfl

/-- The outputs follow the conditions of R430, whatever else of the supervisor's state was changed on the way. -/
theorem State.review_after {s₀ s x t : State} (hK : Kept s₀ s) (hp : x.pending = s.pending) (hf : x.faults = s.faults)
    (hm : x.mem = s.mem) (hg : x.sup.grant = s.sup.grant) (hl : x.sup.live = s.sup.live) (h : Kept x t) :
    Kept s₀ t.review := by
  have hq : t.pending = s.pending := h.queue.trans hp
  have hF : fifosOk s = true → fifosOk t = true := fun k => h.fifos (by simpa only [fifosOk, hf] using k)
  have hM : memoryWf s.mem = true → memoryWf t.mem = true := fun k => h.mem (by rw [hm]; exact k)
  have hG : s.sup.grant = s.sup.live → t.sup.grant = t.sup.live := fun k => h.grant (by rw [hg, hl]; exact k)
  unfold State.review
  split
  · next hb =>
    have hl := mayLive_of_enableBlock hb
    split
    · exact ⟨hq.trans hK.queue, hF ∘ hK.fifos, hM ∘ hK.mem,
        fun k => outputsSafe_live.mpr ⟨fun _ => hl, hG (hK.grant (outputsSafe_live.mp k).2)⟩, hG ∘ hK.grant⟩
    · exact State.bump_kept _ _ _ ⟨hq.trans hK.queue, hF ∘ hK.fifos, hM ∘ hK.mem,
        fun _ => outputsSafe_live.mpr ⟨fun _ => hl, rfl⟩, fun _ => rfl⟩
  · exact ⟨hq.trans hK.queue, hF ∘ hK.fifos, hM ∘ hK.mem, fun _ => outputsSafe_off rfl rfl, fun _ => rfl⟩

theorem State.review_kept {s₀ s : State} (hK : Kept s₀ s) : Kept s₀ (State.review s) :=
  State.review_after hK rfl rfl rfl rfl rfl (Kept.refl s)

-- State.giveUpClaim
theorem State.giveUpClaim_kept {s₀ s : State}  (hK : Kept s₀ s) :
    Kept s₀ (State.giveUpClaim s) := by
  unfold State.giveUpClaim
  repeat' first
    | with_reducible assumption
    | with_reducible apply State.setFail_kept
    | with_reducible refine Kept.ite ?_ ?_

-- State.enterSafe
theorem State.safeOff_of {s₀ s t : State} (cls origin : Nat) (hK : Kept s₀ s) (hp : t.pending = s.pending)
    (hf : t.faults = s.faults) (hm : t.mem = s.mem) : Kept s₀ (State.safeOff t cls origin) := by
  unfold State.safeOff
  refine Kept.foldl (hK.trans ⟨hp, fun k => ?_, fun k => ?_, fun _ => outputsSafe_off rfl rfl, fun _ => rfl⟩)
    fun t p k => State.setReg_kept _ _ _ k
  · simpa only [fifosOk, hf] using k
  · simpa only [hm] using k

/-- The safe state puts the outputs off, whatever else of the state was changed. -/
theorem State.enterSafe_of {s₀ s t : State} (cls origin : Nat) (hK : Kept s₀ s) (hp : t.pending = s.pending)
    (hf : t.faults = s.faults) (hm : t.mem = s.mem) : Kept s₀ (State.enterSafe t cls origin) := by
  have h := State.safeOff_of cls origin hK hp hf hm
  unfold State.enterSafe
  refine Kept.ite h (State.bump_kept _ _ _ (State.announce_kept (State.giveUpClaim_kept ?_)))
  exact Kept.foldl h fun t p k => State.writeSafe_kept _ k

theorem State.enterSafe_kept {s₀ s : State} (cls origin : Nat) (hK : Kept s₀ s) : Kept s₀ (State.enterSafe s cls origin) :=
  State.enterSafe_of cls origin hK rfl rfl rfl

-- State.lockReport
theorem State.lockReport_kept {s₀ s : State}  (hK : Kept s₀ s) :
    Kept s₀ (State.lockReport s) := by
  unfold State.lockReport
  repeat' first
    | with_reducible assumption
    | (intro x; first | (have hx : Kept s₀ x := (by dsimp only [x]; repeat' first | with_reducible assumption | with_reducible apply State.latch_kept | with_reducible apply State.post_kept)) | skip)
    | lift_lets
    | with_reducible refine State.setSup_same _ ?_ rfl rfl rfl rfl rfl rfl

-- State.enterLockout
theorem State.enterLockout_kept {s₀ s : State} (cls origin : Nat) (hK : Kept s₀ s) :
    Kept s₀ (State.enterLockout s cls origin) := by
  unfold State.enterLockout
  exact Kept.ite (State.enterSafe_kept _ _ hK) (State.lockReport_kept (State.abandonReseed_kept (State.markLockout_kept
    (State.enterSafe_of cls origin hK rfl rfl rfl))))

-- State.supervisorFault
theorem State.supervisorFault_kept {s₀ s : State} (bit : Nat) (cls : Nat) (hK : Kept s₀ s) :
    Kept s₀ (State.supervisorFault s bit cls) := by
  unfold State.supervisorFault
  repeat' first
    | with_reducible assumption
    | with_reducible apply State.raise_kept
    | with_reducible apply State.enterLockout_kept

-- State.react
theorem State.react_kept {s₀ s : State} (reaction : Nat) (cls : Nat) (origin : Nat) (hK : Kept s₀ s) :
    Kept s₀ (State.react s reaction cls origin) := by
  unfold State.react
  repeat' first
    | with_reducible assumption
    | with_reducible apply State.enterSafe_kept
    | with_reducible apply State.enterLockout_kept
    | with_reducible refine Kept.ite ?_ ?_

-- State.doSummaryTake
theorem State.doSummaryTake_kept {s₀ s : State}  (hK : Kept s₀ s) :
    Kept s₀ (State.doSummaryTake s) := by
  unfold State.doSummaryTake
  repeat' first
    | with_reducible assumption
    | with_reducible apply State.bump_kept
    | with_reducible apply State.react_kept
    | with_reducible apply State.enterLockout_kept
    | with_reducible refine State.setSup_same _ ?_ rfl rfl rfl rfl rfl rfl
    | with_reducible refine Kept.ite ?_ ?_
    | split

-- State.doRailTrip
theorem State.doRailTrip_kept {s₀ s : State} (rail : Nat) (hK : Kept s₀ s) :
    Kept s₀ (State.doRailTrip s rail) := by
  unfold State.doRailTrip
  repeat' first
    | with_reducible assumption
    | (intro x; first | (have hx : Kept s₀ x := (by dsimp only [x]; repeat' first | with_reducible assumption | with_reducible apply State.setReg_kept)) | skip)
    | lift_lets
    | with_reducible apply State.supervisorFault_kept
    | with_reducible refine State.setSup_same _ ?_ rfl rfl rfl rfl rfl rfl
    | with_reducible refine Kept.ite ?_ ?_

-- State.clockTripped
theorem State.clockTripped_kept {s₀ s : State} (bit : Nat) (cause : Nat) (hK : Kept s₀ s) :
    Kept s₀ (State.clockTripped s bit cause) := by
  unfold State.clockTripped
  repeat' first
    | with_reducible assumption
    | with_reducible apply State.setReg_kept
    | with_reducible apply State.supervisorFault_kept
    | with_reducible refine Kept.ite ?_ ?_

-- State.doMonitorTest
theorem State.doMonitorTest_kept {s₀ s : State} (tripped : Bool) (hK : Kept s₀ s) :
    Kept s₀ (State.doMonitorTest s tripped) := by
  unfold State.doMonitorTest
  repeat' first
    | with_reducible assumption
    | (intro x; first | (have hx : Kept s₀ x := (by dsimp only [x]; repeat' first | with_reducible assumption | with_reducible apply State.bump_kept)) | skip)
    | lift_lets
    | with_reducible apply State.supervisorFault_kept
    | with_reducible refine Kept.ite ?_ ?_

-- State.doSafeEnSense
theorem State.doSafeEnSense_kept {s₀ s : State} (a : Bool) (b : Bool) (hK : Kept s₀ s) :
    Kept s₀ (State.doSafeEnSense s a b) := by
  unfold State.doSafeEnSense
  repeat' first
    | with_reducible assumption
    | (intro x; first | (have hx : Kept s₀ x := (by dsimp only [x]; repeat' first | with_reducible assumption | with_reducible apply State.bump_kept | with_reducible refine State.setSup_same _ ?_ rfl rfl rfl rfl rfl rfl)) | skip)
    | lift_lets
    | with_reducible apply State.supervisorFault_kept
    | with_reducible refine Kept.ite ?_ ?_

-- State.doNoVerdict
theorem State.doNoVerdict_kept {s₀ s : State}  (hK : Kept s₀ s) :
    Kept s₀ (State.doNoVerdict s) := by
  unfold State.doNoVerdict
  repeat' first
    | with_reducible assumption
    | with_reducible apply State.supervisorFault_kept
    | with_reducible refine Kept.ite ?_ ?_

-- State.safeRequest
theorem State.safeRequest_kept {s₀ s : State} (v : Word) (hK : Kept s₀ s) :
    Kept s₀ (State.safeRequest s v) := by
  unfold State.safeRequest
  repeat' first
    | with_reducible assumption
    | with_reducible apply State.setReg_kept
    | with_reducible apply State.review_kept

-- State.restartCmd
theorem State.restartCmd_kept {s₀ s : State} (v : Word) (hK : Kept s₀ s) :
    Kept s₀ (State.restartCmd s v) := by
  unfold State.restartCmd
  repeat' first
    | with_reducible assumption
    | with_reducible refine State.setSup_same _ ?_ rfl rfl rfl rfl rfl rfl
    | with_reducible refine Kept.ite ?_ ?_

-- State.doPressStart
theorem State.doPressStart_kept {s₀ s : State}  (hK : Kept s₀ s) :
    Kept s₀ (State.doPressStart s) := by
  unfold State.doPressStart
  repeat' first
    | with_reducible assumption
    | with_reducible refine State.setSup_same _ ?_ rfl rfl rfl rfl rfl rfl

-- State.pressIsStuck
theorem State.pressIsStuck_kept {s₀ s : State}  (hK : Kept s₀ s) :
    Kept s₀ (State.pressIsStuck s) := by
  unfold State.pressIsStuck
  repeat' first
    | with_reducible assumption
    | with_reducible apply State.raise_kept
    | with_reducible refine State.setSup_same _ ?_ rfl rfl rfl rfl rfl rfl

-- State.acceptPress
theorem Kept.unlock {s₀ s : State} {u : Supervisor} (h : Kept s₀ s) (hl : u.live = s.sup.live) (hg : u.grant = s.sup.grant)
    (hm : u.startMode = s.sup.startMode) (hs : u.safeState = s.sup.safeState) (hk : u.latch.locked = false)
    (hp : u.pfwLow = s.sup.pfwLow) : Kept s₀ (s.setSup u) := by
  refine h.trans ⟨rfl, id, id, fun k => ?_, fun k => by simpa only [State.setSup, hl, hg] using k⟩
  rw [outputsSafe_live] at k ⊢
  refine ⟨fun j => ?_, by simpa only [State.setSup, hl, hg] using k.2⟩
  have m := k.1 (hl ▸ j)
  simp only [mayLive, State.setSup, hm, hs, hk, hp, Bool.and_eq_true] at m ⊢
  exact ⟨⟨⟨m.1.1.1, rfl⟩, m.1.2⟩, m.2⟩

theorem State.acceptPress_kept {s₀ s : State} (hK : Kept s₀ s) : Kept s₀ (State.acceptPress s) := by
  unfold State.acceptPress
  have h1 : Kept s₀ (s.setReg 0x003 Reg.reset.presses (satField (s.reg 0x003 Reg.reset.presses) 15 0 1)) :=
    State.setReg_kept _ _ _ hK
  refine Kept.ite (State.setSup_same _ h1 rfl rfl rfl rfl rfl rfl) (Kept.ite (Kept.ite ?_ ?_) (State.raise_kept _ _ _ h1))
  · exact State.commitRetirement_kept _ (h1.unlock rfl rfl rfl rfl rfl rfl)
  · exact h1.unlock rfl rfl rfl rfl rfl rfl

-- State.doPressRelease
theorem State.doPressRelease_kept {s₀ s : State} (us : Nat) (hK : Kept s₀ s) :
    Kept s₀ (State.doPressRelease s us) := by
  unfold State.doPressRelease
  repeat' first
    | with_reducible assumption
    | (intro x; first | (have hx : Kept s₀ x := (by dsimp only [x]; repeat' first | with_reducible assumption | with_reducible apply State.setReg_kept | with_reducible apply State.bump_kept | with_reducible refine State.setSup_same _ ?_ rfl rfl rfl rfl rfl rfl)) | skip)
    | lift_lets
    | with_reducible apply State.setReg_kept
    | with_reducible apply State.bump_kept
    | with_reducible apply State.pressIsStuck_kept
    | with_reducible apply State.acceptPress_kept
    | with_reducible refine State.setSup_same _ ?_ rfl rfl rfl rfl rfl rfl
    | with_reducible refine Kept.ite ?_ ?_

-- State.judgeContest
theorem State.judgeContest_kept {s₀ s : State} (before : State) (hK : Kept s₀ s) :
    Kept s₀ (State.judgeContest before s) := by
  unfold State.judgeContest
  repeat' first
    | with_reducible assumption
    | (intro x; first | (have hx : Kept s₀ x := (by dsimp only [x]; repeat' first | with_reducible assumption | with_reducible apply State.bump_kept | with_reducible apply State.giveUpClaim_kept | with_reducible apply State.raise_kept | with_reducible refine Kept.ite ?_ ?_)) | skip)
    | lift_lets
    | with_reducible apply State.review_kept

-- State.claimCtrl
theorem State.claimCtrl_kept {s₀ s : State} (v : Word) (hK : Kept s₀ s) :
    Kept s₀ (State.claimCtrl s v) := by
  unfold State.claimCtrl
  repeat' first
    | with_reducible assumption
    | (intro x; first | (have hx : Kept s₀ x := (by dsimp only [x]; repeat' first | with_reducible assumption | with_reducible apply State.setReg_kept)) | skip)
    | lift_lets
    | with_reducible apply State.giveUpClaim_kept
    | with_reducible apply State.review_kept
    | with_reducible refine Kept.ite ?_ ?_

-- State.doClaimStart
theorem State.doClaimStart_kept {s₀ s : State}  (hK : Kept s₀ s) :
    Kept s₀ (State.doClaimStart s) := by
  unfold State.doClaimStart
  repeat' first
    | with_reducible assumption
    | (intro x; first | (have hx : Kept s₀ x := (by dsimp only [x]; repeat' first | with_reducible assumption | with_reducible apply State.setFail_kept)) | skip)
    | lift_lets
    | with_reducible apply State.judgeContest_kept
    | with_reducible apply State.incReg_kept
    | with_reducible apply State.bump_kept
    | with_reducible refine Kept.ite ?_ ?_

-- State.doClaimActive
theorem State.doClaimActive_kept {s₀ s : State}  (hK : Kept s₀ s) :
    Kept s₀ (State.doClaimActive s) := by
  unfold State.doClaimActive
  repeat' first
    | with_reducible assumption
    | with_reducible apply State.setFail_kept
    | with_reducible apply State.bump_kept
    | with_reducible apply State.review_kept
    | with_reducible refine Kept.ite ?_ ?_

-- State.doClaimInEdge
theorem State.doClaimInEdge_kept {s₀ s : State} (ns : Nat) (hK : Kept s₀ s) :
    Kept s₀ (State.doClaimInEdge s ns) := by
  unfold State.doClaimInEdge
  repeat' first
    | with_reducible assumption
    | intro x
    | lift_lets
    | with_reducible apply State.judgeContest_kept
    | with_reducible apply State.setFail_kept

-- State.doPeerStopped
theorem State.doPeerStopped_kept {s₀ s : State}  (hK : Kept s₀ s) :
    Kept s₀ (State.doPeerStopped s) := by
  unfold State.doPeerStopped
  repeat' first
    | with_reducible assumption
    | with_reducible apply State.setFail_kept
    | with_reducible apply State.review_kept

-- State.doLineRelease
theorem State.doLineRelease_kept {s₀ s : State}  (hK : Kept s₀ s) :
    Kept s₀ (State.doLineRelease s) := by
  unfold State.doLineRelease
  repeat' first
    | with_reducible assumption
    | with_reducible apply State.setFail_kept
    | with_reducible apply State.incReg_kept
    | with_reducible refine Kept.ite ?_ ?_

-- State.doCwayDisagree
theorem State.doCwayDisagree_kept {s₀ s : State}  (hK : Kept s₀ s) :
    Kept s₀ (State.doCwayDisagree s) := by
  unfold State.doCwayDisagree
  repeat' first
    | with_reducible assumption
    | (intro x; first | (have hx : Kept s₀ x := (by dsimp only [x]; repeat' first | with_reducible assumption | with_reducible apply State.setFail_kept | with_reducible apply State.raise_kept | with_reducible apply State.bump_kept)) | skip)
    | lift_lets
    | with_reducible apply State.giveUpClaim_kept
    | with_reducible apply State.review_kept
    | with_reducible refine Kept.ite ?_ ?_

-- State.doFrozenClear
theorem State.doFrozenClear_kept {s₀ s : State}  (hK : Kept s₀ s) :
    Kept s₀ (State.doFrozenClear s) := by
  unfold State.doFrozenClear
  repeat' first
    | with_reducible assumption
    | with_reducible apply State.setFail_kept
    | with_reducible apply State.review_kept
    | with_reducible refine Kept.ite ?_ ?_

-- State.doPeerNoWithdraw
theorem State.doPeerNoWithdraw_kept {s₀ s : State}  (hK : Kept s₀ s) :
    Kept s₀ (State.doPeerNoWithdraw s) := by
  unfold State.doPeerNoWithdraw
  repeat' first
    | with_reducible assumption
    | with_reducible apply State.setFail_kept
    | with_reducible apply State.raise_kept
    | with_reducible refine Kept.ite ?_ ?_

-- State.cwayConfigured
theorem State.cwayConfigured_kept {s₀ s : State}  (hK : Kept s₀ s) :
    Kept s₀ (State.cwayConfigured s) := by
  unfold State.cwayConfigured
  repeat' first
    | with_reducible assumption
    | (intro x; first | (have hx : Kept s₀ x := (by dsimp only [x]; repeat' first | with_reducible assumption | with_reducible apply State.incReg_kept | with_reducible refine Kept.ite ?_ ?_)) | skip)
    | lift_lets
    | with_reducible apply State.setFail_kept
    | with_reducible apply State.review_kept
    | with_reducible refine Kept.ite ?_ ?_

-- State.setPresent
theorem State.setPresent_kept {s₀ s : State} (l : List Nat) (hK : Kept s₀ s) :
    Kept s₀ (State.setPresent s l) := by
  unfold State.setPresent
  repeat' first
    | with_reducible assumption
    | with_reducible apply State.setFail_kept
    | with_reducible apply State.incReg_kept

-- State.setMaster
theorem State.setMaster_kept {s₀ s : State} (id : Fin 8) (hK : Kept s₀ s) :
    Kept s₀ (State.setMaster s id) := by
  unfold State.setMaster
  repeat' first
    | with_reducible assumption
    | with_reducible apply State.setFail_kept
    | with_reducible apply State.satReg_kept
    | with_reducible apply State.bump_kept

-- State.doHeartbeatSend
theorem State.doHeartbeatSend_kept {s₀ s : State}  (hK : Kept s₀ s) :
    Kept s₀ (State.doHeartbeatSend s) := by
  unfold State.doHeartbeatSend
  repeat' first
    | with_reducible assumption
    | (intro x; first | (have hx : Kept s₀ x := (by dsimp only [x]; repeat' first | with_reducible assumption | with_reducible apply State.bump_kept)) | skip)
    | lift_lets
    | with_reducible apply State.setMaster_kept
    | with_reducible apply State.raise_kept
    | with_reducible refine Kept.ite ?_ ?_

-- State.admitMember
theorem State.admitMember_kept {s₀ s : State} (id : Nat) (hK : Kept s₀ s) :
    Kept s₀ (State.admitMember s id) := by
  unfold State.admitMember
  repeat' first
    | with_reducible assumption
    | intro x
    | lift_lets
    | with_reducible apply State.setFail_kept
    | with_reducible apply State.setPresent_kept
    | with_reducible refine Kept.ite ?_ ?_

-- State.followMaster
theorem State.followMaster_kept {s₀ s : State} (hb : Heartbeat) (hK : Kept s₀ s) :
    Kept s₀ (State.followMaster s hb) := by
  unfold State.followMaster
  repeat' first
    | with_reducible assumption
    | with_reducible apply State.setMaster_kept
    | with_reducible apply State.setFail_kept
    | with_reducible refine Kept.ite ?_ ?_

-- State.hearPeer
theorem State.hearPeer_kept {s₀ s : State} (hb : Heartbeat) (hK : Kept s₀ s) :
    Kept s₀ (State.hearPeer s hb) := by
  unfold State.hearPeer
  repeat' first
    | with_reducible assumption
    | (intro x; first | (have hx : Kept s₀ x := (by dsimp only [x]; repeat' first | with_reducible assumption | with_reducible apply State.judgeContest_kept | with_reducible apply State.setFail_kept)) | skip)
    | lift_lets
    | with_reducible apply State.raise_kept
    | with_reducible apply State.enterSafe_kept
    | with_reducible apply State.giveUpClaim_kept
    | with_reducible refine Kept.ite ?_ ?_

-- State.doHeartbeatReceived
theorem State.doHeartbeatReceived_kept {s₀ s : State} (hb : Heartbeat) (hK : Kept s₀ s) :
    Kept s₀ (State.doHeartbeatReceived s hb) := by
  unfold State.doHeartbeatReceived
  repeat' first
    | with_reducible assumption
    | (intro x; first | (have hx : Kept s₀ x := (by dsimp only [x]; repeat' first | with_reducible assumption | with_reducible apply State.bump_kept | with_reducible apply State.followMaster_kept | with_reducible apply State.admitMember_kept | with_reducible apply State.hearPeer_kept)) | skip)
    | lift_lets
    | with_reducible apply State.raise_kept
    | with_reducible apply State.ntMeasure_kept
    | with_reducible refine Kept.ite ?_ ?_

-- State.doMemberLost
theorem State.doMemberLost_kept {s₀ s : State} (id : Nat) (hK : Kept s₀ s) :
    Kept s₀ (State.doMemberLost s id) := by
  unfold State.doMemberLost
  repeat' first
    | with_reducible assumption
    | (intro x; first | (have hx : Kept s₀ x := (by dsimp only [x]; repeat' first | with_reducible assumption | with_reducible apply State.setPresent_kept | with_reducible apply State.satReg_kept | with_reducible apply State.bump_kept | with_reducible apply State.raise_kept)) | skip)
    | lift_lets
    | with_reducible apply State.setFail_kept
    | with_reducible apply State.review_kept
    | with_reducible refine Kept.ite ?_ ?_

-- State.doTakeover
theorem State.doTakeover_kept {s₀ s : State}  (hK : Kept s₀ s) :
    Kept s₀ (State.doTakeover s) := by
  unfold State.doTakeover
  repeat' first
    | with_reducible assumption
    | (intro x; first | (have hx : Kept s₀ x := (by dsimp only [x]; repeat' first | with_reducible assumption | with_reducible apply State.setMaster_kept)) | skip)
    | lift_lets
    | with_reducible apply State.setFail_kept
    | with_reducible refine Kept.ite ?_ ?_

-- State.setVaoskad
theorem State.setVaoskad_kept {s₀ s : State} (port : Fin 2) (b : Bool) (hK : Kept s₀ s) :
    Kept s₀ (State.setVaoskad s port b) := by
  unfold State.setVaoskad
  repeat' first
    | with_reducible assumption
    | with_reducible apply State.setFail_kept

-- State.doRingOpen
theorem State.doRingOpen_kept {s₀ s : State} (port : Fin 2) (hK : Kept s₀ s) :
    Kept s₀ (State.doRingOpen s port) := by
  unfold State.doRingOpen
  repeat' first
    | with_reducible assumption
    | (intro x; first | (have hx : Kept s₀ x := (by dsimp only [x]; repeat' first | with_reducible assumption | with_reducible apply State.setVaoskad_kept)) | skip)
    | lift_lets
    | with_reducible apply State.setFail_kept
    | with_reducible apply State.raise_kept
    | with_reducible refine Kept.ite ?_ ?_

-- State.doPortUp
theorem State.doPortUp_kept {s₀ s : State} (port : Fin 2) (hK : Kept s₀ s) :
    Kept s₀ (State.doPortUp s port) := by
  unfold State.doPortUp
  repeat' first
    | with_reducible assumption
    | (intro x; first | (have hx : Kept s₀ x := (by dsimp only [x]; repeat' first | with_reducible assumption | with_reducible apply State.setVaoskad_kept)) | skip)
    | lift_lets
    | with_reducible apply State.setFail_kept

-- State.captureCway
theorem State.captureCway_kept {s₀ s : State}  (hK : Kept s₀ s) :
    Kept s₀ (State.captureCway s) := by
  unfold State.captureCway
  repeat' first
    | with_reducible assumption
    | with_reducible apply State.setReg_kept

end Sys2Proof.Laws
end

