-- ==== Sys2Proof/Laws/KeptObserve.lean ====
section
/-!
SUPPORT. `Kept` for the operations of Machine/Observe.lean.
-/
namespace Sys2Proof.Laws
open Sys2Proof Sys2Proof.Machine Sys2Proof.Safety

-- State.setObs
theorem State.setObs_same {s₀ s : State} (o : Observe) (hK : Kept s₀ s) (ho : o.wsOpened = s.obs.wsOpened) :
    Kept s₀ (s.setObs o) :=
  hK.of rfl rfl rfl rfl ho id

-- State.doPmcSel
theorem State.doPmcSel_kept {s₀ s : State} (k : Nat) (v : Word) (hK : Kept s₀ s) :
    Kept s₀ (State.doPmcSel s k v) := by
  unfold State.doPmcSel
  repeat' first
    | with_reducible assumption
    | (intro x; first | (have hx : Kept s₀ x := (by dsimp only [x]; repeat' first | with_reducible assumption | with_reducible apply State.storeReg_kept)) | skip)
    | lift_lets
    | with_reducible refine State.setObs_same _ ?_ rfl

-- State.doBwWindowEnd
theorem State.doBwWindowEnd_kept {s₀ s : State}  (hK : Kept s₀ s) :
    Kept s₀ (State.doBwWindowEnd s) := by
  unfold State.doBwWindowEnd
  repeat' first
    | with_reducible assumption
    | with_reducible apply State.incReg_kept
    | with_reducible apply State.bump_kept
    | with_reducible refine State.setObs_same _ ?_ rfl
    | with_reducible refine Kept.ite ?_ ?_

-- State.doBwWindow
theorem State.doBwWindow_kept {s₀ s : State} (v : Word) (hK : Kept s₀ s) :
    Kept s₀ (State.doBwWindow s v) := by
  unfold State.doBwWindow
  repeat' first
    | with_reducible assumption
    | (intro x; first | (have hx : Kept s₀ x := (by dsimp only [x]; repeat' first | with_reducible assumption | with_reducible apply State.storeReg_kept)) | skip)
    | lift_lets
    | with_reducible refine State.setObs_same _ ?_ rfl

-- State.doSmpCtrl
theorem State.doSmpCtrl_kept {s₀ s : State} (n : Nat) (v : Word) (hK : Kept s₀ s) :
    Kept s₀ (State.doSmpCtrl s n v) := by
  unfold State.doSmpCtrl
  repeat' first
    | with_reducible assumption
    | (intro x; first | (have hx : Kept s₀ x := (by dsimp only [x]; repeat' first | with_reducible assumption | with_reducible apply State.storeReg_kept)) | skip)
    | lift_lets
    | with_reducible apply State.setSampler_kept
    | with_reducible refine Kept.ite ?_ ?_

-- State.tap
theorem State.tap_kept {s₀ s : State} (ir : BitVec 5) (hK : Kept s₀ s) :
    Kept s₀ (State.tap s ir) := by
  unfold State.tap
  repeat' first
    | with_reducible assumption
    | with_reducible refine State.setObs_same _ ?_ rfl

-- State.bypassScan
theorem State.bypassScan_kept {s₀ s : State} (scan : DWord) (hK : Kept s₀ s) :
    Kept s₀ (State.bypassScan s scan) := by
  unfold State.bypassScan
  repeat' first
    | with_reducible assumption
    | with_reducible apply State.answer_kept

-- State.boundaryScan
theorem State.boundaryScan_kept {s₀ s : State} (scan : DWord) (hK : Kept s₀ s) :
    Kept s₀ (State.boundaryScan s scan) := by
  unfold State.boundaryScan
  repeat' first
    | with_reducible assumption
    | (intro x; first | (have hx : Kept s₀ x.2 := (show KeptSnd s₀ x from (by dsimp only [x]; repeat' first | with_reducible assumption | (refine KeptSnd.of ?_; first | with_reducible assumption | with_reducible apply State.drawDword_kept | with_reducible apply State.answer_kept | with_reducible apply State.bypassScan_kept | with_reducible refine Kept.foldlFst ?_ (fun _ _ _ => ?_) | with_reducible refine Kept.foldlSnd ?_ (fun _ _ _ => ?_))))) | skip)
    | lift_lets
    | with_reducible apply State.answer_kept
    | with_reducible apply State.bypassScan_kept
    | with_reducible refine Kept.ite ?_ ?_

-- State.setDm
theorem State.setDm_kept {s₀ s : State} (a : Nat) (v : Word) (hK : Kept s₀ s) :
    Kept s₀ (State.setDm s a v) := by
  unfold State.setDm
  repeat' first
    | with_reducible assumption
    | with_reducible refine State.setObs_same _ ?_ rfl

-- State.cmdErr
theorem State.cmdErr_kept {s₀ s : State} (e : Nat) (hK : Kept s₀ s) :
    Kept s₀ (State.cmdErr s e) := by
  unfold State.cmdErr
  repeat' first
    | with_reducible assumption
    | with_reducible apply State.setDm_kept

-- State.accessRegister
theorem State.accessRegister_kept {s₀ s : State} (r : DebugReg) (write : Bool) (wide : Bool) (hK : Kept s₀ s) :
    Kept s₀ (State.accessRegister s r write wide) := by
  unfold State.accessRegister
  repeat' first
    | with_reducible assumption
    | (intro x; first | (have hx : Kept s₀ x.2 := (show KeptSnd s₀ x from (by dsimp only [x]; repeat' first | with_reducible assumption | (refine KeptSnd.of ?_; first | with_reducible assumption | with_reducible apply State.doDebugRegisterWrite_kept | with_reducible apply State.setDm_kept | with_reducible apply State.drawDword_kept | with_reducible refine Kept.foldlFst ?_ (fun _ _ _ => ?_) | with_reducible refine Kept.foldlSnd ?_ (fun _ _ _ => ?_))))) | skip)
    | lift_lets
    | with_reducible apply State.doDebugRegisterWrite_kept
    | with_reducible apply State.setDm_kept
    | with_reducible refine Kept.ite ?_ ?_

-- State.dmCommand
theorem State.dmCommand_kept {s₀ s : State} (v : Word) (hK : Kept s₀ s) :
    Kept s₀ (State.dmCommand s v) := by
  unfold State.dmCommand
  repeat' first
    | with_reducible assumption
    | intro x
    | lift_lets
    | with_reducible apply State.cmdErr_kept
    | with_reducible apply State.accessRegister_kept
    | with_reducible refine Kept.ite ?_ ?_
    | split

-- State.hartHalt
theorem State.hartHalt_kept {s₀ s : State} (h : Nat) (hK : Kept s₀ s) :
    Kept s₀ (State.hartHalt s h) := by
  unfold State.hartHalt
  repeat' first
    | with_reducible assumption
    | with_reducible apply State.doDebugHaltRequest_kept
    | with_reducible refine State.setObs_same _ ?_ rfl
    | with_reducible refine Kept.ite ?_ ?_

-- State.hartResume
theorem State.hartResume_kept {s₀ s : State} (h : Nat) (hK : Kept s₀ s) :
    Kept s₀ (State.hartResume s h) := by
  unfold State.hartResume
  repeat' first
    | with_reducible assumption
    | (intro x; first | (have hx : Kept s₀ x := (by dsimp only [x]; repeat' first | with_reducible assumption | with_reducible apply State.debugAction_kept | with_reducible apply State.unhalt_kept | with_reducible refine State.setObs_same _ ?_ rfl | with_reducible refine Kept.ite ?_ ?_)) | skip)
    | lift_lets
    | with_reducible apply State.setDm_kept
    | with_reducible refine Kept.ite ?_ ?_

-- State.dmControl
theorem State.dmControl_kept {s₀ s : State} (v : Word) (hK : Kept s₀ s) :
    Kept s₀ (State.dmControl s v) := by
  unfold State.dmControl
  repeat' first
    | with_reducible assumption
    | (intro x; first | (have hx : Kept s₀ x := (by dsimp only [x]; repeat' first | with_reducible assumption | with_reducible apply State.setDm_kept)) | skip)
    | lift_lets
    | with_reducible apply State.setDm_kept
    | with_reducible apply State.hartHalt_kept
    | with_reducible apply State.hartResume_kept
    | with_reducible refine State.setObs_same _ ?_ rfl
    | with_reducible refine Kept.ite ?_ ?_

-- State.dmWrite
theorem State.dmWrite_kept {s₀ s : State} (a : Nat) (v : Word) (hK : Kept s₀ s) :
    Kept s₀ (State.dmWrite s a v) := by
  unfold State.dmWrite
  repeat' first
    | with_reducible assumption
    | with_reducible apply State.dmControl_kept
    | with_reducible apply State.setDm_kept
    | with_reducible apply State.dmCommand_kept
    | with_reducible refine Kept.ite ?_ ?_

-- State.doDmi
theorem State.doDmi_kept {s₀ s : State} (op : DmiOp) (a : Nat) (v : Word) (hK : Kept s₀ s) :
    Kept s₀ (State.doDmi s op a v) := by
  unfold State.doDmi
  repeat' first
    | with_reducible assumption
    | with_reducible apply State.answer_kept
    | with_reducible apply State.dmWrite_kept
    | with_reducible refine Kept.ite ?_ ?_
    | split

-- State.unlockFailed
theorem State.unlockFailed_kept {s₀ s : State}  (hK : Kept s₀ s) :
    Kept s₀ (State.unlockFailed s) := by
  unfold State.unlockFailed
  repeat' first
    | with_reducible assumption
    | (intro x; first | (have hx : Kept s₀ x := (by dsimp only [x]; repeat' first | with_reducible assumption | with_reducible apply State.bump_kept | with_reducible refine State.setObs_same _ ?_ rfl)) | skip)
    | lift_lets
    | with_reducible apply State.raise_kept
    | with_reducible refine Kept.ite ?_ ?_

-- State.workshopOpens
theorem State.workshopOpens_kept {s₀ s : State} (route : Nat) (hK : Kept s₀ s) : Kept s₀ (State.workshopOpens s route) := by
  unfold State.workshopOpens
  exact State.review_after (x := s.setObs { s.obs with unlockStep := 0, wsOpen := true, wsOpened := true }) hK rfl rfl rfl rfl
    rfl (State.raise_kept _ _ _ (State.bump_kept _ _ _ (Kept.refl _)))

-- State.unlockWrite
theorem State.unlockWrite_kept {s₀ s : State} (route : Nat) (v : Word) (hK : Kept s₀ s) :
    Kept s₀ (State.unlockWrite s route v) := by
  unfold State.unlockWrite
  repeat' first
    | with_reducible assumption
    | with_reducible apply State.unlockFailed_kept
    | with_reducible apply State.workshopOpens_kept
    | with_reducible refine State.setObs_same _ ?_ rfl
    | with_reducible refine Kept.ite ?_ ?_

-- State.thawAll
theorem State.thawAll_kept {s₀ s : State}  (hK : Kept s₀ s) :
    Kept s₀ (State.thawAll s) := by
  unfold State.thawAll
  repeat' first
    | with_reducible assumption
    | with_reducible apply State.setPage_kept
    | with_reducible refine Kept.foldl ?_ (fun _ _ _ => ?_)

-- State.workshopCloses
theorem State.workshopCloses_kept {s₀ s : State}  (hK : Kept s₀ s) :
    Kept s₀ (State.workshopCloses s) := by
  unfold State.workshopCloses
  repeat' first
    | with_reducible assumption
    | (intro x; first | (have hx : Kept s₀ x := (by dsimp only [x]; repeat' first | with_reducible assumption | with_reducible apply State.thawAll_kept | (simp only [Kept.mk_iff]; refine KeptMk.upd ?_ rfl rfl rfl rfl rfl rfl rfl rfl))) | skip)
    | lift_lets
    | with_reducible apply State.unhalt_kept
    | with_reducible refine State.setObs_same _ ?_ rfl
    | with_reducible refine Kept.ite ?_ ?_

-- State.ptWrite
theorem State.ptWrite_kept {s₀ s : State} (m : Master) (off : Nat) (v : Word) (hK : Kept s₀ s) :
    Kept s₀ (State.ptWrite s m off v) := by
  unfold State.ptWrite
  repeat' first
    | with_reducible assumption
    | with_reducible apply State.written_kept
    | with_reducible apply State.storeReg_kept
    | intro _
    | with_reducible refine Kept.ite ?_ ?_

-- State.doReportRelease
theorem State.doReportRelease_kept {s₀ s : State} (k : Copy) (hK : Kept s₀ s) :
    Kept s₀ (State.doReportRelease s k) := by
  unfold State.doReportRelease
  repeat' first
    | with_reducible assumption
    | intro x
    | lift_lets
    | (simp only [Kept.mk_iff]; refine KeptMk.upd ?_ rfl rfl rfl rfl rfl rfl rfl rfl)

end Sys2Proof.Laws
end

