-- ==== Sys2Proof/Laws/KeptPstate.lean ====
section
/-!
SUPPORT. `Kept` for the operations of Machine/Pstate.lean.
-/
namespace Sys2Proof.Laws
open Sys2Proof Sys2Proof.Machine Sys2Proof.Safety

-- State.cpRefused
theorem State.cpRefused_kept {s₀ s : State} (mgmt : Bool) (code : Nat) (hK : Kept s₀ s) :
    Kept s₀ (State.cpRefused s mgmt code) := by
  unfold State.cpRefused
  repeat' first
    | with_reducible assumption
    | (intro x; first | (have hx : Kept s₀ x := (by dsimp only [x]; repeat' first | with_reducible assumption | with_reducible apply State.setPort_kept | with_reducible apply State.incReg_kept | with_reducible apply State.setReg_kept | with_reducible apply State.bump_kept)) | skip)
    | lift_lets
    | with_reducible apply State.latch_kept
    | with_reducible apply State.raise_kept
    | with_reducible refine Kept.ite ?_ ?_

-- State.servePortN
theorem State.servePortN_kept {s₀ : State} (mgmt : Bool) (n : Nat) {s : State} (hK : Kept s₀ s) :
    Kept s₀ (State.servePortN s mgmt n) := by
  induction n generalizing s with
  | zero => exact hK
  | succ n ih =>
    unfold State.servePortN
    split
    · exact hK
    · refine Kept.ite hK ?_
      dsimp only
      repeat' first
        | with_reducible exact hK
        | exact ih (State.cpRefused_kept _ _ hK)
        | exact State.bw_kept _ _ (State.submit_kept _ (State.setNv_kept _ (State.setPort_kept _ _ hK)))
        | split

-- State.servePort
theorem State.servePort_kept {s₀ s : State} (mgmt : Bool) (hK : Kept s₀ s) :
    Kept s₀ (State.servePort s mgmt) := by
  unfold State.servePort
  repeat' first
    | with_reducible assumption
    | with_reducible apply State.servePortN_kept

-- State.cpCommand
theorem State.cpCommand_kept {s₀ s : State} (mgmt : Bool) (cmd : Nat) (hK : Kept s₀ s) :
    Kept s₀ (State.cpCommand s mgmt cmd) := by
  unfold State.cpCommand
  repeat' first
    | with_reducible assumption
    | intro x
    | lift_lets
    | with_reducible apply State.satReg_kept
    | with_reducible apply State.raise_kept
    | with_reducible apply State.setPort_kept
    | with_reducible apply State.incReg_kept
    | with_reducible apply State.bump_kept
    | with_reducible apply State.servePort_kept
    | with_reducible refine Kept.ite ?_ ?_

-- State.userLine
theorem State.userLine_kept {s₀ s : State} (cls : Nat) (src : Nat) (line : Nat) (hK : Kept s₀ s) :
    Kept s₀ (State.userLine s cls src line) := by
  unfold State.userLine
  repeat' first
    | with_reducible assumption
    | (intro x; first | (have hx : Kept s₀ x := (by dsimp only [x]; repeat' first | with_reducible assumption | with_reducible apply State.bw_kept)) | skip)
    | lift_lets
    | with_reducible apply State.bump_kept
    | with_reducible apply State.mramWrite_kept
    | with_reducible refine Kept.ite ?_ ?_

-- State.userCommit
theorem State.userCommit_kept {s₀ s : State} (mgmt : Bool) (r : CpReq) (hK : Kept s₀ s) :
    Kept s₀ (State.userCommit s mgmt r) := by
  unfold State.userCommit
  repeat' first
    | with_reducible assumption
    | (intro x; first | (have hx : Kept s₀ x := (by dsimp only [x]; repeat' first | with_reducible assumption | with_reducible apply State.userLine_kept | with_reducible refine Kept.foldl ?_ (fun _ _ _ => ?_))) | skip)
    | lift_lets
    | with_reducible apply State.setNv_kept
    | with_reducible apply State.journalSeqIs_kept
    | with_reducible apply State.cpDone_kept

-- State.pfNext
theorem State.pfNext_kept {s₀ s : State}  (hK : Kept s₀ s) :
    Kept s₀ (State.pfNext s) := by
  unfold State.pfNext
  repeat' first
    | with_reducible assumption
    | (intro x; first | (have hx : Kept s₀ x := (by dsimp only [x]; repeat' first | with_reducible assumption | with_reducible apply State.setPs_kept | with_reducible apply State.commitPowerFail_kept)) | skip)
    | lift_lets
    | with_reducible apply State.setPs_kept
    | with_reducible refine Kept.ite ?_ ?_

-- State.doRecordMark
theorem State.doRecordMark_kept {s₀ s : State}  (hK : Kept s₀ s) :
    Kept s₀ (State.doRecordMark s) := by
  unfold State.doRecordMark
  repeat' first
    | with_reducible assumption
    | (intro x; first | (have hx : Kept s₀ x := (by dsimp only [x]; repeat' first | with_reducible assumption | with_reducible apply State.completeMark_kept)) | skip)
    | lift_lets
    | with_reducible apply State.servePort_kept
    | with_reducible apply State.pfNext_kept

-- State.doCommitRequestDone
theorem State.doCommitRequestDone_kept {s₀ s : State} (mgmt : Bool) (hK : Kept s₀ s) :
    Kept s₀ (State.doCommitRequestDone s mgmt) := by
  unfold State.doCommitRequestDone
  repeat' first
    | with_reducible assumption
    | lift_lets
    | with_reducible apply State.doRecordMark_kept
    | with_reducible apply State.userCommit_kept
    | with_reducible apply State.cpRefused_kept
    | with_reducible apply State.setPs_kept
    | with_reducible apply State.servePort_kept
    | with_reducible apply State.pfNext_kept
    | with_reducible refine Kept.ite ?_ ?_
    | split
    | (simp only [Kept.mk_iff]; refine KeptMk.upd ?_ rfl rfl rfl rfl rfl rfl rfl rfl)

-- State.setBudgets
theorem State.setBudgets_kept {s₀ s : State} (f : Nat → Nat) (hK : Kept s₀ s) :
    Kept s₀ (State.setBudgets s f) := by
  unfold State.setBudgets
  repeat' first
    | with_reducible assumption
    | (intro x; first | (have hx : Kept s₀ x := (by dsimp only [x]; repeat' first | with_reducible assumption | with_reducible apply State.setPs_kept)) | skip)
    | lift_lets
    | with_reducible apply State.raise_kept
    | with_reducible refine Kept.ite ?_ ?_

-- State.offCharge
theorem State.offCharge_kept {s₀ s : State} (source : Nat) (secs : Option Nat) (hK : Kept s₀ s) :
    Kept s₀ (State.offCharge s source secs) := by
  unfold State.offCharge
  repeat' first
    | with_reducible assumption
    | (intro x; first | (have hx : Kept s₀ x := (by dsimp only [x]; repeat' first | with_reducible assumption | with_reducible apply State.setPs_kept)) | skip)
    | lift_lets
    | with_reducible apply State.setReg_kept
    | with_reducible apply State.setBudgets_kept
    | split

-- State.assumeOff
theorem State.assumeOff_kept {s₀ s : State}  (hK : Kept s₀ s) :
    Kept s₀ (State.assumeOff s) := by
  unfold State.assumeOff
  repeat' first
    | with_reducible assumption
    | (intro x; first | (have hx : Kept s₀ x := (by dsimp only [x]; repeat' first | with_reducible assumption | with_reducible apply State.raise_kept | with_reducible refine Kept.ite ?_ ?_)) | skip)
    | lift_lets
    | with_reducible apply State.offCharge_kept

-- State.doOffTimeCharge
theorem State.doOffTimeCharge_kept {s₀ s : State}  (hK : Kept s₀ s) :
    Kept s₀ (State.doOffTimeCharge s) := by
  unfold State.doOffTimeCharge
  repeat' first
    | with_reducible assumption
    | lift_lets
    | with_reducible apply State.assumeOff_kept
    | with_reducible apply State.offCharge_kept
    | with_reducible refine Kept.ite ?_ ?_
    | split
    | (simp only [Kept.mk_iff]; refine KeptMk.upd ?_ rfl rfl rfl rfl rfl rfl rfl rfl)

-- State.doRefresh
theorem State.doRefresh_kept {s₀ s : State}  (hK : Kept s₀ s) :
    Kept s₀ (State.doRefresh s) := by
  unfold State.doRefresh
  repeat' first
    | with_reducible assumption
    | (intro x; first | (have hx : Kept s₀ x := (by dsimp only [x]; repeat' first | with_reducible assumption | with_reducible apply State.countWrites_kept | with_reducible apply State.bump_kept | (simp only [Kept.mk_iff]; refine KeptMk.upd ?_ rfl rfl rfl rfl rfl rfl rfl rfl))) | skip)
    | lift_lets
    | with_reducible apply State.setPs_kept
    | with_reducible apply State.satReg_kept
    | with_reducible refine Kept.ite ?_ ?_

-- State.remap
theorem State.remap_kept {s₀ s : State} (off : Nat) (hK : Kept s₀ s) :
    Kept s₀ (State.remap s off) := by
  unfold State.remap
  repeat' first
    | with_reducible assumption
    | (intro x; first | (have hx : Kept s₀ x := (by dsimp only [x]; repeat' first | with_reducible assumption | with_reducible apply State.setNv_kept | with_reducible apply State.countWrites_kept | with_reducible apply State.bump_kept)) | skip)
    | lift_lets
    | with_reducible apply State.raise_kept
    | with_reducible refine Kept.ite ?_ ?_

-- State.mramCorrected
theorem State.mramCorrected_kept {s₀ s : State} (w : Nat) (hK : Kept s₀ s) :
    Kept s₀ (State.mramCorrected s w) := by
  unfold State.mramCorrected
  repeat' first
    | with_reducible assumption
    | with_reducible apply State.satReg_kept
    | with_reducible apply State.bump_kept
    | with_reducible apply State.recAdd_kept

-- State.mramBad
theorem State.mramBad_kept {s₀ s : State}  (hK : Kept s₀ s) :
    Kept s₀ (State.mramBad s) := by
  unfold State.mramBad
  repeat' first
    | with_reducible assumption
    | with_reducible apply State.satReg_kept
    | with_reducible apply State.bump_kept
    | with_reducible apply State.raise_kept

-- State.scrubSingle
theorem State.scrubSingle_kept {s₀ s : State} (again : Bool) (w : Nat) (hK : Kept s₀ s) :
    Kept s₀ (State.scrubSingle s again w) := by
  unfold State.scrubSingle
  have e : (s.mramCorrected w).mem = s.mem := by
    unfold State.mramCorrected State.recAdd
    (repeat' split) <;> simp [State.setNv]
  have h0 : Kept s₀ { s.mramCorrected w with mem := { s.mem with mramEcc := tblErase s.mem.mramEcc w } } :=
    (State.mramCorrected_kept w hK).of rfl rfl rfl rfl rfl fun k => by rw [e] at k; exact k
  have h1 := State.countWrites_kept (w / 8 * 64) 1 h0
  exact Kept.ite (State.remap_kept _ h1) h1

-- State.doMramScrub
theorem State.doMramScrub_kept {s₀ s : State} (u : Option Upset) (again : Bool) (hK : Kept s₀ s) :
    Kept s₀ (State.doMramScrub s u again) := by
  unfold State.doMramScrub
  repeat' first
    | with_reducible assumption
    | (intro x; first | (have hx : Kept s₀ x := (by dsimp only [x]; repeat' first | with_reducible assumption | with_reducible apply State.bump_kept | with_reducible apply State.scrubSingle_kept | with_reducible refine Kept.foldl ?_ (fun _ _ _ => ?_) | (simp only [Kept.mk_iff]; refine KeptMk.upd ?_ rfl rfl rfl rfl rfl rfl rfl rfl))) | skip)
    | lift_lets
    | with_reducible apply State.mramBad_kept
    | with_reducible apply State.remap_kept
    | with_reducible refine Kept.foldl ?_ (fun _ _ _ => ?_)
    | with_reducible refine Kept.ite ?_ ?_

-- State.pfWarn
theorem State.pfWarn_kept {s₀ s : State}  (hK : Kept s₀ s) :
    Kept s₀ (State.pfWarn s) := by
  unfold State.pfWarn
  repeat' first
    | with_reducible assumption
    | (intro x; first | (have hx : Kept s₀ x := (by dsimp only [x]; repeat' first | with_reducible assumption | with_reducible apply State.setPs_kept | with_reducible apply State.commitRetirement_kept | with_reducible apply State.commitRunning_kept | with_reducible apply State.commitTable_kept | split)) | skip)
    | lift_lets
    | with_reducible apply State.setPs_kept
    | with_reducible apply State.pfNext_kept
    | with_reducible refine Kept.ite ?_ ?_

-- State.doPowerFailWarning
theorem State.doPowerFailWarning_kept {s₀ s : State} (hK : Kept s₀ s) : Kept s₀ (State.doPowerFailWarning s) := by
  unfold State.doPowerFailWarning
  exact State.review_after (x := s.setSup { s.sup with pfwLow := true, pfwSeen := true, pgCount := false }) hK rfl rfl rfl rfl
    rfl (Kept.ite (Kept.refl _) (State.pfWarn_kept (Kept.refl _)))

-- State.doPfwRelease
theorem State.doPfwRelease_kept {s₀ s : State} (hK : Kept s₀ s) : Kept s₀ (State.doPfwRelease s) := by
  unfold State.doPfwRelease
  exact State.review_after (x := s.setSup { s.sup with pfwLow := false }) hK rfl rfl rfl rfl rfl (Kept.ite (State.servePort_kept _ (State.servePort_kept _
    (State.issueNext_kept (State.setPs_kept _ (Kept.refl _))))) (Kept.refl _))

-- State.takeCount
theorem State.takeCount_kept {s₀ s : State} (e : Nat × Nat) (hK : Kept s₀ s) :
    Kept s₀ (State.takeCount s e) := by
  unfold State.takeCount
  repeat' first
    | with_reducible assumption
    | (intro x; first | (have hx : Kept s₀ x := (by dsimp only [x]; repeat' first | with_reducible assumption | with_reducible apply State.recAdd_kept)) | skip)
    | lift_lets
    | with_reducible apply State.setPs_kept
    | with_reducible refine Kept.ite ?_ ?_

-- State.takeCounts
theorem State.takeCounts_kept {s₀ s : State}  (hK : Kept s₀ s) :
    Kept s₀ (State.takeCounts s) := by
  unfold State.takeCounts
  repeat' first
    | with_reducible assumption
    | with_reducible apply State.takeCount_kept
    | with_reducible refine Kept.foldl ?_ (fun _ _ _ => ?_)

-- State.recRail
theorem State.recRail_kept {s₀ s : State} (first : Bool) (r : Nat) (mv : Nat) (hK : Kept s₀ s) :
    Kept s₀ (State.recRail s first r mv) := by
  unfold State.recRail
  repeat' first
    | with_reducible assumption
    | intro x
    | lift_lets
    | with_reducible apply State.recAdd_kept
    | with_reducible apply State.recMin_kept
    | with_reducible apply State.recMax_kept

-- State.recordSecond
theorem State.recordSecond_kept {s₀ s : State} (milliC : Int) (rails : List Nat) (hK : Kept s₀ s) :
    Kept s₀ (State.recordSecond s milliC rails) := by
  unfold State.recordSecond
  repeat' first
    | with_reducible assumption
    | (intro x; first | (have hx : Kept s₀ x := (by dsimp only [x]; repeat' first | with_reducible assumption | with_reducible apply State.recSet_kept | with_reducible apply State.recAdd_kept | with_reducible apply State.recMin_kept | with_reducible apply State.recMax_kept | with_reducible apply State.recRail_kept | with_reducible apply State.takeCounts_kept | with_reducible refine Kept.foldl ?_ (fun _ _ _ => ?_) | with_reducible refine Kept.ite ?_ ?_)) | skip)
    | lift_lets
    | with_reducible apply State.setNv_kept

-- State.closeEpoch
theorem State.closeEpoch_kept {s₀ s : State}  (hK : Kept s₀ s) :
    Kept s₀ (State.closeEpoch s) := by
  unfold State.closeEpoch
  repeat' first
    | with_reducible assumption
    | (intro x; first | (have hx : Kept s₀ x := (by dsimp only [x]; repeat' first | with_reducible assumption | with_reducible apply State.submit_kept | with_reducible apply State.setNv_kept)) | skip)
    | lift_lets
    | with_reducible apply State.setPs_kept
    | with_reducible apply State.setReg_kept
    | with_reducible apply State.commitLifetime_kept

-- State.doEpochClose
theorem State.doEpochClose_kept {s₀ s : State}  (hK : Kept s₀ s) :
    Kept s₀ (State.doEpochClose s) := by
  unfold State.doEpochClose
  repeat' first
    | with_reducible assumption
    | with_reducible apply State.closeEpoch_kept
    | with_reducible refine Kept.ite ?_ ?_

-- State.doRecorderSecond
theorem State.doRecorderSecond_kept {s₀ s : State} (milliC : Int) (rails : List Nat) (hK : Kept s₀ s) :
    Kept s₀ (State.doRecorderSecond s milliC rails) := by
  unfold State.doRecorderSecond
  repeat' first
    | with_reducible assumption
    | (intro x; first | (have hx : Kept s₀ x := (by dsimp only [x]; repeat' first | with_reducible assumption | with_reducible apply State.doEpochClose_kept | with_reducible apply State.recordSecond_kept | with_reducible apply State.setPs_kept)) | skip)
    | lift_lets
    | with_reducible apply State.bump_kept
    | with_reducible refine Kept.ite ?_ ?_

-- State.exportOne
theorem State.exportOne_kept {s₀ s : State} (dst : Nat) (bs : List Byte) (hK : Kept s₀ s) :
    Kept s₀ (State.exportOne s dst bs) := by
  unfold State.exportOne
  repeat' first
    | with_reducible assumption
    | (intro x; first | (have hx : Kept s₀ x := (by dsimp only [x]; repeat' first | with_reducible assumption | with_reducible apply State.sramWrite_kept | with_reducible apply State.bw_kept | with_reducible apply State.bump_kept)) | skip)
    | lift_lets
    | with_reducible apply State.setOp_kept

-- State.exportRefused
theorem State.exportRefused_kept {s₀ s : State}  (hK : Kept s₀ s) :
    Kept s₀ (State.exportRefused s) := by
  unfold State.exportRefused
  repeat' first
    | with_reducible assumption
    | with_reducible apply State.opFail_kept
    | with_reducible apply State.raise_kept

-- State.exportEpochs
theorem State.exportEpochs_kept {s₀ : State} (first dst n : Nat) {s : State} (hK : Kept s₀ s) :
    Kept s₀ (State.exportEpochs s first dst n) := by
  induction n generalizing s first dst with
  | zero => exact State.opDone_kept _ hK
  | succ n ih =>
    unfold State.exportEpochs
    exact Kept.ite (State.exportRefused_kept hK) (Kept.ite (ih _ _ (State.exportOne_kept _ _ hK))
      (ih _ _ (State.setOp_kept _ _ (State.exportOne_kept _ _ hK))))

-- State.doExport
theorem State.doExport_kept {s₀ s : State}  (hK : Kept s₀ s) :
    Kept s₀ (State.doExport s) := by
  unfold State.doExport
  repeat' first
    | with_reducible assumption
    | intro x
    | lift_lets
    | with_reducible apply State.opFail_kept
    | with_reducible apply State.exportEpochs_kept
    | with_reducible refine Kept.ite ?_ ?_

-- State.doExportLifetime
theorem State.doExportLifetime_kept {s₀ s : State}  (hK : Kept s₀ s) :
    Kept s₀ (State.doExportLifetime s) := by
  unfold State.doExportLifetime
  repeat' first
    | with_reducible assumption
    | (intro x; first | (have hx : Kept s₀ x := (by dsimp only [x]; repeat' first | with_reducible assumption | with_reducible apply State.exportOne_kept)) | skip)
    | lift_lets
    | with_reducible apply State.opFail_kept
    | with_reducible apply State.exportRefused_kept
    | with_reducible apply State.exportOne_kept
    | with_reducible apply State.opDone_kept
    | with_reducible apply State.setOp_kept
    | with_reducible refine Kept.ite ?_ ?_
    | split

-- State.capturePs
theorem State.capturePs_kept {s₀ s : State}  (hK : Kept s₀ s) :
    Kept s₀ (State.capturePs s) := by
  unfold State.capturePs
  repeat' first
    | with_reducible assumption
    | intro x
    | lift_lets
    | with_reducible apply State.setReg_kept
    | with_reducible apply State.setReg64_kept

end Sys2Proof.Laws
end

