-- ==== Sys2Proof/Laws/KeptUpdate.lean ====
section
/-!
SUPPORT. `Kept` for the operations of Machine/Update.lean.
-/
namespace Sys2Proof.Laws
open Sys2Proof Sys2Proof.Machine Sys2Proof.Safety

-- State.commitBoot
theorem State.commitBoot_kept {s₀ s : State} (b : BootRec) (hK : Kept s₀ s) :
    Kept s₀ (State.commitBoot s b) := by
  unfold State.commitBoot
  repeat' first
    | with_reducible assumption
    | intro x
    | lift_lets
    | with_reducible apply State.setNv_kept
    | with_reducible apply State.commitNow_kept

-- State.huskTo
theorem State.huskTo_kept {s₀ s : State} (b : BootRec) (hK : Kept s₀ s) :
    Kept s₀ (State.huskTo s b) := by
  unfold State.huskTo
  repeat' first
    | with_reducible assumption
    | intro x
    | lift_lets
    | with_reducible apply State.commitBoot_kept
    | with_reducible apply State.journal_kept

-- State.updateDone
theorem State.updateDone_kept {s₀ s : State}  (hK : Kept s₀ s) :
    Kept s₀ (State.updateDone s) := by
  unfold State.updateDone
  repeat' first
    | with_reducible assumption
    | with_reducible apply State.setOp_kept
    | with_reducible apply State.opDone_kept

-- State.doBegin
theorem State.doBegin_kept {s₀ s : State}  (hK : Kept s₀ s) :
    Kept s₀ (State.doBegin s) := by
  unfold State.doBegin
  repeat' first
    | with_reducible assumption
    | (intro x; first | (have hx : Kept s₀ x := (by dsimp only [x]; repeat' first | with_reducible assumption | with_reducible apply State.huskTo_kept)) | skip)
    | lift_lets
    | with_reducible apply State.opFail_kept
    | with_reducible apply State.setPs_kept
    | with_reducible apply State.updateDone_kept
    | with_reducible refine Kept.ite ?_ ?_

-- State.huskTake
theorem State.huskTake_kept {s₀ s : State} (at_ : Nat) (bs : List Byte) (hK : Kept s₀ s) :
    Kept s₀ (State.huskTake s at_ bs) := by
  unfold State.huskTake
  repeat' first
    | with_reducible assumption
    | (intro x; first | (have hx : Kept s₀ x := (by dsimp only [x]; repeat' first | with_reducible assumption | with_reducible apply State.mramWrite_kept | with_reducible apply State.bw_kept | with_reducible apply State.bump_kept | with_reducible apply State.setPs_kept | with_reducible apply State.setOp_kept)) | skip)
    | lift_lets
    | with_reducible apply State.huskTo_kept
    | with_reducible apply State.opDone_kept
    | with_reducible refine Kept.ite ?_ ?_

-- State.doHuskWrite
theorem State.doHuskWrite_kept {s₀ s : State}  (hK : Kept s₀ s) :
    Kept s₀ (State.doHuskWrite s) := by
  unfold State.doHuskWrite
  repeat' first
    | with_reducible assumption
    | intro x
    | lift_lets
    | with_reducible apply State.opFail_kept
    | with_reducible apply State.raise_kept
    | with_reducible apply State.huskTake_kept
    | with_reducible refine Kept.ite ?_ ?_

-- State.doAbandon
theorem State.doAbandon_kept {s₀ s : State}  (hK : Kept s₀ s) :
    Kept s₀ (State.doAbandon s) := by
  unfold State.doAbandon
  repeat' first
    | with_reducible assumption
    | intro x
    | lift_lets
    | with_reducible apply State.opFail_kept
    | with_reducible apply State.huskTo_kept
    | with_reducible apply State.updateDone_kept
    | with_reducible refine Kept.ite ?_ ?_

-- State.startVerify
theorem State.startVerify_kept {s₀ s : State}  (hK : Kept s₀ s) :
    Kept s₀ (State.startVerify s) := by
  unfold State.startVerify
  repeat' first
    | with_reducible assumption
    | intro x
    | lift_lets
    | with_reducible apply State.huskTo_kept

-- State.doVerify
theorem State.doVerify_kept {s₀ s : State}  (hK : Kept s₀ s) :
    Kept s₀ (State.doVerify s) := by
  unfold State.doVerify
  repeat' first
    | with_reducible assumption
    | (intro x; first | (have hx : Kept s₀ x := (by dsimp only [x]; repeat' first | with_reducible assumption | with_reducible apply State.startVerify_kept)) | skip)
    | lift_lets
    | with_reducible apply State.opFail_kept
    | with_reducible apply State.setOp_kept
    | with_reducible refine Kept.ite ?_ ?_

-- State.verified
theorem State.verified_kept {s₀ s : State} (r : Option Word) (hK : Kept s₀ s) : Kept s₀ (State.verified s r) := by
  unfold State.verified
  have h0 : Kept s₀ ((s.setOp 0x170 ((s.op 0x170).advance s.ps.nv.boot.huskLen 0)).bump 0x170 1 1) :=
    State.bump_kept _ _ _ (State.setOp_kept _ _ hK)
  cases r with
  | none => exact State.opDone_kept _ (State.setPs_kept _ (State.huskTo_kept _ h0))
  | some e => exact State.opFail_kept _ _ (State.raise_kept _ _ _ (State.huskTo_kept _ h0))

-- State.doVerifyDone
theorem State.doVerifyDone_kept {s₀ s : State} (hK : Kept s₀ s) : Kept s₀ (State.doVerifyDone s) := by
  unfold State.doVerifyDone
  exact Kept.ite hK (State.verified_kept _ hK)

-- State.doArm
theorem State.doArm_kept {s₀ s : State}  (hK : Kept s₀ s) :
    Kept s₀ (State.doArm s) := by
  unfold State.doArm
  repeat' first
    | with_reducible assumption
    | with_reducible apply State.opFail_kept
    | with_reducible apply State.huskTo_kept
    | with_reducible apply State.updateDone_kept
    | with_reducible refine Kept.ite ?_ ?_

-- State.doDisarm
theorem State.doDisarm_kept {s₀ s : State}  (hK : Kept s₀ s) :
    Kept s₀ (State.doDisarm s) := by
  unfold State.doDisarm
  repeat' first
    | with_reducible assumption
    | with_reducible apply State.opFail_kept
    | with_reducible apply State.huskTo_kept
    | with_reducible apply State.updateDone_kept
    | with_reducible refine Kept.ite ?_ ?_

-- State.agreeOtp
theorem State.agreeOtp_kept {s₀ s : State}  (hK : Kept s₀ s) :
    Kept s₀ (State.agreeOtp s) := by
  unfold State.agreeOtp
  repeat' first
    | with_reducible assumption
    | intro x
    | lift_lets
    | with_reducible apply State.setNv_kept
    | with_reducible apply State.journal_kept
    | with_reducible refine Kept.ite ?_ ?_

-- State.doConfirm
theorem State.doConfirm_kept {s₀ s : State}  (hK : Kept s₀ s) :
    Kept s₀ (State.doConfirm s) := by
  unfold State.doConfirm
  repeat' first
    | with_reducible assumption
    | with_reducible apply State.opFail_kept
    | with_reducible apply State.huskTo_kept
    | with_reducible apply State.agreeOtp_kept
    | with_reducible apply State.updateDone_kept
    | with_reducible refine Kept.ite ?_ ?_

-- State.fallBack
theorem State.fallBack_kept {s₀ s : State} (reason : Nat) (hK : Kept s₀ s) :
    Kept s₀ (State.fallBack s reason) := by
  unfold State.fallBack
  repeat' first
    | with_reducible assumption
    | intro x
    | lift_lets
    | with_reducible apply State.huskTo_kept
    | with_reducible apply State.journal_kept
    | with_reducible apply State.bump_kept
    | with_reducible apply State.raise_kept

-- State.doFallback
theorem State.doFallback_kept {s₀ s : State}  (hK : Kept s₀ s) :
    Kept s₀ (State.doFallback s) := by
  unfold State.doFallback
  repeat' first
    | with_reducible assumption
    | with_reducible apply State.opFail_kept
    | with_reducible apply State.fallBack_kept
    | with_reducible apply State.updateDone_kept
    | with_reducible refine Kept.ite ?_ ?_

-- State.putGen
theorem State.putGen_kept {s₀ s : State} (img : List Byte) (r : GenRec) (hK : Kept s₀ s) :
    Kept s₀ (State.putGen s img r) := by
  unfold State.putGen
  repeat' first
    | with_reducible assumption
    | (intro x; first | (have hx : Kept s₀ x := (by dsimp only [x]; repeat' first | with_reducible assumption | with_reducible apply State.commitNow_kept)) | skip)
    | lift_lets
    | with_reducible apply State.commitBoot_kept
    | with_reducible refine Kept.ite ?_ ?_

-- State.takeGen
theorem State.takeGen_kept {s₀ s : State} (img : List Byte) (r : GenRec) (hK : Kept s₀ s) : Kept s₀ (State.takeGen s img r) := by
  unfold State.takeGen
  exact State.opDone_kept _ (State.setOp_kept _ _ (State.journal_kept _ _ (State.putGen_kept _ _ (State.bw_kept _ _ hK))))

-- State.doWriteGen
theorem State.doWriteGen_kept {s₀ s : State}  (hK : Kept s₀ s) :
    Kept s₀ (State.doWriteGen s) := by
  unfold State.doWriteGen
  repeat' first
    | with_reducible assumption
    | (intro x; first | (have hx : Kept s₀ x := (by dsimp only [x]; repeat' first | with_reducible assumption | with_reducible apply State.bw_kept | with_reducible apply State.putGen_kept | with_reducible apply State.journal_kept)) | skip)
    | lift_lets
    | with_reducible apply State.takeGen_kept
    | with_reducible apply State.opFail_kept
    | with_reducible apply State.raise_kept
    | with_reducible refine Kept.ite ?_ ?_

-- State.confirmPset
theorem State.confirmPset_kept {s₀ s : State} (r : GenRec) (v : Word) (hK : Kept s₀ s) : Kept s₀ (State.confirmPset s r v) := by
  unfold State.confirmPset
  extract_lets img r1 s1 src1 s2
  have h1 : Kept s₀ s1 := State.journal_kept _ _ (State.putGen_kept _ _ hK)
  have h2 : Kept s₀ s2 := State.setPs_kept _ h1
  exact State.review_after (x := s2.setSup { s2.sup with startMode := 0 }) h2 rfl rfl rfl rfl rfl
    (State.setReg_kept _ _ _ (Kept.refl _))

-- State.judgePcv
theorem State.judgePcv_kept {s₀ s : State} (v : Word) (hK : Kept s₀ s) :
    Kept s₀ (State.judgePcv s v) := by
  unfold State.judgePcv
  repeat' first
    | with_reducible assumption
    | intro x
    | lift_lets
    | with_reducible apply State.setPs_kept
    | with_reducible apply State.satReg_kept
    | with_reducible apply State.bump_kept
    | with_reducible apply State.raise_kept
    | with_reducible apply State.confirmPset_kept
    | with_reducible refine Kept.ite ?_ ?_
    | split

-- State.doPcvConfirm
theorem State.doPcvConfirm_kept {s₀ s : State} (v : Word) (hK : Kept s₀ s) :
    Kept s₀ (State.doPcvConfirm s v) := by
  unfold State.doPcvConfirm
  repeat' first
    | with_reducible assumption
    | (intro x; first | (have hx : Kept s₀ x := (by dsimp only [x]; repeat' first | with_reducible assumption | with_reducible apply State.bump_kept)) | skip)
    | lift_lets
    | with_reducible apply State.setPs_kept
    | with_reducible apply State.judgePcv_kept
    | with_reducible refine Kept.ite ?_ ?_

-- State.doPcvDeferred
theorem State.doPcvDeferred_kept {s₀ s : State}  (hK : Kept s₀ s) :
    Kept s₀ (State.doPcvDeferred s) := by
  unfold State.doPcvDeferred
  repeat' first
    | with_reducible assumption
    | with_reducible apply State.setPs_kept
    | with_reducible apply State.judgePcv_kept
    | with_reducible refine Kept.ite ?_ ?_
    | split

end Sys2Proof.Laws
end

