-- ==== Sys2Proof/Laws/KeptMeas.lean ====
section
/-!
SUPPORT. `Kept` for the operations of Machine/Meas.lean.
-/
namespace Sys2Proof.Laws
open Sys2Proof Sys2Proof.Machine Sys2Proof.Safety

-- State.setMeas
theorem State.setMeas_kept {s₀ s : State} (v : MeasState) (hK : Kept s₀ s) :
    Kept s₀ (State.setMeas s v) := by
  unfold State.setMeas
  repeat' first
    | with_reducible assumption
    | (simp only [Kept.mk_iff]; refine KeptMk.upd ?_ rfl rfl rfl rfl rfl rfl rfl rfl)

-- State.setCh
theorem State.setCh_kept {s₀ s : State} (c : Nat) (v : ChState) (hK : Kept s₀ s) :
    Kept s₀ (State.setCh s c v) := by
  unfold State.setCh
  repeat' first
    | with_reducible assumption
    | with_reducible apply State.setMeas_kept

-- State.settleLines
theorem State.settleLines_kept {s₀ s : State}  (hK : Kept s₀ s) :
    Kept s₀ (State.settleLines s) := by
  unfold State.settleLines
  repeat' first
    | with_reducible assumption
    | with_reducible refine State.setSup_same _ ?_ rfl rfl rfl rfl rfl rfl

-- State.doMeasTripLine
theorem State.doMeasTripLine_kept {s₀ s : State} (n : Nat) (hK : Kept s₀ s) :
    Kept s₀ (State.doMeasTripLine s n) := by
  unfold State.doMeasTripLine
  repeat' first
    | with_reducible assumption
    | with_reducible apply State.react_kept
    | with_reducible refine Kept.ite ?_ ?_

-- State.recBand
theorem State.recBand_kept {s₀ s : State} (c : Nat) (v : Nat) (hK : Kept s₀ s) :
    Kept s₀ (State.recBand s c v) := by
  unfold State.recBand
  repeat' first
    | with_reducible assumption
    | intro x
    | lift_lets
    | with_reducible apply State.recSet_kept
    | with_reducible refine Kept.ite ?_ ?_

-- State.declareTrip
theorem State.declareTrip_kept {s₀ s : State} (c : Nat) (hK : Kept s₀ s) :
    Kept s₀ (State.declareTrip s c) := by
  unfold State.declareTrip
  repeat' first
    | with_reducible assumption
    | (intro x; first | (have hx : Kept s₀ x := (by dsimp only [x]; repeat' first | with_reducible assumption | with_reducible apply State.setCh_kept | with_reducible apply State.satReg_kept | with_reducible apply State.bump_kept)) | skip)
    | lift_lets
    | with_reducible apply State.latch_kept
    | with_reducible apply State.post_kept
    | with_reducible apply State.settleLines_kept

-- State.bandRms
theorem State.bandRms_kept {s₀ s : State} (c : Nat) (x : Int) (t : Int) (hK : Kept s₀ s) :
    Kept s₀ (State.bandRms s c x t) := by
  unfold State.bandRms
  repeat' first
    | with_reducible assumption
    | (intro x; first | (have hx : Kept s₀ x := (by dsimp only [x]; repeat' first | with_reducible assumption | with_reducible apply State.setCh_kept | with_reducible apply State.setReg_kept | with_reducible apply State.recBand_kept | with_reducible apply State.settleLines_kept)) | (have hx : Kept s₀ x.2 := (show KeptSnd s₀ x from (by dsimp only [x]; repeat' first | with_reducible assumption | with_reducible refine KeptSnd.ite ?_ ?_ | simp only [KeptSnd.mk_iff] | (refine KeptSnd.of ?_; first | with_reducible assumption | with_reducible apply State.drawIn_kept | with_reducible apply State.setCh_kept | with_reducible apply State.release_kept | with_reducible apply State.setReg_kept | with_reducible apply State.recBand_kept | with_reducible apply State.settleLines_kept | with_reducible apply State.declareTrip_kept | with_reducible refine Kept.foldlFst ?_ (fun _ _ _ => ?_) | with_reducible refine Kept.foldlSnd ?_ (fun _ _ _ => ?_))))) | skip)
    | lift_lets
    | with_reducible apply State.declareTrip_kept
    | with_reducible refine Kept.ite ?_ ?_

-- State.envelope
theorem State.envelope_kept {s₀ s : State} (c : Nat) (x : Int) (hK : Kept s₀ s) :
    Kept s₀ (State.envelope s c x) := by
  unfold State.envelope
  repeat' first
    | with_reducible assumption
    | intro x
    | lift_lets
    | with_reducible apply State.setReg_kept

-- State.closeWindow
theorem State.closeWindow_kept {s₀ s : State} (c : Nat) (cycle : Nat) (hK : Kept s₀ s) :
    Kept s₀ (State.closeWindow s c cycle) := by
  unfold State.closeWindow
  repeat' first
    | with_reducible assumption
    | (intro x; first | (have hx : Kept s₀ x := (by dsimp only [x]; repeat' first | with_reducible assumption | with_reducible apply State.setReg_kept)) | skip)
    | lift_lets
    | with_reducible apply State.setCh_kept
    | with_reducible apply State.incReg_kept
    | with_reducible apply State.bump_kept

-- State.window
theorem State.window_kept {s₀ s : State} (c : Nat) (x : Int) (cycle : Nat) (hK : Kept s₀ s) :
    Kept s₀ (State.window s c x cycle) := by
  unfold State.window
  repeat' first
    | with_reducible assumption
    | (intro x; first | (have hx : Kept s₀ x := (by dsimp only [x]; repeat' first | with_reducible assumption | with_reducible apply State.setCh_kept | with_reducible apply State.closeWindow_kept | with_reducible refine Kept.ite ?_ ?_)) | skip)
    | lift_lets
    | with_reducible apply State.setCh_kept
    | with_reducible apply State.closeWindow_kept
    | with_reducible refine Kept.ite ?_ ?_

-- State.streamRecord
theorem State.streamRecord_kept {s₀ s : State} (c : Nat) (x : Int) (t : Int) (flags : Nat) (hK : Kept s₀ s) :
    Kept s₀ (State.streamRecord s c x t flags) := by
  unfold State.streamRecord
  repeat' first
    | with_reducible assumption
    | intro x
    | lift_lets
    | with_reducible apply State.setCh_kept
    | with_reducible apply State.raise_kept
    | with_reducible apply State.sramWrite_kept
    | with_reducible apply State.bw_kept
    | with_reducible apply State.incReg_kept
    | with_reducible apply State.bump_kept
    | with_reducible refine Kept.ite ?_ ?_

-- State.cycleOf
theorem State.cycleOf_kept {s₀ s : State} (c : Nat) (hK : Kept s₀ s) :
    Kept s₀ (State.cycleOf s c).2 := by
  show KeptSnd s₀ _
  unfold State.cycleOf
  repeat' first
    | with_reducible assumption
    | (intro x; first | (have hx : Kept s₀ x.2 := (show KeptSnd s₀ x from (by dsimp only [x]; repeat' first | with_reducible assumption | (refine KeptSnd.of ?_; first | with_reducible assumption | with_reducible apply State.drawIn_kept | with_reducible refine Kept.foldlFst ?_ (fun _ _ _ => ?_) | with_reducible refine Kept.foldlSnd ?_ (fun _ _ _ => ?_))))) | skip)
    | lift_lets
    | simp only [KeptSnd.mk_iff]

-- State.chainOut
theorem State.chainOut_kept {s₀ s : State} (c : Nat) (x : Int) (t : Int) (flags : Nat) (hK : Kept s₀ s) :
    Kept s₀ (State.chainOut s c x t flags) := by
  unfold State.chainOut
  repeat' first
    | with_reducible assumption
    | (intro x; first | (have hx : Kept s₀ x := (by dsimp only [x]; repeat' first | with_reducible assumption | with_reducible apply State.setCh_kept | with_reducible apply State.bump_kept)) | (have hx : Kept s₀ x.2 := (show KeptSnd s₀ x from (by dsimp only [x]; repeat' first | with_reducible assumption | (refine KeptSnd.of ?_; first | with_reducible assumption | with_reducible apply State.cycleOf_kept | with_reducible apply State.setCh_kept | with_reducible apply State.bump_kept | with_reducible apply State.envelope_kept | with_reducible apply State.window_kept | with_reducible apply State.streamRecord_kept | with_reducible refine Kept.foldlFst ?_ (fun _ _ _ => ?_) | with_reducible refine Kept.foldlSnd ?_ (fun _ _ _ => ?_))))) | skip)
    | lift_lets
    | with_reducible apply State.envelope_kept
    | with_reducible apply State.window_kept
    | with_reducible apply State.streamRecord_kept

-- State.setTrk
theorem State.setTrk_kept {s₀ s : State} (v : Tracker) (hK : Kept s₀ s) :
    Kept s₀ (State.setTrk s v) := by
  unfold State.setTrk
  repeat' first
    | with_reducible assumption
    | with_reducible apply State.setMeas_kept

-- State.trackSample
theorem State.trackSample_kept {s₀ s : State} (x : Int) (t : Int) (hK : Kept s₀ s) :
    Kept s₀ (State.trackSample s x t) := by
  unfold State.trackSample
  repeat' first
    | with_reducible assumption
    | (intro x; first | (have hx : Kept s₀ x.2 := (show KeptSnd s₀ x from (by dsimp only [x]; repeat' first | with_reducible assumption | with_reducible refine KeptSnd.ite ?_ ?_ | simp only [KeptSnd.mk_iff] | (refine KeptSnd.of ?_; first | with_reducible assumption | with_reducible apply State.drawIn_kept | with_reducible apply State.setTrk_kept | with_reducible refine Kept.foldlFst ?_ (fun _ _ _ => ?_) | with_reducible refine Kept.foldlSnd ?_ (fun _ _ _ => ?_))))) | skip)
    | lift_lets
    | with_reducible apply State.setTrk_kept
    | with_reducible refine Kept.ite ?_ ?_
    | split

-- State.instant
theorem State.instant_kept {s₀ s : State} (c : Nat) (hK : Kept s₀ s) :
    Kept s₀ (State.instant s c).2 := by
  show KeptSnd s₀ _
  unfold State.instant
  repeat' first
    | with_reducible assumption
    | intro x
    | lift_lets
    | (refine KeptSnd.of ?_; first | with_reducible assumption | with_reducible apply State.drawIn_kept | with_reducible refine Kept.foldlFst ?_ (fun _ _ _ => ?_) | with_reducible refine Kept.foldlSnd ?_ (fun _ _ _ => ?_))

-- State.firOut
theorem State.firOut_kept {s₀ s : State} (c : Nat) (x : Int) (sats : Nat) (hK : Kept s₀ s) :
    Kept s₀ (State.firOut s c x sats) := by
  unfold State.firOut
  repeat' first
    | with_reducible assumption
    | (intro x; first | (have hx : Kept s₀ x := (by dsimp only [x]; repeat' first | with_reducible assumption | with_reducible apply State.setCh_kept | with_reducible apply State.bump_kept | with_reducible apply State.satReg_kept | with_reducible apply State.bandRms_kept | with_reducible apply State.trackSample_kept | with_reducible refine Kept.ite ?_ ?_)) | (have hx : Kept s₀ x.2 := (show KeptSnd s₀ x from (by dsimp only [x]; repeat' first | with_reducible assumption | (refine KeptSnd.of ?_; first | with_reducible assumption | with_reducible apply State.instant_kept | with_reducible apply State.setCh_kept | with_reducible apply State.bump_kept | with_reducible apply State.satReg_kept | with_reducible apply State.bandRms_kept | with_reducible apply State.trackSample_kept | with_reducible apply State.chainOut_kept | with_reducible refine Kept.foldlFst ?_ (fun _ _ _ => ?_) | with_reducible refine Kept.foldlSnd ?_ (fun _ _ _ => ?_))))) | skip)
    | lift_lets
    | with_reducible apply State.chainOut_kept
    | with_reducible refine Kept.ite ?_ ?_

-- State.doChainOutput
theorem State.doChainOutput_kept {s₀ s : State} (c : Nat) (bits : List Bool) (hK : Kept s₀ s) :
    Kept s₀ (State.doChainOutput s c bits) := by
  unfold State.doChainOutput
  repeat' first
    | with_reducible assumption
    | (intro x; first | (have hx : Kept s₀ x := (by dsimp only [x]; repeat' first | with_reducible assumption | with_reducible apply State.setCh_kept)) | (have hx : Kept s₀ x.2 := (show KeptSnd s₀ x from (by dsimp only [x]; repeat' first | with_reducible assumption | (refine KeptSnd.of ?_; first | with_reducible assumption | with_reducible apply State.setCh_kept | with_reducible apply State.firOut_kept | with_reducible apply State.drawIn_kept | with_reducible refine Kept.foldlFst ?_ (fun _ _ _ => ?_) | with_reducible refine Kept.foldlSnd ?_ (fun _ _ _ => ?_))))) | skip)
    | lift_lets
    | with_reducible apply State.setCh_kept
    | with_reducible apply State.firOut_kept
    | with_reducible refine Kept.ite ?_ ?_

-- State.doModStuck
theorem State.doModStuck_kept {s₀ s : State} (c : Nat) (hK : Kept s₀ s) :
    Kept s₀ (State.doModStuck s c) := by
  unfold State.doModStuck
  repeat' first
    | with_reducible assumption
    | with_reducible apply State.setCh_kept
    | with_reducible apply State.bump_kept
    | with_reducible apply State.raise_kept
    | with_reducible refine Kept.ite ?_ ?_

-- State.doResampler
theorem State.doResampler_kept {s₀ s : State} (c : Nat) (t : Int) (hK : Kept s₀ s) :
    Kept s₀ (State.doResampler s c t) := by
  unfold State.doResampler
  repeat' first
    | with_reducible assumption
    | (intro x; first | (have hx : Kept s₀ x := (by dsimp only [x]; repeat' first | with_reducible assumption | with_reducible apply State.setCh_kept | with_reducible apply State.bump_kept | with_reducible apply State.satReg_kept | with_reducible refine Kept.ite ?_ ?_)) | skip)
    | lift_lets
    | with_reducible apply State.raise_kept
    | with_reducible apply State.chainOut_kept
    | with_reducible refine Kept.ite ?_ ?_

-- State.bankFail
theorem State.bankFail_kept {s₀ s : State} (c : Nat) (e : Word) (hK : Kept s₀ s) :
    Kept s₀ (State.bankFail s c e) := by
  unfold State.bankFail
  repeat' first
    | with_reducible assumption
    | intro x
    | lift_lets
    | with_reducible apply State.setCh_kept
    | with_reducible apply State.opFail_kept

-- State.doBankLoad
theorem State.doBankLoad_kept {s₀ s : State} (c : Nat) (hK : Kept s₀ s) :
    Kept s₀ (State.doBankLoad s c) := by
  unfold State.doBankLoad
  repeat' first
    | with_reducible assumption
    | (intro x; first | (have hx : Kept s₀ x := (by dsimp only [x]; repeat' first | with_reducible assumption | with_reducible apply State.bw_kept | with_reducible apply State.setCh_kept | with_reducible apply State.setOp_kept)) | skip)
    | lift_lets
    | with_reducible apply State.opFail_kept
    | with_reducible apply State.bankFail_kept
    | with_reducible apply State.raise_kept
    | with_reducible apply State.setCh_kept
    | with_reducible apply State.setOp_kept
    | with_reducible apply State.bump_kept
    | with_reducible apply State.opDone_kept
    | with_reducible refine Kept.ite ?_ ?_
    | split

-- State.swapRefused
theorem State.swapRefused_kept {s₀ s : State} (c : Nat) (fail : Nat) (hK : Kept s₀ s) :
    Kept s₀ (State.swapRefused s c fail) := by
  unfold State.swapRefused
  repeat' first
    | with_reducible assumption
    | with_reducible apply State.setCh_kept
    | with_reducible apply State.bump_kept
    | with_reducible apply State.raise_kept

-- State.swapRequest
theorem State.swapRequest_kept {s₀ s : State} (c : Nat) (hK : Kept s₀ s) :
    Kept s₀ (State.swapRequest s c) := by
  unfold State.swapRequest
  repeat' first
    | with_reducible assumption
    | intro x
    | lift_lets
    | with_reducible apply State.swapRefused_kept
    | with_reducible apply State.setCh_kept
    | with_reducible refine Kept.ite ?_ ?_

-- chCommand
theorem chCommand_kept {s₀ s : State} (m : Master) (c : Nat) (act : State → State) (hact : ∀ t, Kept s₀ t → Kept s₀ (act t)) (hK : Kept s₀ s) :
    Kept s₀ (chCommand m c s act) := by
  unfold chCommand
  repeat' first
    | with_reducible assumption
    | with_reducible apply State.written_kept

-- State.armSwap
theorem State.armSwap_kept {s₀ s : State} (c : Nat) (b : Bool) (hK : Kept s₀ s) :
    Kept s₀ (State.armSwap s c b) := by
  unfold State.armSwap
  repeat' first
    | with_reducible assumption
    | with_reducible apply State.setCh_kept

-- State.doBankSwapApply
theorem State.doBankSwapApply_kept {s₀ s : State} (c : Nat) (hK : Kept s₀ s) :
    Kept s₀ (State.doBankSwapApply s c) := by
  unfold State.doBankSwapApply
  repeat' first
    | with_reducible assumption
    | intro x
    | lift_lets
    | with_reducible apply State.swapRefused_kept
    | with_reducible apply State.setCh_kept
    | with_reducible apply State.bump_kept
    | with_reducible apply State.settleLines_kept
    | with_reducible refine Kept.ite ?_ ?_

-- State.snapChannel
theorem State.snapChannel_kept {s₀ s : State} (c : Nat) (hK : Kept s₀ s) :
    Kept s₀ (State.snapChannel s c) := by
  unfold State.snapChannel
  repeat' first
    | with_reducible assumption
    | (intro x; first | (have hx : Kept s₀ x := (by dsimp only [x]; repeat' first | with_reducible assumption | with_reducible apply State.setReg_kept | with_reducible apply State.setReg64_kept | with_reducible refine Kept.foldl ?_ (fun _ _ _ => ?_))) | skip)
    | lift_lets
    | with_reducible apply State.incReg_kept
    | with_reducible refine Kept.ite ?_ ?_

-- State.restartChannel
theorem State.restartChannel_kept {s₀ s : State} (c : Nat) (hK : Kept s₀ s) :
    Kept s₀ (State.restartChannel s c) := by
  unfold State.restartChannel
  repeat' first
    | with_reducible assumption
    | intro x
    | lift_lets
    | with_reducible apply State.setCh_kept
    | with_reducible apply State.settleLines_kept

-- State.syncChannel
theorem State.syncChannel_kept {s₀ s : State} (c : Nat) (hK : Kept s₀ s) :
    Kept s₀ (State.syncChannel s c) := by
  unfold State.syncChannel
  repeat' first
    | with_reducible assumption
    | (intro x; first | (have hx : Kept s₀ x := (by dsimp only [x]; repeat' first | with_reducible assumption | with_reducible apply State.restartChannel_kept)) | skip)
    | lift_lets
    | with_reducible apply State.setCh_kept
    | with_reducible apply State.swapRequest_kept
    | with_reducible refine Kept.ite ?_ ?_

-- State.doMeasSync
theorem State.doMeasSync_kept {s₀ s : State}  (hK : Kept s₀ s) :
    Kept s₀ (State.doMeasSync s) := by
  unfold State.doMeasSync
  repeat' first
    | with_reducible assumption
    | (intro x; first | (have hx : Kept s₀ x := (by dsimp only [x]; repeat' first | with_reducible assumption | with_reducible apply State.syncChannel_kept | with_reducible apply State.satReg_kept | with_reducible refine Kept.foldl ?_ (fun _ _ _ => ?_) | with_reducible refine Kept.ite ?_ ?_ | (simp only [Kept.mk_iff]; refine KeptMk.upd ?_ rfl rfl rfl rfl rfl rfl rfl rfl))) | skip)
    | lift_lets
    | with_reducible apply State.setReg64_kept
    | with_reducible apply State.bump_kept
    | with_reducible refine Kept.ite ?_ ?_

-- State.loseLock
theorem State.loseLock_kept {s₀ s : State}  (hK : Kept s₀ s) :
    Kept s₀ (State.loseLock s) := by
  unfold State.loseLock
  repeat' first
    | with_reducible assumption
    | (intro x; first | (have hx : Kept s₀ x := (by dsimp only [x]; repeat' first | with_reducible assumption | with_reducible apply State.setTrk_kept | with_reducible apply State.setReg_kept | with_reducible apply State.bump_kept)) | skip)
    | lift_lets
    | with_reducible apply State.enterMpHoldover_kept
    | with_reducible apply State.raise_kept

-- State.trackFreq
theorem State.trackFreq_kept {s₀ s : State}  (hK : Kept s₀ s) :
    Kept s₀ (State.trackFreq s) := by
  unfold State.trackFreq
  repeat' first
    | with_reducible assumption
    | (intro x; first | (have hx : Kept s₀ x.2 := (show KeptSnd s₀ x from (by dsimp only [x]; repeat' first | with_reducible assumption | with_reducible refine KeptSnd.ite ?_ ?_ | simp only [KeptSnd.mk_iff] | (refine KeptSnd.of ?_; first | with_reducible assumption | with_reducible apply State.drawIn_kept | with_reducible apply State.setReg_kept | with_reducible refine Kept.foldlFst ?_ (fun _ _ _ => ?_) | with_reducible refine Kept.foldlSnd ?_ (fun _ _ _ => ?_))))) | skip)
    | lift_lets
    | with_reducible apply State.setReg_kept
    | with_reducible refine Kept.ite ?_ ?_

-- State.doZeroCrossing
theorem State.doZeroCrossing_kept {s₀ s : State}  (hK : Kept s₀ s) :
    Kept s₀ (State.doZeroCrossing s) := by
  unfold State.doZeroCrossing
  repeat' first
    | with_reducible assumption
    | (intro x; first | (have hx : Kept s₀ x := (by dsimp only [x]; repeat' first | with_reducible assumption | with_reducible apply State.bump_kept)) | skip)
    | lift_lets
    | with_reducible apply State.bump_kept
    | with_reducible apply State.setTrk_kept
    | with_reducible apply State.trackFreq_kept
    | with_reducible apply State.loseLock_kept
    | with_reducible refine Kept.ite ?_ ?_
    | split

-- State.doTrackerUpdate
theorem State.doTrackerUpdate_kept {s₀ s : State}  (hK : Kept s₀ s) :
    Kept s₀ (State.doTrackerUpdate s) := by
  unfold State.doTrackerUpdate
  repeat' first
    | with_reducible assumption
    | (intro x; first | (have hx : Kept s₀ x := (by dsimp only [x]; repeat' first | with_reducible assumption | with_reducible apply State.trackFreq_kept | with_reducible apply State.bump_kept)) | skip)
    | lift_lets
    | with_reducible apply State.ptApplied_kept
    | with_reducible apply State.doMpUpdate_kept
    | with_reducible refine Kept.ite ?_ ?_

-- State.recCatenary
theorem State.recCatenary_kept {s₀ s : State} (n : Nat) (hK : Kept s₀ s) :
    Kept s₀ (State.recCatenary s n) := by
  unfold State.recCatenary
  repeat' first
    | with_reducible assumption
    | intro x
    | lift_lets
    | with_reducible apply State.recAdd_kept
    | with_reducible apply State.recMin_kept
    | with_reducible apply State.recMax_kept

-- State.systemIs
theorem State.systemIs_kept {s₀ s : State} (n : Nat) (hK : Kept s₀ s) :
    Kept s₀ (State.systemIs s n) := by
  unfold State.systemIs
  repeat' first
    | with_reducible assumption
    | (intro x; first | (have hx : Kept s₀ x := (by dsimp only [x]; repeat' first | with_reducible assumption | with_reducible apply State.setTrk_kept | with_reducible apply State.satReg_kept)) | skip)
    | lift_lets
    | with_reducible apply State.setReg_kept
    | with_reducible refine Kept.ite ?_ ?_

-- State.windowValues
theorem State.windowValues_kept {s₀ s : State}  (hK : Kept s₀ s) :
    Kept s₀ (State.windowValues s) := by
  unfold State.windowValues
  repeat' first
    | with_reducible assumption
    | (intro x; first | (have hx : Kept s₀ x := (by dsimp only [x]; repeat' first | with_reducible assumption)) | (have hx : Kept s₀ x.2 := (show KeptSnd s₀ x from (by dsimp only [x]; repeat' first | with_reducible assumption | with_reducible refine KeptSnd.ite ?_ ?_ | simp only [KeptSnd.mk_iff] | (refine KeptSnd.of ?_; first | with_reducible assumption | with_reducible apply State.drawIn_kept | with_reducible apply State.setReg_kept | with_reducible apply State.setTrk_kept | with_reducible refine Kept.foldlFst ?_ (fun _ _ _ => ?_) | with_reducible refine Kept.foldlSnd ?_ (fun _ _ _ => ?_))))) | skip)
    | lift_lets
    | with_reducible apply State.setReg_kept
    | with_reducible apply State.setTrk_kept

-- State.doDetectionWindow
theorem State.doDetectionWindow_kept {s₀ s : State}  (hK : Kept s₀ s) :
    Kept s₀ (State.doDetectionWindow s) := by
  unfold State.doDetectionWindow
  repeat' first
    | with_reducible assumption
    | (intro x; first | (have hx : Kept s₀ x := (by dsimp only [x]; repeat' first | with_reducible assumption | with_reducible apply State.windowValues_kept | with_reducible apply State.bump_kept | with_reducible apply State.loseLock_kept | with_reducible apply State.setTrk_kept | with_reducible apply State.systemIs_kept | with_reducible refine Kept.ite ?_ ?_)) | skip)
    | lift_lets
    | with_reducible apply State.recCatenary_kept
    | with_reducible refine Kept.ite ?_ ?_

-- State.setOut
theorem State.setOut_kept {s₀ s : State} (n : Nat) (v : OutState) (hK : Kept s₀ s) :
    Kept s₀ (State.setOut s n v) := by
  unfold State.setOut
  repeat' first
    | with_reducible assumption
    | with_reducible apply State.setMeas_kept

-- State.outInput
theorem State.outInput_kept {s₀ s : State} (n : Nat) (hK : Kept s₀ s) :
    Kept s₀ (State.outInput s n).2 := by
  show KeptSnd s₀ _
  unfold State.outInput
  repeat' first
    | with_reducible assumption
    | (intro x; first | (have hx : Kept s₀ x := (by dsimp only [x]; repeat' first | with_reducible assumption | with_reducible apply State.incReg_kept | with_reducible apply State.bw_kept)) | skip)
    | lift_lets
    | with_reducible refine KeptSnd.ite ?_ ?_
    | simp only [KeptSnd.mk_iff]
    | with_reducible apply State.satReg_kept
    | with_reducible apply State.bump_kept
    | with_reducible apply State.raise_kept
    | split

-- State.doOutputSample
theorem State.doOutputSample_kept {s₀ s : State} (n : Nat) (hK : Kept s₀ s) :
    Kept s₀ (State.doOutputSample s n) := by
  unfold State.doOutputSample
  repeat' first
    | with_reducible assumption
    | (intro x; first | (have hx : Kept s₀ x := (by dsimp only [x]; repeat' first | with_reducible assumption | with_reducible apply State.bump_kept | with_reducible apply State.satReg_kept | with_reducible refine Kept.ite ?_ ?_)) | (have hx : Kept s₀ x.2 := (show KeptSnd s₀ x from (by dsimp only [x]; repeat' first | with_reducible assumption | (refine KeptSnd.of ?_; first | with_reducible assumption | with_reducible apply State.outInput_kept | with_reducible apply State.bump_kept | with_reducible apply State.satReg_kept | with_reducible apply State.drawIn_kept | with_reducible apply State.setOut_kept | with_reducible refine Kept.foldlFst ?_ (fun _ _ _ => ?_) | with_reducible refine Kept.foldlSnd ?_ (fun _ _ _ => ?_))))) | skip)
    | lift_lets
    | with_reducible apply State.setOut_kept
    | with_reducible refine Kept.ite ?_ ?_

-- State.postOut
theorem State.postOut_kept {s₀ s : State} (n : Nat) (v : Word) (hK : Kept s₀ s) :
    Kept s₀ (State.postOut s n v) := by
  unfold State.postOut
  repeat' first
    | with_reducible assumption
    | intro x
    | lift_lets
    | with_reducible apply State.setReg_kept
    | with_reducible refine Kept.ite ?_ ?_

-- State.doCoefLoad
theorem State.doCoefLoad_kept {s₀ s : State} (n : Nat) (hK : Kept s₀ s) :
    Kept s₀ (State.doCoefLoad s n) := by
  unfold State.doCoefLoad
  repeat' first
    | with_reducible assumption
    | (intro x; first | (have hx : Kept s₀ x := (by dsimp only [x]; repeat' first | with_reducible assumption | with_reducible apply State.bw_kept | with_reducible apply State.setOut_kept | with_reducible apply State.setReg_kept)) | skip)
    | lift_lets
    | with_reducible apply State.opFail_kept
    | with_reducible apply State.raise_kept
    | with_reducible apply State.setOp_kept
    | with_reducible apply State.bump_kept
    | with_reducible apply State.opDone_kept
    | with_reducible refine Kept.ite ?_ ?_
    | split

-- State.startCheck
theorem State.startCheck_kept {s₀ s : State} (p : Nat) (hK : Kept s₀ s) :
    Kept s₀ (State.startCheck s p) := by
  unfold State.startCheck
  repeat' first
    | with_reducible assumption
    | (intro x; first | (have hx : Kept s₀ x := (by dsimp only [x]; repeat' first | with_reducible assumption | with_reducible apply State.restartChannel_kept)) | skip)
    | lift_lets
    | with_reducible apply State.raiseStop_kept
    | with_reducible apply State.setCh_kept
    | with_reducible apply State.setOut_kept
    | with_reducible apply State.setTrk_kept
    | with_reducible refine Kept.ite ?_ ?_

-- State.doStartCheck
theorem State.doStartCheck_kept {s₀ s : State} (u : Nat) (hK : Kept s₀ s) :
    Kept s₀ (State.doStartCheck s u) := by
  unfold State.doStartCheck
  repeat' first
    | with_reducible assumption
    | with_reducible apply State.startCheck_kept
    | with_reducible refine Kept.ite ?_ ?_

-- State.measStopped
theorem State.measStopped_kept {s₀ s : State} (p : Nat) (hK : Kept s₀ s) :
    Kept s₀ (State.measStopped s p) := by
  unfold State.measStopped
  repeat' first
    | with_reducible assumption
    | with_reducible apply State.setCh_kept
    | with_reducible apply State.setTrk_kept
    | with_reducible apply State.setReg_kept
    | with_reducible refine Kept.ite ?_ ?_

-- State.measOff
theorem State.measOff_kept {s₀ s : State} (p : Nat) (hK : Kept s₀ s) :
    Kept s₀ (State.measOff s p) := by
  unfold State.measOff
  repeat' first
    | with_reducible assumption
    | with_reducible apply State.setCh_kept
    | with_reducible apply State.settleLines_kept
    | with_reducible refine Kept.ite ?_ ?_

end Sys2Proof.Laws
end

