-- ==== Sys2Proof/Laws/KeptVme.lean ====
section
/-!
SUPPORT. `Kept` for the operations of Machine/Vme.lean.
-/
namespace Sys2Proof.Laws
open Sys2Proof Sys2Proof.Machine Sys2Proof.Safety

-- State.setVme
theorem State.setVme_kept {s₀ s : State} (v : VmeState) (hK : Kept s₀ s) :
    Kept s₀ (State.setVme s v) := by
  unfold State.setVme
  repeat' first
    | with_reducible assumption
    | (simp only [Kept.mk_iff]; refine KeptMk.upd ?_ rfl rfl rfl rfl rfl rfl rfl rfl)

-- State.vmeBump
theorem State.vmeBump_kept {s₀ s : State} (n : Nat) (amt : Nat) (hK : Kept s₀ s) :
    Kept s₀ (State.vmeBump s n amt) := by
  unfold State.vmeBump
  repeat' first
    | with_reducible assumption
    | with_reducible apply State.bump_kept
    | with_reducible refine Kept.ite ?_ ?_

-- State.vmeRefuse
theorem State.vmeRefuse_kept {s₀ s : State} (m : Master) (a : Nat) (hK : Kept s₀ s) :
    Kept s₀ (State.vmeRefuse s m a) := by
  unfold State.vmeRefuse
  repeat' first
    | with_reducible assumption
    | with_reducible apply State.raise_kept
    | with_reducible apply State.violation_kept

-- State.retry
theorem State.retry_kept {s₀ s : State}  (hK : Kept s₀ s) :
    Kept s₀ (State.retry s) := by
  unfold State.retry
  repeat' first
    | with_reducible assumption
    | with_reducible apply State.vmeBump_kept
    | with_reducible apply State.answer_kept

-- State.lockWait
theorem State.lockWait_kept {s₀ s : State}  (hK : Kept s₀ s) :
    Kept s₀ (State.lockWait s) := by
  unfold State.lockWait
  repeat' first
    | with_reducible assumption
    | with_reducible apply State.vmeBump_kept
    | with_reducible apply State.retry_kept

-- State.outbound
theorem State.outbound_kept {s₀ s : State} (m : Master) (a : Nat) (size : Nat) (write : Bool) (act : State → OutWin → State) (hact : ∀ t x1, Kept s₀ t → Kept s₀ (act t x1)) (hK : Kept s₀ s) :
    Kept s₀ (State.outbound s m a size write act) := by
  unfold State.outbound
  repeat' first
    | with_reducible assumption
    | with_reducible apply State.answer_kept
    | with_reducible apply State.violation_kept
    | with_reducible apply State.vmeRefuse_kept
    | with_reducible apply hact
    | split

-- State.issue
theorem State.issue_kept {s₀ s : State}  (hK : Kept s₀ s) :
    Kept s₀ (State.issue s) := by
  unfold State.issue
  repeat' first
    | with_reducible assumption
    | intro x
    | lift_lets
    | with_reducible apply State.setVme_kept
    | with_reducible apply State.vmeBump_kept
    | with_reducible refine Kept.ite ?_ ?_

-- State.arbiter
theorem State.arbiter_kept {s₀ s : State}  (hK : Kept s₀ s) :
    Kept s₀ (State.arbiter s) := by
  unfold State.arbiter
  repeat' first
    | with_reducible assumption
    | intro x
    | lift_lets
    | with_reducible apply State.setVme_kept
    | with_reducible refine Kept.ite ?_ ?_
    | split

-- State.betweenCycles
theorem State.betweenCycles_kept {s₀ s : State}  (hK : Kept s₀ s) :
    Kept s₀ (State.betweenCycles s) := by
  unfold State.betweenCycles
  repeat' first
    | with_reducible assumption
    | intro x
    | lift_lets
    | with_reducible apply State.setVme_kept
    | with_reducible apply State.arbiter_kept
    | with_reducible apply State.issue_kept
    | with_reducible refine Kept.ite ?_ ?_

-- State.doBusGrant
theorem State.doBusGrant_kept {s₀ s : State}  (hK : Kept s₀ s) :
    Kept s₀ (State.doBusGrant s) := by
  unfold State.doBusGrant
  repeat' first
    | with_reducible assumption
    | with_reducible apply State.setVme_kept
    | with_reducible apply State.vmeBump_kept
    | with_reducible apply State.issue_kept
    | with_reducible refine Kept.ite ?_ ?_

-- State.doBusRequest
theorem State.doBusRequest_kept {s₀ s : State} (l : Fin 4) (hK : Kept s₀ s) :
    Kept s₀ (State.doBusRequest s l) := by
  unfold State.doBusRequest
  repeat' first
    | with_reducible assumption
    | with_reducible apply State.setVme_kept
    | with_reducible apply State.betweenCycles_kept
    | with_reducible apply State.arbiter_kept

-- State.doDaisyChain
theorem State.doDaisyChain_kept {s₀ s : State} (iackIn : Bool) (bgIn : BitVec 4) (hK : Kept s₀ s) :
    Kept s₀ (State.doDaisyChain s iackIn bgIn) := by
  unfold State.doDaisyChain
  repeat' first
    | with_reducible assumption
    | intro x
    | lift_lets
    | with_reducible apply State.setVme_kept

-- State.bufferedRead
theorem State.bufferedRead_kept {s₀ s : State} (m : Master) (a : BitVec 40) (size : Nat) (hK : Kept s₀ s) :
    Kept s₀ (State.bufferedRead s m a size) := by
  unfold State.bufferedRead
  repeat' first
    | with_reducible assumption
    | (intro x; first | (have hx : Kept s₀ x := (by dsimp only [x]; repeat' first | with_reducible assumption | with_reducible apply State.setVme_kept)) | skip)
    | lift_lets
    | with_reducible apply State.retry_kept
    | with_reducible apply State.setVme_kept
    | with_reducible apply State.answer_kept
    | with_reducible refine Kept.ite ?_ ?_
    | split

-- State.vmeRead
theorem State.vmeRead_kept {s₀ s : State} (m : Master) (a : BitVec 40) (size : Nat) (hK : Kept s₀ s) :
    Kept s₀ (State.vmeRead s m a size) := by
  unfold State.vmeRead
  repeat' first
    | with_reducible assumption
    | with_reducible apply State.outbound_kept
    | with_reducible apply State.bufferedRead_kept
    | intro _

-- State.stretched
theorem State.stretched_kept {s₀ s : State} (bit : Nat) (hK : Kept s₀ s) :
    Kept s₀ (State.stretched s bit) := by
  unfold State.stretched
  repeat' first
    | with_reducible assumption
    | with_reducible apply State.ptApplied_kept
    | with_reducible refine Kept.ite ?_ ?_

-- State.fetched
theorem State.fetched_kept {s₀ s : State} (m : Master) (a : BitVec 40) (size : Nat) (r : VmeAnswer) (berr : Bool) (hK : Kept s₀ s) :
    Kept s₀ (State.fetched s m a size r berr) := by
  unfold State.fetched
  repeat' first
    | with_reducible assumption
    | intro x
    | lift_lets
    | with_reducible apply State.setVme_kept
    | with_reducible apply State.vmeBump_kept
    | with_reducible apply State.bw_kept
    | with_reducible apply State.stretched_kept
    | with_reducible apply State.satReg_kept
    | with_reducible apply State.raise_kept
    | with_reducible apply State.betweenCycles_kept
    | split
    | (simp only [Kept.mk_iff]; refine KeptMk.upd ?_ rfl rfl rfl rfl rfl rfl rfl rfl)

-- State.accept
theorem State.accept_kept {s₀ s : State} (m : Master) (w : OutWin) (a : BitVec 40) (size : Nat) (data : DWord) (hK : Kept s₀ s) :
    Kept s₀ (State.accept s m w a size data) := by
  unfold State.accept
  repeat' first
    | with_reducible assumption
    | intro x
    | lift_lets
    | with_reducible apply State.lockWait_kept
    | with_reducible apply State.retry_kept
    | with_reducible apply State.setVme_kept
    | with_reducible apply State.issue_kept
    | with_reducible apply State.answer_kept
    | with_reducible refine Kept.ite ?_ ?_

-- State.vmeWrite
theorem State.vmeWrite_kept {s₀ s : State} (m : Master) (a : BitVec 40) (size : Nat) (data : DWord) (hK : Kept s₀ s) :
    Kept s₀ (State.vmeWrite s m a size data) := by
  unfold State.vmeWrite
  repeat' first
    | with_reducible assumption
    | with_reducible apply State.outbound_kept
    | with_reducible apply State.accept_kept
    | intro _

-- State.headLeaves
theorem State.headLeaves_kept {s₀ s : State} (w : VmeWrite) (hK : Kept s₀ s) :
    Kept s₀ (State.headLeaves s w) := by
  unfold State.headLeaves
  repeat' first
    | with_reducible assumption
    | intro x
    | lift_lets
    | (simp only [Kept.mk_iff]; refine KeptMk.upd ?_ rfl rfl rfl rfl rfl rfl rfl rfl)

-- State.headFails
theorem State.headFails_kept {s₀ s : State} (w : VmeWrite) (cause : Nat) (hK : Kept s₀ s) :
    Kept s₀ (State.headFails s w cause) := by
  unfold State.headFails
  repeat' first
    | with_reducible assumption
    | (intro x; first | (have hx : Kept s₀ x := (by dsimp only [x]; repeat' first | with_reducible assumption | with_reducible apply State.headLeaves_kept | with_reducible apply State.setReg_kept | with_reducible refine Kept.foldl ?_ (fun _ _ _ => ?_) | (simp only [Kept.mk_iff]; refine KeptMk.upd ?_ rfl rfl rfl rfl rfl rfl rfl rfl))) | skip)
    | lift_lets
    | with_reducible apply State.incReg_kept
    | with_reducible apply State.raise_kept

-- State.blockFails
theorem State.blockFails_kept {s₀ s : State} (cause : Nat) (hK : Kept s₀ s) :
    Kept s₀ (State.blockFails s cause) := by
  unfold State.blockFails
  repeat' first
    | with_reducible assumption
    | with_reducible apply State.headFails_kept
    | with_reducible refine Kept.foldl ?_ (fun _ _ _ => ?_)

-- State.writeEnds
theorem State.writeEnds_kept {s₀ s : State} (failure : Option Nat) (hK : Kept s₀ s) :
    Kept s₀ (State.writeEnds s failure) := by
  unfold State.writeEnds
  repeat' first
    | with_reducible assumption
    | with_reducible apply State.headLeaves_kept
    | with_reducible apply State.vmeBump_kept
    | with_reducible apply State.bw_kept
    | with_reducible apply State.stretched_kept
    | with_reducible apply State.blockFails_kept
    | with_reducible apply State.betweenCycles_kept
    | with_reducible refine Kept.ite ?_ ?_
    | split

-- State.cycleTimesOut
theorem State.cycleTimesOut_kept {s₀ s : State} (c : VmeCycle) (cause : Nat) (hK : Kept s₀ s) :
    Kept s₀ (State.cycleTimesOut s c cause) := by
  unfold State.cycleTimesOut
  repeat' first
    | with_reducible assumption
    | with_reducible apply State.writeEnds_kept
    | with_reducible apply State.fetched_kept
    | split

-- State.doFence
theorem State.doFence_kept {s₀ s : State} (m : Master) (hK : Kept s₀ s) :
    Kept s₀ (State.doFence s m) := by
  unfold State.doFence
  repeat' first
    | with_reducible assumption
    | intro x
    | lift_lets
    | with_reducible apply State.violation_kept
    | with_reducible apply State.setVme_kept
    | with_reducible apply State.answer_kept
    | with_reducible apply State.retry_kept
    | with_reducible refine Kept.ite ?_ ?_

-- State.amoCycle
theorem State.amoCycle_kept {s₀ s : State} (m : Master) (w : OutWin) (a : BitVec 40) (size : Nat) (r : VmeAnswer) (hK : Kept s₀ s) :
    Kept s₀ (State.amoCycle s m w a size r) := by
  unfold State.amoCycle
  repeat' first
    | with_reducible assumption
    | (intro x; first | (have hx : Kept s₀ x := (by dsimp only [x]; repeat' first | with_reducible assumption | with_reducible apply State.setVme_kept | with_reducible apply State.vmeBump_kept)) | skip)
    | lift_lets
    | with_reducible apply State.vmeRefuse_kept
    | with_reducible apply State.lockWait_kept
    | with_reducible apply State.retry_kept
    | with_reducible apply State.setVme_kept
    | with_reducible apply State.vmeBump_kept
    | with_reducible apply State.bw_kept
    | with_reducible apply State.stretched_kept
    | with_reducible apply State.answer_kept
    | with_reducible refine Kept.ite ?_ ?_
    | split

-- State.vmeAmo
theorem State.vmeAmo_kept {s₀ s : State} (m : Master) (a : BitVec 40) (size : Nat) (r : VmeAnswer) (hK : Kept s₀ s) :
    Kept s₀ (State.vmeAmo s m a size r) := by
  unfold State.vmeAmo
  repeat' first
    | with_reducible assumption
    | with_reducible apply State.outbound_kept
    | with_reducible apply State.amoCycle_kept
    | intro _

-- State.lrRead
theorem State.lrRead_kept {s₀ s : State} (m : Master) (a : BitVec 40) (size : Nat) (hK : Kept s₀ s) :
    Kept s₀ (State.lrRead s m a size) := by
  unfold State.lrRead
  repeat' first
    | with_reducible assumption
    | intro x
    | lift_lets
    | with_reducible apply State.bufferedRead_kept
    | with_reducible apply State.lockWait_kept
    | with_reducible apply State.setVme_kept
    | with_reducible apply State.retry_kept
    | with_reducible refine Kept.ite ?_ ?_

-- State.vmeLr
theorem State.vmeLr_kept {s₀ s : State} (m : Master) (a : BitVec 40) (size : Nat) (hK : Kept s₀ s) :
    Kept s₀ (State.vmeLr s m a size) := by
  unfold State.vmeLr
  repeat' first
    | with_reducible assumption
    | with_reducible apply State.outbound_kept
    | with_reducible apply State.lrRead_kept
    | intro _

-- State.scCycle
theorem State.scCycle_kept {s₀ s : State} (m : Master) (a : BitVec 40) (size : Nat) (dtack : Bool) (hK : Kept s₀ s) :
    Kept s₀ (State.scCycle s m a size dtack) := by
  unfold State.scCycle
  repeat' first
    | with_reducible assumption
    | (intro x; first | (have hx : Kept s₀ x := (by dsimp only [x]; repeat' first | with_reducible assumption | with_reducible apply State.setVme_kept | with_reducible apply State.vmeBump_kept)) | skip)
    | lift_lets
    | with_reducible apply State.vmeBump_kept
    | with_reducible apply State.bw_kept
    | with_reducible apply State.stretched_kept
    | with_reducible apply State.answer_kept
    | with_reducible refine Kept.ite ?_ ?_

-- State.vmeSc
theorem State.vmeSc_kept {s₀ s : State} (m : Master) (a : BitVec 40) (size : Nat) (dtack : Bool) (hK : Kept s₀ s) :
    Kept s₀ (State.vmeSc s m a size dtack) := by
  unfold State.vmeSc
  repeat' first
    | with_reducible assumption
    | with_reducible apply State.outbound_kept
    | with_reducible apply State.scCycle_kept
    | intro _

-- State.doLrTimeout
theorem State.doLrTimeout_kept {s₀ s : State} (m : Master) (hK : Kept s₀ s) :
    Kept s₀ (State.doLrTimeout s m) := by
  unfold State.doLrTimeout
  repeat' first
    | with_reducible assumption
    | with_reducible apply State.setVme_kept

-- State.inboundCycle
theorem State.inboundCycle_kept {s₀ s : State} (c : InboundCycle) (act : State → Nat → Bool → State) (hact : ∀ t x1 x2, Kept s₀ t → Kept s₀ (act t x1 x2)) (hK : Kept s₀ s) :
    Kept s₀ (State.inboundCycle s c act) := by
  unfold State.inboundCycle
  repeat' first
    | with_reducible assumption
    | with_reducible apply State.answer_kept
    | with_reducible apply hact
    | with_reducible refine Kept.ite ?_ ?_
    | split

-- State.dtack
theorem State.dtack_kept {s₀ s : State} (v : DWord) (hK : Kept s₀ s) :
    Kept s₀ (State.dtack s v) := by
  unfold State.dtack
  repeat' first
    | with_reducible assumption
    | with_reducible apply State.stretched_kept
    | with_reducible apply State.answer_kept

-- drainInbound
theorem drainInbound_kept {s₀ : State} (rmw : Option Nat) (l : List (Nat × List Byte)) {s : State} (hK : Kept s₀ s) :
    Kept s₀ (drainInbound rmw l s) := by
  induction l generalizing s with
  | nil => exact State.setVme_kept _ hK
  | cons e l ih => exact Kept.ite (State.setVme_kept _ hK) (ih (State.sramWrite_kept _ _ hK))

-- State.inboundDrain
theorem State.inboundDrain_kept {s₀ s : State}  (hK : Kept s₀ s) :
    Kept s₀ (State.inboundDrain s) := by
  unfold State.inboundDrain
  repeat' first
    | with_reducible assumption
    | with_reducible apply drainInbound_kept
    | with_reducible refine Kept.ite ?_ ?_

-- State.doInboundWrite
theorem State.doInboundWrite_kept {s₀ s : State} (c : InboundCycle) (data : List Byte) (hK : Kept s₀ s) :
    Kept s₀ (State.doInboundWrite s c data) := by
  unfold State.doInboundWrite
  repeat' first
    | with_reducible assumption
    | with_reducible apply State.inboundCycle_kept
    | with_reducible apply State.setVme_kept
    | with_reducible apply State.vmeBump_kept
    | with_reducible apply State.bw_kept
    | with_reducible apply State.dtack_kept
    | with_reducible apply State.answer_kept
    | intro _
    | with_reducible refine Kept.ite ?_ ?_

-- State.inboundData
theorem State.inboundData_kept {s₀ s : State} (c : InboundCycle) (off : Nat) (act : State → Word → State) (hact : ∀ t x1, Kept s₀ t → Kept s₀ (act t x1)) (hK : Kept s₀ s) :
    Kept s₀ (State.inboundData s c off act) := by
  unfold State.inboundData
  repeat' first
    | with_reducible assumption
    | with_reducible apply State.raise_kept
    | with_reducible apply State.answer_kept
    | with_reducible apply hact
    | split

-- State.doInboundRead
theorem State.doInboundRead_kept {s₀ s : State} (c : InboundCycle) (hK : Kept s₀ s) :
    Kept s₀ (State.doInboundRead s c) := by
  unfold State.doInboundRead
  repeat' first
    | with_reducible assumption
    | intro x
    | lift_lets
    | with_reducible apply State.inboundCycle_kept
    | with_reducible apply State.inboundDrain_kept
    | with_reducible apply State.answer_kept
    | with_reducible apply State.inboundData_kept
    | with_reducible apply State.vmeBump_kept
    | with_reducible apply State.bw_kept
    | with_reducible apply State.dtack_kept
    | with_reducible refine Kept.ite ?_ ?_

-- State.doInboundRmw
theorem State.doInboundRmw_kept {s₀ s : State} (c : InboundCycle) (data : Option (List Byte)) (hK : Kept s₀ s) :
    Kept s₀ (State.doInboundRmw s c data) := by
  unfold State.doInboundRmw
  repeat' first
    | with_reducible assumption
    | intro x
    | lift_lets
    | with_reducible apply State.inboundCycle_kept
    | with_reducible apply State.inboundDrain_kept
    | with_reducible apply State.answer_kept
    | with_reducible apply State.vmeBump_kept
    | with_reducible apply State.inboundData_kept
    | with_reducible apply State.setVme_kept
    | with_reducible apply State.bw_kept
    | with_reducible apply State.dtack_kept
    | with_reducible apply State.sramWrite_kept
    | with_reducible refine Kept.ite ?_ ?_
    | split

-- State.breakLock
theorem State.breakLock_kept {s₀ s : State}  (hK : Kept s₀ s) :
    Kept s₀ (State.breakLock s) := by
  unfold State.breakLock
  repeat' first
    | with_reducible assumption
    | with_reducible apply State.setVme_kept
    | with_reducible apply State.raise_kept
    | with_reducible refine Kept.ite ?_ ?_

-- State.iack
theorem State.iack_kept {s₀ s : State} (l : Nat) (ack : Option Word) (hK : Kept s₀ s) :
    Kept s₀ (State.iack s l ack) := by
  unfold State.iack
  repeat' first
    | with_reducible assumption
    | (intro x; first | (have hx : Kept s₀ x := (by dsimp only [x]; repeat' first | with_reducible assumption | with_reducible apply State.vmeBump_kept)) | skip)
    | lift_lets
    | with_reducible apply State.setVme_kept
    | with_reducible apply State.messageTo_kept
    | with_reducible apply State.setReg_kept
    | with_reducible apply State.raise_kept
    | with_reducible refine Kept.ite ?_ ?_
    | split

-- State.doIrqPoll
theorem State.doIrqPoll_kept {s₀ s : State} (asserted : BitVec 8) (acks : List (Option Word)) (hK : Kept s₀ s) :
    Kept s₀ (State.doIrqPoll s asserted acks) := by
  unfold State.doIrqPoll
  repeat' first
    | with_reducible assumption
    | (intro x; first | (have hx : Kept s₀ x := (by dsimp only [x]; repeat' first | with_reducible assumption | with_reducible apply State.setReg_kept)) | skip)
    | lift_lets
    | with_reducible apply State.iack_kept
    | with_reducible refine Kept.foldl ?_ (fun _ _ _ => ?_)
    | with_reducible refine Kept.ite ?_ ?_

-- State.doIrqEnable
theorem State.doIrqEnable_kept {s₀ s : State} (v : Word) (hK : Kept s₀ s) :
    Kept s₀ (State.doIrqEnable s v) := by
  unfold State.doIrqEnable
  repeat' first
    | with_reducible assumption
    | (intro x; first | (have hx : Kept s₀ x := (by dsimp only [x]; repeat' first | with_reducible assumption | with_reducible apply State.storeReg_kept | with_reducible apply State.setReg_kept)) | skip)
    | lift_lets
    | with_reducible apply State.setVme_kept

-- State.vmeRegWrite
theorem State.vmeRegWrite_kept {s₀ s : State} (off : Nat) (v : Word) (hK : Kept s₀ s) :
    Kept s₀ (State.vmeRegWrite s off v) := by
  unfold State.vmeRegWrite
  repeat' first
    | with_reducible assumption
    | intro x
    | lift_lets
    | with_reducible apply State.raise_kept
    | with_reducible apply State.storeReg_kept
    | with_reducible refine Kept.ite ?_ ?_

-- State.vmeStops
theorem State.vmeStops_kept {s₀ s : State}  (hK : Kept s₀ s) :
    Kept s₀ (State.vmeStops s) := by
  unfold State.vmeStops
  repeat' first
    | with_reducible assumption
    | with_reducible apply State.setVme_kept

-- State.vmeLocalReset
theorem State.vmeLocalReset_kept {s₀ s : State}  (hK : Kept s₀ s) :
    Kept s₀ (State.vmeLocalReset s) := by
  unfold State.vmeLocalReset
  repeat' first
    | with_reducible assumption
    | intro x
    | lift_lets
    | with_reducible apply State.setVme_kept
    | with_reducible apply State.setReg_kept

-- State.captureVme
theorem State.captureVme_kept {s₀ s : State}  (hK : Kept s₀ s) :
    Kept s₀ (State.captureVme s) := by
  unfold State.captureVme
  repeat' first
    | with_reducible assumption
    | with_reducible apply State.setReg_kept

end Sys2Proof.Laws
end

