-- ==== Sys2Proof/Laws/KeptPages.lean ====
section
/-!
SUPPORT. `Kept` for the operations of Machine/Pages.lean.
-/
namespace Sys2Proof.Laws
open Sys2Proof Sys2Proof.Machine Sys2Proof.Safety

-- State.leaveOn
theorem State.leaveOn_kept {s₀ s0 : State} (p : Nat) (hK : Kept s₀ s0) :
    Kept s₀ (State.leaveOn s0 p) := by
  unfold State.leaveOn
  repeat' first
    | with_reducible assumption
    | (intro x; first | (have hx : Kept s₀ x := (by dsimp only [x]; repeat' first | with_reducible assumption | with_reducible apply State.opAborted_kept)) | skip)
    | lift_lets
    | with_reducible apply State.dropEgress_kept
    | with_reducible apply State.canStop_kept
    | with_reducible apply State.measStopped_kept
    | with_reducible apply State.vmeStops_kept
    | split

-- State.follow
theorem State.follow_kept {s₀ s : State} (p : Nat) (hK : Kept s₀ s) :
    Kept s₀ (State.follow s p) := by
  unfold State.follow
  repeat' first
    | with_reducible assumption
    | intro x
    | lift_lets
    | with_reducible apply State.setPage_kept
    | with_reducible apply State.leaveOn_kept
    | with_reducible refine Kept.ite ?_ ?_
    | split

-- State.followAll
theorem State.followAll_kept {s₀ s : State} (p : Nat) (hK : Kept s₀ s) :
    Kept s₀ (State.followAll s p) := by
  unfold State.followAll
  repeat' first
    | with_reducible assumption
    | with_reducible apply State.follow_kept
    | with_reducible refine Kept.foldl ?_ (fun _ _ _ => ?_)

-- State.doEnable
theorem State.doEnable_kept {s₀ s : State} (p : Nat) (b : Bool) (hK : Kept s₀ s) :
    Kept s₀ (State.doEnable s p b) := by
  unfold State.doEnable
  repeat' first
    | with_reducible assumption
    | intro x
    | lift_lets
    | with_reducible apply State.setPage_kept
    | with_reducible apply State.followAll_kept
    | with_reducible refine Kept.ite ?_ ?_

-- State.doFreeze
theorem State.doFreeze_kept {s₀ s : State} (p : Nat) (b : Bool) (hK : Kept s₀ s) :
    Kept s₀ (State.doFreeze s p b) := by
  unfold State.doFreeze
  repeat' first
    | with_reducible assumption
    | with_reducible apply State.setPage_kept
    | with_reducible refine Kept.ite ?_ ?_

-- State.doLock
theorem State.doLock_kept {s₀ s : State} (p : Nat) (hK : Kept s₀ s) :
    Kept s₀ (State.doLock s p) := by
  unfold State.doLock
  repeat' first
    | with_reducible assumption
    | (intro x; first | (have hx : Kept s₀ x := (by dsimp only [x]; repeat' first | with_reducible assumption | with_reducible apply State.setPage_kept)) | skip)
    | lift_lets
    | with_reducible apply State.setEcho_kept
    | with_reducible refine Kept.ite ?_ ?_

-- State.resetRegs
theorem State.resetRegs_kept {s₀ s : State} (p : Nat) (hK : Kept s₀ s) :
    Kept s₀ (State.resetRegs s p) := by
  unfold State.resetRegs
  repeat' first
    | with_reducible assumption
    | (simp only [Kept.mk_iff]; refine KeptMk.upd ?_ rfl rfl rfl rfl rfl rfl rfl rfl)

-- State.resetOp
theorem State.resetOp_kept {s₀ s : State} (p : Nat) (hK : Kept s₀ s) :
    Kept s₀ (State.resetOp s p) := by
  unfold State.resetOp
  repeat' first
    | with_reducible assumption
    | with_reducible apply State.opAborted_kept
    | with_reducible apply State.setOp_kept
    | with_reducible refine Kept.ite ?_ ?_

-- State.resetOwn
theorem State.resetOwn_kept {s₀ s : State} (p : Nat) (hK : Kept s₀ s) :
    Kept s₀ (State.resetOwn s p) := by
  unfold State.resetOwn
  repeat' first
    | with_reducible assumption
    | (intro x; first | (have hx : Kept s₀ x := (by dsimp only [x]; repeat' first | with_reducible assumption | with_reducible apply State.dropEgress_kept | with_reducible apply State.setSwPort_kept)) | skip)
    | lift_lets
    | with_reducible apply State.setNet_kept
    | with_reducible apply State.queueReset_kept
    | with_reducible apply State.trdpRestart_kept
    | with_reducible apply State.setMvb_kept
    | with_reducible apply State.setCan_kept
    | with_reducible apply State.setCh_kept
    | with_reducible apply State.settleLines_kept
    | with_reducible apply State.setOut_kept
    | with_reducible apply State.setTrk_kept
    | with_reducible apply State.vmeLocalReset_kept
    | split

-- State.resetUnit
theorem State.resetUnit_kept {s₀ s : State} (p : Nat) (hK : Kept s₀ s) :
    Kept s₀ (State.resetUnit s p) := by
  unfold State.resetUnit
  repeat' first
    | with_reducible assumption
    | (intro x; first | (have hx : Kept s₀ x := (by dsimp only [x]; repeat' first | with_reducible assumption | with_reducible apply State.resetRegs_kept | with_reducible apply State.resetOp_kept | with_reducible apply State.resetOwn_kept)) | skip)
    | lift_lets
    | with_reducible apply State.setPage_kept
    | with_reducible refine Kept.ite ?_ ?_

-- State.doLocalReset
theorem State.doLocalReset_kept {s₀ s : State} (p : Nat) (hK : Kept s₀ s) :
    Kept s₀ (State.doLocalReset s p) := by
  unfold State.doLocalReset
  repeat' first
    | with_reducible assumption
    | with_reducible apply State.resetUnit_kept
    | with_reducible apply State.followAll_kept
    | with_reducible refine Kept.foldl ?_ (fun _ _ _ => ?_)
    | with_reducible refine Kept.ite ?_ ?_

-- State.pageCtrl
theorem State.pageCtrl_kept {s₀ s : State} (p : Nat) (v : Word) (hK : Kept s₀ s) :
    Kept s₀ (State.pageCtrl s p v) := by
  unfold State.pageCtrl
  repeat' first
    | with_reducible assumption
    | (intro x; first | (have hx : Kept s₀ x := (by dsimp only [x]; repeat' first | with_reducible assumption | with_reducible apply State.doFreeze_kept | with_reducible apply State.doEnable_kept)) | skip)
    | lift_lets
    | with_reducible apply State.doLocalReset_kept
    | with_reducible apply State.doLock_kept
    | with_reducible refine Kept.ite ?_ ?_

-- State.starts
theorem State.starts_kept {s₀ s : State} (p : Nat) (hK : Kept s₀ s) :
    Kept s₀ (State.starts s p) := by
  unfold State.starts
  repeat' first
    | with_reducible assumption
    | with_reducible apply State.trdpRestart_kept
    | with_reducible apply State.startCheck_kept
    | split

-- State.doStartCompletes
theorem State.doStartCompletes_kept {s₀ s : State} (p : Nat) (hK : Kept s₀ s) :
    Kept s₀ (State.doStartCompletes s p) := by
  unfold State.doStartCompletes
  repeat' first
    | with_reducible assumption
    | (intro x; first | (have hx : Kept s₀ x := (by dsimp only [x]; repeat' first | with_reducible assumption | with_reducible apply State.starts_kept)) | skip)
    | lift_lets
    | with_reducible apply State.setPage_kept
    | with_reducible refine Kept.ite ?_ ?_

-- State.doDrainCompletes
theorem State.doDrainCompletes_kept {s₀ s : State} (p : Nat) (hK : Kept s₀ s) :
    Kept s₀ (State.doDrainCompletes s p) := by
  unfold State.doDrainCompletes
  repeat' first
    | with_reducible assumption
    | intro x
    | lift_lets
    | with_reducible apply State.measOff_kept
    | with_reducible apply State.setPage_kept
    | with_reducible refine Kept.ite ?_ ?_

-- State.doOpStart
theorem State.doOpStart_kept {s₀ s : State} (p : Nat) (n : Fin 16) (hK : Kept s₀ s) :
    Kept s₀ (State.doOpStart s p n) := by
  unfold State.doOpStart
  repeat' first
    | with_reducible assumption
    | (intro x; first | (have hx : Kept s₀ x := (by dsimp only [x]; repeat' first | with_reducible assumption | with_reducible apply State.setOp_kept)) | skip)
    | lift_lets
    | with_reducible apply State.opFail_kept
    | with_reducible apply State.setReg_kept
    | with_reducible refine Kept.ite ?_ ?_

-- State.doOpSuspend
theorem State.doOpSuspend_kept {s₀ s : State} (p : Nat) (hK : Kept s₀ s) :
    Kept s₀ (State.doOpSuspend s p) := by
  unfold State.doOpSuspend
  repeat' first
    | with_reducible assumption
    | with_reducible apply State.setOp_kept
    | with_reducible refine Kept.ite ?_ ?_

-- State.doOpResume
theorem State.doOpResume_kept {s₀ s : State} (p : Nat) (hK : Kept s₀ s) :
    Kept s₀ (State.doOpResume s p) := by
  unfold State.doOpResume
  repeat' first
    | with_reducible assumption
    | intro x
    | lift_lets
    | with_reducible apply State.setOp_kept
    | with_reducible refine Kept.ite ?_ ?_

-- State.opCmd
theorem State.opCmd_kept {s₀ s : State} (p : Nat) (v : Word) (hK : Kept s₀ s) :
    Kept s₀ (State.opCmd s p v) := by
  unfold State.opCmd
  repeat' first
    | with_reducible assumption
    | intro x
    | lift_lets
    | with_reducible apply State.doOpStart_kept
    | with_reducible apply State.opAborted_kept
    | with_reducible apply State.doOpSuspend_kept
    | with_reducible apply State.doOpResume_kept
    | with_reducible refine Kept.ite ?_ ?_

-- State.doItemComplete
theorem State.doItemComplete_kept {s₀ s : State} (p : Nat) (result : Bool) (error : Word) (last : Bool) (hK : Kept s₀ s) :
    Kept s₀ (State.doItemComplete s p result error last) := by
  unfold State.doItemComplete
  repeat' first
    | with_reducible assumption
    | intro x
    | lift_lets
    | with_reducible apply State.opFail_kept
    | with_reducible apply State.setOp_kept
    | with_reducible refine Kept.ite ?_ ?_

-- State.captureCluster
theorem State.captureCluster_kept {s₀ s : State}  (hK : Kept s₀ s) :
    Kept s₀ (State.captureCluster s) := by
  unfold State.captureCluster
  repeat' first
    | with_reducible assumption
    | (intro x; first | (have hx : Kept s₀ x := (by dsimp only [x]; repeat' first | with_reducible assumption | with_reducible apply State.setReg64_kept | with_reducible refine Kept.foldl ?_ (fun _ _ _ => ?_))) | skip)
    | lift_lets
    | with_reducible apply State.setReg_kept

-- State.captureBook
theorem State.captureBook_kept {s₀ s : State} (p : Nat) (hK : Kept s₀ s) : Kept s₀ (State.captureBook s p).1 := by
  unfold State.captureBook
  split
  · exact State.captureCluster_kept hK
  · exact State.captureCells_kept hK
  · exact State.capturePort_kept _ hK
  · exact State.captureQueue_kept _ hK
  · exact State.captureSafe_kept hK
  · exact State.captureVme_kept hK
  · exact State.capturePs_kept hK
  · exact State.captureCway_kept hK
  · exact hK

-- State.auditStatus
theorem State.auditStatus_kept {s₀ s : State} (p : Nat) (bad : Bool) (hK : Kept s₀ s) :
    Kept s₀ (State.auditStatus s p bad) := by
  unfold State.auditStatus
  repeat' first
    | with_reducible assumption
    | with_reducible apply State.setReg_kept

-- State.auditUnit
theorem State.auditUnit_kept {s₀ s : State} (p : Nat) (hK : Kept s₀ s) : Kept s₀ (State.auditUnit s p).1 := by
  unfold State.auditUnit
  have h1 := State.auditStatus_kept p (s.captureBook p).2.1 (State.captureBook_kept p hK)
  exact Kept.ite (Kept.ite (State.lockoutCause_kept _ _ _ h1) (State.raise_kept _ _ _ h1)) h1

-- State.auditAll
theorem State.auditAll_kept {s₀ s : State} (p : Nat) (hK : Kept s₀ s) :
    Kept s₀ (State.auditAll s p) := by
  unfold State.auditAll
  repeat' first
    | with_reducible assumption
    | (intro x; first | (have hx : Kept s₀ x.1 := (show KeptFst s₀ x from (by dsimp only [x]; repeat' first | with_reducible assumption | simp only [KeptFst.mk_iff] | (refine KeptFst.of ?_; first | with_reducible assumption | with_reducible apply State.auditUnit_kept | with_reducible apply State.setReg_kept | with_reducible apply State.auditStatus_kept | with_reducible refine Kept.foldlFst ?_ (fun _ _ _ => ?_) | with_reducible refine Kept.foldlSnd ?_ (fun _ _ _ => ?_))))) | skip)
    | lift_lets
    | with_reducible apply State.setReg_kept
    | with_reducible apply State.auditStatus_kept
    | with_reducible refine Kept.ite ?_ ?_

-- State.doSnap
theorem State.doSnap_kept {s₀ s : State} (p : Nat) (hK : Kept s₀ s) :
    Kept s₀ (State.doSnap s p) := by
  unfold State.doSnap
  repeat' first
    | with_reducible assumption
    | with_reducible apply State.auditAll_kept
    | with_reducible refine Kept.ite ?_ ?_
    | (simp only [Kept.mk_iff]; refine KeptMk.upd ?_ rfl rfl rfl rfl rfl rfl rfl rfl)

-- State.doCaptureComplete
theorem State.doCaptureComplete_kept {s₀ s : State} (p : Nat) (hK : Kept s₀ s) :
    Kept s₀ (State.doCaptureComplete s p) := by
  unfold State.doCaptureComplete
  repeat' first
    | with_reducible assumption
    | with_reducible apply State.auditAll_kept
    | with_reducible refine Kept.ite ?_ ?_
    | (simp only [Kept.mk_iff]; refine KeptMk.upd ?_ rfl rfl rfl rfl rfl rfl rfl rfl)

-- State.doLedgerSnap
theorem State.doLedgerSnap_kept {s₀ s : State} (m : Master) (hK : Kept s₀ s) :
    Kept s₀ (State.doLedgerSnap s m) := by
  unfold State.doLedgerSnap
  repeat' first
    | with_reducible assumption
    | intro x
    | lift_lets
    | with_reducible apply State.bump_kept
    | (simp only [Kept.mk_iff]; refine KeptMk.upd ?_ rfl rfl rfl rfl rfl rfl rfl rfl)

-- State.lockoutRecorded
theorem State.lockoutRecorded_kept {s₀ s : State} (r : FaultReport) (hK : Kept s₀ s) :
    Kept s₀ (State.lockoutRecorded s r) := by
  unfold State.lockoutRecorded
  repeat' first
    | with_reducible assumption
    | with_reducible refine State.setSup_same _ ?_ rfl rfl rfl rfl rfl rfl
    | with_reducible refine Kept.ite ?_ ?_

-- State.doFaultRecord
theorem State.doFaultRecord_kept {s₀ s : State} (pl : Plane) (hK : Kept s₀ s) : Kept s₀ (State.doFaultRecord s pl) := by
  unfold State.doFaultRecord
  split
  · exact hK
  · rename_i r rest h
    refine Kept.ite hK ?_
    have h1 := Kept.taken pl (State.bump_kept 4 3 1 (State.mramWrite_kept 1 (mramFault r.seq) (faultRecordBytes r) hK))
    exact State.pfNext_kept (State.lockoutRecorded_kept _ (State.setNv_kept _ h1))

-- State.doCkMeas
theorem State.doCkMeas_kept {s₀ s : State} (khz : List Word) (hK : Kept s₀ s) :
    Kept s₀ (State.doCkMeas s khz) := by
  unfold State.doCkMeas
  repeat' first
    | with_reducible assumption
    | with_reducible apply State.setReg_kept
    | with_reducible refine Kept.foldl ?_ (fun _ _ _ => ?_)

-- State.doPllUnlock
theorem State.doPllUnlock_kept {s₀ s : State} (pll : Nat) (hK : Kept s₀ s) :
    Kept s₀ (State.doPllUnlock s pll) := by
  unfold State.doPllUnlock
  repeat' first
    | with_reducible assumption
    | with_reducible apply State.setReg_kept
    | with_reducible apply State.raise_kept

-- State.doRemoteTimeout
theorem State.doRemoteTimeout_kept {s₀ s : State} (m : Master) (stack : Nat) (page : Nat) (off : Nat) (hK : Kept s₀ s) :
    Kept s₀ (State.doRemoteTimeout s m stack page off) := by
  unfold State.doRemoteTimeout
  repeat' first
    | with_reducible assumption
    | with_reducible apply State.violation_kept
    | with_reducible refine Kept.ite ?_ ?_

end Sys2Proof.Laws
end

