-- ==== Sys2Proof/Laws/KeptInject.lean ====
section
/-!
SUPPORT. `Kept` for the operations of Machine/Inject.lean.
-/
namespace Sys2Proof.Laws
open Sys2Proof Sys2Proof.Machine Sys2Proof.Safety

-- State.syntheticCopy
theorem State.syntheticCopy_kept {s₀ s : State} (k : Copy) (bit : Nat) (hK : Kept s₀ s) :
    Kept s₀ (State.syntheticCopy s k bit) := by
  unfold State.syntheticCopy
  repeat' first
    | with_reducible assumption
    | with_reducible apply State.copyCause_kept
    | with_reducible apply State.raise_kept
    | with_reducible refine Kept.ite ?_ ?_

-- State.syntheticSup
theorem State.syntheticSup_kept {s₀ s : State} (bit : Nat) (hK : Kept s₀ s) :
    Kept s₀ (State.syntheticSup s bit) := by
  unfold State.syntheticSup
  repeat' first
    | with_reducible assumption
    | with_reducible apply State.raise_kept
    | with_reducible apply State.supervisorFault_kept
    | with_reducible refine Kept.ite ?_ ?_

-- State.syntheticProgram
theorem State.syntheticProgram_kept {s₀ s : State} (p : Nat) (bit : Nat) (hK : Kept s₀ s) :
    Kept s₀ (State.syntheticProgram s p bit) := by
  unfold State.syntheticProgram
  repeat' first
    | with_reducible assumption
    | with_reducible apply State.stopProgram_kept
    | with_reducible apply State.drawWord_kept
    | with_reducible apply State.raise_kept
    | with_reducible refine Kept.ite ?_ ?_

-- State.syntheticStop
theorem State.syntheticStop_kept {s₀ s : State} (p : Nat) (bit : Nat) (hK : Kept s₀ s) :
    Kept s₀ (State.syntheticStop s p bit) := by
  unfold State.syntheticStop
  repeat' first
    | with_reducible assumption
    | (intro x; first | (have hx : Kept s₀ x := (by dsimp only [x]; repeat' first | with_reducible assumption | with_reducible apply State.raiseStop_kept)) | skip)
    | lift_lets
    | with_reducible apply State.leaveOn_kept
    | with_reducible refine Kept.ite ?_ ?_

-- State.synthetic
theorem State.synthetic_kept {s₀ s : State} (p : Nat) (bit : Nat) (hK : Kept s₀ s) :
    Kept s₀ (State.synthetic s p bit) := by
  unfold State.synthetic
  repeat' first
    | with_reducible assumption
    | with_reducible apply State.noMajority_kept
    | with_reducible apply State.lockoutCause_kept
    | with_reducible apply State.syntheticCopy_kept
    | with_reducible apply State.latch_kept
    | with_reducible apply State.engineCause_kept
    | with_reducible apply State.syntheticProgram_kept
    | with_reducible apply State.syntheticSup_kept
    | with_reducible apply State.syntheticStop_kept
    | with_reducible apply State.declareTrip_kept
    | with_reducible apply State.raise_kept
    | with_reducible refine Kept.ite ?_ ?_
    | split

-- State.doInject
theorem State.doInject_kept {s₀ s : State} (p : Nat) (v : Word) (hK : Kept s₀ s) :
    Kept s₀ (State.doInject s p v) := by
  unfold State.doInject
  repeat' first
    | with_reducible assumption
    | intro x
    | lift_lets
    | with_reducible apply State.setReg_kept
    | with_reducible apply State.synthetic_kept
    | with_reducible refine Kept.ite ?_ ?_

end Sys2Proof.Laws
end

