-- ==== Sys2Proof/Laws/KeptView.lean ====
section
/-!
SUPPORT. `Kept` for the operations of Machine/View.lean.
-/
namespace Sys2Proof.Laws
open Sys2Proof Sys2Proof.Machine Sys2Proof.Safety

-- State.readLo
theorem State.readLo_kept {s₀ s : State} (m : Master) (p : Nat) (off : Nat) (hK : Kept s₀ s) :
    Kept s₀ (State.readLo s m p off) := by
  unfold State.readLo
  repeat' first
    | with_reducible assumption
    | with_reducible apply State.answer_kept
    | (simp only [Kept.mk_iff]; refine KeptMk.upd ?_ rfl rfl rfl rfl rfl rfl rfl rfl)

-- State.readHi
theorem State.readHi_kept {s₀ s : State} (m : Master) (p : Nat) (off : Nat) (hK : Kept s₀ s) :
    Kept s₀ (State.readHi s m p off) := by
  unfold State.readHi
  repeat' first
    | with_reducible assumption
    | with_reducible apply State.answer_kept

-- State.pageRead
theorem State.pageRead_kept {s₀ s : State} (m : Master) (p : Nat) (off : Nat) (hK : Kept s₀ s) :
    Kept s₀ (State.pageRead s m p off) := by
  unfold State.pageRead
  repeat' first
    | with_reducible assumption
    | with_reducible apply State.doMsgClaim_kept
    | with_reducible apply State.doFence_kept
    | with_reducible apply State.answer_kept
    | with_reducible apply State.drawWord_kept
    | with_reducible apply State.readLo_kept
    | with_reducible apply State.readHi_kept
    | with_reducible refine Kept.ite ?_ ?_

end Sys2Proof.Laws
end

