-- ==== Sys2Proof/Laws/KeptPageWrite.lean ====
section
/-!
SUPPORT. `Kept` for the operations of Machine/PageWrite.lean.
-/
namespace Sys2Proof.Laws
open Sys2Proof Sys2Proof.Machine Sys2Proof.Safety

-- State.storeIf
theorem State.storeIf_kept {s₀ s : State} (b : Bool) (p : Nat) (off : Nat) (v : Word) (hK : Kept s₀ s) :
    Kept s₀ (State.storeIf s b p off v) := by
  unfold State.storeIf
  repeat' first
    | with_reducible assumption
    | with_reducible apply State.storeReg_kept
    | with_reducible refine Kept.ite ?_ ?_

-- State.commonWrite
theorem State.commonWrite_kept {s₀ s : State} (p : Nat) (off : Nat) (v : Word) (hK : Kept s₀ s) :
    Kept s₀ (State.commonWrite s p off v) := by
  unfold State.commonWrite
  repeat' first
    | with_reducible assumption
    | with_reducible apply State.pageCtrl_kept
    | with_reducible apply State.doInject_kept
    | with_reducible apply State.setReg_kept
    | with_reducible apply State.opCmd_kept
    | with_reducible apply State.doSnap_kept
    | with_reducible refine Kept.ite ?_ ?_

-- State.gclCtrlWrite
theorem State.gclCtrlWrite_kept {s₀ s : State} (n : Nat) (v : Word) (hK : Kept s₀ s) :
    Kept s₀ (State.gclCtrlWrite s n v) := by
  unfold State.gclCtrlWrite
  repeat' first
    | with_reducible assumption
    | (intro x; first | (have hx : Kept s₀ x := (by dsimp only [x]; repeat' first | with_reducible assumption | with_reducible apply State.settle_kept | with_reducible apply State.storeReg_kept)) | skip)
    | lift_lets
    | with_reducible apply State.setSwPort_kept
    | with_reducible refine Kept.ite ?_ ?_

-- State.gclBankWrite
theorem State.gclBankWrite_kept {s₀ s : State} (n : Nat) (bank : Nat) (off : Nat) (v : Word) (hK : Kept s₀ s) :
    Kept s₀ (State.gclBankWrite s n bank off v) := by
  unfold State.gclBankWrite
  repeat' first
    | with_reducible assumption
    | intro x
    | lift_lets
    | with_reducible apply State.raise_kept
    | with_reducible apply State.storeReg_kept
    | with_reducible refine Kept.ite ?_ ?_

-- State.portRegWrite
theorem State.portRegWrite_kept {s₀ s : State} (n : Nat) (off : Nat) (v : Word) (hK : Kept s₀ s) :
    Kept s₀ (State.portRegWrite s n off v) := by
  unfold State.portRegWrite
  repeat' first
    | with_reducible assumption
    | intro x
    | lift_lets
    | with_reducible apply State.storeIf_kept
    | with_reducible apply State.gclCtrlWrite_kept
    | with_reducible apply State.gclBankWrite_kept
    | with_reducible apply State.storeReg_kept
    | with_reducible refine Kept.ite ?_ ?_

-- State.indirect
theorem State.indirect_kept {s₀ s : State} (v : Word) (read : State → State) (write : State → State) (hread : ∀ t, Kept s₀ t → Kept s₀ (read t)) (hwrite : ∀ t, Kept s₀ t → Kept s₀ (write t)) (hK : Kept s₀ s) :
    Kept s₀ (State.indirect s v read write) := by
  unfold State.indirect
  repeat' first
    | with_reducible assumption
    | with_reducible apply hread
    | with_reducible apply hwrite
    | with_reducible refine Kept.ite ?_ ?_

-- State.bridgeWrite
theorem State.bridgeWrite_kept {s₀ s : State} (off : Nat) (v : Word) (hK : Kept s₀ s) :
    Kept s₀ (State.bridgeWrite s off v) := by
  unfold State.bridgeWrite
  repeat' first
    | with_reducible assumption
    | with_reducible apply State.fdbLookup_kept
    | with_reducible apply State.fdbAdd_kept
    | with_reducible apply State.fdbDelete_kept
    | with_reducible apply State.indirect_kept
    | with_reducible apply State.vlanRead_kept
    | with_reducible apply State.vlanWrite_kept
    | with_reducible apply State.storeReg_kept
    | with_reducible refine Kept.ite ?_ ?_

-- State.trdpWrite
theorem State.trdpWrite_kept {s₀ s : State} (p : Nat) (off : Nat) (v : Word) (hK : Kept s₀ s) :
    Kept s₀ (State.trdpWrite s p off v) := by
  unfold State.trdpWrite
  repeat' first
    | with_reducible assumption
    | with_reducible apply State.indirect_kept
    | with_reducible apply State.entryRead_kept
    | with_reducible apply State.entryWrite_kept
    | with_reducible apply State.storeIf_kept
    | with_reducible apply State.storeReg_kept
    | intro _
    | with_reducible refine Kept.ite ?_ ?_

-- State.streamsWrite
theorem State.streamsWrite_kept {s₀ s : State} (off : Nat) (v : Word) (hK : Kept s₀ s) :
    Kept s₀ (State.streamsWrite s off v) := by
  unfold State.streamsWrite
  repeat' first
    | with_reducible assumption
    | with_reducible apply State.indirect_kept
    | with_reducible apply State.streamRead_kept
    | with_reducible apply State.streamWrite_kept
    | with_reducible apply State.meterRead_kept
    | with_reducible apply State.meterWrite_kept
    | with_reducible apply State.storeReg_kept
    | with_reducible refine Kept.ite ?_ ?_

-- State.queueWrite
theorem State.queueWrite_kept {s₀ s : State} (q : Nat) (off : Nat) (v : Word) (hK : Kept s₀ s) :
    Kept s₀ (State.queueWrite s q off v) := by
  unfold State.queueWrite
  repeat' first
    | with_reducible assumption
    | intro x
    | lift_lets
    | with_reducible apply State.postQueue_kept
    | with_reducible apply State.storeReg_kept
    | with_reducible apply State.storeIf_kept
    | with_reducible refine Kept.ite ?_ ?_

-- State.canWrite
theorem State.canWrite_kept {s₀ s : State} (n : Nat) (off : Nat) (v : Word) (hK : Kept s₀ s) :
    Kept s₀ (State.canWrite s n off v) := by
  unfold State.canWrite
  repeat' first
    | with_reducible assumption
    | intro x
    | lift_lets
    | with_reducible apply State.canRecover_kept
    | with_reducible apply State.canPost_kept
    | with_reducible apply State.storeIf_kept
    | with_reducible apply State.storeReg_kept
    | with_reducible refine Kept.ite ?_ ?_

-- State.mvbWrite
theorem State.mvbWrite_kept {s₀ s : State} (n : Nat) (off : Nat) (v : Word) (hK : Kept s₀ s) :
    Kept s₀ (State.mvbWrite s n off v) := by
  unfold State.mvbWrite
  repeat' first
    | with_reducible assumption
    | with_reducible apply State.indirect_kept
    | with_reducible apply State.mvbPortRead_kept
    | with_reducible apply State.mvbPortWrite_kept
    | with_reducible apply State.mvbPollRead_kept
    | with_reducible apply State.mvbPollWrite_kept
    | with_reducible apply State.storeReg_kept
    | intro _
    | with_reducible refine Kept.ite ?_ ?_

-- State.bankCmd
theorem State.bankCmd_kept {s₀ s : State} (c : Nat) (v : Word) (hK : Kept s₀ s) :
    Kept s₀ (State.bankCmd s c v) := by
  unfold State.bankCmd
  repeat' first
    | with_reducible assumption
    | with_reducible apply State.swapRequest_kept
    | with_reducible apply State.armSwap_kept
    | with_reducible refine Kept.ite ?_ ?_

-- State.chWrite
theorem State.chWrite_kept {s₀ s : State} (c : Nat) (off : Nat) (v : Word) (hK : Kept s₀ s) :
    Kept s₀ (State.chWrite s c off v) := by
  unfold State.chWrite
  repeat' first
    | with_reducible assumption
    | intro x
    | lift_lets
    | with_reducible apply State.bankCmd_kept
    | with_reducible apply State.storeIf_kept
    | with_reducible apply State.storeReg_kept
    | with_reducible refine Kept.ite ?_ ?_

-- State.outWrite
theorem State.outWrite_kept {s₀ s : State} (n : Nat) (off : Nat) (v : Word) (hK : Kept s₀ s) :
    Kept s₀ (State.outWrite s n off v) := by
  unfold State.outWrite
  repeat' first
    | with_reducible assumption
    | intro x
    | lift_lets
    | with_reducible apply State.postOut_kept
    | with_reducible apply State.storeIf_kept
    | with_reducible apply State.storeReg_kept
    | with_reducible refine Kept.ite ?_ ?_

-- State.grpWrite
theorem State.grpWrite_kept {s₀ s : State} (p : Nat) (off : Nat) (v : Word) (hK : Kept s₀ s) :
    Kept s₀ (State.grpWrite s p off v) := by
  unfold State.grpWrite
  repeat' first
    | with_reducible assumption
    | with_reducible apply State.storeIf_kept
    | with_reducible apply State.storeReg_kept
    | with_reducible refine Kept.ite ?_ ?_

-- State.trkWrite
theorem State.trkWrite_kept {s₀ s : State} (off : Nat) (v : Word) (hK : Kept s₀ s) :
    Kept s₀ (State.trkWrite s off v) := by
  unfold State.trkWrite
  repeat' first
    | with_reducible assumption
    | with_reducible apply State.storeIf_kept
    | with_reducible apply State.storeReg_kept
    | with_reducible refine Kept.ite ?_ ?_

-- State.progWrite
theorem State.progWrite_kept {s₀ s : State} (n : Nat) (off : Nat) (v : Word) (hK : Kept s₀ s) :
    Kept s₀ (State.progWrite s n off v) := by
  unfold State.progWrite
  repeat' first
    | with_reducible assumption
    | with_reducible apply State.progCommand_kept
    | with_reducible apply State.storeIf_kept
    | with_reducible apply State.storeReg_kept
    | with_reducible refine Kept.ite ?_ ?_

-- State.timebaseWrite
theorem State.timebaseWrite_kept {s₀ s : State} (off : Nat) (v : Word) (hK : Kept s₀ s) :
    Kept s₀ (State.timebaseWrite s off v) := by
  unfold State.timebaseWrite
  repeat' first
    | with_reducible assumption
    | with_reducible apply State.syncRequest_kept
    | with_reducible apply State.storeReg_kept
    | with_reducible refine Kept.ite ?_ ?_

-- State.schedWrite
theorem State.schedWrite_kept {s₀ s : State} (i : Nat) (off : Nat) (v : Word) (hK : Kept s₀ s) :
    Kept s₀ (State.schedWrite s i off v) := by
  unfold State.schedWrite
  repeat' first
    | with_reducible assumption
    | with_reducible apply State.applySlot_kept
    | with_reducible apply State.storeReg_kept
    | with_reducible refine Kept.ite ?_ ?_

-- State.supWrite
theorem State.supWrite_kept {s₀ s : State} (off : Nat) (v : Word) (hK : Kept s₀ s) :
    Kept s₀ (State.supWrite s off v) := by
  unfold State.supWrite
  repeat' first
    | with_reducible assumption
    | intro x
    | lift_lets
    | with_reducible apply State.safeRequest_kept
    | with_reducible apply State.storeIf_kept
    | with_reducible apply State.storeReg_kept
    | with_reducible refine Kept.ite ?_ ?_

-- State.cwayWrite
theorem State.cwayWrite_kept {s₀ s : State} (off : Nat) (v : Word) (hK : Kept s₀ s) :
    Kept s₀ (State.cwayWrite s off v) := by
  unfold State.cwayWrite
  repeat' first
    | with_reducible assumption
    | with_reducible apply State.claimCtrl_kept
    | with_reducible apply State.storeReg_kept
    | with_reducible apply State.cwayConfigured_kept
    | with_reducible refine Kept.ite ?_ ?_

-- State.cpWrite
theorem State.cpWrite_kept {s₀ s : State} (off : Nat) (v : Word) (hK : Kept s₀ s) :
    Kept s₀ (State.cpWrite s off v) := by
  unfold State.cpWrite
  repeat' first
    | with_reducible assumption
    | intro x
    | lift_lets
    | with_reducible apply State.cpCommand_kept
    | with_reducible apply State.storeReg_kept
    | with_reducible refine Kept.ite ?_ ?_

-- State.pmcWrite
theorem State.pmcWrite_kept {s₀ s : State} (off : Nat) (v : Word) (hK : Kept s₀ s) :
    Kept s₀ (State.pmcWrite s off v) := by
  unfold State.pmcWrite
  repeat' first
    | with_reducible assumption
    | with_reducible apply State.doPmcSel_kept
    | with_reducible apply State.storeReg_kept
    | with_reducible refine Kept.ite ?_ ?_

-- State.samplerWrite
theorem State.samplerWrite_kept {s₀ s : State} (off : Nat) (v : Word) (hK : Kept s₀ s) :
    Kept s₀ (State.samplerWrite s off v) := by
  unfold State.samplerWrite
  repeat' first
    | with_reducible assumption
    | intro x
    | lift_lets
    | with_reducible apply State.doSmpCtrl_kept
    | with_reducible apply State.storeIf_kept
    | with_reducible apply State.storeReg_kept
    | with_reducible refine Kept.ite ?_ ?_

-- State.workshopWrite
theorem State.workshopWrite_kept {s₀ s : State} (off : Nat) (v : Word) (hK : Kept s₀ s) :
    Kept s₀ (State.workshopWrite s off v) := by
  unfold State.workshopWrite
  repeat' first
    | with_reducible assumption
    | with_reducible apply State.unlockWrite_kept
    | with_reducible apply State.workshopCloses_kept
    | with_reducible refine Kept.ite ?_ ?_

-- State.unitWrite
theorem State.unitWrite_kept {s₀ s : State} (m : Master) (p : Nat) (off : Nat) (v : Word) (hK : Kept s₀ s) :
    Kept s₀ (State.unitWrite s m p off v) := by
  unfold State.unitWrite
  repeat' first
    | with_reducible assumption
    | with_reducible apply State.restartCmd_kept
    | with_reducible apply State.storeReg_kept
    | with_reducible apply State.doLedgerSnap_kept
    | with_reducible apply State.doCkptIntervalWrite_kept
    | with_reducible apply State.doCoreStart_kept
    | with_reducible apply State.progWrite_kept
    | with_reducible apply State.portRegWrite_kept
    | with_reducible apply State.bridgeWrite_kept
    | with_reducible apply State.trdpWrite_kept
    | with_reducible apply State.storeIf_kept
    | with_reducible apply State.streamsWrite_kept
    | with_reducible apply State.queueWrite_kept
    | with_reducible apply State.indirect_kept
    | with_reducible apply State.chanRead_kept
    | with_reducible apply State.chanWrite_kept
    | with_reducible apply State.mvbWrite_kept
    | with_reducible apply State.canWrite_kept
    | with_reducible apply State.grpWrite_kept
    | with_reducible apply State.trkWrite_kept
    | with_reducible apply State.chWrite_kept
    | with_reducible apply State.outWrite_kept
    | with_reducible apply State.timebaseWrite_kept
    | with_reducible apply State.schedWrite_kept
    | with_reducible apply State.doIrqEnable_kept
    | with_reducible apply State.vmeRegWrite_kept
    | with_reducible apply State.cpWrite_kept
    | with_reducible apply State.doPcvConfirm_kept
    | with_reducible apply State.supWrite_kept
    | with_reducible apply State.cwayWrite_kept
    | with_reducible apply State.pmcWrite_kept
    | with_reducible apply State.doBwWindow_kept
    | with_reducible apply State.samplerWrite_kept
    | with_reducible apply State.workshopWrite_kept
    | with_reducible refine Kept.ite ?_ ?_
    | split

-- State.pageWrite
theorem State.pageWrite_kept {s₀ s : State} (m : Master) (p : Nat) (off : Nat) (v : Word) (hK : Kept s₀ s) :
    Kept s₀ (State.pageWrite s m p off v) := by
  unfold State.pageWrite
  repeat' first
    | with_reducible assumption
    | with_reducible apply State.commonWrite_kept
    | with_reducible apply State.unitWrite_kept
    | with_reducible apply State.answer_kept
    | with_reducible refine Kept.ite ?_ ?_

end Sys2Proof.Laws
end

