-- ==== Sys2Proof/Laws/KeptBus.lean ====
section
/-!
SUPPORT. `Kept` for the operations of Machine/Bus.lean.
-/
namespace Sys2Proof.Laws
open Sys2Proof Sys2Proof.Machine Sys2Proof.Safety

-- State.pageBusError
theorem State.pageBusError_kept {s₀ s : State} (a : Nat) (hK : Kept s₀ s) :
    Kept s₀ (State.pageBusError s a) := by
  unfold State.pageBusError
  repeat' first
    | with_reducible assumption
    | with_reducible apply State.countFault_kept
    | with_reducible apply State.answer_kept
    | split

-- State.sramLoad
theorem State.sramLoad_kept {s₀ s : State} (m : Master) (a : Nat) (size : Nat) (hK : Kept s₀ s) :
    Kept s₀ (State.sramLoad s m a size) := by
  unfold State.sramLoad
  repeat' first
    | with_reducible assumption
    | with_reducible apply State.bw_kept
    | with_reducible apply State.answer_kept
    | with_reducible apply State.raise_kept
    | with_reducible apply State.violation_kept
    | split

-- State.sramStore
theorem State.sramStore_kept {s₀ s : State} (m : Master) (a : Nat) (size : Nat) (v : DWord) (hK : Kept s₀ s) :
    Kept s₀ (State.sramStore s m a size v) := by
  unfold State.sramStore
  repeat' first
    | with_reducible assumption
    | (intro x; first | (have hx : Kept s₀ x := (by dsimp only [x]; repeat' first | with_reducible assumption | with_reducible apply State.breakLock_kept | with_reducible apply State.bw_kept | with_reducible apply State.sramWrite_kept | with_reducible refine Kept.ite ?_ ?_)) | skip)
    | lift_lets
    | with_reducible apply State.answer_kept
    | with_reducible apply State.spendInject_kept
    | with_reducible refine Kept.ite ?_ ?_
    | split
    | (simp only [Kept.mk_iff]; refine KeptMk.upd ?_ rfl rfl rfl rfl rfl rfl rfl rfl)

-- State.mramLoad
theorem State.mramLoad_kept {s₀ s : State} (m : Master) (a : Nat) (size : Nat) (hK : Kept s₀ s) :
    Kept s₀ (State.mramLoad s m a size) := by
  unfold State.mramLoad
  repeat' first
    | with_reducible assumption
    | (intro x; first | (have hx : Kept s₀ x := (by dsimp only [x]; repeat' first | with_reducible assumption | with_reducible apply State.mramCorrected_kept | with_reducible refine Kept.foldl ?_ (fun _ _ _ => ?_))) | skip)
    | lift_lets
    | with_reducible apply State.mramBad_kept
    | with_reducible apply State.answer_kept
    | with_reducible apply State.bw_kept
    | with_reducible refine Kept.ite ?_ ?_

-- State.pageLoad
theorem State.pageLoad_kept {s₀ s : State} (m : Master) (a : Nat) (size : Nat) (ext : DWord) (hK : Kept s₀ s) :
    Kept s₀ (State.pageLoad s m a size ext) := by
  unfold State.pageLoad
  repeat' first
    | with_reducible assumption
    | with_reducible apply State.pageBusError_kept
    | with_reducible apply State.pageRead_kept
    | with_reducible apply State.answer_kept
    | with_reducible refine Kept.ite ?_ ?_
    | split

-- State.pageStore
theorem State.pageStore_kept {s₀ s : State} (m : Master) (a : Nat) (size : Nat) (v : DWord) (hK : Kept s₀ s) :
    Kept s₀ (State.pageStore s m a size v) := by
  unfold State.pageStore
  repeat' first
    | with_reducible assumption
    | with_reducible apply State.pageBusError_kept
    | with_reducible apply State.pageWrite_kept
    | with_reducible apply State.answer_kept
    | with_reducible refine Kept.ite ?_ ?_
    | split

-- State.viewLoad
theorem State.viewLoad_kept {s₀ s : State} (m : Master) (a view off size : Nat) (hK : Kept s₀ s) :
    Kept s₀ (State.viewLoad s m a view off size) := by
  unfold State.viewLoad
  have hv := State.viewBytes_kept view off size hK
  generalize s.viewBytes view off size = p at hv ⊢
  rcases p with ⟨_ | l, t⟩
  · exact State.violation_kept _ _ hv
  · exact State.answer_kept _ hv

-- State.busRead
theorem State.busRead_kept {s₀ s : State} (m : Master) (addr : BitVec 40) (size : Nat) (ext : DWord) (hK : Kept s₀ s) :
    Kept s₀ (State.busRead s m addr size ext) := by
  unfold State.busRead
  repeat' first
    | with_reducible assumption
    | intro x
    | lift_lets
    | with_reducible apply State.answer_kept
    | with_reducible apply State.vmeRead_kept
    | with_reducible apply State.violation_kept
    | with_reducible apply State.viewLoad_kept
    | with_reducible apply State.sramLoad_kept
    | with_reducible apply State.pageLoad_kept
    | with_reducible apply State.mramLoad_kept
    | with_reducible refine Kept.ite ?_ ?_
    | split

-- State.busWrite
theorem State.busWrite_kept {s₀ s : State} (m : Master) (addr : BitVec 40) (size : Nat) (v : DWord) (hK : Kept s₀ s) :
    Kept s₀ (State.busWrite s m addr size v) := by
  unfold State.busWrite
  extract_lets a
  refine Kept.ite (State.answer_kept _ hK) (Kept.ite (State.vmeWrite_kept _ _ _ _ hK) (Kept.ite (State.violation_kept _ _ hK) ?_))
  split
  · exact State.answer_kept _ (Kept.foldl hK fun t k h => State.tcmStore_kept _ _ _ h)
  · exact State.viewWrite_kept _ _ _ hK
  · exact State.sramStore_kept _ _ _ _ hK
  · refine State.answer_kept _ (hK.updMem fun h => ?_)
    rw [memoryWf_split] at h ⊢
    exact ⟨h.1, memStore_wf _ _ _ h.2.1, h.2.2⟩
  · exact State.pageStore_kept _ _ _ _ hK
  · exact State.pageStore_kept _ _ _ _ hK
  all_goals exact State.violation_kept _ _ hK

-- State.doNonAligned
theorem State.doNonAligned_kept {s₀ s : State} (m : Master) (a : Nat) (size : Nat) (write : Bool) (hK : Kept s₀ s) :
    Kept s₀ (State.doNonAligned s m a size write) := by
  unfold State.doNonAligned
  repeat' first
    | with_reducible assumption
    | with_reducible apply State.answer_kept
    | with_reducible apply State.violation_kept
    | with_reducible apply State.pageBusError_kept
    | with_reducible refine Kept.ite ?_ ?_

-- State.doAccessViolation
theorem State.doAccessViolation_kept {s₀ s : State} (m : Master) (a : Nat) (size : Nat) (write : Bool) (hK : Kept s₀ s) :
    Kept s₀ (State.doAccessViolation s m a size write) := by
  unfold State.doAccessViolation
  repeat' first
    | with_reducible assumption
    | with_reducible apply State.answer_kept
    | with_reducible apply State.vmeRefuse_kept
    | with_reducible apply State.violation_kept
    | with_reducible refine Kept.ite ?_ ?_

-- State.doRemoteRequest
theorem State.doRemoteRequest_kept {s₀ s : State} (id : Fin 8) (p : Nat) (off : Nat) (req : RemoteReq) (hK : Kept s₀ s) :
    Kept s₀ (State.doRemoteRequest s id p off req) := by
  unfold State.doRemoteRequest
  repeat' first
    | with_reducible assumption
    | (intro x; first | (have hx : Kept s₀ x := (by dsimp only [x]; repeat' first | with_reducible assumption | with_reducible apply State.pageRead_kept)) | skip)
    | lift_lets
    | with_reducible apply State.violation_kept
    | with_reducible apply State.pageBusError_kept
    | with_reducible apply State.answer_kept
    | with_reducible apply State.pageWrite_kept
    | with_reducible refine Kept.ite ?_ ?_
    | split

-- State.performLr
theorem State.performLr_kept {s₀ s : State} (addr : BitVec 40) (size : Nat) (hK : Kept s₀ s) :
    Kept s₀ (State.performLr s addr size) := by
  unfold State.performLr
  repeat' first
    | with_reducible assumption
    | (intro x; first | (have hx : Kept s₀ x := (by dsimp only [x]; repeat' first | with_reducible assumption | with_reducible apply State.vmeLr_kept | with_reducible apply State.busRead_kept)) | skip)
    | lift_lets
    | with_reducible apply State.violation_kept
    | with_reducible refine Kept.ite ?_ ?_
    | split
    | (simp only [Kept.mk_iff]; refine KeptMk.upd ?_ rfl rfl rfl rfl rfl rfl rfl rfl)

-- State.performAt
theorem State.performAt_kept {s₀ s : State} (q : ReadReq) (ext : DWord) (hK : Kept s₀ s) :
    Kept s₀ (State.performAt s q ext) := by
  unfold State.performAt
  repeat' first
    | with_reducible assumption
    | with_reducible apply State.performLr_kept
    | with_reducible apply State.answer_kept
    | with_reducible apply State.busRead_kept
    | split

-- State.firstRead
theorem State.firstRead_kept {s₀ s : State} (k : Copy) (q : ReadReq) (ext : DWord) (hK : Kept s₀ s) :
    Kept s₀ (State.firstRead s k q ext) := by
  unfold State.firstRead
  repeat' first
    | with_reducible assumption
    | (intro x; first | (have hx : Kept s₀ x := (by dsimp only [x]; repeat' first | with_reducible assumption | with_reducible apply State.performAt_kept | with_reducible apply State.setCp_kept | (simp only [Kept.mk_iff]; refine KeptMk.upd ?_ rfl rfl rfl rfl rfl rfl rfl rfl))) | skip)
    | lift_lets
    | with_reducible apply State.appendEntry_kept
    | with_reducible apply State.bump_kept
    | with_reducible apply State.answer_kept
    | with_reducible refine Kept.foldl ?_ (fun _ _ _ => ?_)
    | split
    | (simp only [Kept.mk_iff]; refine KeptMk.upd ?_ rfl rfl rfl rfl rfl rfl rfl rfl)

-- State.replayedRead
theorem State.replayedRead_kept {s₀ s : State} (k : Copy) (q : ReadReq) (e : ReplayEntry) (hK : Kept s₀ s) :
    Kept s₀ (State.replayedRead s k q e) := by
  unfold State.replayedRead
  repeat' first
    | with_reducible assumption
    | (intro x; first | (have hx : Kept s₀ x := (by dsimp only [x]; repeat' first | with_reducible assumption | with_reducible apply State.popEntry_kept | with_reducible apply State.copyCause_kept | with_reducible refine Kept.ite ?_ ?_)) | skip)
    | lift_lets
    | with_reducible apply State.answer_kept

-- State.serveRead
theorem State.serveRead_kept {s₀ s : State} (k : Copy) (q : ReadReq) (ext : DWord) (hK : Kept s₀ s) :
    Kept s₀ (State.serveRead s k q ext) := by
  unfold State.serveRead
  repeat' first
    | with_reducible assumption
    | with_reducible apply State.replayedRead_kept
    | with_reducible apply State.stallRead_kept
    | with_reducible apply State.firstRead_kept
    | with_reducible refine Kept.ite ?_ ?_
    | split

-- State.privateRead
theorem State.privateRead_kept {s₀ s : State} (k : Copy) (addr : BitVec 40) (size : Nat) (hK : Kept s₀ s) :
    Kept s₀ (State.privateRead s k addr size) := by
  unfold State.privateRead
  repeat' first
    | with_reducible assumption
    | with_reducible apply State.setCp_kept
    | with_reducible apply State.answer_kept
    | with_reducible apply State.copyCause_kept
    | with_reducible refine Kept.ite ?_ ?_
    | split

-- State.copyRead
theorem State.copyRead_kept {s₀ s : State} (k : Copy) (q : ReadReq) (ext : DWord) (hK : Kept s₀ s) :
    Kept s₀ (State.copyRead s k q ext) := by
  unfold State.copyRead
  repeat' first
    | with_reducible assumption
    | with_reducible apply State.answer_kept
    | with_reducible apply State.serveRead_kept
    | with_reducible apply State.privateRead_kept
    | with_reducible apply State.takeResult_kept
    | with_reducible apply State.doWfi_kept
    | with_reducible refine Kept.ite ?_ ?_
    | split

-- State.doDistributedRead
theorem State.doDistributedRead_kept {s₀ s : State} (k : Copy) (q : ReadReq) (ext : DWord) (hK : Kept s₀ s) :
    Kept s₀ (State.doDistributedRead s k q ext) := by
  unfold State.doDistributedRead
  repeat' first
    | with_reducible assumption
    | with_reducible apply State.copyRead_kept
    | with_reducible apply State.answer_kept
    | with_reducible refine Kept.ite ?_ ?_

-- State.doReadResume
theorem State.doReadResume_kept {s₀ s : State} (k : Copy) (ext : DWord) (hK : Kept s₀ s) :
    Kept s₀ (State.doReadResume s k ext) := by
  unfold State.doReadResume
  repeat' first
    | with_reducible assumption
    | with_reducible apply State.setCp_kept
    | with_reducible apply State.doDistributedRead_kept
    | with_reducible refine Kept.ite ?_ ?_
    | split

-- State.performSc
theorem State.performSc_kept {s₀ s : State} (w : WriteReq) (r : VmeAnswer) (hK : Kept s₀ s) :
    Kept s₀ (State.performSc s w r) := by
  unfold State.performSc
  repeat' first
    | with_reducible assumption
    | (intro x; first | (have hx : Kept s₀ x := (by dsimp only [x]; repeat' first | with_reducible assumption | with_reducible apply State.busWrite_kept)) | skip)
    | lift_lets
    | with_reducible apply State.vmeSc_kept
    | with_reducible apply State.answer_kept
    | with_reducible refine Kept.ite ?_ ?_
    | (simp only [Kept.mk_iff]; refine KeptMk.upd ?_ rfl rfl rfl rfl rfl rfl rfl rfl)

-- State.performAmo
theorem State.performAmo_kept {s₀ s : State} (f5 : BitVec 5) (w : WriteReq) (r : VmeAnswer) (hK : Kept s₀ s) :
    Kept s₀ (State.performAmo s f5 w r) := by
  unfold State.performAmo
  repeat' first
    | with_reducible assumption
    | (intro x; first | (have hx : Kept s₀ x := (by dsimp only [x]; repeat' first | with_reducible assumption | with_reducible apply State.busRead_kept | with_reducible apply State.busWrite_kept)) | skip)
    | lift_lets
    | with_reducible apply State.vmeAmo_kept
    | with_reducible apply State.answer_kept
    | with_reducible refine Kept.ite ?_ ?_
    | split

-- State.performWrite
theorem State.performWrite_kept {s₀ s : State} (w : WriteReq) (r : VmeAnswer) (hK : Kept s₀ s) :
    Kept s₀ (State.performWrite s w r) := by
  unfold State.performWrite
  repeat' first
    | with_reducible assumption
    | with_reducible apply State.busWrite_kept
    | with_reducible apply State.performSc_kept
    | with_reducible apply State.violation_kept
    | with_reducible apply State.performAmo_kept
    | with_reducible refine Kept.ite ?_ ?_
    | split

-- State.countCommit
theorem State.countCommit_kept {s₀ s : State}  (hK : Kept s₀ s) :
    Kept s₀ (State.countCommit s) := by
  unfold State.countCommit
  repeat' first
    | with_reducible assumption
    | with_reducible apply State.bump_kept
    | (simp only [Kept.mk_iff]; refine KeptMk.upd ?_ rfl rfl rfl rfl rfl rfl rfl rfl)

-- State.giveResult
theorem State.giveResult_kept {s₀ s : State} (w : WriteReq) (v : DWord) (bad : Bool) (hK : Kept s₀ s) :
    Kept s₀ (State.giveResult s w v bad) := by
  unfold State.giveResult
  repeat' first
    | with_reducible assumption
    | (intro x; first | (have hx : Kept s₀ x := (by dsimp only [x]; repeat' first | with_reducible assumption | with_reducible apply State.bump_kept | with_reducible apply State.appendEntry_kept | with_reducible refine Kept.foldl ?_ (fun _ _ _ => ?_) | (simp only [Kept.mk_iff]; refine KeptMk.upd ?_ rfl rfl rfl rfl rfl rfl rfl rfl))) | skip)
    | lift_lets
    | with_reducible apply State.takeResult_kept
    | with_reducible refine Kept.foldl ?_ (fun _ _ _ => ?_)

-- State.settleSlot
theorem State.settleSlot_kept {s₀ s : State} (t : VoterSlot) (hK : Kept s₀ s) :
    Kept s₀ (State.settleSlot s t) := by
  unfold State.settleSlot
  repeat' first
    | with_reducible assumption
    | with_reducible apply State.dropSlot_kept
    | with_reducible apply State.setSlot_kept
    | with_reducible refine Kept.ite ?_ ?_

-- State.countAtomic
theorem State.countAtomic_kept {s₀ s : State} (kind : WriteKind) (done : Bool) (hK : Kept s₀ s) :
    Kept s₀ (State.countAtomic s kind done) := by
  unfold State.countAtomic
  repeat' first
    | with_reducible assumption
    | with_reducible apply State.bump_kept
    | with_reducible refine Kept.ite ?_ ?_
    | split

-- State.performSlot
theorem State.performSlot_kept {s₀ s : State} (t : VoterSlot) (w : WriteReq) (r : VmeAnswer) (hK : Kept s₀ s) :
    Kept s₀ (State.performSlot s t w r) := by
  unfold State.performSlot
  repeat' first
    | with_reducible assumption
    | (intro x; first | (have hx : Kept s₀ x := (by dsimp only [x]; repeat' first | with_reducible assumption | with_reducible apply State.answer_kept | with_reducible apply State.performWrite_kept | with_reducible apply State.countCommit_kept | with_reducible apply State.countAtomic_kept | with_reducible apply State.settleSlot_kept | with_reducible refine Kept.ite ?_ ?_)) | skip)
    | lift_lets
    | with_reducible apply State.answer_kept
    | with_reducible apply State.giveResult_kept
    | with_reducible refine Kept.ite ?_ ?_
    | split

-- State.doWritePerformed
theorem State.doWritePerformed_kept {s₀ s : State} (r : VmeAnswer) (hK : Kept s₀ s) :
    Kept s₀ (State.doWritePerformed s r) := by
  unfold State.doWritePerformed
  repeat' first
    | with_reducible assumption
    | with_reducible apply State.performSlot_kept
    | split

-- State.doCommitRelease
theorem State.doCommitRelease_kept {s₀ s : State} (ord : DWord) (hK : Kept s₀ s) :
    Kept s₀ (State.doCommitRelease s ord) := by
  unfold State.doCommitRelease
  repeat' first
    | with_reducible assumption
    | with_reducible apply State.performSlot_kept
    | with_reducible apply State.dropSlot_kept
    | with_reducible apply State.raise_kept
    | with_reducible refine Kept.ite ?_ ?_
    | split

-- State.doDebugDeviceWrite
theorem State.doDebugDeviceWrite_kept {s₀ s : State} (addr : BitVec 40) (size : Nat) (data : DWord) (hK : Kept s₀ s) :
    Kept s₀ (State.doDebugDeviceWrite s addr size data) := by
  unfold State.doDebugDeviceWrite
  repeat' first
    | with_reducible assumption
    | (intro x; first | (have hx : Kept s₀ x := (by dsimp only [x]; repeat' first | with_reducible assumption | with_reducible apply State.busWrite_kept)) | skip)
    | lift_lets
    | with_reducible apply State.debugAction_kept
    | with_reducible apply State.countCommit_kept
    | with_reducible refine Kept.ite ?_ ?_

end Sys2Proof.Laws
end

