-- ==== Sys2Proof/Laws/KeptStartup.lean ====
section
/-!
SUPPORT. `Kept` for the operations of Machine/Startup.lean.
-/
namespace Sys2Proof.Laws
open Sys2Proof Sys2Proof.Machine Sys2Proof.Safety

-- State.takeTable
theorem State.takeTable_kept {s₀ s : State} (hK : Kept s₀ s) : Kept s₀ (State.takeTable s) := by
  unfold State.takeTable
  split
  · exact hK
  · rename_i t isB alone _
    extract_lets s1 src s2
    have h2 : Kept s₀ s2 := State.setPs_kept _ (State.setReg_kept _ _ _ (State.setReg_kept _ _ _ (State.setReg_kept _ _ _ hK)))
    clear_value s2
    exact Kept.ite (State.setBudgets_kept _ h2) h2

-- State.takeRetirement
theorem State.takeRetirement_kept {s₀ s : State}  (hK : Kept s₀ s) :
    Kept s₀ (State.takeRetirement s) := by
  unfold State.takeRetirement
  repeat' first
    | with_reducible assumption
    | lift_lets
    | with_reducible apply State.holdCopy_kept
    | with_reducible apply State.setReg_kept
    | with_reducible apply State.raise_kept
    | split
    | (simp only [Kept.mk_iff]; refine KeptMk.upd ?_ rfl rfl rfl rfl rfl rfl rfl rfl)

-- State.takeChain
theorem State.takeChain_kept {s₀ s : State} (e : Nat × Chain) (hK : Kept s₀ s) :
    Kept s₀ (State.takeChain s e) := by
  unfold State.takeChain
  repeat' first
    | with_reducible assumption
    | with_reducible apply State.setReg64_kept
    | with_reducible apply State.freeBefore_kept

-- State.scanEnds
theorem State.scanEnds_kept {s₀ s : State}  (hK : Kept s₀ s) :
    Kept s₀ (State.scanEnds s) := by
  unfold State.scanEnds
  repeat' first
    | with_reducible assumption
    | (intro x; first | (have hx : Kept s₀ x := (by dsimp only [x]; repeat' first | with_reducible assumption | with_reducible apply State.setPs_kept | with_reducible apply State.takeChain_kept | with_reducible apply State.takeTable_kept | with_reducible apply State.takeRetirement_kept | with_reducible apply State.recAdd_kept | with_reducible apply State.setReg_kept | with_reducible refine Kept.foldl ?_ (fun _ _ _ => ?_))) | skip)
    | lift_lets
    | with_reducible apply State.servePort_kept

-- State.journalNow
theorem State.journalNow_kept {s₀ s : State} (body : List Byte) (step : Option (DWord × Nat)) (hK : Kept s₀ s) :
    Kept s₀ (State.journalNow s body step) := by
  unfold State.journalNow
  repeat' first
    | with_reducible assumption
    | intro x
    | lift_lets
    | with_reducible apply State.setNv_kept
    | with_reducible apply State.commitNow_kept

-- State.copySteps
theorem State.copySteps_kept {s₀ : State} (target i n : Nat) {s : State} (hK : Kept s₀ s) :
    Kept s₀ (State.copySteps s target i n) := by
  induction n generalizing s i with
  | zero => exact hK
  | succ n ih =>
    unfold State.copySteps
    exact Kept.ite hK (ih _ (State.journalNow_kept _ _ (State.mramWrite_kept _ _ _ hK)))

-- State.activate
theorem State.activate_kept {s₀ s : State} (resumed : Bool) (hK : Kept s₀ s) :
    Kept s₀ (State.activate s resumed) := by
  unfold State.activate
  repeat' first
    | with_reducible assumption
    | (intro x; first | (have hx : Kept s₀ x := (by dsimp only [x]; repeat' first | with_reducible assumption | with_reducible apply State.huskTo_kept | with_reducible apply State.copySteps_kept | with_reducible apply State.raise_kept | with_reducible refine Kept.ite ?_ ?_)) | skip)
    | lift_lets
    | with_reducible apply State.huskTo_kept
    | with_reducible apply State.setPs_kept
    | with_reducible refine Kept.ite ?_ ?_

-- State.trialBoot
theorem State.trialBoot_kept {s₀ s : State}  (hK : Kept s₀ s) :
    Kept s₀ (State.trialBoot s) := by
  unfold State.trialBoot
  repeat' first
    | with_reducible assumption
    | intro x
    | lift_lets
    | with_reducible apply State.fallBack_kept
    | with_reducible apply State.commitBoot_kept
    | with_reducible refine Kept.ite ?_ ?_

-- State.selectBoot
theorem State.selectBoot_kept {s₀ s : State}  (hK : Kept s₀ s) :
    Kept s₀ (State.selectBoot s).1 := by
  show KeptFst s₀ _
  unfold State.selectBoot
  repeat' first
    | with_reducible assumption
    | (intro x; first | (have hx : Kept s₀ x := (by dsimp only [x]; repeat' first | with_reducible assumption | with_reducible apply State.huskTo_kept | with_reducible apply State.activate_kept | with_reducible refine Kept.ite ?_ ?_)) | skip)
    | lift_lets
    | simp only [KeptFst.mk_iff]
    | with_reducible apply State.trialBoot_kept

-- State.applyEntries
theorem State.applyEntries_kept {s₀ : State} (l : List RegEntry) {s : State} (hK : Kept s₀ s) :
    Kept s₀ (State.applyEntries s l).1 := by
  induction l generalizing s with
  | nil => exact hK
  | cons e l ih => exact Kept.ite_fst (ih (State.pageWrite_kept _ _ _ _ hK)) hK

-- State.applyComponent
theorem State.applyComponent_kept {s₀ s : State} (slot : Nat) (type : Nat) (hK : Kept s₀ s) :
    Kept s₀ (State.applyComponent s slot type).1 := by
  show KeptFst s₀ _
  unfold State.applyComponent
  repeat' first
    | with_reducible assumption
    | intro x
    | lift_lets
    | with_reducible refine KeptFst.ite ?_ ?_
    | simp only [KeptFst.mk_iff]
    | (refine KeptFst.of ?_; first | with_reducible assumption | with_reducible apply State.applyEntries_kept | with_reducible refine Kept.foldlFst ?_ (fun _ _ _ => ?_) | with_reducible refine Kept.foldlSnd ?_ (fun _ _ _ => ?_))

-- State.takeOwners
theorem State.takeOwners_kept {s₀ s : State} (p : Nat) (l : List Byte) (hK : Kept s₀ s) :
    Kept s₀ (State.takeOwners s p l) := by
  unfold State.takeOwners
  repeat' first
    | with_reducible assumption
    | (simp only [Kept.mk_iff]; refine KeptMk.upd ?_ rfl rfl rfl rfl rfl rfl rfl rfl)

-- State.loadNet
theorem State.loadNet_kept {s₀ s : State} (pl : List Byte) (hK : Kept s₀ s) :
    Kept s₀ (State.loadNet s pl).1 := by
  show KeptFst s₀ _
  unfold State.loadNet
  repeat' first
    | with_reducible assumption
    | intro x
    | lift_lets
    | with_reducible refine KeptFst.ite ?_ ?_
    | simp only [KeptFst.mk_iff]
    | with_reducible apply State.setNet_kept
    | with_reducible apply State.takeOwners_kept

-- State.loadMeas
theorem State.loadMeas_kept {s₀ s : State} (pl : List Byte) (dest : Nat) (hK : Kept s₀ s) :
    Kept s₀ (State.loadMeas s pl dest).1 := by
  show KeptFst s₀ _
  unfold State.loadMeas
  repeat' first
    | with_reducible assumption
    | with_reducible refine KeptFst.ite ?_ ?_
    | simp only [KeptFst.mk_iff]
    | with_reducible apply State.takeOwners_kept
    | with_reducible apply State.sramWrite_kept

-- State.loadImage
theorem State.loadImage_kept {s₀ s : State} (first : Nat) (words : Nat) (bs : List Byte) (hK : Kept s₀ s) :
    Kept s₀ (State.loadImage s first words bs).1 := by
  show KeptFst s₀ _
  unfold State.loadImage
  repeat' first
    | with_reducible assumption
    | (intro x; first | (have hx : Kept s₀ x := (by dsimp only [x]; repeat' first | with_reducible assumption | with_reducible apply State.putProgBytes_kept)) | skip)
    | lift_lets
    | simp only [KeptFst.mk_iff]
    | with_reducible apply State.setCle_kept

-- State.loadImages
theorem State.loadImages_kept {s₀ : State} (n : Nat) {s : State} (pl : List Byte) (hK : Kept s₀ s) :
    Kept s₀ (State.loadImages s pl n).1 := by
  induction n generalizing s pl with
  | zero => exact hK
  | succ n ih =>
    unfold State.loadImages
    have h1 := fun a b c => State.loadImage_kept (s := s) a b c hK
    exact Kept.ite_fst hK (Kept.ite_fst hK (Kept.ite_fst (ih _ (h1 _ _ _)) (h1 _ _ _)))

-- State.loadSafety
theorem State.loadSafety_kept {s₀ s : State} (pl : List Byte) (h : Kept s₀ s) : Kept s₀ (State.loadSafety s pl) := by
  unfold State.loadSafety
  refine Kept.foldl h fun t k kt => kt.updMem fun w =>
    memoryWf_setTcm w k _ (memStore_wf _ 0 _ (memoryWf_tcmOf w k)) rfl rfl rfl rfl rfl rfl

-- State.loadMgmt
theorem State.loadMgmt_kept {s₀ s : State} (pl : List Byte) (h : Kept s₀ s) : Kept s₀ (State.loadMgmt s pl) := by
  unfold State.loadMgmt
  refine h.updMem fun w => ?_
  rw [memoryWf_split] at w ⊢
  exact ⟨w.1, memStore_wf _ _ _ w.2.1, w.2.2⟩

-- State.stepComponent
theorem State.stepComponent_tail {s₀ : State} (slot type reason : Nat) (load : State → Component → State × Bool)
    (hload : ∀ t x, Kept s₀ t → KeptFst s₀ (load t x)) (x : State × Bool) (h : Kept s₀ x.1) :
    KeptFst s₀ (if !x.2 then (x.1, 7)
      else
        let y := load x.1 (x.1.component slot type)
        (y.1, if y.2 then 0 else reason)) := by
  split
  · exact KeptFst.mk h
  · exact hload _ _ h

theorem State.stepComponent_kept {s₀ s : State} (slot type reason : Nat) (load : State → Component → State × Bool)
    (hload : ∀ t x, Kept s₀ t → KeptFst s₀ (load t x)) (hK : Kept s₀ s) :
    KeptFst s₀ (State.stepComponent s slot type reason load) :=
  State.stepComponent_tail slot type reason load hload _ (State.applyComponent_kept slot type hK)

-- State.stepNet
theorem State.stepNet_kept {s₀ s : State} (slot : Nat) (hK : Kept s₀ s) : KeptFst s₀ (State.stepNet s slot) :=
  State.stepComponent_kept slot 4 7 _ (fun t x h => KeptFst.of (State.loadNet_kept (t.compPayload slot x) h)) hK

-- State.stepMeas
theorem State.stepMeas_kept {s₀ s : State} (slot : Nat) (hK : Kept s₀ s) : KeptFst s₀ (State.stepMeas s slot) :=
  State.stepComponent_kept slot 5 7 _
    (fun t x h => KeptFst.of (State.loadMeas_kept (t.compPayload slot x) (t.compDest slot x) h)) hK

-- State.stepCle
theorem State.stepCle_kept {s₀ s : State} (slot : Nat) (hK : Kept s₀ s) : KeptFst s₀ (State.stepCle s slot) :=
  State.stepComponent_kept slot 3 8 _ (fun t x h => KeptFst.of (State.loadImages_kept 8 (t.compPayload slot x) h)) hK

-- State.stepParams
theorem State.stepParams_kept {s₀ s : State} (g : Nat) (r : GenRec) (hK : Kept s₀ s) :
    Kept s₀ (State.stepParams s g r).1 := by
  show KeptFst s₀ _
  unfold State.stepParams
  repeat' first
    | with_reducible assumption
    | intro x
    | lift_lets
    | with_reducible refine KeptFst.ite ?_ ?_
    | simp only [KeptFst.mk_iff]
    | (refine KeptFst.of ?_; first | with_reducible assumption | with_reducible apply State.applyEntries_kept | with_reducible apply State.setReg_kept | with_reducible refine Kept.foldlFst ?_ (fun _ _ _ => ?_) | with_reducible refine Kept.foldlSnd ?_ (fun _ _ _ => ?_))
    | with_reducible apply State.setReg_kept

-- thenStep
theorem thenStep_kept {s₀ : State} (x : State × Nat) (f : State → State × Nat) (hx : KeptFst s₀ x)
    (hf : ∀ t, Kept s₀ t → KeptFst s₀ (f t)) : KeptFst s₀ (thenStep x f) :=
  KeptFst.ite (hf _ (KeptFst.out hx)) hx

-- State.loadBundle
theorem State.loadBundle_tail {s₀ : State} (slot g : Nat) (r : Option GenRec) (x : State × Nat) (hK : KeptFst s₀ x) :
    KeptFst s₀ (thenStep (thenStep (thenStep x fun t => t.stepMeas slot) fun t => t.stepCle slot) fun t =>
      match r with
      | some rec_ => t.stepParams g rec_
      | none => (t, 6)) := by
  refine thenStep_kept _ _ (thenStep_kept _ _ (thenStep_kept _ _ hK fun t h => State.stepMeas_kept _ h)
    fun t h => State.stepCle_kept _ h) fun t h => ?_
  cases r
  · exact KeptFst.mk h
  · exact KeptFst.of (State.stepParams_kept _ _ h)

theorem State.loadBundle_kept {s₀ s : State} (slot reason g : Nat) (r : Option GenRec) (hK : Kept s₀ s) :
    KeptFst s₀ (State.loadBundle s slot reason g r) :=
  State.loadBundle_tail slot g r _ (KeptFst.mk (KeptFst.out (State.stepNet_kept slot (State.loadMgmt_kept _ hK))))

-- State.lockPages
theorem State.lockPages_kept {s₀ s : State}  (hK : Kept s₀ s) :
    Kept s₀ (State.lockPages s) := by
  unfold State.lockPages
  repeat' first
    | with_reducible assumption
    | with_reducible apply State.doLock_kept
    | with_reducible refine Kept.foldl ?_ (fun _ _ _ => ?_)

-- State.bootedAll
theorem State.bootedAll_kept {s₀ s : State} (start : Option DWord) (hK : Kept s₀ s) :
    Kept s₀ (State.bootedAll s start) := by
  unfold State.bootedAll
  repeat' first
    | with_reducible assumption
    | (intro x; first | (have hx : Kept s₀ x := (by dsimp only [x]; repeat' first | with_reducible assumption | with_reducible apply State.setCp_kept | with_reducible refine Kept.foldl ?_ (fun _ _ _ => ?_) | (simp only [Kept.mk_iff]; refine KeptMk.upd ?_ rfl rfl rfl rfl rfl rfl rfl rfl))) | skip)
    | lift_lets
    | with_reducible apply State.bump_kept
    | with_reducible refine Kept.foldl ?_ (fun _ _ _ => ?_)

-- State.startEnds
theorem State.startEnds_kept {s₀ s : State} (mode reason : Nat) (id : DWord) (secVer : Nat) (hK : Kept s₀ s) :
    Kept s₀ (State.startEnds s mode reason id secVer) := by
  unfold State.startEnds
  extract_lets d s1 src s2
  have h0 : Kept s₀ d.2 := State.drawWord_kept hK
  have h1 : Kept s₀ (s1.setReg 0x001 Reg.ident.startTimeUs d.1) :=
    State.setReg_kept _ _ _ (State.setReg_kept _ _ _ (State.setReg64_kept _ _ _ (State.setReg_kept _ _ _ h0)))
  have h2 : Kept s2 (if 2 ≤ mode then s2.raise 0x001 0 [] else s2) :=
    Kept.ite (State.raise_kept _ _ _ (Kept.refl _)) (Kept.refl _)
  exact State.review_after (x := s2) h1 rfl rfl rfl rfl rfl (State.journal_kept _ _ h2)

-- State.rejudgeHusk
theorem State.rejudgeHusk_kept {s₀ s : State}  (hK : Kept s₀ s) :
    Kept s₀ (State.rejudgeHusk s) := by
  unfold State.rejudgeHusk
  repeat' first
    | with_reducible assumption
    | intro x
    | lift_lets
    | with_reducible apply State.setPs_kept
    | with_reducible refine Kept.ite ?_ ?_

-- State.restartVerify
theorem State.restartVerify_kept {s₀ s : State}  (hK : Kept s₀ s) :
    Kept s₀ (State.restartVerify s) := by
  unfold State.restartVerify
  repeat' first
    | with_reducible assumption
    | (intro x; first | (have hx : Kept s₀ x := (by dsimp only [x]; repeat' first | with_reducible assumption | with_reducible apply State.setOp_kept | with_reducible apply State.startVerify_kept)) | skip)
    | lift_lets
    | with_reducible apply State.setPs_kept

-- State.startSlot
theorem startSlot_tail {s₀ : State} (n : Nat) (r : Option GenRec) (f : GenRec → State) (b : State)
    (hf : ∀ q, Kept s₀ (f q)) (hb : Kept s₀ b) :
    Kept s₀ (match n, r with
      | 0, some rec_ => f rec_
      | _, _ => b) := by
  split
  · exact hf _
  · exact hb

theorem State.startSlot_kept {s₀ s : State} (slot reason : Nat) (hK : Kept s₀ s) : Kept s₀ (State.startSlot s slot reason) :=
  have h2 := State.lockPages_kept (KeptFst.out (State.loadBundle_kept slot
    (if reason ≠ 0 then reason else s.findingReason slot (s.genRec s.startGen.1)) s.startGen.1 (s.genRec s.startGen.1)
    (State.setPs_kept { s.ps with migration := s.startGen.2, appliedGen := s.startGen.1 } hK)))
  startSlot_tail _ _ _ _
    (fun _ => State.startEnds_kept _ _ _ _ (State.bootedAll_kept _ (State.setPs_kept _ (State.loadSafety_kept _ h2))))
    (State.startEnds_kept _ _ _ _ (State.bootedAll_kept _ h2))

-- State.otpAtStart
theorem State.otpAtStart_kept {s₀ s : State}  (hK : Kept s₀ s) :
    Kept s₀ (State.otpAtStart s) := by
  unfold State.otpAtStart
  repeat' first
    | with_reducible assumption
    | with_reducible apply State.agreeOtp_kept
    | with_reducible refine Kept.ite ?_ ?_

-- State.repostLockout
theorem State.repostLockout_kept {s₀ s : State}  (hK : Kept s₀ s) :
    Kept s₀ (State.repostLockout s) := by
  unfold State.repostLockout
  repeat' first
    | with_reducible assumption
    | with_reducible apply State.lockReport_kept
    | with_reducible refine Kept.ite ?_ ?_

-- State.startRecovery
theorem State.startRecovery_kept {s₀ s : State}  (hK : Kept s₀ s) :
    Kept s₀ (State.startRecovery s) := by
  unfold State.startRecovery
  repeat' first
    | with_reducible assumption
    | with_reducible apply State.lockPages_kept
    | with_reducible apply State.bootedAll_kept
    | with_reducible apply State.startEnds_kept

-- State.startChoice
theorem State.startChoice_kept {s₀ s : State} (o : Option (Nat × Nat)) (hK : Kept s₀ s) : Kept s₀ (State.startChoice s o) := by
  cases o
  · exact State.startRecovery_kept hK
  · exact State.startSlot_kept _ _ (State.otpAtStart_kept hK)

-- State.startSelected
theorem State.startSelected_kept {s₀ s : State} (hK : Kept s₀ s) : Kept s₀ (State.startSelected s) :=
  State.startChoice_kept _ hK

-- State.startUp
theorem State.startUp_kept {s₀ s : State}  (hK : Kept s₀ s) :
    Kept s₀ (State.startUp s) := by
  unfold State.startUp
  repeat' first
    | with_reducible assumption
    | (intro x; first | (have hx : Kept s₀ x := (by dsimp only [x]; repeat' first | with_reducible assumption | with_reducible apply State.startSelected_kept | with_reducible apply State.rejudgeHusk_kept)) | (have hx : Kept s₀ x.1 := (show KeptFst s₀ x from (by dsimp only [x]; repeat' first | with_reducible assumption | (refine KeptFst.of ?_; first | with_reducible assumption | with_reducible apply State.selectBoot_kept | with_reducible apply State.startSelected_kept | with_reducible apply State.rejudgeHusk_kept | with_reducible apply State.restartVerify_kept | with_reducible apply State.repostLockout_kept | with_reducible apply State.review_kept | with_reducible refine Kept.foldlFst ?_ (fun _ _ _ => ?_) | with_reducible refine Kept.foldlSnd ?_ (fun _ _ _ => ?_))))) | skip)
    | lift_lets
    | with_reducible apply State.restartVerify_kept
    | with_reducible apply State.repostLockout_kept
    | with_reducible apply State.review_kept
    | with_reducible refine Kept.ite ?_ ?_

-- State.doStartDone
theorem State.doStartDone_kept {s₀ s : State}  (hK : Kept s₀ s) :
    Kept s₀ (State.doStartDone s) := by
  unfold State.doStartDone
  repeat' first
    | with_reducible assumption
    | with_reducible apply State.scanEnds_kept
    | with_reducible apply State.startUp_kept
    | with_reducible refine Kept.ite ?_ ?_

end Sys2Proof.Laws
end

