-- ==== Sys2Proof/Laws/KeptPower.lean ====
section
/-!
SUPPORT. `Kept` for the operations of Machine/Power.lean.
-/
namespace Sys2Proof.Laws
open Sys2Proof Sys2Proof.Machine Sys2Proof.Safety

-- State.socResets
/-- A reset of the dies: empty FIFOs, memories at reset but MRAM, the outputs off. -/
theorem Kept.reset {s₀ s : State} (hK : Kept s₀ s) (c : Cluster) (nv : Nv) (u : Supervisor) (f : Failover) (o : Observe)
    (v : VmeState) (n : Nat) (hl : u.live = false) (hg : u.grant = false) :
    Kept s₀ { State.resetWith c nv u f o v { Memories.reset with mram := s.mem.mram, mramEcc := s.mem.mramEcc } with
      free := n, pending := s.pending } :=
  hK.trans
    { queue := rfl
      fifos := fun _ => rfl
      mem := fun k => by
        rw [memoryWf_split] at k ⊢
        exact ⟨rfl, rfl, k.2.2.1, rfl, rfl, rfl, rfl, rfl, rfl, rfl, rfl, rfl⟩
      outs := fun _ => outputsSafe_off hl hg
      grant := fun _ => hg.trans hl.symm }

theorem State.socResets_kept {s₀ s : State} (cause : Nat) (hK : Kept s₀ s) : Kept s₀ (State.socResets s cause) :=
  hK.reset _ _ _ _ _ _ _ rfl rfl

-- State.doVddUp
theorem State.doVddUp_kept {s₀ s : State} (s0 s1 s2 : Straps) (resetReqHigh : Bool) (hK : Kept s₀ s) :
    Kept s₀ (State.doVddUp s s0 s1 s2 resetReqHigh) := by
  unfold State.doVddUp
  refine Kept.ite hK ?_
  extract_lets mode stackId src u sampled srcs t
  have h : Kept s₀ t := by
    dsimp only [t, srcs, sampled]
    exact hK.reset (Cluster.reset (mode.getD .simplexThree) mode.isNone s0.mode) s.nvAtStart u
      (Failover.reset (Fin.ofNat 8 (stackId.getD 0#3).toNat) stackId.isSome ((agreed s0.side s1.side s2.side).getD true))
      (Observe.reset s2.testEnLow (s0.testEnLow && s1.testEnLow && s2.testEnLow))
      (VmeState.reset (s0.sysconLow && s1.sysconLow && s2.sysconLow)) s.free rfl rfl
  clear_value t
  exact Kept.ite h (State.latch_kept _ _ h)

-- State.doSupervisorReset
/-- The supervisor changed where the outputs are off. -/
theorem Kept.supDark {s₀ s : State} (hK : Kept s₀ s) (u : Supervisor) (hl : u.live = false) (hg : u.grant = false) :
    Kept s₀ (s.setSup u) :=
  hK.supOff hl hg

theorem State.doSupervisorReset_kept {s₀ s : State} (latchCut : Bool) (hK : Kept s₀ s) :
    Kept s₀ (State.doSupervisorReset s latchCut) := by
  unfold State.doSupervisorReset
  exact Kept.ite hK (Kept.supDark (State.socResets_kept 0 hK) _ rfl rfl)

-- State.doRailWindow
theorem State.doRailWindow_kept {s₀ s : State} (rails : BitVec 8) (pfwHigh : Bool) (hK : Kept s₀ s) :
    Kept s₀ (State.doRailWindow s rails pfwHigh) := by
  unfold State.doRailWindow
  exact Kept.ite hK (Kept.supDark hK _ rfl rfl)

-- State.doPllRestart
theorem State.doPllRestart_kept {s₀ s : State} (locked : Bool) (hK : Kept s₀ s) :
    Kept s₀ (State.doPllRestart s locked) := by
  unfold State.doPllRestart
  repeat' first
    | with_reducible assumption
    | with_reducible refine State.setSup_same _ ?_ rfl rfl rfl rfl rfl rfl
    | with_reducible refine Kept.ite ?_ ?_

-- State.loadOffset
theorem State.loadOffset_kept {s₀ s : State}  (hK : Kept s₀ s) :
    Kept s₀ (State.loadOffset s) := by
  unfold State.loadOffset
  repeat' first
    | with_reducible assumption
    | (intro x; first | (have hx : Kept s₀ x := (by dsimp only [x]; repeat' first | with_reducible assumption | with_reducible apply State.setReg_kept)) | skip)
    | lift_lets
    | with_reducible apply State.raise_kept
    | with_reducible refine Kept.ite ?_ ?_

-- State.startCauses
theorem State.startCauses_kept {s₀ s : State}  (hK : Kept s₀ s) :
    Kept s₀ (State.startCauses s) := by
  unfold State.startCauses
  repeat' first
    | with_reducible assumption
    | (intro x; first | (have hx : Kept s₀ x := (by dsimp only [x]; repeat' first | with_reducible assumption | with_reducible apply State.raise_kept | with_reducible refine Kept.ite ?_ ?_)) | skip)
    | lift_lets
    | with_reducible apply State.raise_kept
    | with_reducible refine Kept.ite ?_ ?_

-- State.doPowerGood
theorem State.doPowerGood_kept {s₀ s : State} (hK : Kept s₀ s) : Kept s₀ (State.doPowerGood s) := by
  unfold State.doPowerGood
  exact Kept.ite (State.startCauses_kept (State.loadOffset_kept (Kept.supDark hK _ rfl rfl))) hK

-- State.doRailDrop
theorem State.doRailDrop_kept {s₀ s : State} (rail : Nat) (hK : Kept s₀ s) : Kept s₀ (State.doRailDrop s rail) := by
  unfold State.doRailDrop
  refine Kept.ite hK ?_
  extract_lets src s1 s2
  have h : Kept s₀ s1 := Kept.sup (State.enterSafe_kept 12 0x180 hK) rfl rfl rfl rfl rfl rfl
  clear_value s1
  exact Kept.supDark (State.socResets_kept 3 h) _ rfl rfl

-- State.drainMarks
theorem State.drainMarks_kept {s₀ : State} (n : Nat) {s : State} (hK : Kept s₀ s) : Kept s₀ (State.drainMarks s n) := by
  induction n generalizing s with
  | zero => exact hK
  | succ n ih => exact Kept.ite hK (ih (State.doRecordMark_kept hK))

-- State.drainFaults
theorem State.drainFaults_kept {s₀ s : State}  (hK : Kept s₀ s) :
    Kept s₀ (State.drainFaults s) := by
  unfold State.drainFaults
  repeat' first
    | with_reducible assumption
    | with_reducible apply State.doFaultRecord_kept
    | with_reducible refine Kept.foldl ?_ (fun _ _ _ => ?_)

-- State.drainEngine
theorem State.drainEngine_kept {s₀ s : State}  (hK : Kept s₀ s) :
    Kept s₀ (State.drainEngine s) := by
  unfold State.drainEngine
  repeat' first
    | with_reducible assumption
    | (intro x; first | (have hx : Kept s₀ x := (by dsimp only [x]; repeat' first | with_reducible assumption | with_reducible apply State.drainFaults_kept | with_reducible apply State.doCommitRequestDone_kept | with_reducible apply State.drainMarks_kept | with_reducible refine Kept.ite ?_ ?_)) | skip)
    | lift_lets
    | with_reducible apply State.drainMarks_kept
    | with_reducible apply State.pfNext_kept

-- State.doModuleReset
theorem State.doModuleReset_kept {s₀ s : State}  (hK : Kept s₀ s) :
    Kept s₀ (State.doModuleReset s) := by
  unfold State.doModuleReset
  repeat' first
    | with_reducible assumption
    | with_reducible apply State.pfWarn_kept
    | with_reducible apply State.drainEngine_kept
    | with_reducible apply State.socResets_kept
    | with_reducible refine State.setSup_off _ ?_ rfl rfl
    | with_reducible refine Kept.ite ?_ ?_
    | split

end Sys2Proof.Laws
end

