-- ==== Sys2Proof/Laws/KeptStep.lean ====
section
/-!
SUPPORT. `Kept` for the operations of Machine/Step.lean.
-/
namespace Sys2Proof.Laws
open Sys2Proof Sys2Proof.Machine Sys2Proof.Safety

-- State.idle
theorem State.idle_kept {s₀ s : State}  (hK : Kept s₀ s) :
    Kept s₀ (State.idle s) := by
  unfold State.idle
  repeat' first
    | with_reducible assumption
    | with_reducible apply State.inboundDrain_kept
    | with_reducible apply State.tick_kept

end Sys2Proof.Laws
end

