-- ==== Sys2Proof/WellFormed.lean ====
section
/-!
DEFINITION. Which commands the outside world can form: the sizes an access has, the pages and offsets that exist, the lengths
of the lists that a row's event brings, the shapes of a fieldbus frame. `step` does not ask: a command that is not well
formed has its effect by the same meanings.
-/
namespace Sys2Proof

/-- The sizes of a naturally sized access: 1, 2, 4 or 8 bytes. -/
def sizeOk (n : Nat) : Bool := n == 1 || n == 2 || n == 4 || n == 8
/-- A local page number (R30). -/
def pageOk (p : Nat) : Bool := decide (p < 0x800)
/-- An offset within a page (R7). -/
def offOk (o : Nat) : Bool := decide (o < 0x1000)
/-- A slave frame's data: 16 to 256 bits (R291). -/
def mvbLenOk (n : Nat) : Bool := n == 2 || n == 4 || n == 8 || n == 16 || n == 32
def lineOk : LineFrame → Bool
  | none => true
  | some (l, _) => mvbLenOk l.length
/-- The bytes that a DLC names: 0 to 8, and, of a CAN FD frame, 12 to 64 above (ISO 11898-1; log entry 34). -/
def dlcBytes (fd : Bool) (dlc : Nat) : Nat :=
  if dlc ≤ 8 then dlc
  else if !fd then 8
  else if dlc ≤ 12 then 12 + 4 * (dlc - 9)
  else 32 + 16 * (dlc - 13)
/-- A CAN frame: an 11-bit identifier unless extended, no data in a remote frame, BRS and ESI in a CAN FD frame only, as many
bytes as the DLC names. -/
def CanFrame.ok (f : CanFrame) : Bool :=
  (f.ide || decide (f.id.toNat < 2 ^ 11)) && (!f.rtr || (f.data.isEmpty && !f.fdf)) && (f.fdf || (!f.brs && !f.esi))
    && (f.rtr || f.data.length == dlcBytes f.fdf f.dlc.toNat)
/-- A cycle of another bus master: 1, 2 or 4 bytes (R354). -/
def InboundCycle.ok (c : InboundCycle) : Bool := c.bytes == 1 || c.bytes == 2 || c.bytes == 4
/-- The bytes that a VME bus answers with, where it answers. -/
def answerOk (n : Nat) : VmeAnswer → Bool
  | none => true
  | some l => l.length == n
/-- An insertion brings at least one byte. -/
def Insertion.ok : Insertion → Bool
  | .view0 _ d | .view1 _ d | .delivery _ d => !d.isEmpty
/-- Memory records of a retirement: offsets and sizes are typed; its counts of core events are not 0. -/
def Retirement.ok (r : Retirement) : Bool := r.events.all fun e => decide (0 < e.2)

/-- The operand spaces that a Benmi form takes (R145, R153). -/
def spaceIn (sp : BitVec 4) (l : List Nat) : Bool := l.contains sp.toNat
/-- A second word follows where the space is KL (R151); elsewhere the command brings 0. -/
def secondOk (sp : BitVec 4) (w : Word) : Bool := sp == 8#4 || w == 0#32

/-- The well-formed commands. END stands for an opcode that R153 does not list as well. -/
def Instr.wellFormed : Instr → Bool
  | .nonAlignedPageAccess _ _ size _ | .misalignedAccess _ _ size _ | .accessViolation _ _ size _ =>
    decide (1 ≤ size ∧ size ≤ 8)
  | .registerWrite _ page off _ | .loRegisterRead _ page off => pageOk page && offOk off && off % 4 == 0
  | .eventCtrLoRead _ page _ => pageOk page
  | .ckMeasUpdate khz => khz.length == 12
  | .enableWrite _ page _ | .freezeWrite _ page _ | .localReset _ page | .lock _ page | .startCompletes page
  | .drainCompletes page | .opStart _ page _ | .opAbort _ page | .opSuspend _ page | .opResume _ page | .opRunBegin page
  | .opItemComplete page _ _ _ | .opSelfSuspend page | .opSelfResume page | .auditSnap _ page
  | .auditCaptureComplete page | .faultInjectWrite _ page _ => pageOk page
  | .remoteAccessTimeout _ _ page off _ | .remotePageRequest _ page off _ => pageOk page && offOk off
  | .distributedRead _ _ _ size _ | .loadReserved _ _ size _ | .storeConditional _ _ size _ | .amo _ _ size _ _
  | .votedWritePresent _ _ size _ | .debugTcmWrite _ size _ | .debugDeviceWrite _ size _ | .debugDeviceRead _ size _
  | .vmeOutboundRead _ _ size | .vmeReadReissue _ _ size | .vmePostedWrite _ _ size _ | .vmeLr _ _ size
  | .vmeSc _ _ size _ _ => sizeOk size
  | .vmeReadFetchDone _ _ size r | .vmeAmo _ _ size _ _ r => sizeOk size && answerOk size r
  | .instructionRetire _ r => r.ok
  | .externalWriteInsertion w => w.ok
  | .frameReceive _ frame _ => decide (14 ≤ frame.length)
  | .mvbSlaveFrame _ a b => lineOk a && lineOk b
  | .canFrameReceive _ f => f.ok
  | .cwayClaimInEdge ns => decide (0 < ns)
  | .recorderSecond _ rails => rails.length == 8
  | .irqPoll _ acks => acks.length == 8
  | .vmeInboundWrite c data => c.ok && data.length == c.bytes
  | .vmeInboundRead c => c.ok
  | .vmeInboundRmw c data => c.ok && (match data with | some d => d.length == c.bytes | none => true)
  | .busTimer (.read _ _ size) | .masterTimeout (.read _ _ size) => sizeOk size
  | .busTimer .posted | .busTimer .other | .masterTimeout .posted | .masterTimeout .other => true
  | .ldb sp _ | .ldbn sp _ | .andb sp _ | .andbn sp _ | .orb sp _ | .orbn sp _ | .xorb sp _ | .xorbn sp _ =>
    spaceIn sp [1, 2, 3, 4, 5, 9]
  | .stb sp _ | .stbn sp _ | .setb sp _ => spaceIn sp [2, 3]
  | .clrb sp _ => spaceIn sp [2, 3, 4, 5]
  | .edgr sp _ | .edgf sp _ => spaceIn sp [3]
  | .ton sp _ | .tof sp _ | .tp sp _ => spaceIn sp [4]
  | .ctu sp _ | .ctd sp _ => spaceIn sp [5]
  | .ldw sp _ w => spaceIn sp [1, 2, 3, 4, 5, 6, 7, 8, 9] && secondOk sp w
  | .stw sp _ => spaceIn sp [2, 3, 5, 6]
  | .movw sp _ _ => spaceIn sp [1, 2, 3, 4, 5, 6, 7, 9]
  | .benmiAdd sp _ w | .benmiSub sp _ w | .benmiMul sp _ w | .ceq sp _ w | .cne sp _ w | .cgt sp _ w | .cge sp _ w
  | .clt sp _ w | .cle sp _ w => spaceIn sp [4, 5, 6, 7, 8] && secondOk sp w
  | .benmiNop sp _ | .bra sp _ | .bro sp _ | .brc sp _ | .benmiShl sp _ | .benmiShr sp _ | .benmiSar sp _ | .jmp sp _
  | .jbt sp _ | .jbf sp _ | .benmiCall sp _ | .benmiRet sp _ | .dch sp _ => sp == 0#4
  | _ => true

end Sys2Proof
end

