-- ==== Sys2Proof/Tests/Slice0.lean ====
section
/-!
SUPPORT. The model's own small tests: ill-formed commands refused by each check, worked numbers of the spec, and for every
statement with hypotheses concrete states and operands that meet them, clause by clause.
-/
namespace Sys2Proof.Tests
open Sys2Proof Sys2Proof.Machine Sys2Proof.Safety

/-! ## Ill-formed commands, one for each check of WellFormed -/

theorem test_ill_size : (Instr.vmeLr .cluster 0x40000000#40 3).wellFormed = false
    ∧ (Instr.vmeLr .cluster 0x40000000#40 4).wellFormed = true := by decide
theorem test_ill_page : (Instr.localReset .cluster 0x800).wellFormed = false
    ∧ (Instr.localReset .cluster 0x7ff).wellFormed = true := by decide
theorem test_ill_offset : (Instr.registerWrite .cluster 0x010 0x1000 0#32).wellFormed = false
    ∧ (Instr.registerWrite .cluster 0x010 0x102 0#32).wellFormed = false
    ∧ (Instr.registerWrite .cluster 0x010 0x104 0#32).wellFormed = true := by decide
theorem test_ill_mvb_length : (Instr.mvbSlaveFrame 0 (some ([0, 0, 0], true)) none).wellFormed = false
    ∧ (Instr.mvbSlaveFrame 0 (some ([0, 0], true)) none).wellFormed = true := by decide
theorem test_ill_can_identifier :
    CanFrame.ok ⟨2048#29, false, false, 0#4, false, false, false, []⟩ = false
    ∧ CanFrame.ok ⟨2047#29, false, false, 0#4, false, false, false, []⟩ = true := by decide
theorem test_ill_can_length :
    CanFrame.ok ⟨1#29, false, false, 9#4, true, false, false, List.replicate 9 0⟩ = false
    ∧ CanFrame.ok ⟨1#29, false, false, 9#4, true, false, false, List.replicate 12 0⟩ = true := by decide
theorem test_ill_can_remote : CanFrame.ok ⟨1#29, false, true, 1#4, false, false, false, [0]⟩ = false := by decide
theorem test_ill_inbound : (Instr.vmeInboundRead ⟨0x09#6, 0#32, 8⟩).wellFormed = false
    ∧ (Instr.vmeInboundRead ⟨0x09#6, 0#32, 4⟩).wellFormed = true := by decide
theorem test_ill_inbound_data : (Instr.vmeInboundWrite ⟨0x09#6, 0#32, 2⟩ [1]).wellFormed = false := by decide
theorem test_ill_answer : (Instr.vmeReadFetchDone .cluster 0#40 4 (some [1, 2])).wellFormed = false
    ∧ (Instr.vmeReadFetchDone .cluster 0#40 4 none).wellFormed = true := by decide
theorem test_ill_insertion : (Insertion.view0 0 []).ok = false ∧ (Insertion.view0 0 [1]).ok = true := by decide
theorem test_ill_events : Retirement.ok
      ⟨0, 0#64, 4#64, 0x13#32, [], none, [], none, false, false, none, 0#16, 0#16, false, [(0, 0)]⟩ = false
    ∧ Retirement.ok
      ⟨0, 0#64, 4#64, 0x13#32, [], none, [], none, false, false, none, 0#16, 0#16, false, [(0, 1)]⟩ = true := by decide
theorem test_ill_space : (Instr.edgr 2 0).wellFormed = false ∧ (Instr.edgr 3 0).wellFormed = true := by decide
theorem test_ill_second_word : (Instr.ldw 6 0 1#32).wellFormed = false ∧ (Instr.ldw 8 0 1#32).wellFormed = true := by decide
theorem test_ill_frame : (Instr.frameReceive 0 [] true).wellFormed = false := by decide
theorem test_ill_rails : (Instr.irqPoll 0#8 []).wellFormed = false := by decide

/-! ## Worked numbers of the spec -/

/-- R314: CRC-32 of IEEE 802.3 has the check value CBF43926 over the digits 1 to 9. -/
theorem test_crc32 : crc32 [0x31, 0x32, 0x33, 0x34, 0x35, 0x36, 0x37, 0x38, 0x39] = 0xcbf43926#32 := by decide +kernel
/-- R312, R313: K 4, D1 64 and HB 2 delay by 4,542 modulator clocks; with N 255 and CLK_DIV 20, GROUP_DELAY is 1,852,720 ns. -/
theorem test_decimation_delay : twiceTdec 4 64 2 = 2 * 4542 := by decide
theorem test_group_delay :
    let s := (State.reset.setReg 0x109 Reg.ch.chConfig 0x02080664#32).setCh 1
      { State.reset.ch 1 with bank0 := { (State.reset.ch 1).bank0 with taps := 255 } }
    s.groupDelay 1 = 1852720 := by decide +kernel
/-- R345: the lanes of a D32 window under either rule. -/
theorem test_lanes : (List.range 4).map (laneAddr true 4 1) = [3, 2, 1, 0] ∧ (List.range 4).map (laneAddr false 4 1) = [0, 1, 2, 3]
    ∧ laneAddr true 4 2 0 = 2 ∧ laneAddr true 4 2 2 = 0 ∧ laneAddr true 4 4 4 = 4 := by decide
/-- The worked example of R153: the words of its rung name LDB I[1], ANDBN I[3] and STB Q[16]. -/
theorem test_benmi_words : (opOf 0x10100001#32, spOf 0x10100001#32, adOf 0x10100001#32) = (0x10, 1, 1)
    ∧ (opOf 0x13100003#32, spOf 0x13100003#32, adOf 0x13100003#32) = (0x13, 1, 3)
    ∧ (opOf 0x20200010#32, spOf 0x20200010#32, adOf 0x20200010#32) = (0x20, 2, 0x10) := by decide
/-- R89: a word store is recorded with its type, size, address and data, little-endian. -/
theorem test_store_record : memRecord (.store 2 0x10000010#40 0xffffffff89abcdef#64) =
    [5, 2, 0x10, 0, 0, 0x10, 0, 0, 0, 0, 0xef, 0xcd, 0xab, 0x89, 0, 0, 0, 0] := by decide +kernel

/-! ## Witnesses: states and operands that meet the hypotheses of the statements -/

/-- Program 0 executes at code index 0 of an image whose code holds the words `l`, with the registers `r`. -/
def benmiAt (r : EngRegs) (l : List Word) : State :=
  let words : Tbl Word := (1, BitVec.ofNat 32 l.length) :: (l.zipIdx.map fun q => (16 + q.2, q.1))
  let s := State.reset.setProg 0 { State.reset.prog 0 with state := 4 }
  { s with
    mem := { s.mem with prog := Trio.all words },
    cle := { s.cle with running := some 0, regs := Trio.all r } }

/-- Does program 0 stand at the instruction of the words, in engines that agree? -/
def standsOk (w : Word) (second : Option Word) : Bool :=
  let s := benmiAt regs0 [w, second.getD 0x7f000000#32, 0x7f000000#32]
  standsAt s 0 (opOf w) (spOf w) (adOf w) second && enginesAgree s

/-- A consistent image of program 0 at word 0: its code is END. -/
def tinyImage : Tbl Word :=
  [(0, 1#32), (1, 1#32), (2, 17#32), (4, 17#32), (6, 17#32), (14, 17#32), (15, 0xdaa6df89#32), (16, 0x7f000000#32)]
/-- A module that holds that image and has program 0 configured for it. -/
def withImage : State :=
  let s := { State.reset with mem := { State.reset.mem with prog := Trio.all tinyImage } }
  ((s.setReg 0x048 Reg.program.activeImage 0x80000000#32).setReg 0x048 Reg.program.activeCheck 0xdaa6df89#32).setReg 0x048
    Reg.program.exchCheck 0xdaa6df89#32

theorem test_meets_IdleStepAdvancesLocalTime :
    let s := State.reset
    let trim (v : Word) (a : Nat) : State := (s.setReg 0x141 Reg.time.ltTrim v).setTime { s.time with trimAcc := a }
    (s.pending = [] ∧ s.vme.inbound = [] ∧ s.time.ntSet = false)
    ∧ ((trim 5#32 0).pending = [] ∧ (trim 5#32 0).time.trimAcc + ((trim 5#32 0).reg 0x141 Reg.time.ltTrim).toInt.natAbs < 2 ^ 32)
    ∧ (2 ^ 32 ≤ (trim 5#32 0xffffffff).time.trimAcc + ((trim 5#32 0).reg 0x141 Reg.time.ltTrim).toInt.natAbs
      ∧ 0 < ((trim 5#32 0).reg 0x141 Reg.time.ltTrim).toInt)
    ∧ ((trim (-5#32) 0).reg 0x141 Reg.time.ltTrim).toInt ≤ 0 := by decide +kernel

theorem test_meets_ResetLeavesTheSpecifiedValues : followsRuns 0x150 = true := by decide +kernel

theorem test_meets_StepKeepsReportFifosOrdered :
    fifosOk State.reset = true ∧ ∃ t, step State.reset = .next t := ⟨by decide, _, rfl⟩

theorem test_meets_StepKeepsMemoriesCanonical :
    let s := { State.reset with mem := { State.reset.mem with sram := [(3, 1#8), (5, 2#8)] } }
    memoryWf s.mem = true ∧ ∃ t, step s = .next t := ⟨by decide, _, rfl⟩

theorem test_meets_StepKeepsOutputsSafe :
    outputsSafe State.reset = true ∧ ∃ t, step State.reset = .next t := ⟨by decide, _, rfl⟩

theorem test_meets_CommandsLeaveTheQueueAlone :
    ∃ t, exec .measSync { State.reset with pending := [.vmeBusGrant] } = .next t ∧ t.pending = [.vmeBusGrant] :=
  ⟨_, rfl, rfl⟩

theorem test_meets_ReportEntersItsFifo :
    (1 < 32) ∧ (State.reset.faults.fifo .control).length < 32
      ∧ (State.reset.post .control 0 1 0 []).faults.control.length = 1
      ∧ ∀ r : FaultReport, 32 ≤ ((State.reset.faults.setFifo .control (List.replicate 32 r)).fifo .control).length :=
  ⟨by decide, by decide, rfl, fun _ => Nat.le_of_eq List.length_replicate.symm⟩

theorem test_meets_RefusedAccessesTakeNoEffect :
    let s := State.reset
    (isCore (.app 0) = true ∧ misaligned 0x10000001 4 = true)
    ∧ ((isCore .dma && misaligned 0x08000000 4) = false ∧ s.vmeDecode .dma 0x08000000 (max 4 1) true ≠ .refused
      ∧ s.refuses .dma 0x08000000 true = true)
    ∧ ((isCore (.app 0) && misaligned 0x40000000 4) = false ∧ s.vmeDecode (.app 0) 0x40000000 (max 4 1) true = .refused)
    ∧ (regionOf 0x18000000 = .localPages ∧ (isCore (.app 0) && misaligned 0x18000000 2) = false
      ∧ s.refuses (.app 0) 0x18000000 false = false ∧ ¬(2 = 4 ∧ 0x18000000 % 4 = 0))
    ∧ (3 : Fin 8) ≠ s.fail.stackId := by decide +kernel

theorem test_meets_RegisterReadsAndWritesFollowTheirRules :
    let s := State.reset
    (pageUnit 0x141 = some (.time, 0) ∧ (regDesc 0x141 Reg.time.ltTrim).isSome = true
      ∧ s.refuses .cluster (0x18000000 + 0x1000 * 0x141 + Reg.time.ltTrim) true = false)
    ∧ s.refuses (.app 0) (0x18000000 + 0x1000 * 0x141 + Reg.time.ltTrim) true = true
    ∧ s.refuses .cluster (0x18000000 + 0x1000 * 0x141 + (0x080 + 8 * 0)) false = false
    ∧ (isLo 0x141 0x100 = true ∧ s.refuses .cluster (0x18000000 + 0x1000 * 0x141 + 0x100) false = false) := by
  decide +kernel

theorem test_meets_RunStatesFollowEnable :
    let s := State.reset
    let l := s.setPage 0x150 { s.page 0x150 with lock := true }
    let r (x : RunState) := s.setPage 0x150 { s.page 0x150 with run := x }
    (s.mayWritePage .cluster 0x150 0x008 = true ∧ followsRuns 0x150 = true ∧ s.locked 0x150 = false)
      ∧ (l.mayWritePage .cluster 0x150 0x008 = true ∧ l.locked 0x150 = true)
      ∧ (s.mayWritePage .cluster 0x010 0x008 = true ∧ s.locked 0x010 = false)
      ∧ ((s.page 0x150).run = .off ∧ s.effEnable 0x150 = false ∧ subtree 0x150 = [0x150])
      ∧ (((r .off).setPage 0x150 { s.page 0x150 with enable := true }).effEnable 0x150 = true)
      ∧ (((r .on).page 0x150).run = .on ∧ ((r .stopping).page 0x150).run = .stopping
        ∧ ((r .faulted).page 0x150).run = .faulted) := by decide +kernel

theorem test_meets_StartsAndDrainsComplete :
    let s := State.reset
    let r (x : RunState) := s.setPage 0x150 { s.page 0x150 with run := x, enable := true }
    (((r .starting).page 0x150).run = .starting ∧ (r .starting).startReady 0x150 = true
      ∧ (((r .starting).starts 0x150).page 0x150).run = .starting)
      ∧ (((r .stopping).page 0x150).run = .stopping ∧ (r .stopping).drained 0x150 = true) := by decide +kernel

theorem test_meets_LongOperationsFollowTheirStates :
    let s := State.reset
    let w (o : OpPhase) (b : Bool) := s.setOp 0x162 ⟨o, 1, 0, 0#32, 0#32, 0#32, 0#32, 0#32, 0#32, b⟩
    (s.mayWritePage (.app 0) 0x162 0x038 = true ∧ s.startAccepted 0x162 1 = true ∧ hasOpcode 0x162 1 = true)
      ∧ hasOpcode 0x162 9 = false ∧ s.startAccepted 0x001 1 = false
      ∧ (((w .running false).op 0x162).inProgress = true ∧ ((w .running false).op 0x162).phase = .running
        ∧ opTolerant 0x162 1 = true)
      ∧ (((w .suspended true).op 0x162).selfSuspended = true ∧ ((w .queued false).op 0x162).phase = .queued
        ∧ (w .queued false).frozen 0x162 = false ∧ (s.op 0x162).inProgress = false) := by decide +kernel

theorem test_meets_AuditsLedgerAndRecordsAreTaken :
    let s := State.reset
    let w := s.post .control 0x010 1 0 []
    (s.mayWritePage .cluster 0x010 0x050 = true ∧ bookPages 0x010 = [0x010] ∧ (s.captureBook 0x010).2.1 = false)
      ∧ (s.mayWritePage .cluster 0x002 0x050 = true ∧ bookPages 0x002 = [])
      ∧ (s.mayWritePage .cluster 0x000 0x050 = true ∧ s.auditBusy.contains 0x000 = false)
      ∧ ({ s with auditBusy := [0x000] }.auditBusy.contains 0x000 = true)
      ∧ s.mayWritePage .cluster 0x005 Reg.workLedger.ledgerSnap = true
      ∧ ((w.faults.fifo .control).length = 1 ∧ w.ps.pfDone = false) := by decide +kernel

theorem test_meets_OwnRemoteSlotIsAnAlias :
    columnOf .cluster ≠ .link ∧ (0x010 : Nat) < 0x800 ∧ (0x104 : Nat) < 0x1000 ∧ (4 : Nat) ∈ [1, 2, 4, 8] := by decide

theorem test_meets_RemotePageRequestsAreServed :
    let s := State.reset
    ((pageUnit 0x150).isSome = true ∧ (s.pageRead (.remote 2) 0x150 0x040).reply = .value 0#64)
      ∧ (pageUnit 0x006).isNone = true ∧ s.mayWriteRemote .data 0x150 = false
      ∧ ({ s with owners := [(0x150, true)] }.mayWriteRemote .management 0x150 = true) := by decide +kernel

theorem test_meets_PresentationsOpenJoinOrStall :
    let s := State.reset
    let r := s.setCp .a { s.cp .a with participant := true, held := false, stall := 0 }
    let o := { r with clu := { r.clu with slots := [⟨1, [(.b, ⟨.store, 0x18010000#40, 4, 0#64⟩)], .opened, none⟩] } }
    let l := { r with clu := { r.clu with lateDiscard := [(.a, 1)] } }
    let f := { r with clu := { r.clu with slots := List.replicate 64 ⟨9, [], .opened, none⟩ } }
    let w := r.setCp .a { r.cp .a with stall := 5, waitWrite := some ⟨.store, 0x18010000#40, 4, 0#64⟩ }
    ((r.cp .a).runs = true ∧ misaligned 0x18010000 4 = false ∧ misaligned 0x18010001 4 = true
        ∧ regionOf 0x18010000 ≠ .tcm ∧ (w.cp .a).runs = false)
      ∧ (((r.answer .none).voteDelayed .a).clu.lateDiscard = [] ∧ ((r.answer .none).voteDelayed .a).clu.slots = [])
      ∧ (((o.answer .none).voteDelayed .a).clu.slots.find? (fun t => t.ord == 1)).isSome = true
      ∧ ((l.answer .none).voteDelayed .a).clu.lateDiscard.contains (.a, 1) = true
      ∧ ((f.answer .none).voteDelayed .a).clu.slots.length = 64
      ∧ (((r.answer .wait).present .a ⟨.sc, 0x10000000#40, 4, 0#64⟩).cp .a).stall ≠ 5
      ∧ ((w.cp .a).stall = 5 ∧ (w.cp .a).waitWrite = some ⟨.store, 0x18010000#40, 4, 0#64⟩
        ∧ w.clu.slots.length < 64) := by decide +kernel

theorem test_meets_TheVoterDecidesAndPerforms :
    let s := State.reset
    let w : WriteReq := ⟨.store, 0x18010100#40, 4, 0#64⟩
    let c : WriteReq := ⟨.store, 0x18003000#40, 4, 0#64⟩
    let put (t : VoterSlot) := { s with clu := { s.clu with slots := [t] } }
    let h := (put ⟨1, [(.a, c), (.b, c)], .held, some c⟩).setCp .a { s.cp .a with commitOrd := [(1, 7)] }
    let v : Verdict := ⟨7, 0, Trio.all true, Trio.all false, true, false, false, 0⟩
    (s.simplex = false ∧ s.partCount = 3 ∧ isCommitClass w.addr = false
        ∧ isCommitClass (BitVec.ofNat 40 (0x18003000 + Reg.reset.restartCmd)) = true)
      ∧ (((put ⟨1, [(.a, w)], .ready, some w⟩).nextWrite = some ⟨1, [(.a, w)], .ready, some w⟩)
        ∧ (entryOf (((put ⟨1, [(.a, w)], .ready, some w⟩).answer .none).busWrite .cluster w.addr 4 0#64).reply).isSome
          = true)
      ∧ (h.nextWrite.isSome = true ∧ (⟨1, [(.a, c), (.b, c)], .held, some c⟩ : VoterSlot).majority = [.a, .b]
        ∧ ((h.cp .a).commitOrd.find? fun x => x.1 == 1) = some (1, 7)
        ∧ ({ h with clu := { h.clu with judged := [(7, some v)] } }.clu.judged.find? fun x => x.1 == 7)
          = some (7, some v)
        ∧ v.pairBit .a .b = true ∧ v.pairBit .a .c = false)
      ∧ (((put ⟨1, [(.a, w)], .committed, some w⟩).clu.slots.find? fun t => t.ord == 1 && t.phase == .committed)
          = some ⟨1, [(.a, w)], .committed, some w⟩)
      ∧ (s.participants.all fun k => (s.cp k).halted) = false := by decide +kernel

theorem test_meets_DistributedReadsAreReplayed :
    let s := State.reset.setCp .a { State.reset.cp .a with participant := true, held := false, stall := 0 }
    let a : BitVec 40 := 0x10000000#40
    let f (k : ReadKind) := s.setCp .a { s.cp .a with fifo := [⟨k, a, 8, 5#64, false⟩] }
    let full := s.setCp .b { s.cp .b with participant := true, fifo := List.replicate 512 ⟨.load, a, 8, 5#64, false⟩ }
    let own := { s with clu := { s.clu with slots := [⟨1, [(.a, ⟨.store, a, 8, 0#64⟩)], .opened, none⟩] } }
    ((s.cp .a).runs = true ∧ misaligned 0x10000001 8 = true ∧ misaligned 0x10000000 8 = false
        ∧ regionOf 0x10000000 = .sram ∧ regionOf 0x08000000 = .tcm ∧ regionOf 0x00001000 = .bootRom
        ∧ regionOf 0x18010000 = .localPages)
      ∧ (eccBad (s.mem.tcmEcc.copy .a) 8 0 8 = false ∧ ((f .load).cp .a).fifo.length = 1 ∧ ((f .load).cp .a).runs = true)
      ∧ (full.othersFull .a = true ∧ (full.cp .a).fifo = [] ∧ own.othersFull .a = false
        ∧ own.ownWriteAhead .a ⟨.load, a, 8⟩ = true ∧ s.ownWriteAhead .a ⟨.load, a, 8⟩ = false)
      ∧ ((s.busRead .cluster a 8 0#64).reply = .value 0#64 ∧ csrDistributed 0x300 = false)
      ∧ (((s.setCp .a { s.cp .a with stall := 2, waitRead := some ⟨.load, a, 8⟩ }).cp .a).stall = 2)
      ∧ (((f .wfi).cp .a).runs = true ∧ s.firstAtWfi = none ∧ s.othersFull .a = false) := by decide +kernel

theorem test_meets_MessagesInterruptsAndDebugAccesses :
    let s := State.reset
    let m (n : Nat) := { s with clu := { s.clu with messages := List.replicate n 5#16 } }
    let t (n : Nat) :=
      { s with clu := { s.clu with targets := List.replicate n ⟨100, .irq 1#64, Trio.all false⟩ } }
    let o := { s with obs := { s.obs with wsOpen := true } }
    let h := allCopies.foldl (fun u k => u.setCp k { u.cp k with halted := true }) o
    ((m 0).clu.messages.length < 64 ∧ 64 ≤ (m 64).clu.messages.length ∧ (m 1).clu.messages = [5#16])
      ∧ (s.clu.lines ≠ 1#64 ∧ s.heldChanges.length < 16 ∧ 16 ≤ (t 16).heldChanges.length)
      ∧ (s.obs.wsOpen = false ∧ o.obs.wsOpen = true ∧ o.allHalted = false)
      ∧ (h.obs.wsOpen = true ∧ h.allHalted = true ∧ 1 < h.partCount
        ∧ ((h.answer .none).busWrite (.debug 0) 0x10000000#40 4 0#64).reply = .none
        ∧ ((h.answer .none).busRead (.debug 0) 0x10000000#40 4 0#64).reply = .value 0#64) := by decide +kernel

theorem test_meets_RetirementFoldsTheSignature :
    let s := State.reset.setCp .a { State.reset.cp .a with participant := true, held := false, stall := 0 }
    let l := s.setCp .a { s.cp .a with instret := 4194304#64 }
    let o := s.setCp .c { s.cp .c with participant := false, started := true }
    ((s.cp .a).runs = true ∧ s.lead .a < s.leadLimit) ∧ ((l.cp .a).runs = true ∧ l.leadLimit ≤ l.lead .a)
      ∧ ((o.cp .c).participant = false ∧ (o.cp .c).started = true) ∧ s.obs.wsOpen = false := by decide +kernel

theorem test_meets_ComparatorsJudgeReportsAndTimeouts :
    let s := State.reset
    let r : TussockReport := ⟨1, 2, 3, 4, 1#6, .a⟩
    let f (c : Comparator) := { s with clu := { s.clu with flying := [⟨c, r, false⟩] } }
    let j : Judgement := ⟨1, 1#6, ⟨some r, some r, none⟩, Trio.all false⟩
    let g := { s with clu := { s.clu with judging := [(.y, j)], gapRunning := true, gapPending := true } }
    (((f .x).clu.flying.find? fun q => q.dest == .x && q.report.copy == .a && !q.delayed).isSome = true
        ∧ ((f .y).clu.flying.find? fun q => q.dest == .y && q.report.copy == .a && !q.delayed).isSome = true
        ∧ (s.cp .a).participant = true)
      ∧ (j.reports.a = some r ∧ j.reports.b = some r)
      ∧ ((g.clu.judging.find? fun q : Comparator × Judgement => q.1 == .y) = some (.y, j) ∧ g.simplex = false ∧ g.participants ≠ []
        ∧ (g.participants.all fun k => (g.cp k).halted) = false ∧ (g.participants.all fun k => (g.cp k).inWfi) = false)
      ∧ (s.mayWritePage .cluster 0x010 Reg.cluster.ckptInterval = true ∧ s.locked 0x010 = false
        ∧ (s.setPage 0x010 { s.page 0x010 with lock := true }).locked 0x010 = true
        ∧ s.reg 0x010 Reg.cluster.ckptInterval ≠ 5#32) := by decide +kernel

theorem test_meets_ScrubsCorrectSingleBitErrors :
    let s := State.reset
    let p (n : Nat) := { s with mem := { s.mem with tcmEcc := s.mem.tcmEcc.setCopy .b [(5, n)] } }
    (eccUpset (s.mem.tcmEcc.copy .b) none = [] ∧ ((p 1).mem.tcmEcc.copy .b).any (fun e => e.2 == 2) = false
        ∧ ((p 1).mem.tcmEcc.copy .b).filter (fun e => e.2 == 1) ≠ []
        ∧ ((p 2).mem.tcmEcc.copy .b).any (fun e => e.2 == 2) = true)
      ∧ ((p 2).hasCause (copyPage .b) 5 = false ∧ ((p 2).latch (copyPage .b) 5).hasCause (copyPage .b) 5 = true
        ∧ ((p 2).cp .b).participant = true) := by decide +kernel

theorem test_meets_VerdictPairsNameCopiesAndReseedsRejoin :
    let s := State.reset
    let v (a b c : Bool) : Verdict := ⟨7, 100, Trio.all true, Trio.all false, a, b, c, 0b100001#6⟩
    let two (x y : Verdict) := { s with clu := { s.clu with verdicts := [(.x, x), (.y, y)] } }
    let one := { s with clu := { s.clu with verdicts := [(.x, v true true true)] } }
    let r (ph n : Nat) : Reseed := ⟨ph, .c, .a, 1, List.range n, [3], 0, 0⟩
    let w (ph n : Nat) := { s with red := { s.red with reseed := some (r ph n) } }
    let rel (lt : DWord) := { ((w 4 1).setCp .c { s.cp .c with participant := false }) with
      clu := { ((w 4 1).setCp .c { s.cp .c with participant := false }).clu with
        judged := [((s.cp .a).ckptNum, some (v true false false))] },
      time := { s.time with lt := lt } }
    let o (n : Word) := s.setOp 0x016 ⟨.running, 1, 0, 0, 0, n, 0, 0, 0, false⟩
    (((two (v true true true) (v true true true)).verdictOf .x 7).isSome = true
        ∧ ((two (v true true true) (v true true true)).verdictOf .y 7).isSome = true
        ∧ (v true true true).same (v true true true) = true ∧ s.participants = [.a, .b, .c]
        ∧ (v true true true).agreements = 3 ∧ (v true true false).agreements = 2 ∧ (v false true false).agreements = 1
        ∧ (v false false false).agreements = 0 ∧ s.red.odd = none
        ∧ (v true true true).same (v true true false) = false)
      ∧ ((one.verdictOf .x 7).isSome = true ∧ one.verdictOf .y 7 = none)
      ∧ ((w 2 8).tcmBad .a [3] = false ∧ (r 2 9).dirty.length = 9
        ∧ { w 2 9 with mem := { s.mem with tcmEcc := ⟨[(3 * 512, 2)], [], []⟩ } }.tcmBad .a [3] = true)
      ∧ ((rel 9).reseedReady (r 4 1) = true ∧ (rel 9).ticksSince 0 < 1250000 ∧ 1250000 ≤ (rel 1250000).ticksSince 0
        ∧ (rel 9).tcmBad .a [0] = false ∧ (rel 9).red.deferred = false)
      ∧ ((o 0).opActive 0x016 1 = true ∧ fieldOf ((o 0).op 0x016).arg0 6 0 = 0
        ∧ fieldOf ((o 65).op 0x016).arg0 6 0 = 65 ∧ fieldOf ((o 1).op 0x016).arg0 6 0 = 1) := by decide +kernel

theorem test_meets_DuckboardSelfTestAndDebugReplay :
    let s := State.reset
    let r := { s with red := { s.red with retired := some .c, duckGrace := true } }
    let d := { s.setCp .c { s.cp .c with participant := false } with clu :=
      { (s.setCp .c { s.cp .c with participant := false }).clu with mode := .duplexPlusOne } }
    let o := { s with obs := { s.obs with wsOpen := true } }
    let h := allCopies.foldl (fun u k => u.setCp k { u.cp k with halted := true }) o
    (r.hasCause 0x016 8 = false ∧ (r.latch 0x016 8).hasCause 0x016 8 = true ∧ s.red.retired = none
        ∧ s.red.duckGrace = false)
      ∧ ((0x20#6).getLsbD 5 = true ∧ s.mayWritePage .cluster 0x016 Reg.redundancy.coreStart = true
        ∧ s.clu.mode = .triplex ∧ d.clu.mode = .duplexPlusOne ∧ (d.cp .c).started = false
        ∧ (d.cp .c).participant = false ∧ ((d.startCore .c).cp .c).started = true)
      ∧ (o.obs.wsOpen = true ∧ (o.cp .a).participant = true ∧ o.red.reseed = none ∧ o.allHalted = false)
      ∧ (tcmOff 0x08000010#40 = some 0x10 ∧ s.obs.wsOpen = false ∧ h.allHalted = true
        ∧ h.participants = [.a, .b, .c]) := by decide +kernel

theorem test_meets_NetworkTimeMainsPhaseAndAxles :
    let s := State.reset
    let t (n : Nat) := s.setTime { s.time with ntSource := n, ntValid := true, mpHoldover := true, mpTracked := true }
    let a := s.setReg 0x142 Reg.axles.axConfig 1#32
    let p := { s with obs := { s.obs with wsOpen := true } }.setReg 0x1a0 Reg.perturb.ptMp 1#32
    (s.isMaster = true ∧ ({ s with fail := { s.fail with master := 3 } } : State).isMaster = false
        ∧ s.time.ntEver = false)
      ∧ ((t 1).time.ntSource = 1 ∧ (t 3).time.ntValid = true ∧ s.time.ntSource ≠ 3 ∧ (t 1).time.mpHoldover = true
        ∧ (s.setTime { s.time with mpHoldover := false }).time.mpHoldover = false
        ∧ s.time.mpTracked = false)
      ∧ (bitOf (p.pt Reg.perturb.ptMp) 0 = true ∧ bitOf (s.pt Reg.perturb.ptMp) 0 = false)
      ∧ (s.axleOn 0 = false ∧ a.axleOn 0 = true ∧ (a.axle 0).levels = 0) := by decide +kernel

theorem test_meets_SlotsArmFireAndReachTheirConsumers :
    let s := State.reset
    let d := s.setSlotState 3 ⟨true, 0, 4, 0, 2500, 0, 0, true⟩
    let f := s.setTime { s.time with fired := [⟨3, 4, 0⟩] }
    let p := (s.setReg 0x143 Reg.sched.slotPin 8#32).setPage 0x143 { s.page 0x143 with lock := true }
    (s.mayWritePage .cluster (slotPage 3) (slotReg Reg.sched.slotCtrl 3) = true
        ∧ slotOk 0 4 0#32 2500 0#64 = true ∧ slotOk 0 4 1#32 2500 0#64 = false ∧ slotOk 0 4 0#32 2499 0#64 = false
        ∧ bitOf (p.reg 0x143 Reg.sched.slotPin) 3 = true ∧ p.locked 0x143 = true
        ∧ bitOf (s.reg 0x143 Reg.sched.slotPin) 3 = false)
      ∧ (s.slotDue 3 = false ∧ d.slotDue 3 = true
        ∧ (d.net.trdp.filter fun x => x.2.valid && x.2.publish && x.2.fld 0 17 12 == 3) = [])
      ∧ (f.firedAction 3 4 = some ⟨3, 4, 0⟩ ∧ s.time.fired = []) := by decide +kernel

theorem test_meets_SyncRestartsOnTargets :
    let s := State.reset
    let n := s.setTime { s.time with ntEver := true, ntSource := 1, syncTarget := some 9#64 }
    (s.mayWritePage .cluster 0x140 Reg.timebase.syncCmd = true ∧ s.isMaster = true ∧ s.time.syncTarget = none
        ∧ s.ntSource = 0 ∧ n.ntSource ≠ 0)
      ∧ (n.time.syncTarget = some 9#64 ∧ n.time.nt.toNat < 9
        ∧ (9 : Nat) ≤ (n.setTime { n.time with nt := 9#64 }).time.nt.toNat)
      ∧ (s.measSync = 0 ∧ { s with measSync := 1 }.measSync ≠ 0) := by decide +kernel

theorem test_meets_BenmiBitLogic :
    (([0x10, 0x11, 0x12, 0x13, 0x14, 0x15, 0x16, 0x17].all fun o => standsOk (BitVec.ofNat 32 (o * 0x1000000 + 0x100001)) none)
        = true ∧ ([0x01, 0x18, 0x19, 0x1a].all fun o => standsOk (BitVec.ofNat 32 (o * 0x1000000)) none) = true)
      ∧ (let r (l : List (Bool × Bool)) : EngRegs := { regs0 with br := l }
        (ctxOf (benmiAt (r (List.replicate 16 (true, false))) [0x18000000]) 0).r.br.length = 16
        ∧ standsAt (benmiAt (r (List.replicate 16 (true, false))) [0x18000000]) 0 0x18 0 0 none = true
        ∧ (ctxOf (benmiAt (r [(true, false)]) [0x1a000000]) 0).r.br = [(true, false)]
        ∧ (ctxOf (benmiAt (r [(true, true)]) [0x1a000000]) 0).r.br = [(true, true)]
        ∧ (ctxOf (benmiAt (r []) [0x1a000000]) 0).r.br = []) := by decide +kernel

theorem test_meets_BenmiBitStoresAndEdges :
    (([0x20, 0x21, 0x22, 0x23].all fun o => standsOk (BitVec.ofNat 32 (o * 0x1000000 + 0x200001)) none) = true
        ∧ ([0x24, 0x25].all fun o => standsOk (BitVec.ofNat 32 (o * 0x1000000 + 0x300001)) none) = true
        ∧ standsOk 0x23400001 none = true ∧ standsOk 0x23500001 none = true ∧ standsOk 0x50000001 none = true)
      ∧ ((ctxOf (benmiAt regs0 [0x23400001]) 0).sp = 4 ∧ (ctxOf (benmiAt regs0 [0x23500001]) 0).sp = 5
        ∧ (ctxOf (benmiAt regs0 [0x23200001]) 0).sp = 2 ∧ (ctxOf (benmiAt regs0 [0x24300001]) 0).exchanged = false
        ∧ freshIndex [(0x7e200, 1#8)] 1 = some 0 ∧ (ctxOf (benmiAt regs0 [0x50000001]) 0).pairs.contains 1 = false) := by
  decide +kernel

theorem test_meets_BenmiTimersAndCounters :
    ([0x28, 0x29, 0x2a].all fun o => standsOk (BitVec.ofNat 32 (o * 0x1000000 + 0x400001)) none) = true
      ∧ ([0x2c, 0x2d].all fun o => standsOk (BitVec.ofNat 32 (o * 0x1000000 + 0x500001)) none) = true := by decide +kernel

theorem test_meets_BenmiWordArithmetic :
    ([0x30, 0x34, 0x35, 0x36, 0x38, 0x39, 0x3a, 0x3b, 0x3c, 0x3d].all fun o =>
        standsOk (BitVec.ofNat 32 (o * 0x1000000 + 0x800000)) (some 0xfffffffe#32)
          && standsOk (BitVec.ofNat 32 (o * 0x1000000 + 0x600001)) (some 7#32)) = true
      ∧ standsOk 0x32600001 (some 0x00600002#32) = true ∧ standsOk 0x31600002 none = true
      ∧ ([0x40, 0x41, 0x42].all fun o => standsOk (BitVec.ofNat 32 (o * 0x1000000 + 31)) none) = true := by decide +kernel

theorem test_meets_BenmiControlFlow :
    let r (b : List (Bool × Bool)) (l : List (Option Nat)) : EngRegs := { regs0 with br := b, calls := l }
    let ok (g : EngRegs) (w : Word) := standsAt (benmiAt g [w]) 0 (opOf w) 0 0 none && enginesAgree (benmiAt g [w])
    (ok regs0 0x48000000 = true ∧ ok regs0 0x49000000 = true ∧ ok regs0 0x4a000000 = true ∧ ok regs0 0x4c000000 = true
        ∧ ok (r [] (List.replicate 8 (some 0))) 0x4c000000 = true
        ∧ ok (r [] [some 0]) 0x4d000000 = true ∧ ok (r [] []) 0x4d000000 = true ∧ ok (r [(true, true)] [none]) 0x4d000000 = true
        ∧ ok regs0 0x7f000000 = true ∧ ok (r [(true, true)] []) 0x7f000000 = true)
      ∧ ((benmiAt { regs0 with pc := 1 } [0x01000000]).imageHeader 0).codeWords = 1
      ∧ opcodeKnown 0x02 = false
      ∧ insnOk (benmiAt regs0 [0x48000005]).pm 16 1 0 = false := by decide +kernel

theorem test_meets_ScanPhasesFollowEachOther :
    let s := State.reset
    let w (n : Nat) := s.setProg 0 { s.prog 0 with state := n }
    let im : Staged := ⟨false, [], 0, [], [], false⟩
    let r (c : Word) (ok : Option Bool) :=
      ({ s with clu := { s.clu with forcedBy := [(.program 0, 9, ok)] } }.setProg 0
        { s.prog 0 with state := 7, staged := some im }).setReg (progPage 0) Reg.program.progConfig c
    let o := s.setProg 0 { s.prog 0 with state := 7, released := true, retain := some ([], true) }
    (s.scheduled 0 = false ∧ (w 1).time.lt < (((w 1).setProg 0 { (w 1).prog 0 with nextTrigger := 9 }).prog 0).nextTrigger)
      ∧ ((w 1).cle.running = none ∧ ((w 1).setCle { (w 1).cle with running := some 3 }).cle.running = some 3)
      ∧ ((w 2).turnOf 0 = true ∧ (w 5).turnOf 0 = true ∧ (w 6).turnOf 0 = true ∧ ((w 5).prog 0).errTasks = [])
      ∧ (s.turnOf 0 = false ∧ (w 1).mayHousekeep 0 = false ∧ (s.prog 0).released = false)
      ∧ ((r 0 (some false)).forcedAnswer 0 = some false ∧ (r 0 (some true)).forcedAnswer 0 = some true
        ∧ (r 2 none).forcedAnswer 0 = none ∧ bitOf ((r 2 none).reg (progPage 0) Reg.program.progConfig) 1 = true
        ∧ bitOf ((r 0 none).reg (progPage 0) Reg.program.progConfig) 1 = false ∧ (r 0 none).simplex = false)
      ∧ ((o.prog 0).released = true ∧ (w 9).mayHousekeep 0 = true ∧ ((w 9).prog 0).stopPending = false) := by
  decide +kernel

theorem test_meets_ProgramCommandsImagesAndPairs :
    let s := State.reset
    let w (n : Nat) := s.setProg 0 { s.prog 0 with state := n }
    let o := s.setOp 0x044 ⟨.running, 1, 0, 0, 0, 0, 0, 0, 0, false⟩
    let y := { o with mem := { o.mem with prog := Trio.all tinyImage } }
    let y := y.setOp 0x044 { y.op 0x044 with arg1 := 0xdaa6df89 }
    let x := withImage.setProg 0 { s.prog 0 with state := 1 }
    let x := x.setCle { x.cle with confirmed := some (0, 17, 0xdaa6df89) }
    let d := at' 4 0 ||| flag true 16 ||| flag true 17 ||| flag true 18
    (s.mayWritePage .cluster (progPage 0) Reg.program.progCmd = true ∧ (w 1).startRefused 0 = true
        ∧ (s.prog 0).state = 0 ∧ withImage.startRefused 0 = false ∧ (s.exchangeRefusal 0).isSome = true
        ∧ (x.exchangeRefusal 0) = none ∧ (x.prog 0).state = 1
        ∧ s.mayWritePage (.remote 2) (progPage 0) Reg.program.progCmd = false)
      ∧ (o.opActive 0x044 1 = true
        ∧ (imageCheck o.pm (o.differingWords 0 (min (header o.pm 0).imageWords 262144)) 0 0#32).error.isSome = true
        ∧ y.opActive 0x044 1 = true ∧ (imageCheck y.pm (y.differingWords 0 17) 0 (y.op 0x044).arg1).error = none)
      ∧ (bitOf d 17 = true ∧ bitOf d 18 = true ∧ fieldOf d 14 0 + 1 = 5 ∧ bitOf (0#32) 17 = false) := by decide +kernel

theorem test_meets_EnginesAreJudgedScrubbedAndReseeded :
    let s := State.reset
    let f (n : Nat) : Eff := ⟨{ regs0 with pc := n }, [], [], none, 1, false, false⟩
    let w := { s with mem := { s.mem with dataEcc := s.mem.dataEcc.setEng .e0 [(5, 1)] } }
    let b := { s with mem := { s.mem with dataEcc := s.mem.dataEcc.setEng .e0 [(5, 2)] } }
    let odd (t : State) := t.setCle
      { t.cle with odd := some .e2, waiting := true, participating := t.cle.participating.setEng .e2 false }
    ((f 1).same (f 1) = true ∧ (f 1).same (f 2) = false ∧ (f 2).same (f 3) = false ∧ (f 1).same (f 3) = false)
      ∧ ((spanWords 4 0 4).any withImage.inActiveImage = true ∧ (spanWords 4 0x1000 4).any s.inActiveImage = false)
      ∧ ((s.mem.progEcc.eng .e0).any (fun q => q.2 == 1 || q.2 == 2) = false
        ∧ (s.mem.dataEcc.eng .e0).any (fun q => q.2 == 1 || q.2 == 2) = false)
      ∧ (eccAnyBad (w.mem.progEcc.eng .e0) = false ∧ w.mem.dataEcc.eng .e0 = [(5, 1)])
      ∧ ((odd s).atBoundary = true ∧ (odd s).hasCause (enginePage .e2) 2 = false
        ∧ eccAnyBad ((odd s).mem.dataEcc.eng (odd s).lowEngine) = false
        ∧ eccAnyBad ((odd b).mem.dataEcc.eng (odd b).lowEngine) = true
        ∧ ((odd s).setProg 0 { s.prog 0 with state := 4 }).executing = true ∧ s.cle.boundary = false ∧ s.cle.odd = none) := by
  decide +kernel

theorem test_meets_FramesPassTheIngressChecksAndLeaveByClass :
    let s0 := State.reset
    let on := ((s0.setPage (portPage 0) { s0.page (portPage 0) with enable := true, run := .on }).setReg (portPage 0)
      Reg.port.portConfig 0x05f20000#32).setSwPort 0 { s0.swPort 0 with link := true, speed := 2 }
    let f : Frame := ⟨2, 1, true, 5, 0, false, List.replicate 60 0#8⟩
    let g : StoredFrame := ⟨0, f, .port, [⟨0, 0, 0#64, none, false⟩], 0, 3, none, none, 0, 0, 1⟩
    let full := on.setNet { on.net with frames := [g] }
    s0.working (portPage 0) = false
    ∧ (on.working (portPage 0) = true ∧ (on.swPort 0).link = true ∧ 64 ≤ 64 ∧ on.maxFrame 0 = 1522)
    ∧ (s0.vlanMembers 5).testBit 0 = false
    ∧ ((s0.setReg 0x089 Reg.bridge.bridgeCtrl 1#32).net.fdb = []
      ∧ bitOf ((s0.setReg 0x089 Reg.bridge.bridgeCtrl 1#32).reg 0x089 Reg.bridge.bridgeCtrl) 0 = true)
    ∧ (((on.settle 0).markGated 0).nextClass 0 = none
      ∧ ((full.settle 0).markGated 0).nextClass 0 = some 0
      ∧ (((full.settle 0).markGated 0).headOf 0 0).isSome = true)
    ∧ ((on.settle 0).headOf 0 0 = none ∧ ((full.settle 0).headOf 0 0).isSome = true)
    ∧ ((on.setSwPort 0 { on.swPort 0 with link := false, speed := 0 }).portOn 0 = true
      ∧ ((s0.setSwPort 0 { s0.swPort 0 with link := true }).setSwPort 0 { s0.swPort 0 with link := false }).portOn 0 = false)
    ∧ (speedOfMode 2 0 false ≠ 0 ∧ on.portOn 0 = true ∧ speedOfMode 0 0 false = 0) := by
  decide +kernel

theorem test_meets_GatesAndSwitchTimersTakeEffect :
    let s0 := State.reset
    let q := s0.setReg (portPage 0) Reg.port.gclCtrl 1#32
    let fdb (st : Bool) := s0.setNet { s0.net with fdb := [(fdbKey 1 5, ⟨1, st, 0#64⟩)] }
    let on (p : Nat) := s0.setPage p { s0.page p with enable := true, run := .on }
    let rb (c : Word) := (on 0x08c).setReg 0x08c Reg.prp.prpCtrl c
    (s0.qbv 0 = false ∧ q.qbv 0 = true ∧ ((q.settle 0).swPort 0).swapPending = false
      ∧ (((q.setSwPort 0 { q.swPort 0 with swapPending := true }).settle 0).swPort 0).swapPending = true
      ∧ (s0.swPort 0).operLen ≤ (s0.swPort 0).entry + 1
      ∧ ((q.setSwPort 0 { q.swPort 0 with operLen := 2 }).swPort 0).entry + 1 <
        ((q.setSwPort 0 { q.swPort 0 with operLen := 2 }).swPort 0).operLen)
    ∧ (findFdb s0.net.fdb (fdbKey 1 5) = none ∧ findFdb (fdb true).net.fdb (fdbKey 1 5) = some ⟨1, true, 0#64⟩
      ∧ findFdb (fdb false).net.fdb (fdbKey 1 5) = some ⟨1, false, 0#64⟩)
    ∧ (s0.redbox = false ∧ (rb 7#32).redbox = true ∧ bitOf ((rb 7#32).reg 0x08c Reg.prp.prpCtrl) 2 = true)
    ∧ (s0.gptpOn = false ∧ (on 0x08d).gptpOn = true ∧ (0 = (on 0x08d).slavePort)
      ∧ (1 ≠ (on 0x08d).slavePort ∧ bitOf ((on 0x08d).reg 0x08d Reg.gptp.asConfig) 9 = false)) := by
  decide +kernel

theorem test_meets_SwitchTablesAreReadAndWritten :
    let s := State.reset
    let key (w : Word) (t : Tbl FdbEntry) := (s.setNet { s.net with fdb := t }).setReg 0x089 Reg.bridge.fdbKeyHi w
    let e : FdbEntry := ⟨1, false, 0#64⟩
    let filter (w : Word) := (s.setNet { s.net with
      streams := (List.range 64).map fun i => (i, ⟨0xc0000000#32, 0#32, 0#32⟩) }).setReg 0x08e Reg.streams.streamW0 w
    let f200 := (filter 0xc0000000#32).setReg 0x08e Reg.streams.streamSel 200#32
    let x (w : Word) : TrdpEntry := ⟨w :: List.replicate 7 0#32, 0#32, false, false, 0#64, none, none⟩
    (s.mayWritePage .cluster 0x089 Reg.bridge.fdbCmd = true ∧ s.mayWritePage .cluster 0x089 Reg.bridge.vlanCmd = true
      ∧ s.mayWritePage .cluster 0x08e Reg.streams.streamCmd = true
      ∧ s.mayWritePage .cluster 0x08e Reg.streams.meterCmd = true
      ∧ s.mayWritePage .cluster (trdpPage 0) Reg.trdp.entryCmd = true
      ∧ s.mayWritePage .vmeIn 0x089 Reg.bridge.fdbCmd = false)
    ∧ ((key 0#32 []).field 0x089 Reg.bridge.fdbKeyHi 27 16 = 0 ∧ (key 0x00050000#32 []).field 0x089 Reg.bridge.fdbKeyHi 27 16 = 5
      ∧ findFdb (key 0x00050000#32 []).net.fdb (key 0x00050000#32 []).fdbKeyReg = none
      ∧ findFdb (key 0x00050000#32 [(5, e)]).net.fdb (key 0x00050000#32 [(5, e)]).fdbKeyReg = some e)
    ∧ (64 < recoverFilters (tblWrite streamReset f200.net.streams 200 ⟨0xc0000000#32, 0#32, 0#32⟩)
      ∧ recoverFilters (tblWrite streamReset f200.net.streams 200 ⟨0x80000000#32, 0#32, 0#32⟩) = 64)
    ∧ (s.entryPage 0 = trdpPage 0 ∧ s.entryPage 0 ≠ trdpPage 1
      ∧ (x 0x80000000#32).valid = true ∧ (x 0x80000000#32).fieldsOk = true ∧ (x 0x80000000#32).substOk = true
      ∧ s.safeEntryOk 0 (x 0x80000000#32) = true
      ∧ (x 0x82000000#32).fieldsOk = false ∧ (x 0#32).valid = false) := by
  decide +kernel
/-- A full table of 8,192 addresses that lacks the key (R233). -/
theorem test_meets_SwitchTablesAreReadAndWritten_full (n : Nat) :
    findFdb (List.replicate n (6, ⟨1, false, 0#64⟩)) 5 = none
      ∧ (List.replicate n ((6 : Nat), (⟨1, false, 0#64⟩ : FdbEntry))).length = n := by
  refine ⟨?_, List.length_replicate ..⟩
  unfold findFdb
  rw [List.find?_replicate]
  split <;> simp_all

theorem test_meets_QueuesMoveDescriptorsInOrder :
    let s := State.reset
    let on (p : Nat) (t : State) := t.setPage p { t.page p with enable := true, run := .on }
    let d : ActiveDesc := ⟨0, 0, 64, none⟩
    let o : FinalStatus := ⟨[], 64, 0#64, 0#32, 0#32⟩
    let ring (base : Word) (q : Nat) (r : RingState) := ((on (qPage q) s).setReg (qPage q) Reg.queue.qBaseLo base).setRing q r
    let irq := (((s.setReg (qPage 0) Reg.queue.qIrqTime 1#32).setReg (qPage 0) Reg.queue.qIrq 1#32).setRing 0 ⟨0#32, [], 1⟩)
    let ent (w : Word) (timed : Bool) (h : Option (List Byte × DWord)) := (on 0x08a s).setTrdp 0
      ⟨[w, 0#32, 0#32, 0#32, 1#32, 0#32, 0#32, 0#32], 0#32, true, timed, 0#64, none, h⟩
    (s.mayWritePage .cluster (qPage 0) Reg.queue.qPosted = true ∧ postOk 1#32 (s.ring 0).posted (s.qSeq 0)
      (s.field (qPage 0) Reg.queue.qConfig 12 8) = true ∧ postOk 0x80000000#32 (s.ring 0).posted (s.qSeq 0)
      (s.field (qPage 0) Reg.queue.qConfig 12 8) = false)
    ∧ (s.waiting 0 = 0 ∧ (ring 0x10000000#32 0 ⟨1#32, [], 0⟩).waiting 0 ≠ 0
      ∧ ((ring 0x10000000#32 0 ⟨1#32, [], 0⟩).fetchOne 0).1.isSome = true
      ∧ (ring 0#32 0 ⟨1#32, [], 0⟩).waiting 0 ≠ 0 ∧ ((ring 0#32 0 ⟨1#32, [], 0⟩).dmaRead 0 32).1 = none)
    ∧ (s.queueOn 0 = false ∧ (ring 0#32 0 ⟨1#32, [], 0⟩).queueOn 0 = true
      ∧ ((ring 0#32 0 ⟨1#32, [], 0⟩).fetchOne 0).1 = none
      ∧ ((ring 0x10000000#32 40 ⟨1#32, [], 0⟩).fetchOne 40).1 = some ⟨0, 0, 0, none⟩)
    ∧ ((s.ring 0).active = [] ∧ ((ring 0x10000000#32 0 ⟨1#32, [d], 0⟩).ring 0).active = [d]
      ∧ ((ring 0x10000000#32 0 ⟨1#32, [{ d with outcome := some o }], 0⟩).writeDescriptor 0 { d with outcome := some o } o).1
        = true
      ∧ ((ring 0#32 0 ⟨1#32, [{ d with outcome := some o }], 0⟩).writeDescriptor 0 { d with outcome := some o } o).1 = false)
    ∧ ((s.ring 0).unsignalled = 0 ∧ (irq.ring 0).unsignalled ≠ 0 ∧ irq.field (qPage 0) Reg.queue.qIrqTime 15 0 ≠ 0
      ∧ irq.field (qPage 0) Reg.queue.qIrq 7 0 ≠ 0)
    ∧ ((s.trdp 0).held = none ∧ ((ent 0x80000000#32 false (some ([], 0#64))).trdp 0).held = some ([], 0#64)
      ∧ (ent 0x80000000#32 false (some ([], 0#64))).entryOn 0 = true)
    ∧ ((s.trdp 0).valid = false ∧ ((ent 0x80000000#32 false none).trdp 0).valid = true
      ∧ ((ent 0x80000000#32 false none).trdp 0).fld 4 15 0 ≠ 0 ∧ ((ent 0x80000000#32 false none).trdp 0).fld 0 27 26 = 0
      ∧ ((ent 0x84000000#32 false none).trdp 0).fld 0 27 26 = 1 ∧ ((ent 0x88000000#32 false none).trdp 0).fld 0 27 26 = 2) := by
  decide +kernel

theorem test_meets_TwinSlotsChannelsAndMvbFollowTheirRules :
    let s := State.reset
    let f : Frame := ⟨2, 1, false, 5, 0, false, [1#8]⟩
    let g : StoredFrame := ⟨0, f, .port, [], 0, 3, none, none, 0, 0, 1⟩
    let slot (h : Option Nat) : TwinSlot := ⟨0, 0, 1, 7#16, 0, 0#64, h⟩
    let tw (h : Option Nat) := ((s.setTwins [(0, slot h)]).setReg 0x1b0 Reg.safeData.twinConfig 1#32).setNet
      { s.net with twins := [(0, slot h)], frames := [g] }
    let full := s.setTwins ((List.range 256).map fun i => (i, slot none))
    let on (cfg : Word) := (s.setPage (mvbPage 0) { s.page (mvbPage 0) with enable := true, run := .on }).setReg (mvbPage 0)
      Reg.mvb.mvbConfig cfg
    let wait (t : State) := t.setMvb 0 { t.mvb 0 with waiting := some 5 }
    let port (w : Word) := (s.setMvb 0 { s.mvb 0 with ports := [(3, 0x80000005#32, 0#32)] }).setReg (mvbPage 0) Reg.mvb.portW0 w
    (s.twinSlot 0 0 1 7#16 = none ∧ s.freeTwin = some 0 ∧ full.freeTwin = none ∧ full.twinSlot 0 9 1 7#16 = none
      ∧ (tw none).twinSlot 0 0 1 7#16 = some (0, slot none) ∧ (tw (some 0)).twinSlot 0 0 1 7#16 = some (0, slot (some 0))
      ∧ (tw none).time.lt.toNat - (slot none).lt.toNat < (tw none).twinWindow
      ∧ ((tw (some 0)).net.frames.find? (·.handle == 0)).map (·.frame.hostBytes) = some f.hostBytes
      ∧ ((tw (some 0)).net.frames.find? (·.handle == 0)).map (·.frame.hostBytes) ≠ some { f with body := [] }.hostBytes)
    ∧ (s.net.twins.find? (fun e => e.1 == 0) = none ∧ (tw none).net.twins.find? (fun e => e.1 == 0) = some (0, slot none)
      ∧ (tw (some 0)).net.twins.find? (fun e => e.1 == 0) = some (0, slot (some 0)))
    ∧ s.mayWritePage .cluster 0x1b0 Reg.safeData.chanCmd = true
    ∧ (s.mvbOn 0 = false ∧ (on 1#32).mvbOn 0 = true ∧ bitOf (((on 1#32).mvbClose 0).mvbCfg 0) 0 = true
      ∧ bitOf (((on 0#32).mvbClose 0).mvbCfg 0) 0 = false ∧ ((wait (on 1#32)).mvb 0).waiting.isSome = true
      ∧ bitOf ((wait (on 1#32)).mvbCfg 0) 0 = true ∧ ((on 1#32).mvb 0).waiting = none)
    ∧ (bitOf ((on 0#32).mvbCfg 0) 1 = false ∧ bitOf ((on 0x00050002#32).mvbCfg 0) 1 = true
      ∧ fieldOf ((on 0x00050002#32).mvbCfg 0) 27 16 = (5#12).toNat)
    ∧ (((((wait (on 1#32)).lineFrame 0 0 (some ([], true))).lineFrame 0 1 none).mvb 0).waiting.isSome = true
      ∧ ((((on 1#32).lineFrame 0 0 (some ([], true))).lineFrame 0 1 none).mvb 0).waiting = none)
    ∧ (s.mayWritePage .cluster (mvbPage 0) Reg.mvb.portCmd = true
      ∧ bitOf ((port 0x80000005#32).reg (mvbPage 0) Reg.mvb.portW0) 31 = true
      ∧ (((port 0x80000005#32).mvb 0).ports.any fun e => e.1 != (port 0x80000005#32).field (mvbPage 0) Reg.mvb.portSel 7 0
        && bitOf e.2.1 31 && fieldOf e.2.1 11 0 == fieldOf ((port 0x80000005#32).reg (mvbPage 0) Reg.mvb.portW0) 11 0) = true
      ∧ bitOf (s.reg (mvbPage 0) Reg.mvb.portW0) 31 = false)
    ∧ (s.mayWritePage .cluster (mvbPage 0) Reg.mvb.pollCmd = true ∧ 4 < fieldOf 0x00005000#32 15 12
      ∧ fieldOf 0x00005000#32 15 12 ≠ 15 ∧ fieldOf (s.reg (mvbPage 0) Reg.mvb.pollW0) 29 20 = 0
      ∧ fieldOf (s.reg (mvbPage 0) Reg.mvb.pollW0) 15 12 = 0) := by
  decide +kernel

theorem test_meets_CanControllersReceiveTransmitAndRecover :
    let s := State.reset
    let f : CanFrame := ⟨1#29, false, false, 0#4, false, false, false, []⟩
    let base (w : Word) := ((s.setPage (canPage 0) { s.page (canPage 0) with enable := true, run := .on }).setReg (canPage 0)
      Reg.can.rxBaseLo w).setReg (canPage 0) Reg.can.txBaseLo w
    let on := base 0x10000000#32
    let fil (t : State) := t.setReg (canPage 0) Reg.can.filterId 0x80000001#32
    let post (t : State) := t.setCan 0 { t.can 0 with rx := ⟨1#32, [], 0⟩ }
    let rx1 (t : State) := (t.recDown 0).bump (canPage 0) 0 1
    let tx (t : State) := t.setCan 0 { t.can 0 with tx := ⟨1#32, [], 0⟩ }
    let inv := { tx on with mem := { on.mem with sram := [(4, 0x20#8)] } }
    let off (r : Bool) := on.setCan 0 { on.can 0 with busOff := true, recovering := r }
    (s.canOn 0 = false ∧ on.canOn 0 = true ∧ (on.can 0).busOff = false ∧ canInvalid { f with brs := true } true = true
      ∧ canInvalid f false = false ∧ (rx1 on).canFilter 0 f = none ∧ (rx1 (fil on)).canFilter 0 f = some 0
      ∧ ((rx1 (fil on)).can 0).rx.posted = ((rx1 (fil on)).can 0).rxSeq
      ∧ ((rx1 (post (fil on))).can 0).rx.posted ≠ ((rx1 (post (fil on))).can 0).rxSeq
      ∧ ((rx1 (post (fil on))).canWriteRx 0 f 0).1 = true ∧ ((rx1 (post (fil (base 0#32)))).canWriteRx 0 f 0).1 = false)
    ∧ ((on.can 0).tec < 256 ∧ bitOf (on.canCfg 0) 1 = false ∧ ((on.canFetch 0).can 0).tx.active = []
      ∧ (((tx on).canFetch 0).can 0).tx.active = [⟨0, 0x10000000, 0, none⟩]
      ∧ ((tx on).canFetch 0).canTxInvalid 0 0x10000000 = false ∧ (inv.canFetch 0).canTxInvalid 0 0x10000000 = true
      ∧ bitOf ((((tx on).canFetch 0).canAttempt 0).canCfg 0) 3 = false
      ∧ bitOf (((((tx on).setReg (canPage 0) Reg.can.canConfig 8#32).canFetch 0).canAttempt 0).canCfg 0) 3 = true)
    ∧ ((((tx on).canFetch 0).dmaWrite (0x10000000 + 8) (leBytes 8 0)).1 = true
      ∧ ((((tx on).canFetch 0).dmaWrite (0x10000000 + 8) (leBytes 8 0)).2.dmaWrite (0x10000000 + 0x10)
        (leBytes 4 1 ++ leBytes 4 0x80000000 ++ zeros 8)).1 = true
      ∧ (s.dmaWrite 8 (leBytes 8 0)).1 = false)
    ∧ (((on.setCan 0 { on.can 0 with tec := 256 }).can 0).tec = 256 ∧ ((off false).can 0).busOff = true
      ∧ s.mayWritePage .cluster (canPage 0) Reg.can.canCmd = true ∧ ((off true).can 0).recovering = true
      ∧ ((off false).can 0).recovering = false)
    ∧ (s.mayWritePage .cluster (canPage 0) Reg.can.txPosted = true ∧ s.mayWritePage .cluster (canPage 0) Reg.can.rxPosted = true
      ∧ postOk 1#32 0#32 0#32 (s.field (canPage 0) Reg.can.ringCfg 7 4) = true
      ∧ postOk 0x80000000#32 0#32 0#32 (s.field (canPage 0) Reg.can.ringCfg 3 0) = false)
    ∧ (let t := ((post on).setReg (canPage 0) Reg.can.canIrqTime 1#32).setReg (canPage 0) Reg.can.canIrq 1#32
      let u := t.setCan 0 { t.can 0 with rx := ⟨0#32, [], 1⟩ }
      u.field (canPage 0) Reg.can.canIrqTime 15 0 ≠ 0 ∧ u.field (canPage 0) Reg.can.canIrq 7 0 ≠ 0
        ∧ (u.can 0).rx.unsignalled ≠ 0 ∧ (on.can 0).rx.unsignalled = 0) := by
  decide +kernel

theorem test_meets_OutputsFollowR430AndFindingsReact :
    let s := State.reset
    let lock (c posted : Bool) := s.setSup { s.sup with latch := ⟨true, 9, 0x180, c, 0#32, true⟩, lockPosted := posted }
    let sum (t : State) (v : Word) := t.setReg 0x004 Reg.faultMgr.classSummary v
    (s.sup.live = false ∧ s.review.sup.live = false
      ∧ (((s.setSup { s.sup with startMode := 0 }).setReg 0x180 Reg.supervisor.safeRequest 1#32).review.sup.live = true))
    ∧ ((s.safeOff 4 0x180).sup.safeState.isSome = true ∧ (lock false false).sup.latch.locked = true
      ∧ s.sup.latch.locked = false)
    ∧ (s.sup.released = true ∧ (s.setSup { s.sup with released := false }).sup.released = false ∧ s.sup.pfwSeen = false)
    ∧ ((s.setSup { s.sup with staticOff := 2 }).sup.staticOff = 2 ∧ s.sup.staticOff = 0)
    ∧ (s.simplex = false ∧ s.participants.any (fun k => !(s.cp k).inWfi && !(s.cp k).halted) = true
      ∧ { s with clu := { s.clu with mode := .simplexThree } }.simplex = true)
    ∧ ((bitOf ((sum s 8#32).reg 0x004 Reg.faultMgr.classSummary) 3 && !(bitOf (sum s 8#32).sup.taken 3)) = true
      ∧ (sum s 8#32).classReaction 3 = 2 ∧ s.reg 0x004 Reg.faultMgr.classSummary = 0#32
      ∧ s.red.lockout = false ∧ s.markLockout.red.lockout = true
      ∧ bitOf (s.setSup { s.sup with taken := 0x200#32 }).sup.taken 9 = true)
    ∧ ((lock false false).sup.latch.committed = false ∧ (lock false false).sup.lockPosted = false)
    ∧ s.mayWritePage .cluster 0x180 Reg.supervisor.safeRequest = true := by
  decide +kernel

theorem test_meets_ClaimsAndStackMembershipFollowTheirRules :
    let s := State.reset
    let f (g : Failover → Failover) := (s.setFail (g s.fail)).setReg 0x181 Reg.causeway.cwayConfig 1#32
    let ring (l : List Nat) (m : Fin 8) := f fun x => { x with strapsValid := true, present := l, master := m }
    let hb : Heartbeat := ⟨1, 0#64, 1, true, false, none⟩
    s.mayWritePage .cluster 0x181 Reg.causeway.claimCtrl = true
    ∧ (let c := (f fun x => { x with role := .standby }).setReg 0x181 Reg.causeway.claimCtrl 1#32
      c.mayClaim = true ∧ s.mayClaim = false ∧ c.cwayEn = true
        ∧ (f fun x => { x with role := .claiming }).fail.toggling = false
        ∧ (f fun x => { x with stopping := true, lineOn := true }).sup.live = false)
    ∧ s.fail.everEdge = false
    ∧ (let c := f fun x => { x with toggling := true, hbClaiming := true, role := .active }
      s.contest = false ∧ c.contest = true ∧ (s.setFail { s.fail with unitSide := true }).fail.unitSide = true
        ∧ (s.setFail { s.fail with unitSide := false }).fail.unitSide = false)
    ∧ (let c := f fun x => { x with toggling := true, role := .claiming, withdrawReq := true }
      c.cwayEn = true ∧ c.fail.toggling ≠ c.fail.hbClaiming ∧ c.fail.frozen = false ∧ c.fail.noWithdraw = false
        ∧ s.fail.toggling = s.fail.hbClaiming)
    ∧ ((ring [0] 1).fail.present.contains (ring [0] 1).fail.master.val = false
      ∧ (ring [0] 1).fail.present.head? = some (ring [0] 1).fail.stackId.val ∧ (ring [0] 0).fail.strapsValid = true
      ∧ (ring [0] 0).fail.present.contains (ring [0] 0).fail.master.val = true
      ∧ (f fun x => { x with strapsValid := false }).fail.strapsValid = false)
    ∧ (hb.id ≠ (ring [0, 1] 1).fail.stackId ∧ { hb with id := 0 }.id = (ring [0, 1] 1).fail.stackId
      ∧ (let t := ((((ring [0, 1] 1).bump 0x1c0 1 1).followMaster hb).admitMember 1).hearPeer hb
        t.isMaster = false ∧ hb.id = t.fail.master ∧ t.fail.present.contains 1 = true)
      ∧ (let t := ((((ring [0] 0).bump 0x1c0 1 1).followMaster hb).admitMember 1).hearPeer hb
        t.isMaster = true)
      ∧ (ring [0] 0).fail.present.contains 1 = false ∧ tblRead zeroNat (ring [0] 0).fail.seen 1 + 1 < 3
      ∧ 3 ≤ tblRead zeroNat [(1, 2)] 1 + 1)
    ∧ ((ring [0, 1] 0).fail.present.contains 1 = true ∧ (1 : Fin 8) ≠ (ring [0, 1] 0).fail.stackId
      ∧ (1 ≠ (ring [0, 1] 0).peerId) ∧ ((ring [0, 1] 0).setReg 0x181 Reg.causeway.cwayConfig 0x101#32).peerId = 1)
    ∧ (let c := (f fun x => { x with returning := some 0, present := [0] }).setTime { s.time with ntValid := true }
      c.fail.returning = some c.fail.stackId.val ∧ c.time.ntValid = true ∧ c.fail.present.head? = some c.fail.stackId.val)
    ∧ (s.vaoskadUp 0 = false ∧ (s.setVaoskad 0 true).vaoskadUp 0 = true
      ∧ (f fun x => { x with port0 := true, ringClosed := true }).vaoskadUp 0 = true) := by
  decide +kernel

theorem test_meets_PowerResetAndStartFollowTheirSteps :
    let s := State.reset
    let u (g : Supervisor → Supervisor) := s.setSup (g s.sup)
    ((7#3).getLsbD (2#2).toNat = true ∧ (3#3).getLsbD (2#2).toNat = false ∧ (1#2) ≠ (2#2))
    ∧ (s.sup.vddUp = true ∧ (u fun x => { x with vddUp := false }).sup.vddUp = false)
    ∧ ((u fun x => { x with socReset := true }).sup.socReset = true ∧ s.sup.socReset = false)
    ∧ (let g := u fun x => { x with socReset := true, pgCount := true, pllLocked := true, pfwLow := false, railsIn := 0xff#8 }
      g.sup.vddUp = true ∧ g.sup.pgCount = true ∧ g.sup.railsIn = 0xff#8 ∧ s.sup.pgCount = false)
    ∧ (1000 ≤ (BitVec.ofInt 32 (-3000)).toInt.natAbs ∧ (BitVec.ofInt 32 (-3000)).toInt.natAbs ≤ 5000
      ∧ ¬1000 ≤ (0#32).toInt.natAbs)
    ∧ (let d := u fun x => { x with pfwSeen := true }
      d.sup.released = true ∧ d.sup.pfwSeen = true ∧ d.sup.socReset = false ∧ s.sup.pfwSeen = false)
    ∧ s.mayWritePage .cluster 0x003 Reg.reset.restartCmd = true
    ∧ ((u fun x => { x with pressing := true }).sup.pressing = true ∧ (u fun x => { x with pressing := true }).sup.pressStuck
      = false ∧ (u fun x => { x with pressing := true, pressStuck := true }).sup.pressStuck = true
      ∧ s.sup.pressing = false)
    ∧ (let l (c : Bool) (k : Nat) := u fun x => { x with latch := ⟨true, k, 0x180, c, 0#32, true⟩ }
      s.sup.latch.locked = false ∧ (l false 9).sup.latch.committed = false ∧ (l true 9).sup.latch.cls = 9
        ∧ (l true 7).sup.latch.cls ≠ 9)
    ∧ (s.sup.resetAsked = none ∧ (u fun x => { x with resetAsked := some 1 }).sup.resetAsked = some 1)
    ∧ (s.ps.startDone = false ∧ s.scanEnds.ps.startDone = true ∧ s.scanEnds.selectBoot.1.bootSlot = none) := by
  decide +kernel

theorem test_meets_FaultInjectFollowsWorkshopAccess :
    let s := State.reset
    let o := s.setObs { s.obs with wsOpen := true }
    s.obs.wsOpen = false ∧ o.obs.wsOpen = true ∧ o.mayWritePage (.app 0) 0x19f Reg.workshop.wsClose = true
      ∧ bitOf 1#32 0 = true := by
  decide +kernel

theorem test_meets_CountersSamplersInjectionAndPerturbation :
    let s := State.reset
    let o := s.setObs { s.obs with wsOpen := true, bwValid := true }
    let ctl := samplerReg Reg.sampler.smpCtrl 0
    (s.mayWritePage (.app 0) 0x191 Reg.pmc.pmcSel = true ∧ s.mayWritePage (.app 0) 0x192 Reg.bandwidth.bwWindow = true
      ∧ s.mayWritePage (.app 0) 0x193 ctl = true ∧ s.mayWritePage .cluster 0x010 0x018 = true
      ∧ o.mayWritePage (.app 0) 0x1a0 Reg.perturb.ptCkpt = true)
    ∧ (o.obs.bwValid = true ∧ s.obs.bwValid = false)
    ∧ (bitOf ((s.storeReg 0x193 ctl 0x80000400#32).reg 0x193 ctl) 31 = true ∧ bitOf (s.reg 0x193 ctl) 31 = false)
    ∧ (o.obs.wsOpen = true ∧ fieldOf 0x40000000#32 30 28 = 4 ∧ fieldOf 0x10000000#32 30 28 = 1
      ∧ fieldOf 0x10000000#32 23 16 < injectMemories 0x010 ∧ injectMemories 0x010 ≤ fieldOf 0x10040000#32 23 16
      ∧ fieldOf 0xb0000000#32 30 28 = 3 ∧ bitOf 0xb0000000#32 31 = true ∧ bitOf 0x30000000#32 31 = false)
    ∧ (ptOk Reg.perturb.ptCkpt 0#32 = true ∧ ptOk Reg.perturb.ptCkpt 0x30000000#32 = false
      ∧ (regDesc 0x1a0 Reg.perturb.ptCkpt).isSome = true)
    ∧ (s.cp .a).participant = true := by
  decide +kernel

theorem test_meets_TapAndWorkshopAccessFollowTheUnlockSequence :
    let s := State.reset
    let o := s.setObs { s.obs with wsOpen := true }
    let r := s.setObs { s.obs with testEnPowerUp := true, testEnLow := true, unlockStep := 3 }
    let f := s.setObs { s.obs with unlockStep := 3, unlockFails := 7 }
    (s.obs.wsOpen = false ∧ o.obs.wsOpen = true ∧ s.mayWritePage (.app 0) 0x19f Reg.workshop.wsUnlock = true
      ∧ o.mayWritePage (.app 0) 0x19f Reg.workshop.wsClose = true)
    ∧ (1#32 ≠ s.unlockWord s.obs.unlockStep ∧ s.unlockWord s.obs.unlockStep = 0x5745524b#32 ∧ s.obs.unlockStep < 3)
    ∧ (r.obs.wsOpen = false ∧ 3 ≤ r.obs.unlockStep ∧ r.unlockWord r.obs.unlockStep = 0x4f50454e#32 ∧ r.mayUnlock = true
      ∧ f.mayUnlock = false ∧ f.obs.unlockFails = 7)
    ∧ (o.cp .a).participant = true := by
  decide +kernel

theorem test_meets_MarksComeInOrderAndPortsServeTheirRequests :
    let s := State.reset
    let rec0 : NvRecord := { cls := 2, place := .offset 0x8000, body := [], effect := .journalPort false }
    let j : CpReq := ⟨2, 0, 0, 0, false⟩
    let c : CpReq := ⟨1, 0, 0, 1, false⟩
    let up := s.setPs { s.ps with startDone := true, stopped := false, ports := [c] }
    let full := s.setPs { s.ps with portsMgmt := List.replicate 8 c }
    (s.ps.inFlight = none ∧ (s.setPs { s.ps with inFlight := some (rec0, 1#64) }).ps.inFlight = some (rec0, 1#64)
      ∧ (s.setPs { s.ps with waiting := [rec0] }).ps.waiting = [rec0])
    ∧ (s.mayWritePage (.app 0) 0x161 (cpReg true Reg.commitPorts.cpCmd) = true ∧ (s.portQueue true).length < 8
      ∧ full.mayWritePage (.app 0) 0x161 (cpReg true Reg.commitPorts.cpCmd) = true ∧ 8 ≤ (full.portQueue true).length)
    ∧ (s.portQueue false = [] ∧ up.portQueue false = [c] ∧ up.ps.startDone = true ∧ up.ps.stopped = false ∧ up.cpCode c = 0
      ∧ up.cpCode { c with lines := 0 } = 2 ∧ up.cpCode j = 4 ∧ up.cpCode { c with dst := userLines } = 1
      ∧ up.cpCode { c with src := 0x1ffffc1 } = 3)
    ∧ (let t := { up with mem := { up.mem with sram := [(0, 0x11#8)] } }
       t.cpCode j = 0 ∧ j.submitted = false ∧ eccBad t.mem.sramEcc 16 j.src 64 = false)
    ∧ rec0.effect = .journalPort false := by
  decide +kernel

theorem test_meets_RetentionChargesRefreshesAndScrubs :
    let s := State.reset
    let b (own : Tbl Nat) := s.setPs { s.ps with budgets := { s.ps.budgets with common := 0, own := own } }
    let nt (q : Option (DWord × Nat)) : State :=
      { s with
        time := { s.time with ntValid := true, nt := 1000#64, lt := 0#64 },
        ps := { s.ps with offSource := 0, nv := { s.ps.nv with powerFail := q } } }
    (tblWf (fun _ => s.ps.budgets.common) s.ps.budgets.own = true)
    ∧ ((b [(3, 5)]).ps.budgets.of 3 = 5 ∧ tblWf (fun _ => (b [(3, 5)]).ps.budgets.common) (b [(3, 5)]).ps.budgets.own = true
      ∧ 5 < fullBudget ∧ fullBudget ≤ 5 + fullBudget)
    ∧ (s.ps.offSource = 0 ∧ s.time.ntValid = false ∧ (s.setPs { s.ps with offSource := 1 }).ps.offSource ≠ 0)
    ∧ ((nt none).ps.offSource = 0 ∧ (nt none).time.ntValid = true ∧ (nt (some (1#64, 1))).ps.nv.powerFail = some (1#64, 1)
      ∧ (0 : Int) ≤ (nt none).time.nt.toNat - (1#64).toNat - 4 * (nt none).time.lt.toNat)
    ∧ (s.ps.stopped = false ∧ (s.setPs { s.ps with stopped := true }).ps.stopped = true)
    ∧ ((b []).ps.budgets.of (b []).ps.budgets.highest < 2 ^ 63 ∧ 2 ^ 63 ≤ (b [(3, 2 ^ 63)]).ps.budgets.of (b [(3, 2 ^ 63)]).ps.budgets.highest)
    ∧ (eccUpset s.mem.mramEcc none = [] ∧ eccUpset s.mem.mramEcc (some ⟨7, false⟩) = [(7, 1)]
      ∧ eccUpset s.mem.mramEcc (some ⟨7, true⟩) = [(7, 2)])
    ∧ (s.spareFree (mramDie 0) ≠ 0
      ∧ (s.setNv { s.ps.nv with spareUsed := [(0, 65536)] }).spareFree (mramDie 0) = 0) := by
  decide +kernel

theorem test_meets_WarningHoldsTheEngineAndTheRecorderKeepsEpochs :
    let s := State.reset
    let st := s.setPs { s.ps with stopped := true }
    let iss := s.setPs { s.ps with stopped := true, pfIssued := true }
    let late := s.setNv { s.ps.nv with recorder := { s.ps.nv.recorder with seconds := 3600 } }
    let ex (op : Fin 16) (n dst : Word) : State :=
      s.setOp 0x162 { s.op 0x162 with opcode := op, phase := .running, arg1 := n, arg2 := dst }
    (s.ps.stopped = false ∧ st.ps.stopped = true ∧ s.sup.socReset = false
      ∧ (s.setSup { s.sup with socReset := true }).sup.socReset = true)
    ∧ (iss.ps.stopped = true ∧ iss.ps.pfIssued = true ∧ iss.stepsDone = true)
    ∧ (s.ps.nv.recorder.seconds < 3600 ∧ 3600 ≤ late.ps.nv.recorder.seconds)
    ∧ ((ex 1 1#32 0#32).opActive 0x162 1 = true ∧ (ex 1 0#32 0#32).opActive 0x162 1 = true
      ∧ ((ex 1 1#32 0#32).op 0x162).arg1.toNat = 1 ∧ ((ex 1 1#32 0#32).op 0x162).arg2.toNat % 0x1000 = 0
      ∧ ((ex 1 1#32 0#32).op 0x162).error = 0#32 ∧ (ex 1 1#32 0#32).epochHeld 0 = false
      ∧ 0x2000000 < ((ex 1 1#32 0x2000000#32).op 0x162).arg2.toNat + 0x1000)
    ∧ ((ex 2 0#32 0#32).opActive 0x162 2 = true ∧ ((ex 2 0#32 1#32).op 0x162).arg2.toNat % 0x1000 ≠ 0
      ∧ 0x2000000 < ((ex 2 0#32 0x2000000#32).op 0x162).arg2.toNat + 0x1000)
    ∧ (s.opActive 0x162 1 = false ∧ s.opActive 0x162 2 = false) := by
  decide +kernel

theorem test_meets_TheHuskMovesAsItsTableSays :
    let s := State.reset
    let at_ (op : Fin 16) (h n : Nat) (a0 a1 a2 : Word) : State :=
      (s.setOp 0x170 { s.op 0x170 with opcode := op, phase := .running, arg0 := a0, arg1 := a1, arg2 := a2 }).setPs
        { s.ps with
          stopped := false, steppingOk := true, compatOk := true, commissioning := false, huskReceived := 0,
          nv := { s.ps.nv with
            boot := { s.ps.nv.boot with huskState := h, huskLen := n },
            gen0 := some ⟨1#64, s.ps.nv.boot.activeId, 0#32, 128, 0#32, 0#32, true⟩ } }
    let a (op : Fin 16) (h : Nat) : State := at_ op h 4096 0#32 0#32 0#32
    (s.updateRuns 1 = false ∧ s.updateRuns 2 = false ∧ s.updateRuns 3 = false ∧ s.updateRuns 4 = false
      ∧ s.updateRuns 5 = false ∧ s.updateRuns 6 = false ∧ s.updateRuns 7 = false ∧ s.updateRuns 8 = false)
    ∧ ((a 1 1).updateRuns 1 = true ∧ (a 1 1).huskState ∉ [0, 2, 4, 8] ∧ (a 2 0).updateRuns 2 = true ∧ (a 2 0).huskState ≠ 1
      ∧ (a 3 0).updateRuns 3 = true ∧ (a 3 0).huskState ∉ [1, 2, 4] ∧ (a 4 0).updateRuns 4 = true
      ∧ (a 4 0).huskState ∉ [2, 3] ∧ (a 5 0).updateRuns 5 = true ∧ (a 5 0).huskState ≠ 4 ∧ (a 6 0).updateRuns 6 = true
      ∧ (a 7 0).updateRuns 7 = true ∧ (a 8 0).updateRuns 8 = true ∧ (a 8 0).huskState ≠ 7)
    ∧ ((a 1 0).huskState ∈ [0, 2, 4, 8] ∧ ((a 1 0).op 0x170).arg0.toNat < 4096
      ∧ ((at_ 1 0 0 4096#32 0#32 0#32).op 0x170).arg0.toNat = 4096)
    ∧ ((a 2 1).huskState = 1 ∧ ((at_ 2 1 128 1#32 0#32 64#32).op 0x170).arg0.toNat % 64 ≠ 0
      ∧ eccBad s.mem.sramEcc 16 0 64 = false ∧ 0x2000000 < ((at_ 2 1 128 0x2000000#32 0#32 64#32).op 0x170).arg0.toNat + 64)
    ∧ ((a 4 3).huskState = 3 ∧ (a 4 3).updateRuns 4 = true ∧ (a 4 2).huskState = 2 ∧ (a 3 1).huskState ∈ [1, 2, 4])
    ∧ ((a 5 4).huskState = 4 ∧ (a 5 4).psetConfirmed = true ∧ s.psetConfirmed = false ∧ (a 6 5).huskState = 5)
    ∧ ((a 7 7).huskState = 7 ∧ ((a 7 7).setSup { s.sup with startMode := 0 }).sup.startMode = 0
      ∧ (a 7 7).ps.commissioning = false ∧ (a 7 7).genIsActive = true ∧ s.genIsActive = false)
    ∧ (s.bundleLe s.ps.nv.boot.active 0x018 8 = 0) := by
  decide +kernel

theorem test_meets_GenerationsAreWrittenAndTheCheckValueConfirmed :
    let s := State.reset
    let run (a0 a1 : Word) : State :=
      s.setOp 0x171 { s.op 0x171 with opcode := 1, phase := .running, arg0 := a0, arg1 := a1 }
    let img : List Byte := [1#8, 0#8, 0#8, 0#8, 0x80#8, 0#8, 0#8, 0#8] ++ zeros 120
    let com (pcv : Word) (held : Option Word) : State :=
      s.setPs
        { s.ps with
          commissioning := true, confirmHeld := held,
          nv := { s.ps.nv with gen0 := some ⟨1#64, 1#64, 1#32, 128, pcv, 0#32, false⟩ } }
    (s.opActive 0x171 1 = false ∧ (run 0#32 128#32).opActive 0x171 1 = true ∧ s.ps.stopped = false
      ∧ ((run 1#32 0#32).op 0x171).arg0.toNat % 64 ≠ 0 ∧ 0x2000000 < ((run 0x2000000#32 128#32).op 0x171).arg0.toNat + 128
      ∧ eccBad s.mem.sramEcc 16 0 128 = false)
    ∧ (s.genError img 128 = 0 ∧ s.genError img 64 = 0x100 ∧ s.genError [] 0 ≠ 0)
    ∧ (s.ps.nv.gen1 = none ∧ (com 0#32 none).gen 0 = some ⟨1#64, 1#64, 1#32, 128, 0#32, 0#32, false⟩)
    ∧ (s.ps.inFlight = none ∧ s.ps.waiting = [] ∧ s.ps.nv.boot.workGen ≤ 1 ∧ s.huskState ≠ 7
      ∧ (s.setNv { s.ps.nv with boot := { s.ps.nv.boot with huskState := 7 } }).huskState = 7)
    ∧ (s.mayWritePage (.app 0) 0x172 Reg.commissioning.pcvConfirm = true ∧ s.ps.commissioning = false
      ∧ (com 0#32 none).ps.commissioning = true ∧ ((com 0#32 none).bump 0x172 0 1).genBusy = false
      ∧ ((run 0#32 128#32).bump 0x172 0 1).genBusy = true ∧ s.ps.confirmHeld = none
      ∧ (com 0#32 (some 1#32)).ps.confirmHeld = some 1#32 ∧ (com 0#32 none).genBusy = false)
    ∧ ((com 0#32 none).workGen = some ⟨1#64, 1#64, 1#32, 128, 0#32, 0#32, false⟩
      ∧ (com 0#32 none).reg 0x172 Reg.commissioning.pcvComputed = 0#32
      ∧ (com 1#32 none).workGen = some ⟨1#64, 1#64, 1#32, 128, 1#32, 0#32, false⟩
      ∧ (s.setPs { s.ps with commissioning := true, nv := { s.ps.nv with gen0 := none } }).workGen = none) := by
  decide +kernel

theorem test_meets_BanksAreLoadedAndSwapped :
    let s := State.reset
    let bytes : List Byte := [1, 0, 1, 0, 5, 0, 0, 0, 3, 0, 0, 0, 0, 0, 0, 0, 7, 0, 0, 0]
    let words : List Word := [0x00010001#32, 5#32, 3#32, 0#32, 7#32]
    let crc := (bankOf words).imageCrc
    let at_ (bs : List Byte) (a : Word) (e : Word) : State :=
      { s.setOp 0x108 { s.op 0x108 with opcode := 1, phase := .running, arg0 := a, arg1 := e } with
        mem := { s.mem with sram := memStore s.mem.sram 0 bs } }
    let g := at_ bytes 0#32 crc
    let two : List Byte := [2, 0, 1, 0, 5, 0, 0, 0, 3, 0, 0, 0, 0, 0, 0, 0, 7, 0, 0, 0, 8, 0, 0, 0]
    let safety := (at_ two 0#32 (bankOf [0x00010002#32, 5#32, 3#32, 0#32, 7#32, 8#32]).imageCrc).setReg 0x108 Reg.ch.chConfig
      (setBit (s.chCfg 0) 24 true)
    let pend := s.setCh 0 { s.ch 0 with swapPending := true }
    let good (c : Word) : State := s.setCh 0
      ((s.ch 0).setInact { bankOf words with checked := true, symmetric := true, crc := c })
    let load (t : State) : State := t.setOp 0x108 { t.op 0x108 with opcode := 1, phase := .running }
    (s.opActive 0x108 1 = false ∧ (load pend).opActive 0x108 1 = true ∧ (load pend).op 0x108 = (load s).op 0x108
      ∧ (pend.ch 0).swapPending = true)
    ∧ (g.opActive 0x108 1 = true ∧ (g.ch 0).swapPending = false ∧ (g.ch 0).armed = false
      ∧ (at_ bytes 0x2000000#32 0#32).sramWords 0x2000000 4 = none
      ∧ (at_ bytes 0x1fffff0#32 0#32).sramWords 0x1fffff0 5 = none
      ∧ (s.sramWords 0 4).map (fun w => (bankOf w).ok) = some false)
    ∧ (g.sramWords 0 4 = some (words.take 4) ∧ (bankOf (words.take 4)).ok = true ∧ g.sramWords 0 5 = some words
      ∧ (bankOf words).ok = true ∧ (bankOf words).imageCrc = (g.op 0x108).arg1 ∧ bitOf (g.chCfg 0) 24 = false)
    ∧ ((at_ (bytes.take 19 ++ [1]) 0#32 crc).sramWords 0 5 = some (words.take 4 ++ [0x01000007#32])
      ∧ (bankOf (words.take 4 ++ [0x01000007#32])).ok = false ∧ crc ≠ 0#32)
    ∧ (bitOf (safety.chCfg 0) 24 = true
      ∧ safety.sramWords 0 6 = some [0x00010002#32, 5#32, 3#32, 0#32, 7#32, 8#32]
      ∧ (bankOf [0x00010002#32, 5#32, 3#32, 0#32, 7#32, 8#32]).isSymmetric = false)
    ∧ ((∃ m, s.mayWritePage m 0x108 Reg.ch.bankCmd = true) ∧ (∃ m, s.mayWritePage m 0x108 Reg.ch.bankCmd = false)
      ∧ (s.ch 0).swapPending = false ∧ (s.ch 0).inact.checked = false)
    ∧ (((good crc).ch 0).inact.checked = true ∧ ((load (good crc)).op 0x108).phase = .running
      ∧ ((good crc).ch 0).inact.imageCrc = ((good crc).ch 0).inact.crc
      ∧ ((good 0#32).ch 0).inact.imageCrc ≠ ((good 0#32).ch 0).inact.crc) := by
  refine ⟨?_, ?_, ?_, ?_, ?_, ⟨⟨.cluster, ?_⟩, ⟨.app 0, ?_⟩, ?_⟩, ?_⟩ <;> decide +kernel

theorem test_meets_ChainOutputsDetectorsAndTrackerFollowTheirRules :
    let s := State.reset
    let on (p : Nat) (t : State) : State := t.setPage p { t.page p with run := .on }
    let cfg (v : Word) (t : State) : State := t.setReg 0x108 Reg.ch.chConfig v
    let plain := on 0x108 (cfg 0x02080043#32 s)
    let fir := on 0x108 (cfg 0x02080443#32 s)
    let big := fir.setCh 0 { s.ch 0 with
      bank0 := { (s.ch 0).bank0 with coefs := List.replicate 4 0x007fffff#32 }, fir := List.replicate 3 8388607 }
    let rs (h : ChState → ChState) : State := on 0x108 ((cfg 0x02081043#32 s).setCh 0 (h (s.ch 0)))
    let trk (k : Tracker) : State := on 0x106 ((s.setReg 0x106 Reg.tracker.trkConfig 0x00010100#32).setTrk k)
    let k := s.meas.trk
    (s.chOn 0 = false ∧ plain.chOn 0 = true ∧ plain.firEn 0 = false ∧ plain.bitsPerOutput 0 = (List.replicate 16 true).length
      ∧ fir.chOn 0 = true ∧ fir.firEn 0 = true ∧ plain.rsMode 0 = 0)
    ∧ (let r := (⟨big.ch 0, 0, 0⟩ : ChainRun).decimate (big.orderK 0) (big.decim 0) (big.halfBands 0) (List.replicate 16 true)
       let q := (⟨fir.ch 0, 0, 0⟩ : ChainRun).decimate (fir.orderK 0) (fir.decim 0) (fir.halfBands 0) (List.replicate 16 true)
       big.chOn 0 = true ∧ big.firEn 0 = true ∧ 2 ^ 47 ≤ firSum r.ch.act.coefs ((r.value :: r.ch.fir).take 256)
       ∧ firSum q.ch.act.coefs ((q.value :: q.ch.fir).take 256) = 0)
    ∧ ((rs id).chOn 0 = true ∧ (rs id).rsMode 0 ≠ 0 ∧ ((rs id).ch 0).rsTaken = false
      ∧ ((rs fun h => { h with rsTaken := true }).ch 0).rsTaken = true
      ∧ ((rs fun h => { h with rsTaken := true }).ch 0).rateLimited = false
      ∧ ((rs fun h => { h with rsTaken := true, rateLimited := true }).ch 0).rateLimited = true)
    ∧ ((plain.ch 0).stuck = false ∧ (s.setSup { s.sup with tripLines := 1#8 }).sup.tripLines.getLsbD 0 = true
      ∧ s.sup.tripLines.getLsbD 0 = false)
    ∧ (k.crossing = none ∧ (trk { k with crossing := some 0 }).trkOn = true ∧ (trk k).meas.trk.last = none
      ∧ nearMean 5000000 20000000 = true ∧ nearMean 6000000 20000000 = false ∧ sum4 (List.replicate 4 5000000) = 20000000
      ∧ (∀ q, q ∈ List.replicate 4 (5000000 : Int) → 250000000 ≤ 70 * q ∧ 14 * q ≤ 250000000 ∧ nearMean q 20000000 = true))
    ∧ ((trk { k with locked := true }).trkOn = true ∧ (trk { k with locked := true }).meas.trk.locked = true
      ∧ bitOf (s.pt Reg.perturb.ptMp) 0 = false ∧ bitOf (({ s with obs := { s.obs with wsOpen := true } }.setReg 0x1a0 Reg.perturb.ptMp 1#32).pt Reg.perturb.ptMp) 0 = true)
    ∧ (s.trkOn = false ∧ (∀ m, m < 8 → s.systemMatches m = false)
      ∧ (s.setReg 0x106 (Reg.tracker.sysCfg + 12) 0x80000000#32).systemMatches 1 = true
      ∧ (s.setReg 0x106 (Reg.tracker.sysCfg + 12) 0x80000000#32).systemMatches 0 = false
      ∧ bitOf (s.reg 0x106 Reg.tracker.sysCfg) 30 = false ∧ bitOf 0xc0000000#32 30 = true) := by
  decide +kernel

theorem test_meets_OutputsTakeTheirInputsAndStartsAreChecked :
    let s := State.reset
    let p := outPage 0
    let on (t : State) : State := t.setPage p { t.page p with run := .on }
    let src (v : Word) : State := on (s.setReg p Reg.out.outConfig v)
    let ring := (src 0x400#32).setReg p Reg.out.outPosted 1#32
    let far := ring.setReg p Reg.out.outRingBase 0x2000000#32
    let cs := List.replicate 3 0x007fffff#32
    let wide := (ring.setOut 0 { s.out 0 with coefs := cs, line := List.replicate 3 8388607 }).setReg p Reg.out.outConfig 0x2400#32
    let wide2 := wide.setReg p Reg.out.outConst 0x007fffff#32
    let load (a n c : Word) : State := s.setOp p { s.op p with opcode := 1, phase := .running, arg0 := a, arg1 := n, arg2 := c }
    let bad : State := { load 0#32 1#32 0#32 with mem := { s.mem with sram := memStore s.mem.sram 0 [0, 0, 0, 1] } }
    let st (u : Nat) (t : State) : State := t.setPage (0x108 + u) { t.page (0x108 + u) with run := .starting }
    ((s.page p).run ≠ .on ∧ (on s).page p = { s.page p with run := .on }
      ∧ bitOf ((s.setReg p Reg.out.outConfig 0#32).reg p Reg.out.outConfig) 10 = false
      ∧ bitOf (ring.reg p Reg.out.outConfig) 10 = true ∧ firSum [] [] < 2 ^ 47
      ∧ bitOf (wide2.reg p Reg.out.outConfig) 10 = true ∧ fieldOf (wide2.reg p Reg.out.outConfig) 13 12 = 2
      ∧ 2 ^ 47 ≤ firSum (wide2.out 0).coefs ((6291456 :: (wide2.out 0).line).take 128) ∧ (wide2.page p).run = .on
      ∧ (wide2.outInput 0).1 = 8388607)
    ∧ (fieldOf ((src 0#32).reg p Reg.out.outConfig) 13 12 = 0 ∧ (src 0#32).reg p Reg.out.outSeq = (src 0#32).reg p Reg.out.outPosted
      ∧ ring.reg p Reg.out.outSeq ≠ ring.reg p Reg.out.outPosted ∧ ring.sramWords 0 1 = some [0#32]
      ∧ far.sramWords 0x2000000 1 = none ∧ fieldOf ((src 0x1000#32).reg p Reg.out.outConfig) 13 12 = 1)
    ∧ ((∃ m, s.mayWritePage m p Reg.out.outPosted = true) ∧ (∃ m, s.mayWritePage m p Reg.out.outPosted = false)
      ∧ (2#32 - s.reg p Reg.out.outPosted).toNat ≤ 2 ^ s.field p Reg.out.outRingCfg 4 0
      ∧ ¬((0x80000000#32 - s.reg p Reg.out.outPosted).toNat ≤ 2 ^ s.field p Reg.out.outRingCfg 4 0))
    ∧ (s.opActive p 1 = false ∧ (load 0#32 0#32 0#32).opActive p 1 = true ∧ ((load 0#32 0#32 0#32).page p).run = .off
      ∧ (load 0x2000000#32 1#32 0#32).sramWords 0x2000000 1 = none ∧ bad.sramWords 0 1 = some [0x01000000#32]
      ∧ coefOk 0x01000000#32 = false ∧ (load 0#32 1#32 0#32).sramWords 0 1 = some [0#32] ∧ coefOk 0#32 = true
      ∧ crc32 (wordBytes [0#32]) ≠ 0#32
      ∧ crc32 (wordBytes [0#32]) = ((load 0#32 1#32 (crc32 (wordBytes [0#32]))).op p).arg2)
    ∧ (((st 0 s).page 0x108).run = .starting ∧ (st 0 (s.setReg 0x108 Reg.ch.chConfig 0x02080043#32)).chRefused 0 = false
      ∧ (st 0 (s.setReg 0x108 Reg.ch.chConfig 0x02080443#32)).chRefused 0 = true
      ∧ ((st 32 s).page 0x128).run = .starting ∧ (st 32 s).outRefused 0 = false
      ∧ (st 32 (s.setReg p Reg.out.outConfig 0x1000#32)).outRefused 0 = true) := by
  refine ⟨?_, ?_, ⟨⟨.cluster, ?_⟩, ⟨.app 0, ?_⟩, ?_⟩, ?_, ?_⟩ <;> decide +kernel

theorem test_meets_OutboundReadsPostedWritesAndFencesComplete :
    let s := State.reset
    let m : Master := .app 0
    let on (t : State) : State := t.setPage 0x150 { t.page 0x150 with run := .on }
    let win := on ((s.setReg 0x150 Reg.vme.owinCtrl 0x00000221#32).setReg 0x150 Reg.vme.owinSize 16#32)
    let w := win.outWin 0
    let rd (x : Option (Option DWord)) : VmeRead := ⟨m, 0x40000000#40, 4, 0, x⟩
    let reads (l : List VmeRead) : State := win.setVme { s.vme with reads := l, owned := true }
    let wr : VmeWrite := ⟨1#32, 4, 0, 0, 4, 0x09, 0#32⟩
    let busy (n b : Nat) : State := win.setVme { s.vme with fifo := List.replicate n wr, block := b, syscon := true, owned := true }
    let lock := win.setVme { s.vme with sems := [⟨granuleOf 0x40000000#40, .cluster, .lr, 0⟩] }
    (s.vmeDecode m 0x40000001 4 false = .misaligned ∧ s.vmeDecode m 0x10000000 4 false = .foreign
      ∧ s.vmeDecode m 0x40000000 4 true = .refused ∧ win.vmeDecode m 0x40000000 4 false = .window w
      ∧ win.vmeDecode m 0x40000000 4 true = .window w ∧ win.windowOf 0x40010000 = none ∧ s.vmeOn = false
      ∧ win.windowOf 0x4000ffff = some w ∧ bitOf w.ctrl 0 = true ∧ w.base = 0x40000000 ∧ w.size = 0x10000
      ∧ regionOf 0x40000000 = .vme ∧ regionAllows (columnOf m) .vme true = true)
    ∧ (((reads [rd none]).vme.reads.find? fun r => r.isFor m 0x40000000#40 4) = some (rd none)
      ∧ (win.vme.reads.find? fun r => r.isFor m 0x40000000#40 4) = none
      ∧ ((reads (List.replicate 8 { rd none with size := 2 })).vme.reads.find? fun r => r.isFor m 0x40000000#40 4) = none)
    ∧ ((reads [rd none]).vme.owned = true ∧ s.vme.owned = false
      ∧ ((reads [rd none]).vme.reads.find? fun q => q.isFor m 0x40000000#40 4 && q.ahead == 0 && q.filled.isNone) = some (rd none)
      ∧ (reads [rd none]).windowOf (0x40000000#40).toNat = some w)
    ∧ (lock.lockedBy m 0x40000000#40 = true ∧ win.lockedBy m 0x40000000#40 = false ∧ w.parts 4 = 1 ∧ w.parts 8 = 2
      ∧ ¬((busy 15 0).vme.fifo.length + w.parts 8 ≤ 16) ∧ (busy 15 0).vme.fifo.length + w.parts 4 ≤ 16)
    ∧ ((busy 2 1).vme.block ≠ 0 ∧ (busy 2 1).vme.fifo = [wr, wr] ∧ (busy 2 1).vme.syscon = true ∧ s.vme.syscon = false)
    ∧ (regionAllows (columnOf m) .localPages false = true ∧ regionAllows (columnOf .dma) .localPages false = false
      ∧ tblRead noEcc s.vme.fences (masterKey m) = 0
      ∧ s.vme.fifo.length = 0 ∧ (busy 2 1).vme.fifo.length = 2) := by
  decide +kernel

theorem test_meets_SemaphoresAndInboundCyclesFollowTheirRules :
    let s := State.reset
    let m : Master := .app 0
    let on (t : State) : State := t.setPage 0x150 { t.page 0x150 with run := .on }
    let win := on (((s.setReg 0x150 Reg.vme.owinCtrl 0x00000221#32).setReg 0x150 Reg.vme.owinSize 16#32).setReg 0x150
      Reg.vme.iwinCtrl 0x00000215#32 |>.setReg 0x150 Reg.vme.iwinSize 16#32)
    let w := win.outWin 0
    let a := 0x40000000#40
    let g := granuleOf a
    let sems (l : List Semaphore) : State := win.setVme { win.vme with sems := l }
    let others (n : Nat) : List Semaphore := List.replicate n ⟨g + 1, .cluster, .amo, 0⟩
    let c : InboundCycle := ⟨0x09#6, 0x100#32, 4⟩
    let inb (l : List (Nat × List Byte)) (r : Option Nat) : State := win.setVme { win.vme with inbound := l, rmw := r }
    let entry : Nat × List Byte := (0x100, [1, 2, 3, 4])
    let bad : State := { win with mem := { win.mem with sramEcc := [(16, 2)] } }
    (win.vmeDecode m a.toNat 4 true = .window w ∧ win.vmeDecode m a.toNat 4 false = .window w
      ∧ win.vmeDecode m (a.toNat + 1) 4 true = .misaligned ∧ win.vmeDecode m 0x10000000 4 true = .foreign
      ∧ s.vmeDecode m a.toNat 4 true = .refused)
    ∧ ((4 ≤ w.width ∧ 4 < 8) ∧ ¬(8 ≤ w.width ∧ 8 < 8) ∧ (sems [⟨g, .cluster, .lr, 0⟩]).lockedBy m a = true
      ∧ win.lockedBy m a = false ∧ (sems (others 16)).lockedBy m a = false
      ∧ 16 ≤ ((sems (others 16)).vme.sems.filter fun q => !(q.is g m)).length
      ∧ ((sems [⟨g, m, .amo, 2⟩]).vme.sems.find? fun q => q.is g m && q.kind == .amo) = some ⟨g, m, .amo, 2⟩
      ∧ win.vme.fifo.length = 0)
    ∧ (win.vme.reads.any (fun r => r.isFor m a 4) = false
      ∧ (win.setVme { win.vme with reads := [⟨m, a, 4, 0, none⟩] }).vme.reads.any (fun r => r.isFor m a 4) = true)
    ∧ (win.holdsLr m a = false ∧ (sems [⟨g, m, .lr, 0⟩]).holdsLr m a = true)
    ∧ (s.inDecode c = none ∧ win.inDecode c = some (0x100, false) ∧ c.addr.toNat % c.bytes = 0
      ∧ win.inDecode { c with addr := 0x101#32 } = some (0x101, false) ∧ 0x101 % 4 ≠ 0 ∧ amOf 0x10#6 = none)
    ∧ ((inb [] (some 4)).vme.rmw = some (0x100 / 64) ∧ win.vme.rmw = none ∧ win.vme.inbound.length < 8
      ∧ (inb (List.replicate 8 entry) (some 4)).inDecode c = some (0x100, false)
      ∧ (inb [entry] (some 4)).inboundDrain.vme.inbound ≠ [] ∧ (inb [entry] none).inboundDrain.vme.inbound = []
      ∧ win.inboundDrain.sramRead 0x100 4 = some [0, 0, 0, 0] ∧ bad.inDecode c = some (0x100, false)
      ∧ bad.inboundDrain.sramRead 0x100 4 = none ∧ 16 ≤ (sems (others 16)).inboundDrain.vme.sems.length
      ∧ (sems (others 16)).inDecode c = some (0x100, false)) := by
  decide +kernel

theorem test_meets_TheBusIsArbitratedAndInterruptsForwarded :
    let s := State.reset
    let on (t : State) : State := t.setPage 0x150 { t.page 0x150 with run := .on }
    let wr (a : Nat) : VmeWrite := ⟨1#32, 4, 0, a, 4, 0x09, 0#32⟩
    let v (l : List VmeWrite) (owned : Bool) : State := s.setVme { s.vme with fifo := l, owned := owned }
    let blt (l : List VmeWrite) : State := (v l true).setReg 0x150 Reg.vme.owinCtrl 0x00000227#32
    let sys (b : BitVec 4) : State := s.setVme { s.vme with syscon := true, brOthers := b }
    let fails (n : Nat) : State := s.setVme { s.vme with irqFails := tblWrite noEcc [] 5 n }
    let rwd (t : State) : State := t.setReg 0x150 Reg.vme.vmeCtrl 0#32
    let ror (t : State) : State := t.setReg 0x150 Reg.vme.vmeCtrl 4#32
    (s.vme.wants = false ∧ (v [wr 0] false).vme.wants = true ∧ (v [] true).vme.owned = true)
    ∧ ((v [wr 0] true).vme.owned = true ∧ (v [wr 0] true).vme.block = 0 ∧ (v [wr 0] true).frozen 0x150 = false
      ∧ (v [wr 0] true).runLength [wr 0] = 1 ∧ (blt [wr 0, wr 4, wr 8]).runLength [wr 0, wr 4, wr 8] = 3
      ∧ (blt [wr 252, wr 256]).runLength [wr 252, wr 256] = 1 ∧ bitOf ((v [] true).outWin 0).ctrl 2 = false)
    ∧ ((ror (v [] true)).field 0x150 Reg.vme.vmeCtrl 2 2 = 1 ∧ (rwd (v [] true)).field 0x150 Reg.vme.vmeCtrl 2 2 = 0
      ∧ (v [] true).vme.work = false ∧ (v [wr 0] true).vme.work = true)
    ∧ ((sys 8#4).vme.syscon = true ∧ (sys 8#4).vme.owned = false ∧ (sys 8#4).vme.granted = none ∧ (sys 8#4).vme.wants = false
      ∧ arbitrate ((sys 8#4).field 0x150 Reg.vme.vmeCtrl 3 3 == 1) (sys 8#4).vme.lastLevel 8#4 = some 3
      ∧ s.vme.syscon = false ∧ s.vme.owned = false)
    ∧ (s.working 0x150 = false ∧ (on s).working 0x150 = true ∧ irqFailsOf s 5 < 2 ∧ 2 ≤ irqFailsOf (fails 2) 5)
    ∧ ((∃ m, s.mayWritePage m 0x150 Reg.vme.irqEnable = true) ∧ (∃ m, s.mayWritePage m 0x150 Reg.vme.irqEnable = false)) := by
  refine ⟨?_, ?_, ?_, ?_, ?_, ⟨.cluster, ?_⟩, ⟨.app 0, ?_⟩⟩ <;> decide +kernel

end Sys2Proof.Tests
end

namespace Sys2Proof.Proofs
open Sys2Proof Sys2Proof.Machine Sys2Proof.Laws

/-! ## Refused, misaligned, narrow and unanswered accesses (R7, R32, R48, R488) -/

/-- A core's misaligned access is answered before anything else is looked at (R488). -/
theorem doAccessViolation_of_misaligned {m : Master} {a size : Nat} (write : Bool) (s : State)
    (h : isCore m = true ∧ misaligned a size = true) :
    s.doAccessViolation m a size write = s.answer .misaligned := by
  unfold State.doAccessViolation
  rw [if_pos h]

/-- The bridge's own refusal comes before the map's and the rights'. -/
theorem doAccessViolation_of_bridge_refusal {m : Master} {a size : Nat} {write : Bool} {s : State}
    (ha : ¬(isCore m = true ∧ misaligned a size = true)) (hd : s.vmeDecode m a (max size 1) write = .refused) :
    s.doAccessViolation m a size write = s.vmeRefuse m a := by
  unfold State.doAccessViolation
  rw [if_neg ha, if_pos hd]

theorem doAccessViolation_of_refuses {m : Master} {a size : Nat} {write : Bool} {s : State}
    (ha : ¬(isCore m = true ∧ misaligned a size = true)) (hd : s.vmeDecode m a (max size 1) write ≠ .refused)
    (hr : s.refuses m a write = true) :
    s.doAccessViolation m a size write = s.violation m a := by
  unfold State.doAccessViolation
  rw [if_neg ha, if_neg hd, if_pos hr]

/-- An address of the local page region reaches its own page. -/
theorem pageAt_of_localPages {a : Nat} (s : State) (h : regionOf a = .localPages) :
    s.pageAt a = some (localPage a) := by
  unfold State.pageAt
  rw [h]

theorem doNonAligned_of_narrow {m : Master} {a size : Nat} {write : Bool} {s : State}
    (hl : regionOf a = .localPages) (ha : ¬(isCore m = true ∧ misaligned a size = true))
    (hr : s.refuses m a write = false) (hn : ¬(size = 4 ∧ a % 4 = 0)) :
    s.doNonAligned m a size write = (s.countFault (localPage a)).answer .busError := by
  have hreg : ¬(regionOf a ≠ .localPages ∧ regionOf a ≠ .remotePages) := fun h => h.1 hl
  unfold State.doNonAligned State.pageBusError
  rw [if_neg hreg, if_neg ha, if_neg (Bool.eq_false_iff.mp hr), if_neg hn, pageAt_of_localPages s hl]

theorem doRemoteTimeout_of_other_module {s : State} (m : Master) {stack : Fin 8} (page off : Nat)
    (h : stack ≠ s.fail.stackId) :
    s.doRemoteTimeout m stack.val page off =
      s.violation m (0x1c000000 + stack.val * 0x800000 + page * 0x1000 + off) := by
  unfold State.doRemoteTimeout
  rw [if_neg fun e => h (Fin.ext e)]

/-- Settles O10: each refusal takes its own branch of the access, and a violation's frame is `State.violation_frame`. -/
theorem refusedAccessesTakeNoEffect : Obligations.RefusedAccessesTakeNoEffect := by
  unfold Obligations.RefusedAccessesTakeNoEffect
  refine ⟨?misaligned, ?refused, ?bridge, ?narrow, ?unanswered, ?frame⟩
  case misaligned =>
    intro m addr size write s hc hm
    exact ⟨congrArg Host.Outcome.next (if_pos ⟨hc, hm⟩),
      congrArg Host.Outcome.next (doAccessViolation_of_misaligned write s ⟨hc, hm⟩)⟩
  case refused =>
    intro m addr size write s ha hd hr
    exact congrArg Host.Outcome.next (doAccessViolation_of_refuses (by simpa using ha) hd hr)
  case bridge =>
    intro m addr size write s ha hd
    exact congrArg Host.Outcome.next (doAccessViolation_of_bridge_refusal (by simpa using ha) hd)
  case narrow =>
    intro m addr size write s hl ha hr hn
    exact congrArg Host.Outcome.next (doNonAligned_of_narrow hl (by simpa using ha) hr hn)
  case unanswered =>
    intro m stack page off write s h
    exact congrArg Host.Outcome.next (doRemoteTimeout_of_other_module m page off h)
  case frame => exact fun s m a => ⟨rfl, State.violation_frame s m a⟩

/-! ## Aligned words of local pages: the address, the read and the write (R7, R29) -/

/-- The address of an offset of a local page, as a number. -/
theorem toNat_pageAddr {p off : Nat} (hp : p < 0x800) (ho : off < 0x1000) :
    (pageAddr p off).toNat = 0x18000000 + 0x1000 * p + off := by
  rw [pageAddr, BitVec.toNat_ofNat]
  omega

theorem regionOf_pageAddr {p off : Nat} (hp : p < 0x800) (ho : off < 0x1000) :
    regionOf (0x18000000 + 0x1000 * p + off) = .localPages := by
  simp (disch := omega) only [regionOf, if_pos, if_neg]

theorem pageOffset_pageAddr (p : Nat) {off : Nat} (ho : off < 0x1000) :
    pageOffset (0x18000000 + 0x1000 * p + off) = off := by
  unfold pageOffset
  omega

theorem pageAt_pageAddr {p off : Nat} (s : State) (hp : p < 0x800) (ho : off < 0x1000) :
    s.pageAt (0x18000000 + 0x1000 * p + off) = some p := by
  have hpage : localPage (0x18000000 + 0x1000 * p + off) = p := by unfold localPage; omega
  rw [pageAt_of_localPages s (regionOf_pageAddr hp ho), hpage]

theorem loWord_zeroExtend (v : Word) : loWord (v.zeroExtend 64) = v := by
  simp [loWord]

section
variable {p off : Nat} (s : State) (m : Master) (hp : p < 0x800) (ho : off < 0x1000) (h4 : off % 4 = 0)
include hp ho h4

/-- An aligned word of a page is neither misaligned (R488) nor narrow (R7): its write is refused, or is the page's own. -/
theorem busWrite_pageAddr (v : DWord) :
    s.busWrite m (pageAddr p off) 4 v =
      if s.refuses m (0x18000000 + 0x1000 * p + off) true = true then s.violation m (0x18000000 + 0x1000 * p + off)
      else s.pageWrite m p off (loWord v) := by
  have h0 : (0x18000000 + 0x1000 * p + off) % 4 = 0 := by omega
  simp [State.busWrite, State.pageStore, misaligned, h0, toNat_pageAddr hp ho, regionOf_pageAddr hp ho,
    pageAt_pageAddr s hp ho, pageOffset_pageAddr p ho]

theorem busRead_pageAddr (ext : DWord) :
    s.busRead m (pageAddr p off) 4 ext =
      if s.refuses m (0x18000000 + 0x1000 * p + off) false = true then s.violation m (0x18000000 + 0x1000 * p + off)
      else s.pageRead m p off := by
  have h0 : (0x18000000 + 0x1000 * p + off) % 4 = 0 := by omega
  simp [State.busRead, State.pageLoad, misaligned, h0, toNat_pageAddr hp ho, regionOf_pageAddr hp ho,
    pageAt_pageAddr s hp ho, pageOffset_pageAddr p ho]

end

/-! ## Writes that do no more than store their fields (R8, R9) -/

/-- The units whose block-specific registers have no write of their own. -/
def plainKinds : List UnitKind :=
  [.root, .ident, .clock, .faultMgr, .copy, .cmp, .cle, .engine, .cleImage, .stations, .switch, .prp, .queues,
    .meas, .outputs, .time, .axles, .pstate, .recorder, .update, .settings, .stackLink, .observe]

theorem unitWrite_of_plain {p : Nat} {k : UnitKind} {i : Nat} (s : State) (m : Master) (off : Nat) (v : Word)
    (hu : pageUnit p = some (k, i)) (hk : k ∈ plainKinds) : s.unitWrite m p off v = s.storeReg p off v := by
  unfold State.unitWrite
  rw [hu]
  simp only [plainKinds, List.mem_cons, List.not_mem_nil, or_false] at hk
  rcases hk with rfl | rfl | rfl | rfl | rfl | rfl | rfl | rfl | rfl | rfl | rfl | rfl | rfl | rfl | rfl | rfl | rfl | rfl |
    rfl | rfl | rfl | rfl | rfl <;> rfl

theorem storeReg_of_row {p off : Nat} {d : RegDesc} (s : State) (v : Word) (hd : regDesc p off = some d) :
    s.storeReg p off v = s.setReg p off (d.written (s.locked p) (s.reg p off) v) := by
  unfold State.storeReg
  rw [hd]

theorem pageWrite_of_plain {p off : Nat} {k : UnitKind} {i : Nat} {d : RegDesc} (s : State) (m : Master) (v : Word)
    (ho : 0x100 ≤ off) (hu : pageUnit p = some (k, i)) (hk : k ∈ plainKinds) (hd : regDesc p off = some d) :
    s.pageWrite m p off v = (s.setReg p off (d.written (s.locked p) (s.reg p off) v)).answer .none := by
  unfold State.pageWrite
  rw [if_neg (by omega), unitWrite_of_plain s m off v hu hk, storeReg_of_row s v hd]

/-! ## Reads of the low words (R18, R38, R100) -/

/-- A unit with no listed _LO register has none above its event counters. -/
theorem isLo_of_loRegs_nil {p off : Nat} {k : UnitKind} {i : Nat} (hu : pageUnit p = some (k, i)) (hk : loRegs k = [])
    (ho : 0x100 ≤ off) : isLo p off = false := by
  have : ¬(0x080 ≤ off ∧ off < 0x100) := by omega
  simp [isLo, hu, hk, this]

/-- No register whose read has a meaning of its own is a _LO register, so a _LO read is the snapshot read. -/
theorem pageRead_of_isLo {p off : Nat} (s : State) (m : Master) (hlo : isLo p off = true) :
    s.pageRead m p off = s.readLo m p off := by
  have hclaim : ¬(p = 0x010 ∧ off = Reg.cluster.msgClaim) := by
    rintro ⟨rfl, rfl⟩
    exact absurd hlo (by decide)
  have hfence : ¬(p = vmePage ∧ off = Reg.vme.bridgeFence) := by
    rintro ⟨rfl, rfl⟩
    exact absurd hlo (by decide)
  have hledger : ¬(p = 0x005 ∧
      (off = Reg.workLedger.ledgerSnapSeq ∨ (Reg.workLedger.ledgerImage ≤ off ∧ off < 0x400))) := by
    rintro ⟨rfl, h⟩
    have ho : 0x100 ≤ off := by simp only [Reg.workLedger.ledgerSnapSeq, Reg.workLedger.ledgerImage] at h; omega
    exact absurd hlo (Bool.eq_false_iff.mp (isLo_of_loRegs_nil (p := 0x005) (k := .workLedger) (i := 0) rfl rfl ho))
  have hrail : ¬(p = 0x180 ∧ Reg.supervisor.railMv ≤ off ∧ off < Reg.supervisor.railMv + 0x20) := by
    rintro ⟨rfl, h⟩
    have ho : 0x100 ≤ off := Nat.le_trans (by decide) h.1
    exact absurd hlo (Bool.eq_false_iff.mp (isLo_of_loRegs_nil (p := 0x180) (k := .supervisor) (i := 0) rfl rfl ho))
  unfold State.pageRead
  rw [if_neg hclaim, if_neg hfence, if_neg hledger, if_neg hrail, if_pos hlo]

/-- The low word of every event counter is a _LO register (R38). -/
theorem isLo_counter (p : Nat) (n : Fin 16) : isLo p (0x080 + 8 * n.val) = true := by
  have hr : 0x080 ≤ 0x080 + 8 * n.val ∧ 0x080 + 8 * n.val < 0x100 := by omega
  have h8 : (0x080 + 8 * n.val) % 8 = 0 := by omega
  simp [isLo, hr, h8]

/-- The words at 0x080 to 0x0FC are the halves of the event counters (R34). -/
theorem pageWord_counters (s : State) (p : Nat) {off : Nat} (hl : 0x080 ≤ off) (hh : off < 0x100) :
    s.pageWord p off = if off % 8 = 0 then loWord (s.counter p ((off - 0x080) / 8))
      else hiWord (s.counter p ((off - 0x080) / 8)) := by
  simp (disch := omega) only [State.pageWord, State.commonRead, if_pos, if_neg]

theorem pageWord_counterLo (s : State) (p : Nat) (n : Fin 16) :
    s.pageWord p (0x080 + 8 * n.val) = loWord (s.counter p n.val) := by
  have hn : (0x080 + 8 * n.val - 0x080) / 8 = n.val := by omega
  rw [pageWord_counters s p (by omega) (by omega), if_pos (by omega), hn]

theorem pageWord_counterHi (s : State) (p : Nat) (n : Fin 16) :
    s.pageWord p (0x084 + 8 * n.val) = hiWord (s.counter p n.val) := by
  have hn : (0x084 + 8 * n.val - 0x080) / 8 = n.val := by omega
  rw [pageWord_counters s p (by omega) (by omega), if_neg (by omega), hn]

/-- A _LO read by a master that may read it, from the bus to the page. -/
theorem busRead_of_isLo {p off : Nat} (s : State) (m : Master) (ext : DWord) (hp : p < 0x800) (ho : off < 0x1000)
    (h4 : off % 4 = 0) (hlo : isLo p off = true) (hr : s.refuses m (0x18000000 + 0x1000 * p + off) false = false) :
    s.busRead m (pageAddr p off) 4 ext = s.readLo m p off := by
  rw [busRead_pageAddr s m hp ho h4, if_neg (Bool.eq_false_iff.mp hr), pageRead_of_isLo s m hlo]

theorem readLo_counter (s : State) (m : Master) (p : Nat) (n : Fin 16) :
    s.readLo m p (0x080 + 8 * n.val) =
      { s with
        hiSnap := tblWrite zeroWord s.hiSnap (snapKey m p (0x084 + 8 * n.val)) (hiWord (s.counter p n.val)) }.answer
          (.value ((loWord (s.counter p n.val)).zeroExtend 64)) := by
  have hnext : 0x080 + 8 * n.val + 4 = 0x084 + 8 * n.val := by omega
  rw [State.readLo, hnext, pageWord_counterLo, pageWord_counterHi]

/-- Settles O11: a page access reaches its page's own write or read, which for a plain row is the store of the row's fields
and for a _LO register the snapshot read. -/
theorem registerReadsAndWritesFollowTheirRules : Obligations.RegisterReadsAndWritesFollowTheirRules := by
  unfold Obligations.RegisterReadsAndWritesFollowTheirRules
  refine ⟨?plain, ?refused, ?counter, ?lo⟩
  case plain =>
    intro m p off v s k i d hp hlow ho h4 hu hk hd hr
    refine congrArg Host.Outcome.next ?_
    rw [busWrite_pageAddr s m hp ho h4, if_neg (Bool.eq_false_iff.mp hr), loWord_zeroExtend,
      pageWrite_of_plain s m v hlow hu hk hd]
  case refused =>
    intro m p off v s hp ho h4 hr
    refine congrArg Host.Outcome.next ?_
    rw [busWrite_pageAddr s m hp ho h4, if_pos hr]
  case counter =>
    intro m p n s hp hr
    refine congrArg Host.Outcome.next ?_
    rw [busRead_of_isLo s m _ hp (by omega) (by omega) (isLo_counter p n) hr, readLo_counter]
  case lo =>
    intro m p off s hp _ ho h4 hlo hr
    exact congrArg Host.Outcome.next (busRead_of_isLo s m _ hp ho h4 hlo hr)

end Sys2Proof.Proofs

namespace Sys2Proof.Proofs
open Sys2Proof Sys2Proof.Machine Sys2Proof.Safety Sys2Proof.Laws

/-! ## What every command and every step keeps (R21, R29, R59, R60, R430) -/

/-- The answer is a next state, with the queue as before and the invariants of Safety.lean carried over. -/
def AnswersKept (s : State) (r : Result) : Prop := ∃ t, r = .next t ∧ Kept s t

theorem Kept.answers {s t : State} (h : Kept s t) : AnswersKept s (.next t) := ⟨t, rfl, h⟩

/-- Every command of the table answers a next state with the queue and the invariants kept: the operation that each arm
calls keeps them. -/
theorem exec_answersKept (c : Instr) (s : State) : AnswersKept s (exec c s) := by
  have hK := Kept.refl s
  cases c with
  -- chapters 01 and 02: register pages, run states, long operations, audits, ledger
  | nonAlignedPageAccess => exact Kept.answers (State.doNonAligned_kept _ _ _ _ hK)
  | accessViolation => exact Kept.answers (State.doAccessViolation_kept _ _ _ _ hK)
  | misalignedAccess => exact Kept.answers (Kept.ite (State.answer_kept _ hK) hK)
  | registerWrite => exact Kept.answers (State.busWrite_kept _ _ _ _ hK)
  | eventCtrLoRead | loRegisterRead => exact Kept.answers (State.busRead_kept _ _ _ _ hK)
  | ckMeasUpdate => exact Kept.answers (State.doCkMeas_kept _ hK)
  | pllUnlock => exact Kept.answers (State.doPllUnlock_kept _ hK)
  | faultRecordValid => exact Kept.answers (State.doFaultRecord_kept _ hK)
  | enableWrite => exact Kept.answers (State.written_kept _ _ _ _ (fun _ => State.doEnable_kept _ _) hK)
  | freezeWrite => exact Kept.answers (State.written_kept _ _ _ _ (fun _ => State.doFreeze_kept _ _) hK)
  | localReset => exact Kept.answers (State.written_kept _ _ _ _ (fun _ => State.doLocalReset_kept _) hK)
  | lock => exact Kept.answers (State.written_kept _ _ _ _ (fun _ => State.doLock_kept _) hK)
  | startCompletes => exact Kept.answers (State.doStartCompletes_kept _ hK)
  | drainCompletes => exact Kept.answers (State.doDrainCompletes_kept _ hK)
  | opStart => exact Kept.answers (State.written_kept _ _ _ _ (fun _ => State.doOpStart_kept _ _) hK)
  | opAbort => exact Kept.answers (State.written_kept _ _ _ _ (fun _ => State.opAborted_kept _ _) hK)
  | opSuspend => exact Kept.answers (State.written_kept _ _ _ _ (fun _ => State.doOpSuspend_kept _) hK)
  | opResume => exact Kept.answers (State.written_kept _ _ _ _ (fun _ => State.doOpResume_kept _) hK)
  | opRunBegin => exact Kept.answers (Kept.ite (State.setOp_kept _ _ hK) hK)
  | opItemComplete => exact Kept.answers (State.doItemComplete_kept _ _ _ _ hK)
  | opSelfSuspend | opSelfResume => exact Kept.answers (Kept.ite (State.setOp_kept _ _ hK) hK)
  | auditSnap => exact Kept.answers (State.written_kept _ _ _ _ (fun _ => State.doSnap_kept _) hK)
  | auditCaptureComplete => exact Kept.answers (State.doCaptureComplete_kept _ hK)
  | ledgerSnap => exact Kept.answers (State.written_kept _ _ _ _ (fun _ => State.doLedgerSnap_kept _) hK)
  | remoteAccessTimeout => exact Kept.answers (State.doRemoteTimeout_kept _ _ _ _ hK)
  -- chapter 03: distributor, voter, interrupts, tussocks
  | distributedRead => exact Kept.answers (State.doDistributedRead_kept _ _ _ hK)
  | distributedReadResume => exact Kept.answers (State.doReadResume_kept _ _ hK)
  | loadReserved => exact Kept.answers (State.doDistributedRead_kept _ _ _ hK)
  | storeConditional | amo => exact Kept.answers (State.presentAtomic_kept _ _ hK)
  | wfi => exact Kept.answers (State.doWfi_kept _ hK)
  | votedWritePresent => exact Kept.answers (State.doVotedWritePresent_kept _ _ _ _ hK)
  | votedWritePerformed => exact Kept.answers (State.doWritePerformed_kept _ hK)
  | voteLate => exact Kept.answers (State.doVoteLate_kept _ hK)
  | commitClassRelease => exact Kept.answers (State.doCommitRelease_kept _ hK)
  | voterStallResume => exact Kept.answers (State.doVoterStallResume_kept _ hK)
  | interruptChange => exact Kept.answers (State.irqChange_kept _ hK)
  | messageInterrupt => exact Kept.answers (State.message_kept _ hK)
  | msgClaim => exact Kept.answers (State.doMsgClaim_kept _ hK)
  | instructionRetire => exact Kept.answers (State.doInstructionRetire_kept _ _ hK)
  | tussockReportArrival => exact Kept.answers (State.doTussockReportArrival_kept _ _ _ _ hK)
  | ckptTimeout => exact Kept.answers (State.doCkptTimeout_kept _ hK)
  | ckptGap => exact Kept.answers (State.doCkptGap_kept hK)
  | ckptStall => exact Kept.answers (State.doCkptStall_kept hK)
  | ckptRequest => exact Kept.answers (State.doVotedWritePresent_kept _ _ _ _ hK)
  | forcedTussockRequest => exact Kept.answers (State.forceTussock_kept _ hK)
  | ckptIntervalWrite => exact Kept.answers (State.doCkptIntervalWrite_kept _ _ hK)
  | tcmScrub => exact Kept.answers (State.doTcmScrub_kept _ _ hK)
  | sharedScrub => exact Kept.answers (State.doSharedScrub_kept _ hK)
  | configEchoMismatch => exact Kept.answers (State.doConfigEchoMismatch_kept _ _ _ _ hK)
  -- chapter 04: verdicts, reseeding, retirement, debug replay
  | verdictPair => exact Kept.answers (State.doVerdictPair_kept _ hK)
  | verdictMissing => exact Kept.answers (State.doVerdictMissing_kept _ hK)
  | reseedResetDone => exact Kept.answers (State.doReseedResetDone_kept hK)
  | reseedPassEnd => exact Kept.answers (State.doReseedPassEnd_kept hK)
  | reseedRelease => exact Kept.answers (State.doReseedRelease_kept hK)
  | reseedFailed => exact Kept.answers (State.doReseedFailed_kept _ hK)
  | retirementRecordCommit => exact Kept.answers (State.doRetirementRecordCommit_kept hK)
  | duckboardExpired => exact Kept.answers (State.doDuckboardExpired_kept hK)
  | duckboardGraceEnd => exact Kept.answers (State.doDuckboardGraceEnd_kept hK)
  | comparatorSelftest => exact Kept.answers (State.doComparatorSelftest_kept _ _ hK)
  | coreStart => exact Kept.answers (State.doCoreStart_kept _ _ hK)
  | debugHaltRequest => exact Kept.answers (State.doDebugHaltRequest_kept hK)
  | debugRegisterWrite => exact Kept.answers (State.doDebugRegisterWrite_kept _ _ hK)
  | debugTcmWrite => exact Kept.answers (State.doDebugTcmWrite_kept _ _ _ hK)
  | debugDeviceWrite => exact Kept.answers (State.doDebugDeviceWrite_kept _ _ _ hK)
  | debugDeviceRead => exact Kept.answers (State.debugAction_kept _ (fun _ => State.busRead_kept _ _ _ _) hK)
  | debugStep => exact Kept.answers (State.doDebugStep_kept hK)
  | debugResume => exact Kept.answers (State.debugAction_kept _ (fun _ => State.unhalt_kept) hK)
  | reseedReport => exact Kept.answers (State.doReseedReport_kept hK)
  -- chapter 05: Benmi instructions, as the words at PC spell them (SPACE, ADDR, the second word where one follows)
  | benmiNop | ldb | ldbn | andb | andbn | orb | orbn | xorb | xorbn | bra | bro | brc | stb | stbn | setb | clrb
  | edgr | edgf | ton | tof | tp | ctu | ctd | ldw | stw | movw | benmiAdd | benmiSub | benmiMul | ceq | cne | cgt
  | cge | clt | cle | benmiShl | benmiShr | benmiSar | jmp | jbt | jbf | benmiCall | benmiRet | dch =>
    exact Kept.answers (State.runInsn_kept _ _ _ _ _ hK)
  | benmiEnd => exact Kept.answers (State.doBenmiEnd_kept _ _ hK)
  | externalWriteInsertion => exact Kept.answers (State.doInsertion_kept _ hK)
  | viewRead => exact Kept.answers (State.doViewRead_kept _ _ hK)
  | benmiScrub => exact Kept.answers (State.doBenmiScrub_kept _ _ _ hK)
  | engineReseed => exact Kept.answers (State.doEngineReseed_kept hK)
  | engineReseedFailed => exact Kept.answers (State.doEngineReseedFailed_kept _ hK)
  | cleSelftest => exact Kept.answers (State.doCleSelftest_kept _ hK)
  | imageCheck => exact Kept.answers (State.doImageCheck_kept hK)
  -- chapter 06: the scan
  | cyclicTrigger => exact Kept.answers (State.doCyclicTrigger_kept _ hK)
  | inputFreeze => exact Kept.answers (State.doInputFreeze_kept _ hK)
  | executeResume => exact Kept.answers (State.doExecuteResume_kept _ hK)
  | outputStaging => exact Kept.answers (State.doOutputStaging_kept _ hK)
  | outputRelease => exact Kept.answers (State.doOutputRelease_kept _ hK)
  | outputWriteOut => exact Kept.answers (State.doOutputWriteOut_kept _ hK)
  | housekeeping => exact Kept.answers (State.doHousekeeping_kept _ hK)
  | overrun => exact Kept.answers (State.doOverrun_kept _ hK)
  | startWarm | startCold | stop | exchange => exact Kept.answers (State.progCommandBy_kept _ _ _ hK)
  | pairTick => exact Kept.answers (State.doPairTick_kept hK)
  -- chapter 07: the timebase
  | syncMessage =>
    exact Kept.answers (Kept.ite (State.ntMeasure_kept _ _ (State.asSync_kept _ hK)) (State.asSync_kept _ hK))
  | ntHoldover => exact Kept.answers (State.doNtHoldover_kept hK)
  | ntLost => exact Kept.answers (State.doNtLost_kept hK)
  | mpUpdate => exact Kept.answers (State.doMpUpdate_kept _ hK)
  | mpHoldover => exact Kept.answers (State.enterMpHoldover_kept hK)
  | mpHoldoverClear => exact Kept.answers (State.doMpHoldoverClear_kept hK)
  | tachoEdge => exact Kept.answers (State.doTachoEdge_kept _ _ _ hK)
  | speedUpdate => exact Kept.answers (State.doSpeedUpdate_kept hK)
  | slotCtrlWrite => exact Kept.answers (State.doSlotCtrlWrite_kept _ _ _ hK)
  | slotFire => exact Kept.answers (State.doSlotFire_kept _ hK)
  | slotNone => exact Kept.answers (State.takeAction_kept _ _ _ (fun _ _ => id) hK)
  | cleTrigger => exact Kept.answers (State.takeAction_kept _ _ _ (fun _ _ => State.cleTriggerTo_kept _) hK)
  | measSnapshot => exact Kept.answers (State.takeAction_kept _ _ _ (fun _ _ h =>
      State.bump_kept _ _ _ (State.satReg_kept _ _ _ (h.foldl fun _ _ => State.snapChannel_kept _))) hK)
  | commitInstant => exact Kept.answers (State.takeAction_kept _ _ _ (fun _ _ => State.commitInstantOf_kept _) hK)
  | forcedCheckpoint => exact Kept.answers (State.takeAction_kept _ _ _ (fun _ _ => State.forceTussock_kept _) hK)
  | gateSwap =>
    exact Kept.answers (State.takeAction_kept _ _ _ (fun _ _ h =>
      h.foldl fun _ _ k => Kept.ite (State.gateSwap_kept _ k) k) hK)
  | coreInterrupt => exact Kept.answers (State.takeAction_kept _ _ _ (fun _ _ => State.messageTo_kept _ _) hK)
  | bankSwap =>
    exact Kept.answers (State.takeAction_kept _ _ _ (fun _ _ h => h.foldl fun _ _ => State.swapRequest_kept _) hK)
  | stackSync => exact Kept.answers (State.takeAction_kept _ _ _ (fun _ _ => State.syncRequest_kept) hK)
  | syncCmd => exact Kept.answers (State.doSyncCmd_kept _ _ hK)
  | syncInEdge => exact Kept.answers (State.syncRequest_kept hK)
  | syncTargetReceived => exact Kept.answers (State.syncTargetIs_kept _ _ hK)
  | syncApply => exact Kept.answers (State.doSyncApply_kept hK)
  | measSync => exact Kept.answers (State.doMeasSync_kept hK)
  -- chapter 08: the switch
  | frameReceive => exact Kept.answers (State.doFrameReceive_kept _ _ _ hK)
  | frameTransmit => exact Kept.answers (State.doFrameTransmit_kept _ hK)
  | txAgeLimit => exact Kept.answers (State.doTxAgeLimit_kept _ _ hK)
  | gateCycleStart => exact Kept.answers (State.doGateCycleStart_kept _ hK)
  | gateEntryChange => exact Kept.answers (State.doGateEntryChange_kept _ hK)
  | fdbAgeOut => exact Kept.answers (State.doFdbAgeOut_kept _ _ hK)
  | linkLost => exact Kept.answers (State.doLinkLost_kept _ hK)
  | gptpSyncSend => exact Kept.answers (State.doGptpSyncSend_kept hK)
  | peerDelayExchange => exact Kept.answers (State.doPeerDelay_kept _ _ hK)
  | cbReset | nodeForget => exact Kept.answers (State.setNet_kept _ hK)
  | lifeCheck => exact Kept.answers (State.doLifeCheck_kept hK)
  | fdbLookup => exact Kept.answers (State.written_kept _ _ _ _ (fun _ => State.fdbLookup_kept) hK)
  | fdbAdd => exact Kept.answers (State.written_kept _ _ _ _ (fun _ => State.fdbAdd_kept) hK)
  | fdbDelete => exact Kept.answers (State.written_kept _ _ _ _ (fun _ => State.fdbDelete_kept) hK)
  | vlanRead => exact Kept.answers (State.written_kept _ _ _ _ (fun _ => State.vlanRead_kept) hK)
  | vlanWrite => exact Kept.answers (State.written_kept _ _ _ _ (fun _ => State.vlanWrite_kept) hK)
  | streamRead => exact Kept.answers (State.written_kept _ _ _ _ (fun _ => State.streamRead_kept) hK)
  | streamWrite => exact Kept.answers (State.written_kept _ _ _ _ (fun _ => State.streamWrite_kept) hK)
  | meterRead => exact Kept.answers (State.written_kept _ _ _ _ (fun _ => State.meterRead_kept) hK)
  | meterWrite => exact Kept.answers (State.written_kept _ _ _ _ (fun _ => State.meterWrite_kept) hK)
  | entryRead => exact Kept.answers (State.written_kept _ _ _ _ (fun _ => State.entryRead_kept _) hK)
  | entryWrite => exact Kept.answers (State.written_kept _ _ _ _ (fun _ => State.entryWrite_kept _) hK)
  | qPostedWrite => exact Kept.answers (State.written_kept _ _ _ _ (fun _ => State.postQueue_kept _ _) hK)
  | descriptorFetch => exact Kept.answers (State.doDescriptorFetch_kept _ hK)
  | descriptorWriteBack => exact Kept.answers (State.doWriteBack_kept _ hK)
  | queueIrqTimer => exact Kept.answers (State.doQueueIrqTimer_kept _ hK)
  | heldDeliveryWrite => exact Kept.answers (State.doHeldDelivery_kept _ hK)
  | trdpTimeout => exact Kept.answers (State.doTrdpTimeout_kept _ hK)
  -- chapter 09: safe data, MVB, CAN FD
  | twinWindow => exact Kept.answers (State.doTwinWindow_kept _ hK)
  | twinLingerEnd => exact Kept.answers (State.doTwinLingerEnd_kept _ hK)
  | chanRead => exact Kept.answers (State.written_kept _ _ _ _ (fun _ => State.chanRead_kept) hK)
  | chanWrite => exact Kept.answers (State.written_kept _ _ _ _ (fun _ => State.chanWrite_kept) hK)
  | basicPeriod => exact Kept.answers (State.doBasicPeriod_kept _ hK)
  | mvbReplyTimeout => exact Kept.answers (State.doMvbReplyTimeout_kept _ hK)
  | mvbMasterFrame => exact Kept.answers (State.doMvbMasterFrame_kept _ _ _ hK)
  | mvbSlaveFrame => exact Kept.answers (State.doMvbSlaveFrame_kept _ _ _ hK)
  | portRead => exact Kept.answers (State.written_kept _ _ _ _ (fun _ => State.mvbPortRead_kept _) hK)
  | portWrite => exact Kept.answers (State.written_kept _ _ _ _ (fun _ => State.mvbPortWrite_kept _) hK)
  | pollRead => exact Kept.answers (State.written_kept _ _ _ _ (fun _ => State.mvbPollRead_kept _) hK)
  | pollWrite => exact Kept.answers (State.written_kept _ _ _ _ (fun _ => State.mvbPollWrite_kept _) hK)
  | canFrameReceive => exact Kept.answers (State.doCanReceive_kept _ _ hK)
  | canFrameTransmit => exact Kept.answers (State.doCanTransmit_kept _ _ hK)
  | busOff => exact Kept.answers (State.doBusOff_kept _ hK)
  | canRecover => exact Kept.answers (State.written_kept _ _ _ _ (fun _ => State.canRecover_kept _) hK)
  | busOffRecoveryDone => exact Kept.answers (State.doRecoveryDone_kept _ hK)
  | canPostedWrite => exact Kept.answers (State.written_kept _ _ _ _ (fun _ => State.canPost_kept _ _ _) hK)
  | canIrqTimer => exact Kept.answers (State.doCanIrqTimer_kept _ hK)
  -- chapters 14 and 16: supervisor, causeway, stack
  | vddSupUp => exact Kept.answers (State.doVddUp_kept _ _ _ _ hK)
  | supervisorReset => exact Kept.answers (State.doSupervisorReset_kept _ hK)
  | pllRestart => exact Kept.answers (State.doPllRestart_kept _ hK)
  | powerGood => exact Kept.answers (State.doPowerGood_kept hK)
  | railTrip => exact Kept.answers (State.doRailTrip_kept _ hK)
  | clockTrip | oscTrip => exact Kept.answers (State.clockTripped_kept _ _ hK)
  | railDropAfterWarning => exact Kept.answers (State.doRailDrop_kept _ hK)
  | monitorTest => exact Kept.answers (State.doMonitorTest_kept _ hK)
  | summaryTake => exact Kept.answers (State.doSummaryTake_kept hK)
  | lockoutReportRetry => exact Kept.answers (Kept.ite (State.lockReport_kept hK) hK)
  | safeRequest => exact Kept.answers (State.written_kept _ _ _ _ (fun _ => State.safeRequest_kept _) hK)
  | safeEnSense => exact Kept.answers (State.doSafeEnSense_kept _ _ hK)
  | resetPressStart => exact Kept.answers (State.doPressStart_kept hK)
  | resetPressRelease => exact Kept.answers (State.doPressRelease_kept _ hK)
  | resetStuck => exact Kept.answers (Kept.ite (State.pressIsStuck_kept hK) hK)
  | restartCmd => exact Kept.answers (State.written_kept _ _ _ _ (fun _ => State.restartCmd_kept _) hK)
  | moduleReset => exact Kept.answers (State.doModuleReset_kept hK)
  | noVerdict => exact Kept.answers (State.doNoVerdict_kept hK)
  | claimCtrlWrite => exact Kept.answers (State.written_kept _ _ _ _ (fun _ => State.claimCtrl_kept _) hK)
  | claimStart => exact Kept.answers (State.doClaimStart_kept hK)
  | claimActive => exact Kept.answers (State.doClaimActive_kept hK)
  | peerClaimStopped => exact Kept.answers (State.doPeerStopped_kept hK)
  | claimLineRelease => exact Kept.answers (State.doLineRelease_kept hK)
  | cwayDisagree => exact Kept.answers (State.doCwayDisagree_kept hK)
  | frozenClear => exact Kept.answers (State.doFrozenClear_kept hK)
  | peerNoWithdraw => exact Kept.answers (State.doPeerNoWithdraw_kept hK)
  | heartbeatSend => exact Kept.answers (State.doHeartbeatSend_kept hK)
  | heartbeatReceived => exact Kept.answers (State.doHeartbeatReceived_kept _ hK)
  | memberLost => exact Kept.answers (State.doMemberLost_kept _ hK)
  | mastershipTakeover => exact Kept.answers (State.doTakeover_kept hK)
  | ringOpen => exact Kept.answers (State.doRingOpen_kept _ hK)
  | cwayClaimInEdge => exact Kept.answers (State.doClaimInEdge_kept _ hK)
  | linkUp => exact Kept.answers (State.doLinkUp_kept _ _ hK)
  | portUp => exact Kept.answers (State.doPortUp_kept _ hK)
  | railWindowBeforePowerGood => exact Kept.answers (State.doRailWindow_kept _ _ hK)
  -- chapter 15: counters, windows, sampling, debug port, workshop access, perturbation
  | pmcSelWrite => exact Kept.answers (State.written_kept _ _ _ _ (fun _ => State.doPmcSel_kept _ _) hK)
  | bwWindowEnd => exact Kept.answers (State.doBwWindowEnd_kept hK)
  | bwWindowWrite => exact Kept.answers (State.written_kept _ _ _ _ (fun _ => State.doBwWindow_kept _) hK)
  | smpCtrlWrite => exact Kept.answers (State.written_kept _ _ _ _ (fun _ => State.doSmpCtrl_kept _ _) hK)
  | extest => exact Kept.answers (State.boundaryScan_kept _ (State.tap_kept _ hK))
  | idcode => exact Kept.answers (State.answer_kept _ (State.tap_kept _ hK))
  | samplePreload => exact Kept.answers (State.boundaryScan_kept _ (State.tap_kept _ hK))
  | dtmcs => exact Kept.answers (State.answer_kept _ (State.tap_kept _ hK))
  | dmi => exact Kept.answers (State.doDmi_kept _ _ _ (State.tap_kept _ hK))
  | workshop => exact Kept.answers (State.answer_kept _ (State.unlockWrite_kept _ _ (State.tap_kept _ hK)))
  | bypass => exact Kept.answers (State.bypassScan_kept _ (State.tap_kept _ hK))
  | wsUnlock => exact Kept.answers (State.written_kept _ _ _ _ (fun _ => State.unlockWrite_kept _ _) hK)
  | unlockGap => exact Kept.answers (Kept.ite hK (State.unlockFailed_kept hK))
  | wsClose => exact Kept.answers (State.written_kept _ _ _ _ (fun _ h => Kept.ite (State.workshopCloses_kept h) h) hK)
  | testEnHigh => exact Kept.answers (State.workshopCloses_kept (State.setObs_same _ hK rfl))
  | faultInjectWrite => exact Kept.answers (State.written_kept _ _ _ _ (fun _ => State.doInject_kept _ _) hK)
  | ptCkpt | ptSig | ptVote | ptEgress | ptDrop | ptDtack | ptMp | ptCle | ptMem =>
    exact Kept.answers (State.ptWrite_kept _ _ _ hK)
  | ptDelayedReportRelease => exact Kept.answers (State.doReportRelease_kept _ hK)
  -- chapter 12: the persistent-state engine, retention, the recorder
  | startDone => exact Kept.answers (State.doStartDone_kept hK)
  | recordMark => exact Kept.answers (State.doRecordMark_kept hK)
  | commit | journal => exact Kept.answers (State.written_kept _ _ _ _ (fun _ => State.cpCommand_kept _ _) hK)
  | commitRequestDone => exact Kept.answers (State.doCommitRequestDone_kept _ hK)
  | retentionCharge => exact Kept.answers (State.setBudgets_kept _ hK)
  | offTimeCharge => exact Kept.answers (State.doOffTimeCharge_kept hK)
  | offWait => exact Kept.answers (Kept.ite (State.assumeOff_kept hK) hK)
  | retentionTableCommit => exact Kept.answers (Kept.ite hK (State.commitTable_kept hK))
  | refresh => exact Kept.answers (State.doRefresh_kept hK)
  | mramScrub => exact Kept.answers (State.doMramScrub_kept _ _ hK)
  | powerFailRecordPeriodic => exact Kept.answers (Kept.ite hK (State.commitPowerFail_kept _ hK))
  | powerFailWarning => exact Kept.answers (State.doPowerFailWarning_kept hK)
  | pfDone => exact Kept.answers (Kept.ite (State.setPs_kept _ hK) hK)
  | pfwRelease => exact Kept.answers (State.doPfwRelease_kept hK)
  | recorderSecond => exact Kept.answers (State.doRecorderSecond_kept _ _ hK)
  | epochClose => exact Kept.answers (State.doEpochClose_kept hK)
  | runningRecord => exact Kept.answers (Kept.ite hK (State.commitRunning_kept hK))
  | exportEpochs => exact Kept.answers (State.doExport_kept hK)
  | exportLifetime => exact Kept.answers (State.doExportLifetime_kept hK)
  -- chapter 13: bundles, update, settings, commissioning
  | beginHusk => exact Kept.answers (State.doBegin_kept hK)
  | huskWrite => exact Kept.answers (State.doHuskWrite_kept hK)
  | abandon => exact Kept.answers (State.doAbandon_kept hK)
  | verify => exact Kept.answers (State.doVerify_kept hK)
  | verifyDone => exact Kept.answers (State.doVerifyDone_kept hK)
  | arm => exact Kept.answers (State.doArm_kept hK)
  | disarm => exact Kept.answers (State.doDisarm_kept hK)
  | confirm => exact Kept.answers (State.doConfirm_kept hK)
  | fallback => exact Kept.answers (State.doFallback_kept hK)
  | writeGen => exact Kept.answers (State.doWriteGen_kept hK)
  | pcvConfirm => exact Kept.answers (State.written_kept _ _ _ _ (fun _ => State.doPcvConfirm_kept _) hK)
  | pcvConfirmDeferred => exact Kept.answers (State.doPcvDeferred_kept hK)
  -- chapter 10: the measurement chain
  | modStuck => exact Kept.answers (State.doModStuck_kept _ hK)
  | modStuckClear => exact Kept.answers (State.setCh_kept _ _ hK)
  | chainOutput => exact Kept.answers (State.doChainOutput_kept _ _ hK)
  | resamplerOutput => exact Kept.answers (State.doResampler_kept _ _ hK)
  | bankLoad => exact Kept.answers (State.doBankLoad_kept _ hK)
  | swap => exact Kept.answers (chCommand_kept _ _ _ (fun _ => State.swapRequest_kept _) hK)
  | swapOnSync | cancel => exact Kept.answers (chCommand_kept _ _ _ (fun _ => State.armSwap_kept _ _) hK)
  | bankSwapApply => exact Kept.answers (State.doBankSwapApply_kept _ hK)
  | zeroCrossing => exact Kept.answers (State.doZeroCrossing_kept hK)
  | trackerUpdate => exact Kept.answers (State.doTrackerUpdate_kept hK)
  | lockLost => exact Kept.answers (Kept.ite (State.loseLock_kept hK) hK)
  | detectionWindow => exact Kept.answers (State.doDetectionWindow_kept hK)
  | outputInputSample => exact Kept.answers (State.doOutputSample_kept _ hK)
  | outPostedWrite => exact Kept.answers (State.written_kept _ _ _ _ (fun _ => State.postOut_kept _ _) hK)
  | coefLoad => exact Kept.answers (State.doCoefLoad_kept _ hK)
  | channelStartCheck => exact Kept.answers (State.doStartCheck_kept _ hK)
  | measTripLine => exact Kept.answers (State.doMeasTripLine_kept _ hK)
  -- chapters 11 and 16: the VME bridge
  | vmeOutboundRead | vmeReadReissue => exact Kept.answers (State.vmeRead_kept _ _ _ hK)
  | vmeReadFetchDone => exact Kept.answers (State.fetched_kept _ _ _ _ _ hK)
  | vmePostedWrite => exact Kept.answers (State.vmeWrite_kept _ _ _ _ hK)
  | vmeWriteResult => exact Kept.answers (State.writeEnds_kept _ hK)
  | busTimer => exact Kept.answers (Kept.ite (State.cycleTimesOut_kept _ _ hK) hK)
  | masterTimeout => exact Kept.answers (State.cycleTimesOut_kept _ _ hK)
  | bridgeFence => exact Kept.answers (State.doFence_kept _ hK)
  | vmeAmo => exact Kept.answers (State.vmeAmo_kept _ _ _ _ hK)
  | vmeLr => exact Kept.answers (State.vmeLr_kept _ _ _ hK)
  | vmeSc => exact Kept.answers (State.vmeSc_kept _ _ _ _ hK)
  | lrSemaphoreTimeout => exact Kept.answers (State.doLrTimeout_kept _ hK)
  | vmeInboundWrite => exact Kept.answers (State.doInboundWrite_kept _ _ hK)
  | vmeInboundRead => exact Kept.answers (State.doInboundRead_kept _ hK)
  | vmeInboundRmw => exact Kept.answers (State.doInboundRmw_kept _ _ hK)
  | lockBroken => exact Kept.answers (State.breakLock_kept hK)
  | irqPoll => exact Kept.answers (State.doIrqPoll_kept _ _ hK)
  | irqEnableWrite => exact Kept.answers (State.written_kept _ _ _ _ (fun _ => State.doIrqEnable_kept _) hK)
  | vmeBusGrant => exact Kept.answers (State.doBusGrant_kept hK)
  | vmeBusRequest => exact Kept.answers (State.doBusRequest_kept _ hK)
  | vmeDaisyChainInput => exact Kept.answers (State.doDaisyChain_kept _ _ hK)
  -- chapter 02: the stack
  | remotePageRequest => exact Kept.answers (State.doRemoteRequest_kept _ _ _ _ hK)

/-- From the state without its front command to the state that the step answers, the invariants carry over. -/
theorem kept_of_step {s t : State} (h : step s = .next t) : ∃ rest, Kept { s with pending := rest } t := by
  unfold step at h
  split at h
  next =>
    obtain rfl := Host.Outcome.next.inj h
    exact ⟨s.pending, State.idle_kept (Kept.refl s)⟩
  next c rest _ =>
    obtain ⟨u, hu, hk⟩ := exec_answersKept c { s with pending := rest }
    obtain rfl := Host.Outcome.next.inj (hu.symm.trans h)
    exact ⟨rest, hk⟩

/-- Settles O5: the FIFOs do not depend on the queue, and every command and the idle cycle keep their order. -/
theorem stepKeepsReportFifosOrdered : Obligations.StepKeepsReportFifosOrdered := by
  unfold Obligations.StepKeepsReportFifosOrdered
  intro s t hs h
  obtain ⟨rest, hk⟩ := kept_of_step h
  exact hk.fifos hs

/-- Settles O6: the memories do not depend on the queue, and every command and the idle cycle keep their form. -/
theorem stepKeepsMemoriesCanonical : Obligations.StepKeepsMemoriesCanonical := by
  unfold Obligations.StepKeepsMemoriesCanonical
  intro s t hs h
  obtain ⟨rest, hk⟩ := kept_of_step h
  exact hk.mem hs

/-- Settles O4: at reset the FIFOs and the memories list nothing, and the outputs are off. -/
theorem resetMeetsTheInvariants : Obligations.ResetMeetsTheInvariants :=
  ⟨rfl, rfl, outputsSafe_off rfl rfl⟩

end Sys2Proof.Proofs

namespace Sys2Proof.Proofs
open Sys2Proof Sys2Proof.Machine Sys2Proof.Laws

/-! ## A posted report (R21, R37, R38, R55, R59, R60) -/

theorem bitOf_setBit_true (w : Word) {n : Nat} (h : n < 32) : bitOf (setBit w n true) n = true := by
  simp [bitOf, setBit, h]

/-- Registers at different offsets are different, whatever their pages. -/
theorem pair_ne_of_offset_ne {p q off o : Nat} (h : o ≠ off) : (q, o) ≠ (p, off) := fun e => h (congrArg Prod.snd e)

/-- A register written leaves every other page and offset as it was. -/
theorem reg_setReg_of_ne {p off q o : Nat} (s : State) (v : Word) (hoff : off < 0x1000) (ho : o < 0x1000)
    (h : (q, o) ≠ (p, off)) : (s.setReg p off v).reg q o = s.reg q o :=
  State.reg_setReg_other s p off q o v fun e => h (Prod.ext_iff.mpr ((regKey_inj hoff ho).mp e))

/-- What posting a report counts before it looks for a FIFO entry: FAULT_COUNT of the origin, the class summary bit, the
event counter of the FIFO. -/
def countReport (s : State) (pl : Plane) (origin cls : Nat) : State :=
  ((s.countFault origin).setReg 0x004 Reg.faultMgr.classSummary
    (setBit (s.reg 0x004 Reg.faultMgr.classSummary) cls true)).bump 0x004 (planeIndex pl) 1

section
variable (s : State) (pl : Plane) (origin cls : Nat)

theorem countReport_faults : (countReport s pl origin cls).faults = s.faults := by simp [countReport]

theorem countReport_time : (countReport s pl origin cls).time = s.time := by simp [countReport]

/-- The event counter is no register: what is read are the two registers written. -/
theorem countReport_reg (q off : Nat) :
    (countReport s pl origin cls).reg q off =
      ((s.setReg origin 0x014 (satField (s.reg origin 0x014) 15 0 1)).setReg 0x004 Reg.faultMgr.classSummary
        (setBit (s.reg 0x004 Reg.faultMgr.classSummary) cls true)).reg q off :=
  State.reg_congr (State.bump_regs _ _ _ _) q off

theorem countReport_reg_faultCount :
    (countReport s pl origin cls).reg origin 0x014 = satField (s.reg origin 0x014) 15 0 1 := by
  have hoff : (0x014 : Nat) ≠ Reg.faultMgr.classSummary := by decide
  rw [countReport_reg, reg_setReg_of_ne _ _ (by decide) (by decide) (pair_ne_of_offset_ne hoff), State.reg_setReg_same]

theorem countReport_reg_classSummary :
    (countReport s pl origin cls).reg 0x004 Reg.faultMgr.classSummary =
      setBit (s.reg 0x004 Reg.faultMgr.classSummary) cls true := by
  rw [countReport_reg, State.reg_setReg_same]

theorem countReport_reg_other {q off : Nat} (ho : off < 0x1000) (hc : (q, off) ≠ (origin, 0x014))
    (hs : (q, off) ≠ (0x004, Reg.faultMgr.classSummary)) :
    (countReport s pl origin cls).reg q off = s.reg q off := by
  rw [countReport_reg, reg_setReg_of_ne _ _ (by decide) ho hs, reg_setReg_of_ne _ _ (by decide) ho hc]

/-- A FIFO with room takes one report, numbered with the next RECORD_SEQ and stamped with LT. -/
theorem post_of_room (reaction : Nat) (detail : List Word) (h : (s.faults.fifo pl).length < 32) :
    ∃ r, s.post pl origin cls reaction detail =
          { countReport s pl origin cls with
            faults := { s.faults.setFifo pl (s.faults.fifo pl ++ [r]) with nextSeq := s.faults.nextSeq + 1 } }
      ∧ r.seq = s.faults.nextSeq ∧ r.origin = origin ∧ r.cls = cls ∧ r.reaction = reaction ∧ r.lt = s.time.lt := by
  have hf := countReport_faults s pl origin cls
  have ht := countReport_time s pl origin cls
  unfold State.post
  extract_lets s1 r
  refine ⟨r, ?_, congrArg FaultMgr.nextSeq hf, rfl, rfl, rfl, congrArg TimeState.lt ht⟩
  rw [← hf] at h ⊢
  exact if_pos h

/-- A full FIFO takes no report: its overflow count goes up. -/
theorem post_of_full (reaction : Nat) (detail : List Word) (h : 32 ≤ (s.faults.fifo pl).length) :
    s.post pl origin cls reaction detail = (countReport s pl origin cls).satReg 0x004 (overflowReg pl) 1 := by
  unfold State.post
  extract_lets s1 r
  rw [← countReport_faults s pl origin cls] at h
  exact if_neg (Nat.not_lt.mpr h)

/-- The overflow counts of R55 lie in page 0x004, apart from FAULT_COUNT and CLASS_SUMMARY. -/
theorem overflowReg_apart : overflowReg pl < 0x1000 ∧ overflowReg pl ≠ 0x014
    ∧ overflowReg pl ≠ Reg.faultMgr.classSummary := by
  cases pl <;> decide

/-- Room or not, a report writes no register but the two counted and the overflow count of its FIFO. -/
theorem post_reg_of_ne_overflow (reaction : Nat) (detail : List Word) {q off : Nat} (ho : off < 0x1000)
    (h : (q, off) ≠ (0x004, overflowReg pl)) :
    (s.post pl origin cls reaction detail).reg q off = (countReport s pl origin cls).reg q off := by
  rcases Nat.lt_or_ge (s.faults.fifo pl).length 32 with hroom | hfull
  · obtain ⟨r, hr, _⟩ := post_of_room s pl origin cls reaction detail hroom
    rw [hr]
    rfl
  · rw [post_of_full s pl origin cls reaction detail hfull, State.satReg,
      reg_setReg_of_ne _ _ (overflowReg_apart pl).1 ho h]

/-- A full FIFO's overflow count goes up from what it was, the FIFOs stay. -/
theorem post_full_counts (reaction : Nat) (detail : List Word) (h : 32 ≤ (s.faults.fifo pl).length) :
    (s.post pl origin cls reaction detail).faults = s.faults
      ∧ (s.post pl origin cls reaction detail).reg 0x004 (overflowReg pl)
          = satWord (s.reg 0x004 (overflowReg pl)) 1 := by
  obtain ⟨hlt, hcount, hsummary⟩ := overflowReg_apart pl
  rw [post_of_full s pl origin cls reaction detail h, State.satReg, State.reg_setReg_same,
    countReport_reg_other s pl origin cls hlt (pair_ne_of_offset_ne hcount) (pair_ne_of_offset_ne hsummary)]
  exact ⟨countReport_faults s pl origin cls, rfl⟩

end

/-- Settles O9: the report is counted first, and then finds room or not. -/
theorem reportEntersItsFifo : Obligations.ReportEntersItsFifo := by
  unfold Obligations.ReportEntersItsFifo
  intro s pl p cls reaction detail hcls t
  have hread {q off : Nat} (ho : off < 0x1000) (h : off ≠ overflowReg pl) :
      t.reg q off = (countReport s pl p cls).reg q off :=
    post_reg_of_ne_overflow s pl p cls reaction detail ho (pair_ne_of_offset_ne h)
  obtain ⟨-, hcount, hsummary⟩ := overflowReg_apart pl
  refine ⟨?faultCount, ?summaryBit, ?room, post_full_counts s pl p cls reaction detail, ?frame, ?otherRegs⟩
  case faultCount => rw [hread (by decide) hcount.symm, countReport_reg_faultCount]
  case summaryBit =>
    rw [hread (by decide) hsummary.symm, countReport_reg_classSummary]
    exact bitOf_setBit_true _ hcls
  case room =>
    intro hroom
    obtain ⟨r, hr, hfields⟩ := post_of_room s pl p cls reaction detail hroom
    exact ⟨r, congrArg State.faults hr, hfields⟩
  case frame => simp [t]
  case otherRegs =>
    intro q off ho hc hs hov
    rw [post_reg_of_ne_overflow s pl p cls reaction detail ho hov, countReport_reg_other s pl p cls ho hc hs]

end Sys2Proof.Proofs

namespace Sys2Proof.Proofs
open Sys2Proof Sys2Proof.Machine Sys2Proof.Laws

/-! ## The remote-page slot of the module's own STACK_ID (R29, R30, R31) -/

/-- R31 gives the remote pages to the same masters as the local pages, but for the link of the stack. -/
theorem regionAllows_remotePages {c : Column} (h : c ≠ .link) (write : Bool) :
    regionAllows c .remotePages write = regionAllows c .localPages write := by
  cases c with
  | link => exact absurd rfl h
  | copies | cores | engines | dma | vmeIn | pse => rfl

section
variable {a : BitVec 40} (h : regionOf a.toNat = .localPages ∨ regionOf a.toNat = .remotePages)
include h

/-- A read of a page region: misaligned, refused, or the page's own. -/
theorem busRead_of_pageRegion (s : State) (m : Master) (size : Nat) (ext : DWord) :
    s.busRead m a size ext =
      if isCore m = true ∧ misaligned a.toNat size = true then s.answer .misaligned
      else if s.refuses m a.toNat false = true then s.violation m a.toNat
      else s.pageLoad m a.toNat size ext := by
  rcases h with h | h <;> simp [State.busRead, h]

theorem busWrite_of_pageRegion (s : State) (m : Master) (size : Nat) (v : DWord) :
    s.busWrite m a size v =
      if isCore m = true ∧ misaligned a.toNat size = true then s.answer .misaligned
      else if s.refuses m a.toNat true = true then s.violation m a.toNat
      else s.pageStore m a.toNat size v := by
  rcases h with h | h <;> simp [State.busWrite, h]

end

/-- Address `a` reaches through the own remote slot the page and the offset that `b` reaches as a local page. -/
structure OwnSlotOf (s : State) (a b : Nat) : Prop where
  remote : regionOf a = .remotePages
  isLocal : regionOf b = .localPages
  stack : remoteStack a = s.fail.stackId.val
  page : remotePageNo a = localPage b
  offset : pageOffset a = pageOffset b

namespace OwnSlotOf
variable {s : State} {a b : Nat} (h : OwnSlotOf s a b)
include h

/-- Equal offsets have equal alignment to every size that divides a page. -/
theorem mod_eq {n : Nat} (hn : n ∣ 0x1000) : a % n = b % n := by
  rw [← Nat.mod_mod_of_dvd a hn, ← Nat.mod_mod_of_dvd b hn]
  exact congrArg (· % n) h.offset

theorem pageAt_eq : s.pageAt a = s.pageAt b := by
  simp only [State.pageAt, h.remote, h.isLocal, h.stack, h.page, if_true]

theorem refuses_eq {m : Master} (hm : columnOf m ≠ .link) (write : Bool) : s.refuses m a write = s.refuses m b write := by
  simp only [State.refuses, h.remote, h.isLocal, h.stack, h.page, h.offset, regionAllows_remotePages hm, if_true]

theorem countAddressed_eq : s.countAddressed a = s.countAddressed b := by
  simp only [State.countAddressed, h.remote, h.isLocal, h.stack, h.page, true_and]

theorem violation_eq (m : Master) : s.violation m a = s.violation m b := by
  simp only [State.violation, h.countAddressed_eq]

theorem pageBusError_eq : s.pageBusError a = s.pageBusError b := by
  simp only [State.pageBusError, h.pageAt_eq]

theorem pageLoad_eq (m : Master) (size : Nat) (ext : DWord) : s.pageLoad m a size ext = s.pageLoad m b size ext := by
  simp only [State.pageLoad, h.mod_eq (n := 4) (by decide), h.pageAt_eq, h.offset, h.pageBusError_eq]

theorem pageStore_eq (m : Master) (size : Nat) (v : DWord) : s.pageStore m a size v = s.pageStore m b size v := by
  simp only [State.pageStore, h.mod_eq (n := 4) (by decide), h.pageAt_eq, h.offset, h.pageBusError_eq]

theorem misaligned_eq {size : Nat} (hsize : size ∣ 0x1000) : misaligned a size = misaligned b size := by
  simp only [misaligned, h.mod_eq hsize]

end OwnSlotOf

theorem regionOf_of_remotePages {a : Nat} (hl : 0x1c000000 ≤ a) (hh : a < 0x20000000) : regionOf a = .remotePages := by
  simp (disch := omega) only [regionOf, if_pos, if_neg]

section
variable (s : State) {p off : Nat} (hp : p < 0x800) (ho : off < 0x1000)
include hp ho

/-- The address of R30 as a number. -/
theorem toNat_ownSlotAddr :
    (BitVec.ofNat 40 (0x1c000000 + s.fail.stackId.val * 0x800000 + 0x1000 * p + off)).toNat =
      0x1c000000 + s.fail.stackId.val * 0x800000 + 0x1000 * p + off := by
  have := s.fail.stackId.isLt
  rw [BitVec.toNat_ofNat]
  omega

/-- The addresses of R30: 0x1C00_0000 + STACK_ID × 0x80_0000 + page × 0x1000 + offset lies in the own slot of the local
page's address. -/
theorem ownSlotOf_pageAddr :
    OwnSlotOf s (BitVec.ofNat 40 (0x1c000000 + s.fail.stackId.val * 0x800000 + 0x1000 * p + off)).toNat
      (pageAddr p off).toNat := by
  have hid := s.fail.stackId.isLt
  rw [toNat_ownSlotAddr s hp ho, toNat_pageAddr hp ho]
  exact
    { remote := regionOf_of_remotePages (by omega) (by omega)
      isLocal := regionOf_pageAddr hp ho
      stack := by unfold remoteStack; omega
      page := by unfold remotePageNo localPage; omega
      offset := by unfold pageOffset; omega }

end

/-- Settles O16: the own slot's address has the page, the offset, and with them the alignment and the rights of the local
one. -/
theorem ownRemoteSlotIsAnAlias : Obligations.OwnRemoteSlotIsAnAlias := by
  unfold Obligations.OwnRemoteSlotIsAnAlias
  intro m p off size ext v s hm hp ho hsize remote
  have hdvd : size ∣ 0x1000 := by
    simp only [List.mem_cons, List.not_mem_nil, or_false] at hsize
    rcases hsize with rfl | rfl | rfl | rfl <;> decide
  have h : OwnSlotOf s remote.toNat (pageAddr p off).toNat := ownSlotOf_pageAddr s hp ho
  rw [busRead_of_pageRegion (.inr h.remote), busRead_of_pageRegion (.inl h.isLocal), busWrite_of_pageRegion (.inr h.remote),
    busWrite_of_pageRegion (.inl h.isLocal)]
  simp only [h.misaligned_eq hdvd, h.refuses_eq hm, h.violation_eq, h.pageLoad_eq, h.pageStore_eq, and_self]

end Sys2Proof.Proofs

namespace Sys2Proof.Proofs
open Sys2Proof Sys2Proof.Machine Sys2Proof.Laws

/-! ## Straps (R125) -/

theorem agreed_self {α : Type} [DecidableEq α] (v : α) : agreed v v v = some v := if_pos ⟨rfl, rfl⟩

theorem agreed_of_ne {α : Type} [DecidableEq α] {a b c : α} (h : a ≠ b ∨ b ≠ c) : agreed a b c = none :=
  if_neg fun e => h.elim (· e.1) (· e.2)

theorem strapMode_self (v : BitVec 2) (allowed : BitVec 3) :
    strapMode v v v allowed = if allowed.getLsbD v.toNat then modeOf v.toNat else none := by
  simp only [strapMode, agreed_self]

theorem strapMode_of_ne {a b c : BitVec 2} (h : a ≠ b ∨ b ≠ c) (allowed : BitVec 3) : strapMode a b c allowed = none := by
  simp only [strapMode, agreed_of_ne h]

/-! ## VDD_SUP and power good (R24, R28, R424, R433, R436, R472) -/

/-- With every register at its reset value, page 0x003 shows no RESET_INPUT_FAULT. -/
theorem hasCause_resetInput_of_regs_nil {s : State} (h : s.regs = []) : s.hasCause 0x003 0 = false := by
  simp only [State.hasCause, State.causes, State.reg, h]
  decide

theorem hasCause_latch_same (s : State) (p : Nat) {bit : Nat} (h : bit < 32) : (s.latch p bit).hasCause p bit = true := by
  simp only [State.hasCause, State.causes, State.latch, State.reg_setReg_same]
  exact bitOf_setBit_true _ h

/-- CK_SC_OFFSET and CLK_STATUS as written at power good, with the bit that says whether OTP's value was refused. -/
def putOffset (s : State) (w : Word) (refused : Bool) : State :=
  (s.setReg 0x002 Reg.clock.ckScOffset w).setReg 0x002 Reg.clock.clkStatus (setBit 0xff#32 8 refused)

section
variable {s : State}

theorem loadOffset_of_inRange (h : 1000 ≤ s.ps.nv.otp.ckOffset.toInt.natAbs ∧ s.ps.nv.otp.ckOffset.toInt.natAbs ≤ 5000) :
    s.loadOffset = putOffset s s.ps.nv.otp.ckOffset false := by
  simp [State.loadOffset, putOffset, h]

theorem loadOffset_of_outOfRange
    (h : ¬(1000 ≤ s.ps.nv.otp.ckOffset.toInt.natAbs ∧ s.ps.nv.otp.ckOffset.toInt.natAbs ≤ 5000)) :
    s.loadOffset = (putOffset s (BitVec.ofInt 32 (-3000)) true).raise 0x002 1 [] := by
  simp only [State.loadOffset, putOffset, h, decide_false]
  rfl

end

/-! ## Presses of RESET_REQ_N and module reset (R121, R435, R436, R437) -/

section
variable {s : State}

/-- A permitted register write takes its effect and is answered. -/
theorem written_of_mayWrite {m : Master} {p off : Nat} (act : State → State) (h : s.mayWritePage m p off = true) :
    s.written m p off act = (act s).answer .none := by
  simp [State.written, h]

/-- The released input before a press is judged: armed again, not pressing. -/
def releaseInput (s : State) : State := s.setSup { s.sup with pressLevel := true, pressing := false, armed := true }

/-- A recognised press counted, with its length in LAST_PRESS_MS. -/
def recordPress (s : State) (us : Nat) : State :=
  ((releaseInput s).setReg 0x003 Reg.reset.lastPressMs (BitVec.ofNat 32 (min (us / 1000) 0xffffffff))).bump 0x003 0 1

theorem doPressRelease_of_idle (us : Nat) (h : s.sup.pressing = false) : s.doPressRelease us = releaseInput s := by
  simp [State.doPressRelease, releaseInput, h]

theorem doPressRelease_of_stuck (us : Nat) (hp : s.sup.pressing = true) (hs : s.sup.pressStuck = true) :
    s.doPressRelease us = recordPress s us := by
  simp [State.doPressRelease, recordPress, releaseInput, hp, hs]

/-- A press that has not been found stuck acts by its length. -/
theorem doPressRelease_of_pressing (us : Nat) (hp : s.sup.pressing = true) (hs : s.sup.pressStuck = false) :
    s.doPressRelease us =
      if 5000000 < us then
        (recordPress s us).pressIsStuck.setSup { (recordPress s us).pressIsStuck.sup with armed := true }
      else if us < 500000 then
        ((recordPress s us).setReg 0x003 Reg.reset.presses
          (satField ((recordPress s us).reg 0x003 Reg.reset.presses) 31 16 1)).bump 0x003 1 1
      else (recordPress s us).acceptPress := by
  simp [State.doPressRelease, recordPress, releaseInput, hp, hs]

/-- An accepted press counted in PRESSES. -/
def countAccepted (s : State) : State :=
  s.setReg 0x003 Reg.reset.presses (satField (s.reg 0x003 Reg.reset.presses) 15 0 1)

/-- The latch cleared by an accepted press, which asks for the reset. -/
def clearLatch (s : State) : State :=
  (countAccepted s).setSup { s.sup with latch := ⟨false, 0, 0, false, 0#32, true⟩, resetAsked := some 2 }

theorem acceptPress_of_unlocked (h : s.sup.latch.locked = false) :
    s.acceptPress = (countAccepted s).setSup { s.sup with resetAsked := some 2 } := by
  simp [State.acceptPress, countAccepted, h]

theorem acceptPress_of_uncommitted (h : s.sup.latch.locked = true) (hc : s.sup.latch.committed = false) :
    s.acceptPress = (countAccepted s).raise 0x003 2 [] := by
  simp [State.acceptPress, countAccepted, h, hc]

theorem acceptPress_of_committed (h : s.sup.latch.locked = true) (hc : s.sup.latch.committed = true) :
    s.acceptPress = if s.sup.latch.cls = 9 then (clearLatch s).commitRetirement none else clearLatch s := by
  unfold State.acceptPress
  extract_lets s1 l s2
  exact (if_neg (by simp [l, s1, h])).trans (if_pos hc)

theorem doModuleReset_of_idle (h : s.sup.resetAsked = none ∨ s.sup.socReset = true) : s.doModuleReset = s := by
  unfold State.doModuleReset
  split
  next => rfl
  next cause hc => exact if_pos (h.resolve_left (by simp [hc]))

theorem doModuleReset_of_asked {cause : Nat} (ha : s.sup.resetAsked = some cause) (hr : s.sup.socReset = false) :
    s.doModuleReset = (s.setSup { s.sup with live := false, grant := false }).pfWarn.drainEngine.socResets cause := by
  simp [State.doModuleReset, ha, hr]

end

/-- Settles O46, table by table: each command's branch, and what the state it answers holds. -/
theorem powerResetAndStartFollowTheirSteps : Obligations.PowerResetAndStartFollowTheirSteps := by
  unfold Obligations.PowerResetAndStartFollowTheirSteps
  refine ⟨?straps, ?vddUp, ?socResets, ?supervisorReset, ?rails, ?powerGood, ?railDrop, ?restart, ?press, ?accept,
    ?moduleReset, ?startDone⟩
  case straps =>
    intro v a b c allowed
    exact ⟨fun h => (strapMode_self v allowed).trans (if_pos h),
      fun h => (strapMode_self v allowed).trans (if_neg (Bool.eq_false_iff.mp h)),
      fun h => strapMode_of_ne h allowed, rfl, rfl, rfl, rfl⟩
  case vddUp =>
    intro a b c high s mode
    refine ⟨fun h => congrArg Host.Outcome.next (if_pos h), fun h => ?_⟩
    have hup : ¬s.sup.vddUp = true := Bool.eq_false_iff.mp h
    cases high with
    | true =>
      exact ⟨_, congrArg Host.Outcome.next (if_neg hup), rfl, rfl, rfl, rfl, rfl, rfl, rfl, rfl, rfl, rfl, rfl, rfl,
        hasCause_resetInput_of_regs_nil rfl, rfl, rfl, rfl, rfl⟩
    | false =>
      exact ⟨_, congrArg Host.Outcome.next (if_neg hup), rfl, rfl, rfl, rfl, rfl, rfl, rfl, rfl, rfl, rfl, rfl, rfl,
        hasCause_latch_same _ _ (by decide), rfl, rfl, rfl, rfl⟩
  case socResets =>
    intro cause s t
    and_intros <;> rfl
  case supervisorReset =>
    intro cut s
    refine ⟨fun h => congrArg Host.Outcome.next (if_pos ?_),
      fun h => ⟨_, congrArg Host.Outcome.next (if_neg ?_), rfl, rfl, rfl, rfl, rfl, rfl⟩⟩
    · simp [h]
    · simp [h]
  case rails =>
    intro rails high locked s held
    refine ⟨fun h => ⟨congrArg Host.Outcome.next (if_neg ?_), congrArg Host.Outcome.next (if_pos h.symm)⟩,
      fun h => ⟨congrArg Host.Outcome.next (if_pos ?_), congrArg Host.Outcome.next (if_neg fun e => h e.symm)⟩⟩
    · simp only [h.1, h.2, Bool.not_true, Bool.false_eq_true, or_self, not_false_eq_true]
    · simpa only [held, Decidable.not_and_iff_not_or_not, Bool.not_eq_true, Bool.not_eq_true'] using h
  case powerGood =>
    intro s good v put
    refine ⟨fun h => congrArg Host.Outcome.next (if_pos ?_), fun h => congrArg Host.Outcome.next (if_neg ?_),
      loadOffset_of_inRange, loadOffset_of_outOfRange⟩
    · simpa only [good, Bool.not_eq_true'] using h
    · simpa only [good, Bool.not_eq_true'] using h
  case railDrop =>
    intro rail s low
    refine ⟨fun h => congrArg Host.Outcome.next (if_pos ?_),
      fun h => ⟨_, congrArg Host.Outcome.next (if_neg ?_), rfl, rfl, rfl, rfl, rfl, rfl, rfl⟩⟩
    · simpa only [low, Decidable.not_and_iff_not_or_not, Bool.not_eq_true, Bool.not_eq_true', Bool.not_eq_false] using h
    · simpa only [low, not_or, Bool.not_eq_true, Bool.not_eq_true', Bool.not_eq_false] using h
  case restart =>
    intro m v s hm
    refine ⟨fun h => ?_, fun h => ?_⟩ <;>
      refine congrArg Host.Outcome.next ((written_of_mayWrite _ hm).trans (congrArg (State.answer · .none) ?_))
    · exact if_pos h
    · exact if_neg h
  case press =>
    intro us s stuck s0 s1
    refine ⟨rfl, fun hp hs => congrArg Host.Outcome.next (if_pos (by simp [hp, hs])),
      fun h => congrArg Host.Outcome.next (if_neg ?_), fun h => congrArg Host.Outcome.next (doPressRelease_of_idle us h),
      fun hp hs => congrArg Host.Outcome.next (doPressRelease_of_stuck us hp hs), fun hp hs => ⟨?short, ?accepted, ?long⟩⟩
    · rcases h with h | h <;> simp [h]
    case short =>
      intro h
      refine congrArg Host.Outcome.next ((doPressRelease_of_pressing us hp hs).trans ?_)
      rw [if_neg (by omega), if_pos h]
      rfl
    case accepted =>
      intro hl hh
      refine congrArg Host.Outcome.next ((doPressRelease_of_pressing us hp hs).trans ?_)
      rw [if_neg (by omega), if_neg (by omega)]
      rfl
    case long =>
      intro h
      exact congrArg Host.Outcome.next ((doPressRelease_of_pressing us hp hs).trans (if_pos h))
  case accept =>
    intro s s1 cleared
    refine ⟨acceptPress_of_unlocked, acceptPress_of_uncommitted, fun h hc => ⟨fun h9 => ?_, fun h9 => ?_⟩⟩
    · exact (acceptPress_of_committed h hc).trans (if_neg h9)
    · exact (acceptPress_of_committed h hc).trans (if_pos h9)
  case moduleReset =>
    intro s
    exact ⟨fun h => congrArg Host.Outcome.next (doModuleReset_of_idle h),
      fun cause ha hr => congrArg Host.Outcome.next (doModuleReset_of_asked ha hr)⟩
  case startDone =>
    intro s x u
    refine ⟨fun h => congrArg Host.Outcome.next (if_pos h), fun hd hr => congrArg Host.Outcome.next (if_neg ?_),
      fun h => ?_, fun slot reason h => ?_⟩
    · simp [hd, hr]
    · rw [State.startSelected, h]
      rfl
    · rw [State.startSelected, h]
      rfl

end Sys2Proof.Proofs

namespace Sys2Proof.Proofs
open Sys2Proof Sys2Proof.Machine Sys2Proof.Laws

/-- A permitted write of a command register answers the state that its action leaves. -/
theorem next_written {s t : State} {m : Master} {p off : Nat} {act : State → State}
    (hm : s.mayWritePage m p off = true) (h : act s = t) :
    (Host.Outcome.next (s.written m p off act) : Result) = .next (t.answer .none) := by
  rw [written_of_mayWrite act hm, h]

/-! ## Run states, LOCK and LOCAL_RESET (R39 to R44) -/

section
variable {s : State} {p : Nat}

section
variable (hr : followsRuns p = true) (hl : s.locked p = false)
include hr hl

/-- An unlocked unit that follows the run states takes the writes of its control bits. -/
theorem not_locked_or_not_followsRuns : ¬(s.locked p = true ∨ (!followsRuns p) = true) := by simp [hr, hl]

theorem doEnable_of_unlocked (b : Bool) :
    s.doEnable p b = (s.setPage p
      (if (s.page p).run = .faulted ∧ b = false then { s.page p with enable := b, run := .stopping, pending := false }
        else { s.page p with enable := b })).followAll p := by
  unfold State.doEnable
  rw [if_neg (not_locked_or_not_followsRuns hr hl)]
  simp only [Bool.not_eq_true']

theorem doFreeze_of_unlocked (b : Bool) : s.doFreeze p b = s.setPage p { s.page p with freeze := b } :=
  if_neg (not_locked_or_not_followsRuns hr hl)

theorem doLocalReset_of_unlocked : s.doLocalReset p = ((subtree p).foldl State.resetUnit s).followAll p :=
  if_neg (not_locked_or_not_followsRuns hr hl)

end

section
variable (hl : s.locked p = true)
include hl

theorem doEnable_of_locked (b : Bool) : s.doEnable p b = s := if_pos (.inl hl)

theorem doFreeze_of_locked (b : Bool) : s.doFreeze p b = s := if_pos (.inl hl)

theorem doLocalReset_of_locked : s.doLocalReset p = s := if_pos (.inl hl)

end

/-- Only the first LOCK of page 0x010 reaches the supervisor (R102). -/
theorem doLock_of_no_echo (h : p = 0x010 → s.locked p = true) :
    s.doLock p = s.setPage p { s.page p with lock := true } :=
  if_neg fun e => by simp [h e.1] at e

theorem doLock_cluster (hl : s.locked 0x010 = false) :
    s.doLock 0x010 = (s.setPage 0x010 { s.page 0x010 with lock := true }).setEcho
      (s.reg 0x010 Reg.cluster.ckptInterval) (s.reg 0x010 Reg.cluster.ckptTimeout)
      (s.reg 0x010 Reg.cluster.ckptGap) (s.reg 0x010 Reg.cluster.voteTimeout) :=
  if_pos ⟨rfl, by rw [hl]; rfl⟩

/-! ### Following the effective enable: the table of R39 and R40 -/

section
variable (hr : followsRuns p = true)
include hr

theorem follow_of_off (h : (s.page p).run = .off) :
    s.follow p = if s.effEnable p = true then s.setPage p { s.page p with run := .starting } else s := by
  simp [State.follow, hr, h]

theorem follow_of_on (h : (s.page p).run = .on) :
    s.follow p = if s.effEnable p = true then s
      else (s.setPage p { s.page p with run := .stopping, pending := false }).leaveOn p := by
  simp [State.follow, hr, h]

theorem follow_of_stopping (h : (s.page p).run = .stopping) :
    s.follow p = s.setPage p { s.page p with pending := s.effEnable p } := by
  simp [State.follow, hr, h]

theorem follow_of_starting_or_faulted (h : (s.page p).run = .starting ∨ (s.page p).run = .faulted) : s.follow p = s := by
  rcases h with h | h <;> simp [State.follow, hr, h]

end

theorem followAll_of_leaf (h : subtree p = [p]) : s.followAll p = s.follow p := by
  rw [State.followAll, h, List.foldl_cons, List.foldl_nil]

end

/-- Settles O12: a permitted write takes its effect, which LOCK bars, and a unit follows by its run state. -/
theorem runStatesFollowEnable : Obligations.RunStatesFollowEnable := by
  unfold Obligations.RunStatesFollowEnable
  refine ⟨?unlocked, ?locked, ?lock, ?lockCluster, ?follow⟩
  case unlocked =>
    intro m p b s hm hr hl
    exact ⟨next_written hm (doEnable_of_unlocked hr hl b), next_written hm (doFreeze_of_unlocked hr hl b),
      next_written hm (doLocalReset_of_unlocked hr hl)⟩
  case locked =>
    intro m p b s hm hl
    exact ⟨next_written hm (doEnable_of_locked hl b), next_written hm (doFreeze_of_locked hl b),
      next_written hm (doLocalReset_of_locked hl)⟩
  case lock =>
    intro m p s hm h
    exact next_written hm (doLock_of_no_echo h)
  case lockCluster =>
    intro m s hm hl
    exact next_written hm (doLock_cluster hl)
  case follow =>
    intro p s hr
    exact ⟨fun h he => (follow_of_off hr h).trans (if_pos he),
      fun h he => (follow_of_off hr h).trans (if_neg (Bool.eq_false_iff.mp he)),
      fun h he => (follow_of_on hr h).trans (if_pos he),
      fun h he => (follow_of_on hr h).trans (if_neg (Bool.eq_false_iff.mp he)),
      follow_of_stopping hr, follow_of_starting_or_faulted hr, followAll_of_leaf⟩

end Sys2Proof.Proofs

namespace Sys2Proof.Proofs
open Sys2Proof Sys2Proof.Machine Sys2Proof.Laws

/-! ## Starts and drains that complete (R39, R40, R44), the clock page (R27, R28) -/

section
variable {s : State} {p : Nat}

theorem doStartCompletes_of_ready (hs : (s.page p).run = .starting) (hready : s.startReady p = true)
    (hstill : ((s.starts p).page p).run = .starting) :
    s.doStartCompletes p = (s.starts p).setPage p
      { (s.starts p).page p with run := if (s.starts p).effEnable p then .on else .stopping, pending := false } := by
  simp [State.doStartCompletes, hs, hready, hstill]

theorem doDrainCompletes_of_drained (hs : (s.page p).run = .stopping) (hd : s.drained p = true) :
    s.doDrainCompletes p = (s.measOff p).setPage p
      { s.page p with run := if (s.page p).pending then .starting else .off, pending := false } := by
  simp [State.doDrainCompletes, hs, hd]

end

/-- The first `n` domains' frequencies stored in CK_MEAS. -/
def storeCkMeas (s : State) (khz : List Word) (n : Nat) : State :=
  (List.range n).foldl (fun t i => t.setReg 0x002 (Reg.clock.ckMeas + 4 * i) (khz.getD i 0#32)) s

theorem doCkMeas_eq_storeCkMeas (s : State) (khz : List Word) : s.doCkMeas khz = storeCkMeas s khz 12 := rfl

theorem storeCkMeas_succ (s : State) (khz : List Word) (n : Nat) :
    storeCkMeas s khz (n + 1) =
      (storeCkMeas s khz n).setReg 0x002 (Reg.clock.ckMeas + 4 * n) (khz.getD n 0#32) := by
  simp only [storeCkMeas, List.range_succ, List.foldl_append, List.foldl_cons, List.foldl_nil]

theorem ckMeas_offset_lt {n : Nat} (hn : n < 12) : Reg.clock.ckMeas + 4 * n < 0x1000 := by
  simp only [Reg.clock.ckMeas]
  omega

/-- Each register of CK_MEAS holds its own domain's frequency. -/
theorem storeCkMeas_reg (s : State) (khz : List Word) {n i : Nat} (hn : n ≤ 12) (hi : i < n) :
    (storeCkMeas s khz n).reg 0x002 (Reg.clock.ckMeas + 4 * i) = khz.getD i 0#32 := by
  induction n with
  | zero => omega
  | succ n ih =>
    rw [storeCkMeas_succ]
    obtain rfl | hlt : i = n ∨ i < n := by omega
    · exact State.reg_setReg_same _ _ _ _
    · rw [reg_setReg_of_ne _ _ (ckMeas_offset_lt (by omega)) (ckMeas_offset_lt (by omega))
        (pair_ne_of_offset_ne (by omega)), ih (by omega) hlt]

/-- No register beside CK_MEAS is written. -/
theorem storeCkMeas_reg_other (s : State) (khz : List Word) {n p off : Nat} (hn : n ≤ 12) (ho : off < 0x1000)
    (h : p ≠ 0x002 ∨ off < Reg.clock.ckMeas ∨ Reg.clock.ckMeas + 48 ≤ off) :
    (storeCkMeas s khz n).reg p off = s.reg p off := by
  induction n with
  | zero => rfl
  | succ n ih =>
    have hne : (p, off) ≠ (0x002, Reg.clock.ckMeas + 4 * n) := by
      rw [Ne, Prod.mk.injEq]
      omega
    rw [storeCkMeas_succ, reg_setReg_of_ne _ _ (ckMeas_offset_lt (by omega)) ho hne, ih (by omega)]

theorem storeCkMeas_frame (s : State) (khz : List Word) (n : Nat) : { storeCkMeas s khz n with regs := s.regs } = s := by
  induction n with
  | zero => rfl
  | succ n ih =>
    rw [storeCkMeas_succ]
    exact ih

/-- Settles O13: each event's own branch; CK_MEAS_UPDATE writes its twelve registers one after the other. -/
theorem startsAndDrainsComplete : Obligations.StartsAndDrainsComplete := by
  unfold Obligations.StartsAndDrainsComplete
  refine ⟨?start, ?drain, ?pll, ?ckMeas⟩
  case start =>
    intro p s hs hready hstill
    exact congrArg Host.Outcome.next (doStartCompletes_of_ready hs hready hstill)
  case drain =>
    intro p s hs hd
    exact congrArg Host.Outcome.next (doDrainCompletes_of_drained hs hd)
  case pll => exact fun pll s => rfl
  case ckMeas =>
    intro khz s
    exact ⟨storeCkMeas s khz 12, rfl, fun i => storeCkMeas_reg s khz (Nat.le_refl 12) i.isLt, storeCkMeas_frame s khz 12,
      fun p off ho h => storeCkMeas_reg_other s khz (Nat.le_refl 12) ho h⟩

end Sys2Proof.Proofs

namespace Sys2Proof.Proofs
open Sys2Proof Sys2Proof.Machine Sys2Proof.Laws

/-! ## Audit snapshots (R61, R62) -/

section
variable {s : State} {p : Nat}

theorem doSnap_of_books (h0 : p ≠ 0x000) (hb : bookPages p ≠ []) : s.doSnap p = s.auditAll p := by
  simp [State.doSnap, h0, hb]

theorem doSnap_of_no_books (h0 : p ≠ 0x000) (hb : bookPages p = []) : s.doSnap p = s := by
  simp [State.doSnap, h0, hb]

/-- The books below the root lie in several clock domains: their capture begins here. -/
theorem doSnap_root (h : s.auditBusy.contains 0x000 = false) :
    s.doSnap 0x000 = { s with auditBusy := 0x000 :: s.auditBusy } :=
  (if_pos rfl).trans (if_neg (Bool.eq_false_iff.mp h))

theorem doCaptureComplete_of_busy (h : s.auditBusy.contains p = true) :
    s.doCaptureComplete p = ({ s with auditBusy := s.auditBusy.filter fun q => q != p }).auditAll p :=
  if_pos h

theorem auditUnit_of_balanced (h : (s.captureBook p).2.1 = false) :
    s.auditUnit p = ((s.captureBook p).1.auditStatus p false, false) := by
  simp [State.auditUnit, h]

theorem auditAll_of_balanced_leaf (hp : bookPages p = [p]) (h : (s.captureBook p).2.1 = false) :
    s.auditAll p = (s.captureBook p).1.auditStatus p false := by
  simp [State.auditAll, hp, auditUnit_of_balanced h]

end

/-! ## The ledger and the fault records (R58, R59, R60) -/

theorem doLedgerSnap_ledgerSnaps (s : State) (m : Master) :
    (s.doLedgerSnap m).ledgerSnaps = tblWrite noLedger s.ledgerSnaps (masterKey m) (some s.frozenLedger) :=
  State.bump_ledgerSnaps _ _ _ _

theorem doLedgerSnap_ledgerSeqs (s : State) (m : Master) :
    (s.doLedgerSnap m).ledgerSeqs =
      tblWrite zeroWord s.ledgerSeqs (masterKey m) (tblRead zeroWord s.ledgerSeqs (masterKey m) + 1#32) :=
  State.bump_ledgerSeqs _ _ _ _

theorem doLedgerSnap_frame (s : State) (m : Master) :
    { s.doLedgerSnap m with
      ledgerSnaps := s.ledgerSnaps, ledgerSeqs := s.ledgerSeqs, counters := s.counters, obs := s.obs } = s := by
  simp [State.doLedgerSnap]

/-- The oldest report of a FIFO becomes a record while the engine still writes (R386). -/
theorem doFaultRecord_of_head {s : State} {pl : Plane} {r : FaultReport} {rest : List FaultReport}
    (h : s.faults.fifo pl = r :: rest) (hpf : s.ps.pfDone = false) :
    let w := (s.mramWrite 1 (mramFault r.seq) (faultRecordBytes r)).bump 0x004 3 1
    let f := { w with faults := w.faults.setFifo pl ((w.faults.fifo pl).drop 1) }
    s.doFaultRecord pl = ((f.setNv { f.ps.nv with faultSeq := max f.ps.nv.faultSeq r.seq }).lockoutRecorded r).pfNext := by
  intro w f
  unfold State.doFaultRecord
  rw [h]
  dsimp only
  rw [if_neg (Bool.eq_false_iff.mp hpf)]

/-- Settles O15: a SNAP takes the branch of its page's books; a capture of the ledger writes the two tables at the writing
master's key alone. -/
theorem auditsLedgerAndRecordsAreTaken : Obligations.AuditsLedgerAndRecordsAreTaken := by
  unfold Obligations.AuditsLedgerAndRecordsAreTaken
  refine ⟨?snap, ?complete, ?leaf, ?ledger, ?record⟩
  case snap =>
    intro m p s hm
    refine ⟨fun h0 hb => next_written hm (doSnap_of_books h0 hb),
      fun h0 hb => next_written hm (doSnap_of_no_books h0 hb), ?root⟩
    case root =>
      rintro rfl h
      exact next_written hm (doSnap_root h)
  case complete =>
    intro p s h
    exact congrArg Host.Outcome.next (doCaptureComplete_of_busy h)
  case leaf => exact fun p s hp h => auditAll_of_balanced_leaf hp h
  case ledger =>
    intro m s hm
    refine ⟨_, next_written hm rfl, ?_, ?_, fun k hk => ⟨?_, ?_⟩, ?_⟩
    · rw [State.answer_ledgerSnaps, doLedgerSnap_ledgerSnaps, tblRead_write_same]
    · rw [State.answer_ledgerSeqs, doLedgerSnap_ledgerSeqs, tblRead_write_same]
    · rw [State.answer_ledgerSnaps, doLedgerSnap_ledgerSnaps, tblRead_write_other _ _ _ _ _ hk]
    · rw [State.answer_ledgerSeqs, doLedgerSnap_ledgerSeqs, tblRead_write_other _ _ _ _ _ hk]
    · exact congrArg (fun t : State => { t with reply := s.reply }) (doLedgerSnap_frame s m)
  case record =>
    intro pl r rest s h hpf
    exact congrArg Host.Outcome.next (doFaultRecord_of_head h hpf)

end Sys2Proof.Proofs

namespace Sys2Proof.Proofs
open Sys2Proof Sys2Proof.Machine Sys2Proof.Laws

/-! ## Requests over the Vaoskad link (R7, R19, R47, R48) -/

section
variable {id : Fin 8} {p off : Nat} {s : State}

theorem doRemoteRequest_of_unallocated (req : RemoteReq) (hu : (pageUnit p).isNone = true) :
    s.doRemoteRequest id p off req = s.violation (.remote id) (0x18000000 + 0x1000 * p + off) :=
  if_pos (.inr (.inl hu))

section
variable (hp : p < 0x800) (ho : off < 0x1000) (hu : (pageUnit p).isSome = true)
include hp ho hu

/-- A request within an allocated page gets past the map. -/
theorem remote_in_map : ¬(0x800 ≤ p ∨ (pageUnit p).isNone = true ∨ 0x1000 ≤ off) := by
  rw [← Option.not_isSome, hu]
  simp [hp, ho]

theorem doRemoteRequest_read_misaligned (h4 : off % 4 ≠ 0) :
    s.doRemoteRequest id p off .read = s.pageBusError (0x18000000 + 0x1000 * p + off) :=
  (if_neg (remote_in_map hp ho hu)).trans (if_pos h4)

theorem doRemoteRequest_read_of_value (h4 : off % 4 = 0) {v : DWord}
    (hv : (s.pageRead (.remote id) p off).reply = .value v) :
    s.doRemoteRequest id p off .read = (s.pageRead (.remote id) p off).answer
      (.value ((s.rewritten id.val p off (loWord v)).zeroExtend 64)) := by
  refine (if_neg (remote_in_map hp ho hu)).trans ((if_neg (absurd h4)).trans ?_)
  dsimp only
  rw [hv]

theorem doRemoteRequest_write_refused {pl : Plane} (v : Word)
    (h : s.mayWriteRemote pl p = false ∨ (0x1a0 ≤ p ∧ p < 0x1b0 ∧ s.obs.wsOpen = false)) :
    s.doRemoteRequest id p off (.write pl v) = s.violation (.remote id) (0x18000000 + 0x1000 * p + off) :=
  (if_neg (remote_in_map hp ho hu)).trans (if_pos (by simpa only [Bool.not_eq_true'] using h))

theorem doRemoteRequest_write_permitted {pl : Plane} (v : Word) (h4 : off % 4 = 0) (hw : s.mayWriteRemote pl p = true)
    (hws : ¬(0x1a0 ≤ p ∧ p < 0x1b0 ∧ s.obs.wsOpen = false)) :
    s.doRemoteRequest id p off (.write pl v) = s.pageWrite (.remote id) p off v := by
  refine (if_neg (remote_in_map hp ho hu)).trans ((if_neg ?_).trans (if_neg (absurd h4)))
  simpa only [hw, Bool.not_true, Bool.false_eq_true, false_or, Bool.not_eq_true'] using hws

end

end

/-- Settles O17: the map decides first, then R48 and workshop access, then the alignment. -/
theorem remotePageRequestsAreServed : Obligations.RemotePageRequestsAreServed := by
  unfold Obligations.RemotePageRequestsAreServed
  intro id p off s hp ho a
  refine ⟨?read, ?misaligned, ?unallocated, ?refused, ?permitted⟩
  case read =>
    intro v hu h4 hv
    exact congrArg Host.Outcome.next (doRemoteRequest_read_of_value hp ho hu h4 hv)
  case misaligned =>
    intro hu h4
    exact congrArg Host.Outcome.next (doRemoteRequest_read_misaligned hp ho hu h4)
  case unallocated =>
    intro req hu
    exact congrArg Host.Outcome.next (doRemoteRequest_of_unallocated req hu)
  case refused =>
    intro pl v h
    refine congrArg Host.Outcome.next ?_
    cases hu : (pageUnit p).isSome with
    | true => exact doRemoteRequest_write_refused hp ho hu v h
    | false => exact doRemoteRequest_of_unallocated _ (by rw [← Option.not_isSome, hu]; rfl)
  case permitted =>
    intro pl v hu hw h4 hws
    exact congrArg Host.Outcome.next (doRemoteRequest_write_permitted hp ho hu v h4 hw hws)

end Sys2Proof.Proofs

namespace Sys2Proof.Proofs
open Sys2Proof Sys2Proof.Machine Sys2Proof.Laws

/-! ## The common registers in the tables: no row, no _LO register lies below 0x100 (R34) -/

theorem findReg_of_lt {l : List RegDesc} {off : Nat} (h : ∀ d ∈ l, off < d.off) : findReg l off = none := by
  induction l with
  | nil => rfl
  | cons d t ih =>
    have hd : d.indexOf off = none := if_pos (h d List.mem_cons_self)
    rw [findReg, hd]
    exact ih fun d' h' => h d' (List.mem_cons_of_mem d h')

/-- The unit-specific registers begin at 0x100. -/
theorem catalog_starts (k : UnitKind) : ∀ d ∈ Catalog.ofKind k, 0x100 ≤ d.off := by
  cases k <;> decide

theorem loRegs_starts (k : UnitKind) : ∀ r ∈ loRegs k, 0x100 ≤ r.1 := by
  cases k <;> decide

/-- The common registers reset to 0 (R34). -/
theorem regReset_common (p : Nat) {off : Nat} (ho : off < 0x100) : regReset (regKey p off) = 0#32 := by
  have hoff : regKey p off % 0x1000 = off := by unfold regKey; omega
  have hrow (k : UnitKind) : findReg (Catalog.ofKind k) off = none :=
    findReg_of_lt fun d hd => Nat.lt_of_lt_of_le ho (catalog_starts k d hd)
  unfold regReset
  split
  next => rfl
  next k n _ =>
    simp only [hoff]
    split
    next =>
      have hport : findReg Catalog.port off = none := hrow .port
      rw [if_neg (by simp only [Reg.port.portConfig]; omega), hport]
    next =>
      have hqueue : findReg Catalog.queue off = none := hrow .queue
      rw [if_neg (by simp only [Reg.queue.qConfig]; omega), hqueue]
    next => rw [hrow k]

theorem isLo_of_lt (p : Nat) {off : Nat} (ho : off < 0x080) : isLo p off = false := by
  have hrow (k : UnitKind) : ∀ r ∈ loRegs k, ¬r.1 ≤ off := fun r hr => by
    have := loRegs_starts k r hr
    omega
  unfold isLo
  rw [decide_eq_false (by omega), Bool.false_and, Bool.false_or]
  split
  next k _ _ =>
    rw [List.any_eq_false]
    intro r hr
    simp [hrow k r hr]
  next => rfl

/-- A common register below the event counters is read as the page shows it. -/
theorem pageRead_common (s : State) (m : Master) (p : Nat) {off : Nat} (ho : off < 0x080) :
    s.pageRead m p off = s.answer (.value ((s.pageWord p off).zeroExtend 64)) := by
  have hhi : isHi p off = false := by rw [isHi, isLo_of_lt p (by omega), Bool.and_false]
  unfold State.pageRead
  rw [if_neg (by simp only [Reg.cluster.msgClaim]; omega), if_neg (by simp only [Reg.vme.bridgeFence]; omega),
    if_neg (by simp only [Reg.workLedger.ledgerSnapSeq, Reg.workLedger.ledgerImage]; omega),
    if_neg (by simp only [Reg.supervisor.railMv]; omega), isLo_of_lt p ho, hhi]
  rfl

/-! ## FAULT_INJECT under workshop access (R36, R461, R463) -/

/-- A report posted writes no FAULT_INJECT. -/
theorem post_reg_faultInject (s : State) (pl : Plane) (origin cls reaction : Nat) (detail : List Word) (p : Nat) :
    (s.post pl origin cls reaction detail).reg p 0x018 = s.reg p 0x018 := by
  have hov : (0x018 : Nat) ≠ overflowReg pl := by cases pl <;> decide
  rw [post_reg_of_ne_overflow s pl origin cls reaction detail (by decide) (pair_ne_of_offset_ne hov),
    countReport_reg_other s pl origin cls (by decide) (pair_ne_of_offset_ne (by decide))
      (pair_ne_of_offset_ne (by decide))]

theorem violation_reg_faultInject (s : State) (m : Master) (a p : Nat) :
    (s.violation m a).reg p 0x018 = s.reg p 0x018 := by
  refine (post_reg_faultInject (s.countAddressed a) _ _ 0 0 [] p).trans ?_
  rcases State.countAddressed_cases s a with h | ⟨q, h⟩ <;> rw [h]
  exact reg_setReg_of_ne s _ (by decide) (by decide) (pair_ne_of_offset_ne (by decide))

theorem doInject_of_closed {s : State} (h : s.obs.wsOpen = false) (p : Nat) (v : Word) : s.doInject p v = s :=
  if_pos (.inl (by rw [h]; rfl))

theorem pageWord_faultInject_of_closed {s : State} (h : s.obs.wsOpen = false) (p : Nat) : s.pageWord p 0x018 = 0#32 := by
  simp [State.pageWord, State.commonRead, h]

/-- An entry dropped from a table reads as unlisted. -/
theorem tblRead_drop {α : Type} (d : Nat → α) (f : Nat → Bool) (t : Tbl α) {k : Nat} (h : f k = true) :
    tblRead d (tblDrop f t) k = d k := by
  induction t with
  | nil => rfl
  | cons e t ih =>
    obtain ⟨k', w⟩ := e
    unfold tblDrop
    split
    next => exact ih
    next hk =>
      have hne : k' ≠ k := by
        rintro rfl
        exact hk h
      exact (if_neg hne).trans ih

theorem thawAll_regs (s : State) : s.thawAll.regs = s.regs := by
  unfold State.thawAll
  exact foldl_field State.regs _ (fun _ _ => by rfl) _ s

theorem thawAll_obs (s : State) : s.thawAll.obs = s.obs := by
  unfold State.thawAll
  exact foldl_field State.obs _ (fun _ _ => by rfl) _ s

theorem unhalt_regs (s : State) : s.unhalt.regs = s.regs := by
  unfold State.unhalt
  exact foldl_field State.regs _ (fun _ _ => by rfl) _ s

theorem unhalt_obs (s : State) : s.unhalt.obs = s.obs := by
  unfold State.unhalt
  exact foldl_field State.obs _ (fun _ _ => by rfl) _ s

section
variable {s : State} (h : s.obs.wsOpen = true)
include h

theorem workshopCloses_regs : s.workshopCloses.regs = tblDrop clearedAtClosing s.regs := by
  simp only [State.workshopCloses, h, Bool.not_true, Bool.false_eq_true, if_false, unhalt_regs, State.setObs_regs,
    thawAll_regs]

theorem workshopCloses_obs : s.workshopCloses.obs = { s.obs with wsOpen := false } := by
  simp only [State.workshopCloses, h, Bool.not_true, Bool.false_eq_true, if_false, unhalt_obs, State.setObs_obs,
    thawAll_obs]

theorem workshopCloses_reg_faultInject (p : Nat) : s.workshopCloses.reg p 0x018 = 0#32 := by
  have hoff : regKey p 0x018 % 0x1000 = 0x018 := by unfold regKey; omega
  have hcleared : clearedAtClosing (regKey p 0x018) = true := by simp [clearedAtClosing, hoff]
  rw [State.reg, workshopCloses_regs h, tblRead_drop _ _ _ hcleared, regReset_common p (by decide)]

end

/-- Settles O47: while access is closed a write is refused or ignored; closing drops FAULT_INJECT of every page from the
registers, and it resets to 0. -/
theorem faultInjectFollowsWorkshopAccess : Obligations.FaultInjectFollowsWorkshopAccess := by
  unfold Obligations.FaultInjectFollowsWorkshopAccess
  refine ⟨?closed, ?closing⟩
  case closed =>
    intro m page v s h
    refine ⟨⟨_, rfl, fun p => ?write⟩, fun p => ⟨pageWord_faultInject_of_closed h p, ?read⟩⟩
    case write =>
      cases hm : s.mayWritePage m page 0x018 with
      | true =>
        rw [written_of_mayWrite _ hm, doInject_of_closed h]
        rfl
      | false =>
        rw [State.written, hm]
        exact violation_reg_faultInject s m _ p
    case read =>
      rw [pageRead_common s m p (by decide), pageWord_faultInject_of_closed h p]
      rfl
  case closing =>
    intro m v s h
    refine ⟨fun hm hb => ?wsClose, ?testEn⟩
    case wsClose =>
      refine ⟨_, next_written hm (if_pos hb), ?_, workshopCloses_reg_faultInject h⟩
      rw [State.answer_obs, workshopCloses_obs h]
    case testEn =>
      have hopen : (s.setObs { s.obs with testEnLow := false }).obs.wsOpen = true := h
      refine ⟨_, rfl, ?_, workshopCloses_reg_faultInject hopen⟩
      rw [workshopCloses_obs hopen]

end Sys2Proof.Proofs

namespace Sys2Proof.Proofs
open Sys2Proof Sys2Proof.Machine Sys2Proof.Laws

/-! ## Module reset (R27, R39, R57, R100, R208, R214) -/

/-- Every unit that follows the run states starts OFF with ENABLE 0 (R39). -/
theorem pageReset_of_followsRuns {p : Nat} (h : followsRuns p = true) :
    pageReset p = ⟨false, false, false, .off, false⟩ := by
  unfold followsRuns at h
  unfold pageReset
  split at h
  next k i hu =>
    rw [hu]
    split
    next heq =>
      obtain ⟨rfl, -⟩ := Prod.mk.inj (Option.some.inj heq)
      cases h
    next heq =>
      obtain ⟨rfl, -⟩ := Prod.mk.inj (Option.some.inj heq)
      rw [if_pos h]
    next => rfl
  next => cases h

/-- Settles O3: at reset every table is empty, so that a page and a register read their reset values. -/
theorem resetLeavesTheSpecifiedValues : Obligations.ResetLeavesTheSpecifiedValues := by
  unfold Obligations.ResetLeavesTheSpecifiedValues
  intro s
  refine ⟨⟨rfl, rfl⟩, fun p h => pageReset_of_followsRuns h, ⟨rfl, rfl, rfl, rfl⟩, ⟨by decide, by decide⟩,
    ⟨by decide, by decide, by decide⟩, fun p n => rfl, fun pl => ?fifos, ⟨rfl, rfl, rfl⟩, fun k => ?copies,
    ⟨rfl, rfl, rfl⟩, rfl⟩
  case fifos => cases pl <;> rfl
  case copies => cases k <;> exact ⟨rfl, rfl⟩

end Sys2Proof.Proofs

namespace Sys2Proof.Proofs
open Sys2Proof Sys2Proof.Machine Sys2Proof.Laws

/-! ## The copies' states -/

section
variable {α : Type}

@[simp] theorem copy_setCopy_same (t : Trio α) (k : Copy) (v : α) : (t.setCopy k v).copy k = v := by
  cases k <;> rfl

theorem copy_setCopy_of_ne (t : Trio α) {j k : Copy} (v : α) (h : j ≠ k) : (t.setCopy k v).copy j = t.copy j := by
  match j, k, h with
  | .a, .b, _ | .a, .c, _ | .b, .a, _ | .b, .c, _ | .c, .a, _ | .c, .b, _ => rfl

end

@[simp] theorem cp_setCp_same (s : State) (k : Copy) (v : CopyState) : (s.setCp k v).cp k = v := copy_setCopy_same _ k v

theorem cp_setCp_of_ne (s : State) {j k : Copy} (v : CopyState) (h : j ≠ k) : (s.setCp k v).cp j = s.cp j :=
  copy_setCopy_of_ne _ v h

/-! ## Presentations to the voter (R75, R77 to R81, R96) -/

/-- The ordinal of the next write of copy `k` (R77). -/
def nextOrdinal (v : State) (k : Copy) : DWord := (v.cp k).writes + 1

/-- A late presentation discarded: the copy takes its ordinal, and the mark is gone (R79). -/
def discardLate (v : State) (k : Copy) : State :=
  let u := v.setCp k { v.cp k with writes := nextOrdinal v k }
  { u with clu := { u.clu with lateDiscard := v.clu.lateDiscard.filter fun p => p != (k, nextOrdinal v k) } }

/-- Copy `k` takes its next ordinal and no longer keeps a write. -/
def takeOrdinal (v : State) (k : Copy) : State :=
  (v.setCp k { v.cp k with writes := nextOrdinal v k, waitWrite := none }).bump (copyPage k) 10 1

/-- A FREE slot opened by presentation `w` of copy `k`, ready at once in SIMPLEX_THREE (R77, R127). -/
def openSlot (v : State) (k : Copy) (w : WriteReq) : State :=
  let u := takeOrdinal v k
  let t : VoterSlot :=
    ⟨nextOrdinal v k, [(k, w)], if v.simplex then .ready else .opened, if v.simplex then some w else none⟩
  { u with clu := { u.clu with slots := u.clu.slots ++ [t] } }.injectOther 3 (voterKey (nextOrdinal v k))

section
variable {s v : State} {k : Copy} (w : WriteReq) (hv : s.voteDelayed k = v)
include hv

theorem present_of_late (h : v.clu.lateDiscard.contains (k, nextOrdinal v k) = true) :
    s.present k w = discardLate v k := by
  subst hv
  exact if_pos h

section
variable (hl : v.clu.lateDiscard.contains (k, nextOrdinal v k) = false)
include hl

theorem present_of_slot {t : VoterSlot} (hs : v.clu.slots.find? (fun t => t.ord == nextOrdinal v k) = some t) :
    s.present k w = ((takeOrdinal v k).readOther (voterKey (nextOrdinal v k)) 3).voteIn k w t := by
  subst hv
  refine (if_neg (Bool.eq_false_iff.mp hl)).trans ?_
  rw [← nextOrdinal, hs]
  rfl

section
variable (hs : v.clu.slots.find? (fun t => t.ord == nextOrdinal v k) = none)
include hs

theorem present_of_free (hroom : v.clu.slots.length < 64) : s.present k w = openSlot v k w := by
  subst hv
  refine (if_neg (Bool.eq_false_iff.mp hl)).trans ?_
  rw [← nextOrdinal, hs]
  exact if_pos hroom

theorem present_of_full (hfull : 64 ≤ v.clu.slots.length) :
    s.present k w = (v.setCp k { v.cp k with stall := 5, waitWrite := some w }).answer .wait := by
  subst hv
  refine (if_neg (Bool.eq_false_iff.mp hl)).trans ?_
  rw [← nextOrdinal, hs]
  exact if_neg (Nat.not_lt.mpr hfull)

end

end

end

section
variable (v : State) (k : Copy)

theorem discardLate_writes : ((discardLate v k).cp k).writes = nextOrdinal v k :=
  congrArg CopyState.writes (cp_setCp_same v k { v.cp k with writes := nextOrdinal v k })

theorem discardLate_frame : { discardLate v k with clu := v.clu } = v := rfl

end

/-! ### The store, the SC and the AMO -/

section
variable {s : State} {k : Copy} {a : BitVec 40} {size : Nat} {d : DWord}

theorem doVotedWritePresent_of_waiting (h : (s.cp k).runs = false) :
    s.doVotedWritePresent k a size d = s.answer .wait := by
  simp [State.doVotedWritePresent, h]

theorem presentAtomic_of_waiting {w : WriteReq} (h : (s.cp k).runs = false) : s.presentAtomic k w = s.answer .wait := by
  simp [State.presentAtomic, h]

section
variable (hr : (s.cp k).runs = true)
include hr

theorem doVotedWritePresent_of_misaligned (h : misaligned a.toNat size = true) :
    s.doVotedWritePresent k a size d = s.answer .misaligned := by
  simp [State.doVotedWritePresent, hr, h]

theorem presentAtomic_of_misaligned {w : WriteReq} (h : misaligned w.addr.toNat w.size = true) :
    s.presentAtomic k w = s.answer .misaligned := by
  simp [State.presentAtomic, hr, h]

theorem doVotedWritePresent_of_aligned (h : misaligned a.toNat size = false) (ht : regionOf a.toNat ≠ .tcm) :
    s.doVotedWritePresent k a size d = (s.answer .none).present k ⟨.store, a, size, d⟩ := by
  simp [State.doVotedWritePresent, hr, h, ht]

/-- An SC or AMO that found its slot stalls with reason 4 and takes the result where it stands already. -/
theorem presentAtomic_of_presented {w : WriteReq} {u : State} (h : misaligned w.addr.toNat w.size = false)
    (hu : (s.answer .wait).present k w = u) (hstall : (u.cp k).stall ≠ 5) :
    s.presentAtomic k w = (u.setCp k { u.cp k with waitResult := true, stall := 4 }).takeResult k := by
  simp [State.presentAtomic, hr, h, hu, hstall]

end

end

/-! ### The stalled copy -/

section
variable {s : State} {k : Copy}

theorem doVoterStallResume_of_store {w : WriteReq} (hw : (s.cp k).waitWrite = some w) (hk : w.kind = .store)
    (h : (s.cp k).stall = 5 ∧ s.clu.slots.length < 64) :
    s.doVoterStallResume k = (s.setCp k { s.cp k with stall := 0, waitWrite := none }).present k w := by
  unfold State.doVoterStallResume
  rw [hw]
  dsimp only
  rw [if_pos h, hk]

theorem doVoterStallResume_of_full (h : 64 ≤ s.clu.slots.length) : s.doVoterStallResume k = s := by
  unfold State.doVoterStallResume
  split
  next => exact if_neg fun e => Nat.not_lt.mpr h e.2
  next => rfl

end

/-- Settles O18: a presentation takes the branch of its mark, of its ordinal's slot and of the room among the slots; an SC
or AMO is presented the same way. -/
theorem presentationsOpenJoinOrStall : Obligations.PresentationsOpenJoinOrStall := by
  unfold Obligations.PresentationsOpenJoinOrStall
  refine ⟨?store, fun k d s => rfl, ?atomic, ?resume⟩
  case store =>
    intro k a size d s hr hm ht v ord c w
    have hexec : exec (.votedWritePresent k a size d) s = .next ((s.answer .none).present k w) :=
      congrArg Host.Outcome.next (doVotedWritePresent_of_aligned hr hm ht)
    refine ⟨fun hl hs => ⟨fun hroom => ?free, fun hfull => ?full⟩, fun t hl hs => ?slot, fun hl => ?late⟩
    case free => exact hexec.trans (congrArg Host.Outcome.next (present_of_free w rfl hl hs hroom))
    case full => exact hexec.trans (congrArg Host.Outcome.next (present_of_full w rfl hl hs hfull))
    case slot => exact hexec.trans (congrArg Host.Outcome.next (present_of_slot w rfl hl hs))
    case late =>
      exact ⟨discardLate v k, hexec.trans (congrArg Host.Outcome.next (present_of_late w rfl hl)), rfl,
        discardLate_writes v k, rfl, discardLate_frame v k⟩
  case atomic =>
    intro k a size d f5 s
    refine ⟨fun hr hm => ⟨fun u hu h5 => ?sc, fun u hu h5 => ?amo⟩, fun hr hm => ⟨?_, ?_, ?_⟩,
      fun hr => ⟨?_, ?_, ?_⟩⟩
    case sc => exact congrArg Host.Outcome.next (presentAtomic_of_presented hr hm hu h5)
    case amo => exact congrArg Host.Outcome.next (presentAtomic_of_presented hr hm hu h5)
    · exact congrArg Host.Outcome.next (doVotedWritePresent_of_misaligned hr hm)
    · exact congrArg Host.Outcome.next (presentAtomic_of_misaligned hr hm)
    · exact congrArg Host.Outcome.next (presentAtomic_of_misaligned hr hm)
    · exact congrArg Host.Outcome.next (doVotedWritePresent_of_waiting hr)
    · exact congrArg Host.Outcome.next (presentAtomic_of_waiting hr)
    · exact congrArg Host.Outcome.next (presentAtomic_of_waiting hr)
  case resume =>
    intro k w s h5 hw hk
    exact ⟨fun hroom => congrArg Host.Outcome.next (doVoterStallResume_of_store hw hk ⟨h5, hroom⟩),
      fun hfull => congrArg Host.Outcome.next (doVoterStallResume_of_full hfull)⟩

end Sys2Proof.Proofs

namespace Sys2Proof.Proofs
open Sys2Proof Sys2Proof.Machine Sys2Proof.Laws

/-! ## The voter's decisions (R78, R80, R105) -/

section
variable {s : State} {k : Copy} {w : WriteReq} {t : VoterSlot}

theorem slotAgreed_of_plain (h : isCommitClass w.addr = false) :
    s.slotAgreed t w = s.setSlot { t with phase := .ready, write := some w } := by
  simp [State.slotAgreed, h]

theorem slotAgreed_of_commitClass (h : isCommitClass w.addr = true) (hs : s.simplex = false) :
    s.slotAgreed t w = (s.setSlot { t with phase := .held, write := some w }).bump 0x010 3 1 := by
  simp [State.slotAgreed, h, hs]

theorem voteIn_committed (h : t.phase = .committed) :
    s.voteIn k w t = if t.write = some w then s.dropSlot t.ord else (s.dropSlot t.ord).copyCause k 2 := by
  simp [State.voteIn, h]

section
variable (s k w) (ho : t.phase = .opened)
include ho

theorem voteIn_second {j : Copy} {x : WriteReq} (hp : t.pres = [(j, x)]) :
    s.voteIn k w t =
      if x = w then s.slotAgreed { t with pres := [(j, x), (k, w)] } w
      else if s.partCount = 2 then (s.dropSlot t.ord).noMajority
      else s.setSlot { t with pres := [(j, x), (k, w)] } := by
  simp [State.voteIn, ho, hp]

theorem voteIn_third {i j : Copy} {x y : WriteReq} (hp : t.pres = [(i, x), (j, y)]) :
    s.voteIn k w t =
      if x = w then (s.slotAgreed { t with pres := [(i, x), (j, y), (k, w)] } w).copyCause j 2
      else if y = w then (s.slotAgreed { t with pres := [(i, x), (j, y), (k, w)] } w).copyCause i 2
      else (s.dropSlot t.ord).noMajority := by
  simp [State.voteIn, ho, hp]

end

end

/-! ## Writes performed, held or late (R78 to R80, R82, R108) -/

section
variable {s : State} {t : VoterSlot} {w : WriteReq}

theorem doWritePerformed_of_ready (r : VmeAnswer) (hn : s.nextWrite = some t) (hp : t.phase = .ready)
    (hw : t.write = some w) : s.doWritePerformed r = s.performSlot t w r := by
  simp [State.doWritePerformed, hn, hp, hw]

/-- A store answered is counted where it was performed, and its slot settled; it makes no result entry. -/
theorem performSlot_of_store (r : VmeAnswer) (hk : w.kind = .store) {e : DWord × Bool}
    (he : entryOf ((s.answer .none).busWrite .cluster w.addr w.size w.data).reply = some e) :
    let s1 := (s.answer .none).busWrite .cluster w.addr w.size w.data
    s.performSlot t w r = (if writeDone .store s1.reply then s1.countCommit else s1).settleSlot t := by
  intro s1
  have hs1 : (s.answer .none).performWrite w r = s1 := by simp only [State.performWrite, hk, s1]
  unfold State.performSlot
  rw [if_neg (fun h => h.1 hk), hs1, hk]
  dsimp only
  rw [he]
  rfl

/-- A held write of the voter's turn goes by the judgement of the tussock that its copy took for it. -/
theorem doCommitRelease_of_judged {ord : DWord} {k l : Copy} {m : List Copy} {q : DWord × DWord}
    {j : DWord × Option Verdict} (hn : s.nextWrite = some t) (ho : t.ord = ord) (hp : t.phase = .held)
    (hw : t.write = some w) (hm : t.majority = k :: l :: m)
    (hq : (s.cp k).commitOrd.find? (fun x => x.1 == ord) = some q)
    (hj : s.clu.judged.find? (fun x => x.1 == q.2) = some j) :
    s.doCommitRelease ord =
      if (j.2.any fun v => v.pairBit k l) = true then s.performSlot t w none else (s.dropSlot ord).raise 0x016 6 [] := by
  have hord : (t.ord == ord) = true := beq_iff_eq.mpr ho
  simp only [State.doCommitRelease, hn, hp, hw, hm, hord, hq, hj]
  obtain ⟨n, verdict⟩ := j
  cases verdict with
  | none => rfl
  | some v => rfl

end

/-- Copy `k` marked late for the write of ordinal `ord` (R79). -/
def markLate (ord : DWord) (u : State) (k : Copy) : State :=
  ({ u with clu := { u.clu with lateDiscard := u.clu.lateDiscard ++ [(k, ord)] } }.raise (copyPage k) 1 []).bump 0x010 4 1

theorem doVoteLate_of_committed {s : State} {ord : DWord} {t : VoterSlot}
    (h : s.clu.slots.find? (fun t => t.ord == ord && t.phase == .committed) = some t) :
    s.doVoteLate ord =
      if (s.participants.all fun k => (s.cp k).halted) = true then s
      else (s.participants.filter fun k => !(t.pres.any fun p => p.1 == k)).foldl (markLate ord) (s.dropSlot ord) := by
  unfold State.doVoteLate
  rw [h]
  rfl

/-- Settles O19: the voter's decision by the presentations that the slot holds, then the write whose turn it is by its
phase. -/
theorem theVoterDecidesAndPerforms : Obligations.TheVoterDecidesAndPerforms := by
  unfold Obligations.TheVoterDecidesAndPerforms
  refine ⟨fun k w t s => ⟨?second, ?differ, ?third, ?committed⟩, ?perform, ?release, ?late⟩
  case second =>
    intro j ho hp hs
    have hagreed := (voteIn_second s k w ho hp).trans (if_pos rfl)
    exact ⟨fun hc => hagreed.trans (slotAgreed_of_plain hc),
      fun hc => hagreed.trans (slotAgreed_of_commitClass hc hs)⟩
  case differ =>
    intro j x ho hp hx
    have hdiffer := (voteIn_second s k w ho hp).trans (if_neg hx)
    exact ⟨fun h2 => hdiffer.trans (if_pos h2), fun h2 => hdiffer.trans (if_neg h2)⟩
  case third =>
    intro i j x y ho hp
    have hthird := voteIn_third s k w ho hp
    exact ⟨fun hx => hthird.trans (if_pos hx), fun hx hy => hthird.trans ((if_neg hx).trans (if_pos hy)),
      fun hx hy => hthird.trans ((if_neg hx).trans (if_neg hy))⟩
  case committed =>
    intro hp
    exact ⟨fun hw => (voteIn_committed hp).trans (if_pos hw), fun hw => (voteIn_committed hp).trans (if_neg hw)⟩
  case perform =>
    intro r t w v bad s hn hp hw hk s1 he
    exact congrArg Host.Outcome.next
      ((doWritePerformed_of_ready r hn hp hw).trans (performSlot_of_store r hk he))
  case release =>
    intro ord t w k l m q j s hn ho hp hw hm hq hj
    have hrel := doCommitRelease_of_judged hn ho hp hw hm hq hj
    refine ⟨fun v hv hb => congrArg Host.Outcome.next (hrel.trans (if_pos ?_)),
      fun hb => congrArg Host.Outcome.next (hrel.trans (if_neg ?_))⟩
    · rw [hv]
      exact hb
    · rw [Option.any_eq_true]
      rintro ⟨v, hv, hbit⟩
      exact absurd hbit (Bool.eq_false_iff.mp (hb v hv))
  case late =>
    intro ord t s h
    exact ⟨fun hh => congrArg Host.Outcome.next ((doVoteLate_of_committed h).trans (if_pos hh)),
      fun hh => congrArg Host.Outcome.next ((doVoteLate_of_committed h).trans (if_neg (Bool.eq_false_iff.mp hh)))⟩

end Sys2Proof.Proofs

namespace Sys2Proof.Proofs
open Sys2Proof Sys2Proof.Machine Sys2Proof.Laws

/-! ## Messages and interrupt changes (R83, R84, R491) -/

section
variable {s : State}

/-- A message that finds room leaves the FIFO not empty, so that MEIP stands. -/
theorem message_of_room (v : BitVec 16) (h : s.clu.messages.length < 64) :
    s.message v =
      { s with clu := { s.clu with messages := s.clu.messages ++ [v] } }.irqChange (s.clu.lines ||| (1#64 <<< 11)) := by
  refine (if_pos h).trans ?_
  simp [State.meipFollows]

theorem message_of_full (v : BitVec 16) (h : 64 ≤ s.clu.messages.length) :
    s.message v = { s with clu := { s.clu with discarded := satAdd 0xffff s.clu.discarded 1 } } :=
  if_neg (Nat.not_lt.mpr h)

theorem msgWord_nil (h : s.clu.messages = []) : s.msgWord = 0#32 := by simp [State.msgWord, h]

theorem msgWord_cons {v : BitVec 16} {l : List (BitVec 16)} (h : s.clu.messages = v :: l) :
    s.msgWord = setBit (v.zeroExtend 32) 31 true := by simp [State.msgWord, h]

/-- A read by any master but the safety copies answers alone. -/
theorem doMsgClaim_of_other {m : Master} (hm : m ≠ .cluster) :
    s.doMsgClaim m = s.answer (.value (s.msgWord.zeroExtend 64)) := by
  cases m with
  | cluster => exact absurd rfl hm
  | _ => rfl

theorem doMsgClaim_cluster {v : BitVec 16} {l : List (BitVec 16)} (h : s.clu.messages = v :: l) :
    s.doMsgClaim .cluster =
      { s with
        clu := { s.clu with messages := l },
        reply := .value ((setBit (v.zeroExtend 32) 31 true).zeroExtend 64) }.irqChange
          (if l = [] then s.clu.lines &&& ~~~(1#64 <<< 11) else s.clu.lines ||| (1#64 <<< 11)) := by
  simp [State.doMsgClaim, State.meipFollows, State.answer, msgWord_cons h, h]

/-- The newest held change takes the pending vector (R84). -/
def mergeIrq (held : List Target) (lines : DWord) (t : Target) : Target :=
  if t.kind.isIrq = true ∧ held.getLast? = some t then { t with kind := .irq lines } else t

section
variable {lines : DWord} (h : lines ≠ s.clu.lines)
include h

theorem irqChange_of_room (hroom : s.heldChanges.length < 16) :
    s.irqChange lines = { s with clu := { s.clu with lines := lines } }.setTarget (.irq lines) :=
  (if_neg h).trans (if_pos hroom)

theorem irqChange_of_full (hfull : 16 ≤ s.heldChanges.length) :
    s.irqChange lines =
      { s with clu := { s.clu with
          lines := lines, targets := s.clu.targets.map (mergeIrq s.heldChanges lines) } }.bump 0x010 6 1 := by
  refine ((if_neg h).trans (if_neg (Nat.not_lt.mpr hfull))).trans ?_
  have hmerge : ∀ t ∈ s.clu.targets, mergeIrq s.heldChanges lines t =
      match t.kind with
      | .irq _ => if s.heldChanges.getLast? = some t then { t with kind := .irq lines } else t
      | _ => t := by
    rintro ⟨n, kind, reached⟩ -
    cases kind <;> simp [mergeIrq, TargetKind.isIrq]
  rw [List.map_congr_left hmerge]
  rfl

end

end

/-! ## Debug accesses through hart 0 (R130, R487) -/

section
variable {s : State} (act : State → State)

theorem debugAction_of_closed (h : s.obs.wsOpen = false) : s.debugAction act = s.answer (.value 0#64) := by
  simp [State.debugAction, h]

section
variable (ho : s.obs.wsOpen = true)
include ho

theorem debugAction_of_running (h : s.allHalted = false) :
    s.debugAction act = ((s.raise 0x017 0 []).bump 0x017 2 1).answer .busError := by
  simp [State.debugAction, ho, h]

/-- An action answered while two or three copies are halted is performed and counted. -/
theorem debugAction_of_halted (h : s.allHalted = true) (hp : 1 < s.partCount) {w : State}
    (hw : act (s.answer .none) = w) (hr : w.reply ≠ .wait) :
    s.debugAction act = (w.satReg 0x017 Reg.debugReplay.dbgActions 1).bump 0x017 1 1 := by
  simp [State.debugAction, ho, h, hp, hw, hr]

end

/-- What DEBUG_DEVICE_WRITE does once it may act: the write, counted where it was performed. -/
def countedWrite (a : BitVec 40) (size : Nat) (d : DWord) (t : State) : State :=
  let t1 := t.busWrite (.debug 0) a size d
  if t1.reply = .none then t1.countCommit else t1

theorem doDebugDeviceWrite_eq (a : BitVec 40) (size : Nat) (d : DWord) :
    s.doDebugDeviceWrite a size d = s.debugAction (countedWrite a size d) := rfl

theorem countedWrite_of_performed {t w : State} {a : BitVec 40} {size : Nat} {d : DWord}
    (hw : t.busWrite (.debug 0) a size d = w) (hr : w.reply = .none) : countedWrite a size d t = w.countCommit := by
  simp [countedWrite, hw, hr]

@[simp] theorem countCommit_reply (t : State) : t.countCommit.reply = t.reply := State.bump_reply _ _ _ _

end

/-- Settles O21: each message and each change finds room or not; a debug access is closed, refused or performed. -/
theorem messagesInterruptsAndDebugAccesses : Obligations.MessagesInterruptsAndDebugAccesses := by
  unfold Obligations.MessagesInterruptsAndDebugAccesses
  refine ⟨?message, ?claim, ?change, ?debug⟩
  case message =>
    exact fun v s => ⟨fun h => congrArg Host.Outcome.next (message_of_room v h),
      fun h => congrArg Host.Outcome.next (message_of_full v h)⟩
  case claim =>
    intro s
    refine ⟨fun h => congrArg Host.Outcome.next ?_, fun v l h => ⟨fun m hm => congrArg Host.Outcome.next ?_,
      congrArg Host.Outcome.next (doMsgClaim_cluster h)⟩⟩
    · rw [doMsgClaim_of_other (by decide), msgWord_nil h]
      rfl
    · rw [doMsgClaim_of_other hm, msgWord_cons h]
  case change =>
    exact fun l s => ⟨fun h => congrArg Host.Outcome.next (if_pos h),
      fun h => ⟨fun hroom => congrArg Host.Outcome.next (irqChange_of_room h hroom),
        fun hfull => congrArg Host.Outcome.next (irqChange_of_full h hfull)⟩⟩
  case debug =>
    intro a size d s
    refine ⟨fun h => ⟨?_, ?_⟩, fun ho h => ⟨?_, ?_⟩,
      fun ho h hp => ⟨fun w hw hr => ?write, fun r v hw hr => ?read⟩⟩
    · exact congrArg Host.Outcome.next (debugAction_of_closed _ h)
    · exact congrArg Host.Outcome.next (debugAction_of_closed _ h)
    · exact congrArg Host.Outcome.next (debugAction_of_running _ ho h)
    · exact congrArg Host.Outcome.next (debugAction_of_running _ ho h)
    case write =>
      refine congrArg Host.Outcome.next ((doDebugDeviceWrite_eq a size d).trans
        (debugAction_of_halted _ ho h hp (countedWrite_of_performed hw hr) ?_))
      rw [countCommit_reply, hr]
      decide
    case read =>
      refine congrArg Host.Outcome.next (debugAction_of_halted _ ho h hp hw ?_)
      rw [hr]
      exact Reply.noConfusion

end Sys2Proof.Proofs

namespace Sys2Proof.Proofs
open Sys2Proof Sys2Proof.Machine Sys2Proof.Safety Sys2Proof.Laws

/-! ## The architectural states of the copies: what leaves them as they were (R63, R89) -/

/-- The architectural state of each copy. -/
def archs (s : State) (k : Copy) : Tbl DWord × Tbl DWord × Tbl DWord × DWord × DWord × DWord := archOf (s.cp k)

theorem archs_congr {s t : State} (h : t.clu.copies = s.clu.copies) : archs t = archs s := by
  funext k
  rw [archs, State.cp, h, archs, State.cp]

theorem archs_setCp_same (s : State) (k : Copy) (v : CopyState) : archs (s.setCp k v) k = archOf v := by
  rw [archs, cp_setCp_same]

theorem archs_setCp_of_ne (s : State) {j k : Copy} (v : CopyState) (h : j ≠ k) : archs (s.setCp k v) j = archs s j := by
  rw [archs, cp_setCp_of_ne s v h, archs]

/-- A copy's other fields are not architectural. -/
theorem archs_setCp_of_arch {s : State} {k : Copy} {v : CopyState} (h : archOf v = archOf (s.cp k)) :
    archs (s.setCp k v) = archs s := by
  funext j
  by_cases hj : j = k
  · subst hj
    rw [archs_setCp_same, h, archs]
  · exact archs_setCp_of_ne s v hj

@[simp] theorem spendInject_clu (s : State) (p : Nat) : (s.spendInject p).clu = s.clu := by
  unfold State.spendInject
  extract_lets w
  split <;> rfl

@[simp] theorem ptApplied_clu (s : State) : s.ptApplied.clu = s.clu := State.bump_clu _ _ _ _

@[simp] theorem coreEvent_clu (s : State) (set : Nat) (priv : Fin 3) (n amt : Nat) :
    (s.coreEvent set priv n amt).clu = s.clu := by
  refine foldl_field State.clu _ (fun t k => ?_) _ s
  dsimp only
  split <;> rfl

@[simp] theorem tcmStore_clu (s : State) (k : Copy) (off : Nat) (bs : List Byte) : (s.tcmStore k off bs).clu = s.clu := by
  unfold State.tcmStore
  extract_lets p _ m s1 _ s2
  have h2 : s2.clu = s.clu := by
    simp only [s2]
    split
    · exact spendInject_clu _ _
    · rfl
  split
  · split <;> exact h2
  · exact h2

/-- A write of shared SRAM may lose the reservation, nothing else of the cluster. -/
theorem sramWrite_copies (s : State) (off : Nat) (bs : List Byte) : (s.sramWrite off bs).clu.copies = s.clu.copies := by
  unfold State.sramWrite
  extract_lets _ m res _ s1
  split
  · rw [spendInject_clu]
  · rfl

theorem sample_copies (s : State) (n : Nat) (r : Retirement) (instret : DWord) :
    (s.sample n r instret).clu.copies = s.clu.copies := by
  unfold State.sample
  extract_lets ctrl sm next s1 idx base
  split
  · rfl
  · split
    · rfl
    · split
      · rw [State.bump_clu, State.satReg_clu]
        rfl
      · rw [State.bump_clu, State.incReg_clu, sramWrite_copies]
        rfl

/-! ## Tussocks and targets (R83, R90, R91, R100, R129) -/

/-- SIG as the report of copy `k` carries it: PT_SIG may flip a bit (R462). -/
def sentSig (s : State) (k : Copy) : DWord :=
  if ptNames (s.pt Reg.perturb.ptSig) k then (s.cp k).sig ^^^ (1#64 <<< fieldOf (s.pt Reg.perturb.ptSig) 5 0)
  else (s.cp k).sig

/-- The report of copy `k`'s next tussock (R91). -/
def nextReport (s : State) (k : Copy) (trig : BitVec 6) : TussockReport :=
  ⟨(s.cp k).ckptNum + 1, (s.cp k).instret, (s.cp k).pc, sentSig s k, trig, k⟩

/-- A tussock numbers itself and sends its report, delayed by PT_CKPT or not, to both comparators; the rest of the
cluster stays. -/
theorem tussock_clu (s : State) (k : Copy) (trig : BitVec 6) :
    (s.tussock k trig).clu =
      { (s.setCp k { s.cp k with ckptNum := (s.cp k).ckptNum + 1 }).clu with
        flying := s.clu.flying ++
          [⟨.x, nextReport s k trig, ptNames (s.pt Reg.perturb.ptCkpt) k⟩,
            ⟨.y, nextReport s k trig, ptNames (s.pt Reg.perturb.ptCkpt) k⟩] } := by
  unfold State.tussock
  extract_lets c num ps flip sig r pd delay s1 _ s2 p s3 s4 s5 s6
  have h4 : s4.clu = s3.clu := by
    simp only [s4]
    split
    · rw [ptApplied_clu, State.setReg_clu]
    · rfl
  have h5 : s5.clu = s4.clu := by
    simp only [s5]
    split
    · split
      · rw [ptApplied_clu, State.setReg_clu]
      · exact ptApplied_clu _
    · rfl
  have h6 : s6.clu = s5.clu := by
    refine foldl_field State.clu _ (fun t i => ?_) _ s5
    split
    · exact State.bump_clu _ _ _ _
    · rfl
  rw [State.bump_clu, h6, h5, h4]
  rfl

theorem pt_of_closed {s : State} (h : s.obs.wsOpen = false) (off : Nat) : s.pt off = 0#32 := by
  simp [State.pt, h]

theorem ptNames_zero (k : Copy) : ptNames 0#32 k = false := by
  cases k <;> rfl

theorem tussock_archs (s : State) (k : Copy) (trig : BitVec 6) : archs (s.tussock k trig) = archs s := by
  refine (archs_congr ?_).trans
    (archs_setCp_of_arch (s := s) (k := k) (v := { s.cp k with ckptNum := (s.cp k).ckptNum + 1 }) rfl)
  rw [tussock_clu]

theorem archOf_reach (c : CopyState) (kind : TargetKind) : archOf (c.reach kind) = archOf c := by
  cases kind <;> rfl

/-- The targets that a copy reaches change no architectural state. -/
theorem archOf_reachAll (l : List Target) (c : CopyState) :
    archOf (l.foldl (fun c t => c.reach t.kind) c) = archOf c := by
  induction l generalizing c with
  | nil => rfl
  | cons t l ih => exact (ih _).trans (archOf_reach c t.kind)

theorem arriveAt_archs (s : State) (k : Copy) (trig : BitVec 6) : archs (s.arriveAt k trig) = archs s := by
  unfold State.arriveAt
  extract_lets due bits s1 s2 mark _ s3 s4 irqs s5 _ s6
  have h1 : archs s1 = archs s := by
    simp only [s1]
    split
    · rfl
    · exact tussock_archs s k bits
  have h2 : archs s2 = archs s1 := archs_setCp_of_arch (archOf_reachAll due (s1.cp k))
  have h4 : archs s4 = archs s3 := by
    simp only [s4]
    split
    · exact archs_congr (by rw [State.bump_clu, State.setReg64_clu])
    · rfl
  have h5 : archs s5 = archs s4 := by
    simp only [s5]
    split
    · exact archs_congr (by rw [State.bump_clu])
    · rfl
  have h6 : archs s6 = archs s5 := by
    simp only [s6]
    split <;> rfl
  calc archs s6.dropTargets = archs s6 := rfl
    _ = archs s3 := h6.trans (h5.trans h4)
    _ = archs s2 := rfl
    _ = archs s := h2.trans h1

theorem easeLead_archs (s : State) : archs s.easeLead = archs s := by
  refine foldl_field archs _ (fun t k => ?_) _ s
  split
  · exact archs_setCp_of_arch rfl
  · rfl

theorem haltNow_archs (s : State) (k : Copy) : archs (s.haltNow k) = archs s := by
  unfold State.haltNow
  extract_lets _ s1 s2
  have h1 : archs s1 = archs s := archs_setCp_of_arch rfl
  have h2 : archs s2 = archs s1 := by
    simp only [s2]
    split
    · exact archs_congr (by rw [State.bump_clu, State.setReg64_clu])
    · rfl
  split <;> exact h2.trans h1

/-! ## Retirements (R89, R90, R95, R128) -/

/-- The register that a retirement writes is apart from its count, its pc and its signature. -/
theorem retire_counts (c : CopyState) (r : Retirement) :
    (c.retire r).instret = c.instret + 1 ∧ (c.retire r).pc = r.nextPc
      ∧ (c.retire r).sig = crc64 c.sig (recordBytes c.csr r) := by
  unfold CopyState.retire
  extract_lets csr c1
  split
  · split <;> exact ⟨rfl, rfl, rfl⟩
  · exact ⟨rfl, rfl, rfl⟩
  · exact ⟨rfl, rfl, rfl⟩

/-- The cause of the copy's page that a read ECC cannot correct latches (R67). -/
def badReadCause : BadRead → Nat
  | .tcm => 5
  | .l1 => 6

section
variable {s : State} {k : Copy} {r : Retirement}

theorem participant_of_runs {c : CopyState} (h : c.runs = true) : c.participant = true := by
  simp only [CopyState.runs, Bool.and_eq_true] at h
  obtain ⟨⟨⟨⟨hpart, -⟩, -⟩, -⟩, -⟩ := h
  exact hpart

theorem doRetireCopy_of_independent (hp : (s.cp k).participant = false) :
    s.doRetireCopy k r = if (s.cp k).started then s.setCp k ((s.cp k).retire r) else s.answer .wait := by
  simp [State.doRetireCopy, hp]

section
variable (hr : (s.cp k).runs = true)
include hr

theorem doRetireCopy_of_lead_limit (hl : s.leadLimit ≤ s.lead k) :
    s.doRetireCopy k r = (s.setCp k { s.cp k with stall := 1 }).answer .wait := by
  simp [State.doRetireCopy, participant_of_runs hr, hr, hl]

section
variable (hl : s.lead k < s.leadLimit)
include hl

theorem doRetireCopy_of_bad {b : BadRead} (hb : r.bad = some b) :
    s.doRetireCopy k r = ((s.setCp k { s.cp k with held := true }).answer .wait).copyCause k (badReadCause b) := by
  unfold State.doRetireCopy
  rw [if_neg (by simp [participant_of_runs hr]), if_neg (by simp [hr]), if_neg (Nat.not_le.mpr hl), hb]
  rfl

/-- A retirement changes the architectural state of its own copy alone: what follows it, the store into TCM, the tussock
and the targets, the sampler and the halt, changes none. -/
theorem doRetireCopy_archs (hb : r.bad = none) :
    archs (s.doRetireCopy k r) = archs (s.setCp k ((s.cp k).retire r)) := by
  unfold State.doRetireCopy
  rw [if_neg (by simp [participant_of_runs hr]), if_neg (by simp [hr]), if_neg (Nat.not_le.mpr hl), hb]
  dsimp -zeta only
  extract_lets s1 _ s2 _ s3 s4 s5 s5' s6 s7 s8
  have h1 : archs s1 = archs (s.setCp k ((s.cp k).retire r)) :=
    archs_congr (by rw [State.bump_clu, State.answer_clu])
  have h2 : archs s2 = archs s1 := by
    simp only [s2]
    split
    · split
      · exact archs_congr (by rw [tcmStore_clu])
      · split
        · exact archs_setCp_of_arch rfl
        · rfl
    · rfl
  have h3 : archs s3 = archs s2 := by
    simp only [s3]
    split <;> rfl
  have h4 : archs s4 = archs s3 := by
    simp only [s4]
    split
    · rfl
    · exact archs_congr (by rw [State.bump_clu])
  have h5 : archs s5' = archs s4 := by
    simp only [s5', s5]
    split <;> exact arriveAt_archs s4 k _
  have h6 : archs s6 = archs s5' := archs_congr (by rw [State.maxReg_clu])
  have h7 : archs s7 = archs s6 := easeLead_archs s6
  have h8 : archs s8 = archs s7 := by
    simp only [s8]
    split
    · exact archs_congr (sample_copies s7 0 r _)
    · rfl
  have h9 : archs (if r.halts = true ∧ s8.obs.wsOpen = true then s8.haltNow k else s8) = archs s8 := by
    split
    · exact haltNow_archs s8 k
    · rfl
  calc archs (if r.halts = true ∧ s8.obs.wsOpen = true then s8.haltNow k else s8)
    _ = archs s6 := h9.trans (h8.trans h7)
    _ = archs s4 := h6.trans h5
    _ = archs s2 := h4.trans h3
    _ = archs (s.setCp k ((s.cp k).retire r)) := h2.trans h1

end

end

/-- The core events of a retirement reach the programmable counters alone. -/
theorem doInstructionRetire_clu (s : State) (k : Copy) (r : Retirement) :
    (s.doInstructionRetire (.copy k) r).clu = (s.doRetireCopy k r).clu := by
  unfold State.doInstructionRetire
  dsimp only
  split
  · exact foldl_field State.clu _ (fun t e => coreEvent_clu t _ _ _ _) _ _
  · rfl

theorem doInstructionRetire_of_no_events (s : State) (k : Copy) (he : r.events = []) :
    s.doInstructionRetire (.copy k) r = s.doRetireCopy k r := by
  unfold State.doInstructionRetire
  rw [he]
  dsimp only
  split <;> rfl

end

/-- Settles O22: a retirement takes the branch of the copy's role, of its lead and of its reads, and what follows the
retirement itself leaves every architectural state alone. -/
theorem retirementFoldsTheSignature : Obligations.RetirementFoldsTheSignature := by
  unfold Obligations.RetirementFoldsTheSignature
  refine ⟨fun k r s hr => ⟨fun hl hb => ?retires, fun hl he => ?limit, fun b hl hb he => ?bad⟩,
    fun k r s hp he => ⟨fun hs => ?started, fun hs => ?waits⟩, fun n r s => rfl, ?tussock⟩
  case retires =>
    have harchs : archs (s.doInstructionRetire (.copy k) r) = archs (s.setCp k ((s.cp k).retire r)) :=
      (archs_congr (by rw [doInstructionRetire_clu])).trans (doRetireCopy_archs hr hl hb)
    obtain ⟨hinstret, hpc, hsig⟩ := retire_counts (s.cp k) r
    exact ⟨_, rfl, (congrFun harchs k).trans (archs_setCp_same s k _), hinstret, hpc, hsig,
      fun j hj => (congrFun harchs j).trans (archs_setCp_of_ne s _ hj)⟩
  case limit =>
    exact congrArg Host.Outcome.next
      ((doInstructionRetire_of_no_events s k he).trans (doRetireCopy_of_lead_limit hr hl))
  case bad =>
    exact congrArg Host.Outcome.next ((doInstructionRetire_of_no_events s k he).trans (doRetireCopy_of_bad hr hl hb))
  case started =>
    exact congrArg Host.Outcome.next ((doInstructionRetire_of_no_events s k he).trans
      ((doRetireCopy_of_independent hp).trans (if_pos hs)))
  case waits =>
    exact congrArg Host.Outcome.next ((doInstructionRetire_of_no_events s k he).trans
      ((doRetireCopy_of_independent hp).trans (if_neg (Bool.eq_false_iff.mp hs))))
  case tussock =>
    intro k trig s h c r
    have hnames (off : Nat) : ptNames (s.pt off) k = false := by rw [pt_of_closed h, ptNames_zero]
    have hreport : nextReport s k trig = r := by
      simp only [nextReport, sentSig, hnames, Bool.false_eq_true, if_false, r, c]
    refine ⟨?_, ?_⟩
    · rw [tussock_clu, hreport, hnames]
    · rw [State.cp, tussock_clu]
      exact congrArg CopyState.ckptNum (cp_setCp_same s k { c with ckptNum := c.ckptNum + 1 })

end Sys2Proof.Proofs

namespace Sys2Proof.Proofs
open Sys2Proof Sys2Proof.Machine Sys2Proof.Laws

/-! ## Verdict pairs (R103, R104) -/

section
variable (s : State) (k : DWord)

@[simp] theorem takePair_participants (agreed : Option Verdict) : (s.takePair k agreed).participants = s.participants := by
  simp [State.takePair, State.participants]

@[simp] theorem takePair_red (agreed : Option Verdict) : (s.takePair k agreed).red = s.red := State.bump_red _ _ _ _

end

section
variable {s : State} {v : Verdict} (hp : s.participants = [.a, .b, .c])
include hp

theorem pairOutcome_of_three_agreements (h : v.agreements = 3) : s.pairOutcome v = (s, true) := by
  simp [State.pairOutcome, hp, h]

theorem pairOutcome_of_two_agreements (h : v.agreements = 2) : s.pairOutcome v = (s.lockoutCause 0x016 0 [], false) := by
  simp [State.pairOutcome, hp, h]

theorem pairOutcome_of_one_agreement (h : v.agreements = 1) (ho : s.red.odd = none) :
    s.pairOutcome v = (s.nameOdd v.outsider true, true) := by
  simp [State.pairOutcome, hp, h, ho]

theorem pairOutcome_of_no_agreement (h : v.agreements = 0) : s.pairOutcome v = (s.lockoutCause 0x016 2 [], false) := by
  simp [State.pairOutcome, hp, h]

end

section
variable {s : State} {k : DWord} {v : Verdict}

theorem doVerdictPair_of_same {w : Verdict} (hx : s.verdictOf .x k = some v) (hy : s.verdictOf .y k = some w)
    (h : v.same w = true) {u : State} {ok : Bool} (ho : (s.takePair k (some v)).pairOutcome v = (u, ok)) :
    s.doVerdictPair k = u.answerForced v.instret ok := by
  simp [State.doVerdictPair, hx, hy, h, ho]

theorem doVerdictPair_of_different {w : Verdict} (hx : s.verdictOf .x k = some v) (hy : s.verdictOf .y k = some w)
    (h : v.same w = false) :
    s.doVerdictPair k = ((s.takePair k none).lockoutCause 0x016 0 []).answerForced v.instret false := by
  simp [State.doVerdictPair, hx, hy, h]

theorem doVerdictMissing_of_one
    (h : (s.verdictOf .x k = some v ∧ s.verdictOf .y k = none) ∨ (s.verdictOf .x k = none ∧ s.verdictOf .y k = some v)) :
    s.doVerdictMissing k = ((s.takePair k none).lockoutCause 0x016 1 []).answerForced v.instret false := by
  obtain ⟨hx, hy⟩ | ⟨hx, hy⟩ := h <;> simp [State.doVerdictMissing, hx, hy]

end

/-! ## The passes of a reseed (R113, R116) -/

section
variable {s : State} {r : Reseed} (hr : s.red.reseed = some r)
include hr

theorem doReseedResetDone_of_resetting (hp : r.phase = 1) :
    s.doReseedResetDone = { s with
      red := { s.red with reseed := some { r with phase := 2, pass := 1, toCopy := List.range 512, dirty := [] } } } := by
  simp [State.doReseedResetDone, hr, hp]

theorem doReseedFailed_of_reseed (why : ReseedFailure) : s.doReseedFailed why = s.reseedFails := by
  simp [State.doReseedFailed, hr]

section
variable (hp : r.phase = 2)
include hp

theorem doReseedPassEnd_of_bad (hb : s.tcmBad r.source r.toCopy = true) : s.doReseedPassEnd = s.reseedFails := by
  simp [State.doReseedPassEnd, hr, hp, hb]

theorem doReseedPassEnd_of_good (hb : s.tcmBad r.source r.toCopy = false) :
    let s1 := (s.copyTcm r.source r.target r.toCopy).bump 0x016 2 r.toCopy.length
    s.doReseedPassEnd =
      if r.dirty.length ≤ 8 ∨ r.pass = 8 then
        { s1 with red := { s1.red with reseed := some { r with phase := 3, toCopy := [] } } }.setTarget .reseed
      else
        { s1 with red := { s1.red with
          reseed := some { r with pass := r.pass + 1, toCopy := r.dirty, dirty := [] } } } := by
  simp [State.doReseedPassEnd, hr, hp, hb]

end

end

/-! ## The release of a reseed (R114, R116) -/

theorem foldl_setCp_cp_of_notMem (f : CopyState → CopyState) {k : Copy} {l : List Copy} (h : k ∉ l) (s : State) :
    (l.foldl (fun t j => t.setCp j (f (t.cp j))) s).cp k = s.cp k := by
  induction l generalizing s with
  | nil => rfl
  | cons j l ih =>
    obtain ⟨hj, hl⟩ := not_or.mp (mt List.mem_cons.mpr h)
    exact (ih hl _).trans (cp_setCp_of_ne s _ hj)

/-- The dirty pages are in the target, and it has the source's architectural state (R114 items 2 to 5). -/
def handOver (s : State) (r : Reseed) : State :=
  (s.copyTcm r.source r.target r.dirty).setCp r.target ((s.cp r.target).rejoin (s.cp r.source) s.clu.performed)

/-- The ordinals restart in the participants that go on with the target `k` (R114 items 4 and 6). -/
def restartOthers (s : State) (k : Copy) : State :=
  (allCopies.filter fun j => j != k && (s.cp j).participant).foldl (fun t j => t.setCp j (t.cp j).restartOrdinals) s

/-- The reseed is over: the target has rejoined, the voter holds nothing, no copy is odd, and the history begins with
`e` (R114). -/
def rejoined (s : State) (r : Reseed) (e : ReseedEntry) : State :=
  let u := restartOthers (handOver s r) r.target
  { u with
    clu := { u.clu with slots := [], lateDiscard := [], gapRunning := true },
    red := { u.red with reseed := none, odd := none, history := e :: u.red.history } }

theorem restartOthers_cp_same (s : State) (k : Copy) : (restartOthers s k).cp k = s.cp k :=
  foldl_setCp_cp_of_notMem CopyState.restartOrdinals (by simp) s

theorem restartOthers_frame (s : State) (k : Copy) : { restartOthers s k with clu := s.clu } = s :=
  foldl_field (fun t => { t with clu := s.clu }) (fun t j => t.setCp j (t.cp j).restartOrdinals) (fun _ _ => rfl) _ s

/-- Of the state before, the end of a reseed leaves everything but the cluster, the reseed and the target's TCM. -/
theorem rejoined_frame (s : State) (r : Reseed) (e : ReseedEntry) :
    { rejoined s r e with clu := s.clu, red := s.red } = s.copyTcm r.source r.target r.dirty :=
  congrArg (fun t : State => { t with clu := s.clu, red := s.red }) (restartOthers_frame (handOver s r) r.target)

theorem rejoined_red (s : State) (r : Reseed) (e : ReseedEntry) :
    (rejoined s r e).red = { s.red with reseed := none, odd := none, history := e :: s.red.history } :=
  congrArg (fun t : State => { t.red with reseed := none, odd := none, history := e :: t.red.history })
    (restartOthers_frame (handOver s r) r.target)

theorem rejoined_cp_target (s : State) (r : Reseed) (e : ReseedEntry) :
    (rejoined s r e).cp r.target = (s.cp r.target).rejoin (s.cp r.source) s.clu.performed :=
  (restartOthers_cp_same (handOver s r) r.target).trans (cp_setCp_same _ _ _)

section
variable {s : State} {r : Reseed} (hr : s.red.reseed = some r) (hready : s.reseedReady r = true)
include hr hready

theorem doReseedRelease_of_failure (h : 1250000 ≤ s.ticksSince r.ltHold ∨ s.tcmBad r.source r.dirty = true) :
    s.doReseedRelease = s.reseedFails := by
  simp only [State.doReseedRelease, hr, hready]
  exact if_pos h

/-- With no halt request deferred, a release in time ends the reseed; what it writes besides are registers and counters
of the copy's and the redundancy pages. -/
theorem doReseedRelease_of_success (ht : s.ticksSince r.ltHold < 1250000) (hb : s.tcmBad r.source r.dirty = false)
    (hd : s.red.deferred = false) :
    ∃ e, s.doReseedRelease.clu = (rejoined s r e).clu ∧ s.doReseedRelease.red = (rejoined s r e).red
      ∧ s.doReseedRelease.mem = (rejoined s r e).mem ∧ s.doReseedRelease.time = (rejoined s r e).time
      ∧ s.doReseedRelease.faults = (rejoined s r e).faults := by
  have hgoes : ¬(1250000 ≤ s.ticksSince r.ltHold ∨ s.tcmBad r.source r.dirty = true) := by simp [ht, hb]
  simp -zeta only [State.doReseedRelease, hr, hready, Bool.not_true, Bool.false_eq_true, if_false, if_neg hgoes]
  extract_lets _ _ _ e _ _ _ _ _ s4 s5 s6 s7
  have hs4 : s4 = rejoined s r e := rfl
  have hdeferred : s7.red.deferred = false := by simp [s7, s6, s5, hs4, rejoined_red, hd]
  refine ⟨e, ?_⟩
  simp only [hdeferred, Bool.false_eq_true, if_false, ← hs4]
  simp [s7, s6, s5]

end

/-! ## RESEED_REPORT (R133) -/

section
variable {s : State} (ha : s.opActive 0x016 1 = true)
include ha

theorem doReseedReport_of_outside (h : fieldOf (s.op 0x016).arg0 6 0 = 0 ∨ 64 < fieldOf (s.op 0x016).arg0 6 0) :
    s.doReseedReport = s.opFail 0x016 2#32 := by
  simp only [State.doReseedReport, ha]
  exact if_pos h

theorem doReseedReport_of_inside (h1 : 1 ≤ fieldOf (s.op 0x016).arg0 6 0) (h64 : fieldOf (s.op 0x016).arg0 6 0 ≤ 64) :
    let es := s.red.history.take (fieldOf (s.op 0x016).arg0 6 0)
    let s1 := (es.foldl (fun (t : State × Nat) e => (t.1.reportEntry t.2 e, t.2 + 1)) (s, 0)).1
    s.doReseedReport = (s1.setOp 0x016 ((s1.op 0x016).advance es.length es.length)).opDone 0x016 := by
  have hin : ¬(fieldOf (s.op 0x016).arg0 6 0 = 0 ∨ 64 < fieldOf (s.op 0x016).arg0 6 0) := by omega
  simp only [State.doReseedReport, ha]
  exact if_neg hin

end

/-- Settles O25: the pair by its agreements, the passes by their dirty pages, the release by its time and the source's
TCM, the report by its count. -/
theorem verdictPairsNameCopiesAndReseedsRejoin : Obligations.VerdictPairsNameCopiesAndReseedsRejoin := by
  unfold Obligations.VerdictPairsNameCopiesAndReseedsRejoin
  refine ⟨fun k v w s hx hy => ⟨fun hs hp => ?same, fun hs => ?different⟩, fun k v s h => ?missing,
    fun r s hr => ⟨fun hp => ?resetDone, fun hp hb => ?passEnd, fun hp hb => ?passFails, fun why => ?failed,
      fun hready => ⟨fun h => ?releaseFails, fun ht hb _ hd => ?release⟩⟩,
    fun s ha => ⟨fun hn => ?outside, fun h1 h64 => ?inside⟩⟩
  case same =>
    intro p
    have hp3 : p.participants = [.a, .b, .c] := (takePair_participants s k _).trans hp
    have hpair {u : State} {ok : Bool} (ho : p.pairOutcome v = (u, ok)) :
        exec (.verdictPair k) s = .next (u.answerForced v.instret ok) :=
      congrArg Host.Outcome.next (doVerdictPair_of_same hx hy hs ho)
    refine ⟨fun h => hpair (pairOutcome_of_three_agreements hp3 h), fun h => hpair (pairOutcome_of_two_agreements hp3 h),
      fun h ho => hpair (pairOutcome_of_one_agreement hp3 h ?_), fun h => hpair (pairOutcome_of_no_agreement hp3 h)⟩
    rw [takePair_red, ho]
  case different => exact congrArg Host.Outcome.next (doVerdictPair_of_different hx hy hs)
  case missing => exact congrArg Host.Outcome.next (doVerdictMissing_of_one h)
  case resetDone => exact congrArg Host.Outcome.next (doReseedResetDone_of_resetting hr hp)
  case passEnd =>
    intro s1
    have hend := doReseedPassEnd_of_good hr hp hb
    exact ⟨fun h => congrArg Host.Outcome.next (hend.trans (if_pos h)),
      fun hdirty hpass => congrArg Host.Outcome.next (hend.trans (if_neg (by omega)))⟩
  case passFails => exact congrArg Host.Outcome.next (doReseedPassEnd_of_bad hr hp hb)
  case failed => exact congrArg Host.Outcome.next (doReseedFailed_of_reseed hr why)
  case releaseFails => exact congrArg Host.Outcome.next (doReseedRelease_of_failure hr hready h)
  case release =>
    obtain ⟨e, hclu, hred, hmem, htime, hfaults⟩ := doReseedRelease_of_success hr hready ht hb hd
    have hcp : s.doReseedRelease.cp r.target = (s.cp r.target).rejoin (s.cp r.source) s.clu.performed := by
      rw [State.cp, hclu]
      exact rejoined_cp_target s r e
    have hframe := rejoined_frame s r e
    refine ⟨_, rfl, ?_⟩
    rw [hcp, hred, hclu]
    exact ⟨rfl, rfl, rfl, rfl, rfl, rfl, rfl, rfl, hmem.trans (congrArg State.mem hframe :),
      htime.trans (congrArg State.time hframe :), hfaults.trans (congrArg State.faults hframe :)⟩
  case outside => exact congrArg Host.Outcome.next (doReseedReport_of_outside ha hn)
  case inside => exact congrArg Host.Outcome.next (doReseedReport_of_inside ha h1 h64)

end Sys2Proof.Proofs

namespace Sys2Proof.Proofs
open Sys2Proof Sys2Proof.Machine Sys2Proof.Laws Sys2Proof.Safety

/-! ## One Benmi instruction on engines that agree, by the shape of its effect (R136, R137, R148, R153, R161) -/

section
variable {s : State} {p op sp ad : Nat} {second : Option Word} {sem : Ctx → Eff}

theorem of_standsAt (hs : standsAt s p op sp ad second = true) :
    s.cle.running = some p ∧ (s.prog p).state = 4
      ∧ (s.cle.regs.eng s.lowEngine).pc < (s.imageHeader p).codeWords
      ∧ opOf (s.pm (s.imageBase p + 16 + (s.cle.regs.eng s.lowEngine).pc)) = op := by
  simp only [standsAt, Bool.and_eq_true, beq_iff_eq, decide_eq_true_eq] at hs
  obtain ⟨⟨⟨⟨⟨⟨⟨hrun, hstate⟩, hpc⟩, hop⟩, _⟩, _⟩, _⟩, _⟩ := hs
  exact ⟨hrun, hstate, hpc, hop⟩

variable (hs : standsAt s p op sp ad second = true) (ha : enginesAgree s = true)
include hs ha

/-- An effect that neither fails nor ends the execute phase nor an error-task call is left in every engine. -/
theorem next_runInsn_of_effect {r : EngRegs} {w : List (Nat × List Byte)} {rd : List (Nat × Nat)} {n : Nat}
    (he : sem (ctxOf s p) = ⟨r, w, rd, none, n, false, false⟩) :
    (Host.Outcome.next (s.runInsn op sp ad second sem) : Result) = .next (benmiLeaves s p op r w n) :=
  congrArg Host.Outcome.next (State.runInsn_leaves s p op sp ad second sem r w n hs ha ⟨rd, he⟩)

/-- The instruction goes on with the next one, `n` cycles beyond the first: the registers `r` name the new pc. -/
theorem next_runInsn_of_next {r : EngRegs} {w : List (Nat × List Byte)} {rd : List (Nat × Nat)} (n : Nat)
    (he : sem (ctxOf s p) = ⟨r, w, rd, none, n + 1 + ((ctxOf s p).len - 1), false, false⟩) :
    (Host.Outcome.next (s.runInsn op sp ad second sem) : Result) =
      .next (benmiLeaves s p op r w (1 + ((ctxOf s p).len - 1) + n)) := by
  rw [show 1 + ((ctxOf s p).len - 1) + n = n + 1 + ((ctxOf s p).len - 1) by omega]
  exact next_runInsn_of_effect hs ha he

theorem next_runInsn_of_toBa {b : Bool} (he : sem (ctxOf s p) = (ctxOf s p).toBa b) :
    (Host.Outcome.next (s.runInsn op sp ad second sem) : Result) = .next (benmiLeaves s p op
      { (ctxOf s p).r with ba := b, pc := (ctxOf s p).r.pc + (ctxOf s p).len } [] (1 + ((ctxOf s p).len - 1))) :=
  next_runInsn_of_next hs ha 0 he

theorem next_runInsn_of_fails {code : Nat} (he : sem (ctxOf s p) = (ctxOf s p).fails code) :
    (Host.Outcome.next (s.runInsn op sp ad second sem) : Result) =
      .next ((if s.engines.length = 2 then s.setCle { s.cle with differing := false } else s).stopProgram p code 1) :=
  congrArg Host.Outcome.next (State.runInsn_fails s p op sp ad second sem code hs ha (congrArg Eff.fault he))

end

/-! ## The bit instructions and branches (R148, R153, R161) -/

section
variable {c : Ctx}

theorem openBranch_of_room {join : Bool} (h : c.r.br.length < 16) :
    c.openBranch join = c.next { c.r with br := (c.r.ba, join) :: c.r.br } 1 :=
  if_pos h

theorem openBranch_of_full {join : Bool} (h : 16 ≤ c.r.br.length) : c.openBranch join = c.fails 3 :=
  if_neg (Nat.not_lt.mpr h)

theorem semBrc_of_branch {x k : Bool} {t : List (Bool × Bool)} (h : c.r.br = (x, k) :: t) :
    semBrc c = c.next { c.r with ba := if k then x || c.r.ba else x && c.r.ba, br := t } 1 := by
  simp only [semBrc, h]

theorem semBrc_of_none (h : c.r.br = []) : semBrc c = c.fails 4 := by
  simp only [semBrc, h]

end

/-- Settles O30: the combining instructions set BA, a branch opens by the room on its stack, BRC by its top. -/
theorem benmiBitLogic : Obligations.BenmiBitLogic := by
  unfold Obligations.BenmiBitLogic
  intro p sp ad s ha c u b go n
  refine ⟨fun hs => next_runInsn_of_toBa hs ha rfl, fun hs => next_runInsn_of_toBa hs ha rfl,
    fun hs => next_runInsn_of_toBa hs ha rfl, fun hs => next_runInsn_of_toBa hs ha rfl,
    fun hs => next_runInsn_of_toBa hs ha rfl, fun hs => next_runInsn_of_toBa hs ha rfl,
    fun hs => next_runInsn_of_toBa hs ha rfl, fun hs => next_runInsn_of_toBa hs ha rfl,
    fun hs => next_runInsn_of_next hs ha 0 rfl, fun hs => ?bra, fun hs => ?bro, fun hs => ?brc⟩
  case bra | bro =>
    exact ⟨fun h => next_runInsn_of_next hs ha 0 (openBranch_of_room h),
      fun h => next_runInsn_of_fails hs ha (openBranch_of_full h)⟩
  case brc =>
    exact ⟨fun x t h => next_runInsn_of_next hs ha 0 (semBrc_of_branch h),
      fun x t h => next_runInsn_of_next hs ha 0 (semBrc_of_branch h),
      fun h => next_runInsn_of_fails hs ha (semBrc_of_none h)⟩

end Sys2Proof.Proofs

namespace Sys2Proof.Proofs
open Sys2Proof Sys2Proof.Machine Sys2Proof.Laws Sys2Proof.Safety

/-! ## Bit stores, edges and discrepancy pairs (R153, R158 to R160, R187, R201) -/

section
variable {c : Ctx}

theorem semSetb_of_one (h : c.r.ba = true) : semSetb c = c.storeBit c.r true 1 :=
  if_pos h

theorem semSetb_of_zero (h : c.r.ba = false) : semSetb c = c.next c.r 1 :=
  if_neg (Bool.eq_false_iff.mp h)

theorem semClrb_of_zero (h : c.r.ba = false) : semClrb c = c.next c.r 1 := by
  simp [semClrb, h]

theorem semClrb_of_timer (h : c.r.ba = true) (h4 : c.sp = 4) :
    semClrb c = { c.next c.r 1 with
      writes := [(timerOff c.ad, timerBytes 0 (memLe c.m (timerOff c.ad + 4) 4)
        (BitVec.ofNat 64 (memLe c.m (timerOff c.ad + 8) 8)) (setBit (setBit (timerInst c.m c.ad) 29 false) 30 false))],
      reads := [(timerOff c.ad, 20)] } := by
  simp [semClrb, h, h4]

theorem semClrb_of_counter (h : c.r.ba = true) (h5 : c.sp = 5) :
    semClrb c = { c.next c.r 1 with
      writes := [(counterOff c.ad, counterBytes 0#32 (BitVec.ofNat 32 (memLe c.m (counterOff c.ad + 4) 4))
        (setBit (counterInst c.m c.ad) 30 false))],
      reads := [(counterOff c.ad, 12)] } := by
  simp [semClrb, h, h5]

theorem semClrb_of_bit (h : c.r.ba = true) (h4 : c.sp ≠ 4) (h5 : c.sp ≠ 5) : semClrb c = c.storeBit c.r false 1 := by
  simp [semClrb, h, h4, h5]

theorem edge_of_unexchanged (result : Bool → Bool → Bool) (h : c.exchanged = false) :
    c.edge result = c.storeBit { c.r with ba := result c.r.ba (dataBit c.m 3 c.ad) } c.r.ba 1 := by
  simp [Ctx.edge, h]

/-- A bit of the fresh-edge set reports no edge and leaves the set (R201). -/
theorem edge_of_fresh (result : Bool → Bool → Bool) {i : Nat} (h : c.exchanged = true) (hi : freshIndex c.m c.ad = some i) :
    c.edge result = { c.storeBit { c.r with ba := false } c.r.ba 2 with
      writes := [(bitBase c.sp + c.ad / 8, putBit [memByte c.m (bitBase c.sp + c.ad / 8)] (c.ad % 8) c.r.ba),
        (freshOff i, leBytes 4 0xffffffff)] } := by
  simp [Ctx.edge, Ctx.storeBit, h, hi]

theorem semDch_of_configured (h : c.pairs.contains c.ad = true) :
    semDch c = { c.next { c.r with ba := (memByte c.m (pairOff c.ad + 2)).getLsbD 3 } 2 with
      reads := [(pairOff c.ad, 4)] } :=
  if_pos h

theorem semDch_of_unconfigured (h : c.pairs.contains c.ad = false) : semDch c = c.fails 2 :=
  if_neg (Bool.eq_false_iff.mp h)

end

/-- Settles O31: a store writes its one bit, CLRB by its operand's space, an edge by the fresh-edge set, DCH by the
image's pairs. -/
theorem benmiBitStoresAndEdges : Obligations.BenmiBitStoresAndEdges := by
  unfold Obligations.BenmiBitStoresAndEdges
  intro p sp ad s ha c u n on o put old
  refine ⟨fun hs => next_runInsn_of_next hs ha 0 rfl, fun hs => next_runInsn_of_next hs ha 0 rfl, fun hs => ?setb,
    fun hs => ?clrb, fun hs => ?edgr, fun hs => ?edgf, fun hs => ?dch⟩
  case setb =>
    cases hb : c.r.ba with
    | false => exact next_runInsn_of_next hs ha 0 (semSetb_of_zero hb)
    | true => exact next_runInsn_of_next hs ha 0 (semSetb_of_one hb)
  case clrb =>
    exact ⟨fun hb => next_runInsn_of_next hs ha 0 (semClrb_of_zero hb),
      fun hb h4 => next_runInsn_of_next hs ha 0 (semClrb_of_timer hb h4),
      fun hb h5 => next_runInsn_of_next hs ha 0 (semClrb_of_counter hb h5),
      fun hb h4 h5 => next_runInsn_of_next hs ha 0 (semClrb_of_bit hb h4 h5)⟩
  case edgr | edgf =>
    exact ⟨fun h => next_runInsn_of_next hs ha 0 (edge_of_unexchanged _ h),
      fun _ h hi => next_runInsn_of_next hs ha 1 (edge_of_fresh _ h hi)⟩
  case dch =>
    exact ⟨fun h => next_runInsn_of_next hs ha 1 (semDch_of_configured h),
      fun h => next_runInsn_of_fails hs ha (semDch_of_unconfigured h)⟩

end Sys2Proof.Proofs

namespace Sys2Proof.Proofs
open Sys2Proof Sys2Proof.Machine Sys2Proof.Laws Sys2Proof.Safety

/-! ## Timers, counters and words (R151, R153, R154, R157 to R159) -/

/-- Settles O32: a timer or counter stores its record and leaves BA equal to Q, one cycle beyond the first. -/
theorem benmiTimersAndCounters : Obligations.BenmiTimersAndCounters := by
  unfold Obligations.BenmiTimersAndCounters
  refine ⟨fun p sp ad s ha => ?timers, fun p sp ad s ha => ?counters⟩
  case timers =>
    intro c n on inst last t0 stored
    exact ⟨fun hs t ht => ht ▸ next_runInsn_of_next hs ha 1 rfl, fun hs t ht => ht ▸ next_runInsn_of_next hs ha 1 rfl,
      fun hs t ht => ht ▸ next_runInsn_of_next hs ha 1 rfl⟩
  case counters =>
    intro c n on inst v
    exact ⟨fun hs => next_runInsn_of_next hs ha 1 rfl, fun hs => next_runInsn_of_next hs ha 1 rfl⟩

/-- Settles O33: every word instruction goes on with the next one, MOVW past its second word. -/
theorem benmiWordArithmetic : Obligations.BenmiWordArithmetic := by
  unfold Obligations.BenmiWordArithmetic
  refine ⟨fun p sp ad second s ha => ?operand, fun p sp ad s ha => ?plain⟩
  case operand =>
    intro c n on x a
    exact ⟨fun hs => next_runInsn_of_next hs ha 0 rfl, fun hs => next_runInsn_of_next hs ha 0 rfl,
      fun hs => next_runInsn_of_next hs ha 0 rfl, fun hs => next_runInsn_of_next hs ha 2 rfl,
      fun hs => next_runInsn_of_next hs ha 0 rfl, fun hs => next_runInsn_of_next hs ha 0 rfl,
      fun hs => next_runInsn_of_next hs ha 0 rfl, fun hs => next_runInsn_of_next hs ha 0 rfl,
      fun hs => next_runInsn_of_next hs ha 0 rfl, fun hs => next_runInsn_of_next hs ha 0 rfl,
      fun hs => next_runInsn_of_effect hs ha rfl⟩
  case plain =>
    intro c n on
    exact ⟨fun hs => next_runInsn_of_next hs ha 0 rfl, fun hs => next_runInsn_of_next hs ha 0 rfl,
      fun hs => next_runInsn_of_next hs ha 0 rfl, fun hs => next_runInsn_of_next hs ha 0 rfl⟩

end Sys2Proof.Proofs

namespace Sys2Proof.Proofs
open Sys2Proof Sys2Proof.Machine Sys2Proof.Laws Sys2Proof.Safety

/-! ## Jumps, calls, END and the program faults (R152, R153, R161, R176, R193) -/

section
variable {c : Ctx}

theorem semJbt_of_one (h : c.r.ba = true) : semJbt c = c.goto c.ad 2 :=
  if_pos h

theorem semJbt_of_zero (h : c.r.ba = false) : semJbt c = c.next c.r 1 :=
  if_neg (Bool.eq_false_iff.mp h)

theorem semJbf_of_one (h : c.r.ba = true) : semJbf c = c.next c.r 1 :=
  if_pos h

theorem semJbf_of_zero (h : c.r.ba = false) : semJbf c = c.goto c.ad 2 :=
  if_neg (Bool.eq_false_iff.mp h)

theorem semCall_of_room (h : c.r.calls.length < 8) :
    semCall c = ⟨{ c.r with pc := c.ad, calls := some (c.r.pc + 1) :: c.r.calls }, [], [], none, 2, false, false⟩ :=
  if_pos h

theorem semCall_of_full (h : 8 ≤ c.r.calls.length) : semCall c = c.fails 5 :=
  if_neg (Nat.not_lt.mpr h)

theorem semRet_of_call {n : Nat} {t : List (Option Nat)} (h : c.r.calls = some n :: t) :
    semRet c = ⟨{ c.r with pc := n, calls := t }, [], [], none, 2, false, false⟩ := by
  simp only [semRet, h]

theorem semRet_of_none (h : c.r.calls = []) : semRet c = c.fails 6 := by
  simp only [semRet, h]

theorem semRet_of_open_branch {t : List (Option Nat)} (h : c.r.calls = none :: t) (hb : c.r.br ≠ []) :
    semRet c = c.fails 7 := by
  simp only [semRet, h]
  exact if_pos hb

theorem semEnd_of_open (h : c.r.br ≠ [] ∨ c.r.calls ≠ []) : semEnd c = c.fails 7 :=
  if_pos h

theorem semEnd_of_closed (hb : c.r.br = []) (hc : c.r.calls = []) : semEnd c = ⟨c.r, [], [], none, 1, true, false⟩ := by
  simp [semEnd, hb, hc]

end

section
variable {s : State} {p : Nat} (hrun : s.cle.running = some p) (hstate : (s.prog p).state = 4)
include hrun hstate

theorem doBenmiEnd_of_code_end (sp ad : Nat)
    (h : (s.imageHeader p).codeWords ≤ (s.cle.regs.eng s.lowEngine).pc) : s.doBenmiEnd sp ad = s.stopProgram p 8 1 := by
  simp [State.doBenmiEnd, hrun, hstate, h]

variable (hpc : (s.cle.regs.eng s.lowEngine).pc < (s.imageHeader p).codeWords)
include hpc

theorem doBenmiEnd_of_unknown (sp ad : Nat)
    (h : opcodeKnown (opOf (s.pm (s.imageBase p + 16 + (s.cle.regs.eng s.lowEngine).pc))) = false) :
    s.doBenmiEnd sp ad = s.stopProgram p 1 1 := by
  simp [State.doBenmiEnd, hrun, hstate, Nat.not_le.mpr hpc, h]

theorem doBenmiEnd_of_known (sp ad : Nat)
    (h : opcodeKnown (opOf (s.pm (s.imageBase p + 16 + (s.cle.regs.eng s.lowEngine).pc))) = true) :
    s.doBenmiEnd sp ad = s.runInsn 0x7f sp ad none semEnd := by
  simp [State.doBenmiEnd, hrun, hstate, Nat.not_le.mpr hpc, h]

/-- An illegal instruction makes no effect of its own (R152, R161). -/
theorem runInsn_of_illegal (sem : Ctx → Eff)
    (h : insnOk s.pm (s.imageBase p + 16) (s.imageHeader p).codeWords (s.cle.regs.eng s.lowEngine).pc = false) :
    let w := s.pm (s.imageBase p + 16 + (s.cle.regs.eng s.lowEngine).pc)
    s.runInsn (opOf w) (spOf w) (adOf w) none sem = s.stopProgram p 2 1 := by
  simp [State.runInsn, hrun, hstate, Nat.not_le.mpr hpc, h]

end

theorem doBenmiEnd_of_standsAt {s : State} {p sp ad : Nat} (hs : standsAt s p 0x7f sp ad none = true) :
    s.doBenmiEnd sp ad = s.runInsn 0x7f sp ad none semEnd := by
  obtain ⟨hrun, hstate, hpc, hop⟩ := of_standsAt hs
  exact doBenmiEnd_of_known hrun hstate hpc sp ad (by rw [hop]; decide)

/-- The end of the execute phase: the engines are free and the program stages its outputs (R176). -/
theorem applyEff_of_fin (s : State) (p codeWords op : Nat) (l : List EngineOut) {eff : Eff} (hf : eff.fault = none)
    (hfin : eff.fin = true) :
    (s.applyEff p codeWords op l eff).cle.running = none ∧ ((s.applyEff p codeWords op l eff).prog p).state = 6 := by
  simp [State.applyEff, hf, hfin, State.prog, State.setProg, tblRead_write_same]

/-- Settles O34: jumps by BA, calls by the room on their stack, returns by its top, END by what is open, the faults of
the code by what stands at the pc. -/
theorem benmiControlFlow : Obligations.BenmiControlFlow := by
  unfold Obligations.BenmiControlFlow
  refine ⟨fun p sp ad s ha => ?jumps, fun p sp ad s ha hs => ?finish, fun p sp ad s hrun hstate => ?faults⟩
  case jumps =>
    intro c u n
    refine ⟨fun hs => next_runInsn_of_effect hs ha rfl, fun hs => ?jbt, fun hs => ?jbf, fun hs => ?call, fun hs => ?ret⟩
    case jbt =>
      cases hb : c.r.ba with
      | false => exact next_runInsn_of_next hs ha 0 (semJbt_of_zero hb)
      | true => exact next_runInsn_of_effect hs ha (semJbt_of_one hb)
    case jbf =>
      cases hb : c.r.ba with
      | false => exact next_runInsn_of_effect hs ha (semJbf_of_zero hb)
      | true => exact next_runInsn_of_next hs ha 0 (semJbf_of_one hb)
    case call =>
      exact ⟨fun h => next_runInsn_of_effect hs ha (semCall_of_room h),
        fun h => next_runInsn_of_fails hs ha (semCall_of_full h)⟩
    case ret =>
      exact ⟨fun _ _ h => next_runInsn_of_effect hs ha (semRet_of_call h),
        fun h => next_runInsn_of_fails hs ha (semRet_of_none h),
        fun _ h hb => next_runInsn_of_fails hs ha (semRet_of_open_branch h hb)⟩
  case finish =>
    intro u
    have hexec : exec (.benmiEnd sp ad) s = .next (s.runInsn 0x7f sp.toNat ad.toNat none semEnd) :=
      congrArg Host.Outcome.next (doBenmiEnd_of_standsAt hs)
    rw [hexec]
    refine ⟨fun h => next_runInsn_of_fails hs ha (semEnd_of_open h), fun hb hc => ⟨_, rfl, ?_⟩⟩
    rw [State.runInsn_agreed s p 0x7f sp.toNat ad.toNat none semEnd hs ha, semEnd_of_closed hb hc]
    exact applyEff_of_fin _ p _ _ _ rfl rfl
  case faults =>
    intro code pc w
    refine ⟨fun h => congrArg Host.Outcome.next (doBenmiEnd_of_code_end hrun hstate _ _ h),
      fun hpc h => congrArg Host.Outcome.next (doBenmiEnd_of_unknown hrun hstate hpc _ _ h),
      fun op sem hpc hop hsp had h => ?_⟩
    rw [← hop, ← hsp, ← had]
    exact runInsn_of_illegal hrun hstate hpc sem h

end Sys2Proof.Proofs

namespace Sys2Proof.Proofs
open Sys2Proof Sys2Proof.Machine Sys2Proof.Laws

/-! ## SYNC requests, targets and their application (R226), the chain's restart (R322) -/

section
variable {s : State}

theorem doSyncCmd_of_request {m : Master} {v : Word} (hm : s.mayWritePage m 0x140 Reg.timebase.syncCmd = true)
    (hv : bitOf v 0 = true) : s.doSyncCmd m v = s.syncRequest.answer .none := by
  simp [State.doSyncCmd, hm, hv]

theorem doSyncCmd_of_zero {m : Master} {v : Word} (hm : s.mayWritePage m 0x140 Reg.timebase.syncCmd = true)
    (hv : bitOf v 0 = false) : s.doSyncCmd m v = s.answer .none := by
  simp [State.doSyncCmd, hm, hv]

theorem syncRequest_of_master (hm : s.isMaster = true) (ht : s.time.syncTarget = none) :
    s.syncRequest = s.syncTargetIs
      (s.ntRead + BitVec.ofNat 64 (s.field 0x140 Reg.timebase.syncLead 13 0 * 1000)) (s.ntSource == 0) :=
  if_pos ⟨hm, ht⟩

/-- An ignored request counts in SYNC_COUNT[31:16]. -/
theorem syncRequest_of_ignored (h : s.isMaster = false ∨ s.time.syncTarget ≠ none) :
    s.syncRequest = (s.setReg 0x140 Reg.timebase.syncCount
      (satField (s.reg 0x140 Reg.timebase.syncCount) 31 16 1)).bump 0x141 5 1 := by
  have hno : ¬(s.isMaster = true ∧ s.time.syncTarget = none) := by
    rintro ⟨hm, ht⟩
    obtain hm' | ht' := h
    · exact absurd hm (Bool.eq_false_iff.mp hm')
    · exact ht' ht
  exact if_neg hno

/-- NT_SOURCE is no stored register, so that the target written leaves it as it was. -/
theorem setReg64_ntSource (s : State) (p off : Nat) (v : DWord) : (s.setReg64 p off v).ntSource = s.ntSource := rfl

theorem syncTargetIs_of_unaligned (t : DWord) {masterNoNt : Bool} (h : s.ntSource = 0 ∨ masterNoNt = true) :
    s.syncTargetIs t masterNoNt = (s.setReg64 0x140 Reg.timebase.syncTargetLo t).applySync.raise 0x141 3 [] := by
  rw [← setReg64_ntSource s 0x140 Reg.timebase.syncTargetLo t] at h
  exact if_pos h

theorem syncTargetIs_of_aligned (t : DWord) {masterNoNt : Bool} (hs : s.ntSource ≠ 0) (hm : masterNoNt = false) :
    s.syncTargetIs t masterNoNt = (s.setReg64 0x140 Reg.timebase.syncTargetLo t).setTime
      { (s.setReg64 0x140 Reg.timebase.syncTargetLo t).time with syncTarget := some t } := by
  rw [← setReg64_ntSource s 0x140 Reg.timebase.syncTargetLo t] at hs
  exact if_neg (not_or.mpr ⟨hs, Bool.eq_false_iff.mp hm⟩)

section
variable {t : DWord} (ht : s.time.syncTarget = some t)
include ht

theorem doSyncApply_of_reached (h : t.toNat ≤ s.time.nt.toNat) : s.doSyncApply = s.applySync := by
  simp [State.doSyncApply, ht, h]

theorem doSyncApply_of_ahead (h : s.time.nt.toNat < t.toNat) : s.doSyncApply = s := by
  simp [State.doSyncApply, ht, Nat.not_le.mpr h]

end

end

section
variable (s : State)

@[simp] theorem applySync_time : s.applySync.time = { s.time with syncTarget := none } := by
  simp [State.applySync]

@[simp] theorem applySync_measSync : s.applySync.measSync = s.measSync + 1 := by
  simp [State.applySync]

@[simp] theorem applySync_mem : s.applySync.mem = s.mem := by
  simp [State.applySync]

@[simp] theorem applySync_faults : s.applySync.faults = s.faults := by
  simp [State.applySync]

@[simp] theorem applySync_clu : s.applySync.clu = s.clu := by
  simp [State.applySync]

/-- The event counter is no register, so that an applied SYNC writes SYNC_COUNT alone. -/
theorem applySync_reg (p off : Nat) :
    s.applySync.reg p off = (s.setReg 0x140 Reg.timebase.syncCount
      (satField (s.reg 0x140 Reg.timebase.syncCount) 15 0 1)).reg p off :=
  State.reg_congr (State.bump_regs _ _ _ _) p off

theorem applySync_reg_syncCount :
    s.applySync.reg 0x140 Reg.timebase.syncCount = satField (s.reg 0x140 Reg.timebase.syncCount) 15 0 1 := by
  rw [applySync_reg, State.reg_setReg_same]

end

/-- Settles O29: a request finds the master free or is ignored, a target finds NT with a source or applies at once, a
pending target is reached or still ahead, and MEAS_SYNC finds a SYNC waiting or not. -/
theorem syncRestartsOnTargets : Obligations.SyncRestartsOnTargets := by
  unfold Obligations.SyncRestartsOnTargets
  refine ⟨fun m v s hm => ⟨fun hv => ?command, fun hv => ?noCommand⟩,
    fun s => ⟨fun hm ht => ?target, fun h => ?ignored⟩,
    fun t no s => ⟨fun h => ?unaligned, fun hs hno => ?aligned⟩,
    fun t s ht => ⟨fun h => ?reached, fun h => ?ahead⟩,
    fun s => ⟨fun h => ?noSync, fun h => ?restart⟩⟩
  case command => exact congrArg Host.Outcome.next (doSyncCmd_of_request hm hv)
  case noCommand => exact congrArg Host.Outcome.next (doSyncCmd_of_zero hm hv)
  case target => exact congrArg Host.Outcome.next (syncRequest_of_master hm ht)
  case ignored => exact congrArg Host.Outcome.next (syncRequest_of_ignored h)
  case unaligned => exact congrArg Host.Outcome.next (syncTargetIs_of_unaligned t h)
  case aligned => exact congrArg Host.Outcome.next (syncTargetIs_of_aligned t hs hno)
  case reached =>
    refine ⟨s.applySync, congrArg Host.Outcome.next (doSyncApply_of_reached ht h), ?_⟩
    exact ⟨applySync_time s, applySync_measSync s, applySync_reg_syncCount s, applySync_mem s, applySync_faults s,
      applySync_clu s⟩
  case ahead => exact congrArg Host.Outcome.next (doSyncApply_of_ahead ht h)
  case noSync => exact congrArg Host.Outcome.next (if_pos h)
  case restart => exact congrArg Host.Outcome.next (if_neg h)

end Sys2Proof.Proofs

namespace Sys2Proof.Proofs
open Sys2Proof Sys2Proof.Machine Sys2Proof.Laws

/-! ## One CK_AON cycle of an idle module (R209, R211) -/

section
variable {trim : Int} {acc : Nat}

theorem ltAdvance_of_no_carry (h : acc + trim.natAbs < 2 ^ 32) : ltAdvance trim acc = (1, acc + trim.natAbs) :=
  if_pos h

theorem ltAdvance_of_carry_up (h : 2 ^ 32 ≤ acc + trim.natAbs) (ht : 0 < trim) :
    ltAdvance trim acc = (2, acc + trim.natAbs - 2 ^ 32) := by
  have hcarry : ¬acc + trim.natAbs < 4294967296 := Nat.not_lt.mpr h
  simp [ltAdvance, hcarry, ht]

theorem ltAdvance_of_carry_down (h : 2 ^ 32 ≤ acc + trim.natAbs) (ht : trim ≤ 0) :
    ltAdvance trim acc = (0, acc + trim.natAbs - 2 ^ 32) := by
  have hcarry : ¬acc + trim.natAbs < 4294967296 := Nat.not_lt.mpr h
  simp [ltAdvance, hcarry, Int.not_lt.mpr ht]

end

section
variable {s : State}

theorem tick_lt {k a : Nat} (h : ltAdvance (s.reg 0x141 Reg.time.ltTrim).toInt s.time.trimAcc = (k, a)) :
    s.tick.time.lt = s.time.lt + BitVec.ofNat 64 k ∧ s.tick.time.trimAcc = a := by
  simp [State.tick, h]

/-- NT stands still until its first acquisition (R211). -/
theorem tick_nt_of_unset (h : s.time.ntSet = false) : s.tick.time.nt = s.time.nt := by
  simp [State.tick, h]

theorem inboundDrain_of_empty (h : s.vme.inbound = []) : s.inboundDrain = s := by
  simp [State.inboundDrain, h]

theorem step_of_idle (hp : s.pending = []) (hv : s.vme.inbound = []) : step s = .next s.tick := by
  rw [step, hp, State.idle, inboundDrain_of_empty hv]

end

/-- Settles O2: an idle step is one tick, which advances LT by the accumulator's carry and the sign of LT_TRIM, and
writes the time domains alone. -/
theorem idleStepAdvancesLocalTime : Obligations.IdleStepAdvancesLocalTime := by
  unfold Obligations.IdleStepAdvancesLocalTime
  intro s hp hv
  refine ⟨s.tick, step_of_idle hp hv, ⟨fun h => ?noCarry, fun h ht => ?carryUp, fun h ht => ?carryDown⟩,
    tick_nt_of_unset, rfl, rfl⟩
  case noCarry => exact tick_lt (ltAdvance_of_no_carry h)
  case carryUp => exact tick_lt (ltAdvance_of_carry_up h ht)
  case carryDown =>
    obtain ⟨hlt, hacc⟩ := tick_lt (ltAdvance_of_carry_down h ht)
    exact ⟨hlt.trans (BitVec.add_zero _), hacc⟩

end Sys2Proof.Proofs

namespace Sys2Proof.Proofs
open Sys2Proof Sys2Proof.Machine Sys2Proof.Laws

/-! ## An entry of a table found again by its key -/

section
variable {α : Type}

theorem find?_tblPut_same (t : Tbl α) (k : Nat) (v : α) : (tblPut t k v).find? (fun e => e.1 == k) = some (k, v) := by
  induction t with
  | nil => simp [tblPut]
  | cons e t ih =>
    obtain ⟨i, w⟩ := e
    rw [tblPut]
    split
    · simp
    · split
      · simp
      · next hne _ => simpa [hne] using ih

theorem find?_tblPut_of_ne (t : Tbl α) {k j : Nat} (v : α) (h : j ≠ k) :
    (tblPut t k v).find? (fun e => e.1 == j) = t.find? (fun e => e.1 == j) := by
  induction t with
  | nil => simp [tblPut, h.symm]
  | cons e t ih =>
    obtain ⟨i, w⟩ := e
    rw [tblPut]
    split
    · next hi => simp [hi, h.symm]
    · split
      · simp [h.symm]
      · simp only [List.find?_cons, ih]

end

theorem findFdb_tblPut_same (t : Tbl FdbEntry) (k : Nat) (e : FdbEntry) : findFdb (tblPut t k e) k = some e :=
  congrArg (Option.map Prod.snd) (find?_tblPut_same t k e)

theorem findFdb_tblPut_of_ne (t : Tbl FdbEntry) {k j : Nat} (e : FdbEntry) (h : j ≠ k) :
    findFdb (tblPut t k e) j = findFdb t j :=
  congrArg (Option.map Prod.snd) (find?_tblPut_of_ne t e h)

/-! ## The first element found in a falling list is the greatest -/

theorem eq_false_of_find?_falling {p : Nat → Bool} {l : List Nat} {c d : Nat} (hl : l.Pairwise (· > ·))
    (hc : l.find? p = some c) (hd : d ∈ l) (hlt : c < d) : p d = false := by
  obtain ⟨_, before, after, rfl, hbefore⟩ := List.find?_eq_some_iff_append.mp hc
  obtain ⟨_, hfalls, _⟩ := List.pairwise_append.mp hl
  obtain hd | hd := List.mem_append.mp hd
  · simpa using hbefore d hd
  · obtain rfl | hd := List.mem_cons.mp hd
    · exact absurd hlt (Nat.lt_irrefl d)
    · exact absurd hlt (Nat.lt_asymm (List.rel_of_pairwise_cons hfalls hd))

theorem nextClass_some {s : State} {p c : Nat} (h : s.nextClass p = some c) :
    s.eligible p c = true ∧ c < 8 ∧ ∀ d, c < d → d < 8 → s.eligible p d = false := by
  have hc : c ∈ [7, 6, 5, 4, 3, 2, 1, 0] := List.mem_of_find?_eq_some h
  refine ⟨List.find?_some h, by simp at hc; omega, fun d hlt hd => ?_⟩
  exact eq_false_of_find?_falling (by decide) h (by simp; omega) hlt

/-! ## The ingress checks and the VID (R231, R232) -/

section
variable {s : State} {port : Nat}

/-- A received frame of `n` bytes counted at its port. -/
def countReceived (s : State) (port n : Nat) : State :=
  ((s.bump (portPage port) 0 1).bump (portPage port) 2 n).bw port n

theorem doFrameReceive_of_deaf (bs : List Byte) (fcsOk : Bool)
    (h : s.working (portPage port) = false ∨ (s.swPort port).link = false) : s.doFrameReceive port bs fcsOk = s :=
  if_pos (by simpa using h)

section
variable {bs : List Byte} (hw : s.working (portPage port) = true) (hl : (s.swPort port).link = true)
include hw hl

theorem doFrameReceive_of_bad_fcs :
    s.doFrameReceive port bs false = (countReceived s port (bs.length + 4)).bump (portPage port) 4 1 := by
  simp [State.doFrameReceive, countReceived, hw, hl]

theorem doFrameReceive_of_undersize (h : bs.length + 4 < 64) :
    s.doFrameReceive port bs true = (countReceived s port (bs.length + 4)).bump (portPage port) 5 1 := by
  simp [State.doFrameReceive, countReceived, hw, hl, h]

theorem doFrameReceive_of_oversize (h64 : 64 ≤ bs.length + 4)
    (h : (countReceived s port (bs.length + 4)).maxFrame port < bs.length + 4) :
    s.doFrameReceive port bs true = (countReceived s port (bs.length + 4)).bump (portPage port) 6 1 := by
  have hlong : ¬bs.length + 4 < 64 := Nat.not_lt.mpr h64
  unfold countReceived at h ⊢
  simp [State.doFrameReceive, hw, hl, hlong, h]

theorem doFrameReceive_of_accepted (h64 : 64 ≤ bs.length + 4)
    (h : bs.length + 4 ≤ (countReceived s port (bs.length + 4)).maxFrame port) :
    s.doFrameReceive port bs true =
      (countReceived s port (bs.length + 4)).receivePath port (parseFrame bs) false := by
  have hlong : ¬bs.length + 4 < 64 := Nat.not_lt.mpr h64
  unfold countReceived at h ⊢
  simp [State.doFrameReceive, hw, hl, hlong, Nat.not_lt.mpr h]

end

theorem forward_of_refused {f : Frame} (tr : Option (BitVec 16)) (forced : Bool)
    (h : (s.assignVid port f).vid = 4095 ∨ (s.vlanMembers (s.assignVid port f).vid).testBit port = false) :
    s.forward port f tr forced = s.bump (portPage port) 7 1 :=
  if_pos (by simpa [State.vidRefused] using h)

/-! ## Learning and looking up (R233) -/

/-- A source address that may be learned is entered with its port; where it is new, its event is counted besides. -/
theorem learn_net {f : Frame} (hp : port < 6) (hon : bitOf (s.reg 0x089 Reg.bridge.bridgeCtrl) 0 = true)
    (hs : ∀ e, findFdb s.net.fdb (fdbKey f.src f.vid) = some e → e.static = false)
    (hroom : findFdb s.net.fdb (fdbKey f.src f.vid) = none → s.net.fdb.length < 8192) :
    (s.learn port f).net =
      { s.net with fdb := tblPut s.net.fdb (fdbKey f.src f.vid) ⟨2 ^ port, false, s.time.lt⟩ } := by
  have hgoes : ¬(6 ≤ port ∨ (!(bitOf (s.reg 0x089 Reg.bridge.bridgeCtrl) 0)) = true) := by simp [hp, hon]
  simp only [State.learn, if_neg hgoes]
  cases he : findFdb s.net.fdb (fdbKey f.src f.vid) with
  | some e => simp [hs e he]
  | none => simp [Nat.not_le.mpr (hroom he)]

theorem lookup_of_hit {f : Frame} {e : FdbEntry} (hb : f.dst ≠ broadcastMac)
    (he : findFdb s.net.fdb (fdbKey f.dst f.vid) = some e) :
    s.lookup port f = (e.ports &&& (255 - 2 ^ port), s.bump 0x089 0 1) := by
  simp [State.lookup, hb, he]

/-! ## Transmission, age limit and link (R230, R234, R240, R275) -/

theorem doFrameTransmit_of_deaf (h : s.working (portPage port) = false ∨ (s.swPort port).link = false) :
    s.doFrameTransmit port = s :=
  if_pos (by simpa using h)

section
variable (hw : s.working (portPage port) = true) (hl : (s.swPort port).link = true)
include hw hl

theorem doFrameTransmit_of_none (h : ((s.settle port).markGated port).nextClass port = none) :
    s.doFrameTransmit port = ((s.settle port).markGated port).markPerturbed port := by
  simp [State.doFrameTransmit, hw, hl, h]

theorem doFrameTransmit_of_some {c : Nat} {h : StoredFrame × EgressCopy}
    (hc : ((s.settle port).markGated port).nextClass port = some c)
    (hh : ((s.settle port).markGated port).headOf port c = some h) :
    s.doFrameTransmit port =
      if port = 6 then (((s.settle port).markGated port).markPerturbed port).sendHost h.1 h.2
      else (((s.settle port).markGated port).markPerturbed port).sendCopy h.1 h.2 := by
  simp [State.doFrameTransmit, hw, hl, hc, hh]

end

theorem doTxAgeLimit_of_none {c : Nat} (h : (s.settle port).headOf port c = none) : s.doTxAgeLimit port c = s := by
  simp [State.doTxAgeLimit, h]

theorem doTxAgeLimit_of_head {c : Nat} {h : StoredFrame × EgressCopy} (hh : (s.settle port).headOf port c = some h) :
    s.doTxAgeLimit port c =
      (((s.settle port).discardCopies 4 fun f k => f.handle == h.1.handle && k == h.2).bump
        (portPage port) 10 1).settle port := by
  simp [State.doTxAgeLimit, hh]

/-- The port without its link. -/
def unlinked (s : State) (port : Nat) : State :=
  s.setSwPort port { s.swPort port with link := false, speed := 0 }

theorem doLinkLost_of_no_link (h : (s.swPort port).link = false ∨ 6 ≤ port) : s.doLinkLost port = s :=
  if_pos (by simpa using h)

theorem doLinkLost_of_link (hl : (s.swPort port).link = true) (hp : port < 6) :
    s.doLinkLost port =
      if (unlinked s port).portOn port = true then
        (((unlinked s port).dropEgress port).raise (portPage port) 0 []).bump (portPage port) 12 1
      else unlinked s port :=
  if_neg (by simp [hl, hp])

/-- The speed that a port's MODE, or with AUTONEG its partner, gives. -/
def linkSpeed (s : State) (port partner : Nat) : Nat :=
  speedOfMode (fieldOf (s.reg (portPage port) Reg.port.portConfig) 3 0) partner
    (bitOf (s.reg (portPage port) Reg.port.portConfig) 8)

theorem doLinkUp_of_no_speed {partner : Nat}
    (h : 6 ≤ port ∨ linkSpeed s port partner = 0 ∨ s.portOn port = false) : s.doLinkUp port partner = s := by
  by_cases hp : 6 ≤ port
  · exact if_pos hp
  · refine (if_neg hp).trans (if_pos ?_)
    simpa [hp, linkSpeed] using h

theorem doLinkUp_of_speed {partner : Nat} (hp : port < 6) (hv : linkSpeed s port partner ≠ 0)
    (ho : s.portOn port = true) :
    s.doLinkUp port partner =
      s.setSwPort port { s.swPort port with link := true, speed := linkSpeed s port partner } :=
  (if_neg (Nat.not_le.mpr hp)).trans (if_neg (not_or.mpr ⟨hv, by simp [ho]⟩))

end

/-- Settles O38: each ingress check discards with its own counter, a learned key is found again, a port sends the head
of its first eligible class, and a link goes or comes by the port's state. -/
theorem framesPassTheIngressChecksAndLeaveByClass : Obligations.FramesPassTheIngressChecksAndLeaveByClass := by
  unfold Obligations.FramesPassTheIngressChecksAndLeaveByClass
  refine ⟨?receive, fun port f tr forced s h => forward_of_refused tr forced h, ?learn, ?transmit,
    fun s p c h => nextClass_some h, ?age, ?lost, ?up⟩
  case receive =>
    intro port frame fcsOk s n s1
    refine ⟨fun h => congrArg Host.Outcome.next (doFrameReceive_of_deaf frame fcsOk h), fun hw hl => ?_⟩
    refine ⟨?_, ?_, ?_, ?_⟩
    · rintro rfl
      exact congrArg Host.Outcome.next (doFrameReceive_of_bad_fcs hw hl)
    · rintro rfl h
      exact congrArg Host.Outcome.next (doFrameReceive_of_undersize hw hl h)
    · rintro rfl h64 h
      exact congrArg Host.Outcome.next (doFrameReceive_of_oversize hw hl h64 h)
    · rintro rfl h64 h
      exact congrArg Host.Outcome.next (doFrameReceive_of_accepted hw hl h64 h)
  case learn =>
    intro port f s hp hon hs hroom t
    have hnet := learn_net hp hon hs hroom
    have hsame : findFdb t.net.fdb (fdbKey f.src f.vid) = some ⟨2 ^ port, false, s.time.lt⟩ := by
      rw [hnet]
      exact findFdb_tblPut_same _ _ _
    refine ⟨hsame, fun k hk => ?_, fun p g hdst hvid hb => ?_⟩
    · rw [hnet]
      exact findFdb_tblPut_of_ne _ _ hk
    · exact lookup_of_hit hb (by rw [hdst, hvid, hsame])
  case transmit =>
    intro port s s1
    exact ⟨fun h => congrArg Host.Outcome.next (doFrameTransmit_of_deaf h),
      fun hw hl => ⟨fun h => congrArg Host.Outcome.next (doFrameTransmit_of_none hw hl h),
        fun c h hc hh => congrArg Host.Outcome.next (doFrameTransmit_of_some hw hl hc hh)⟩⟩
  case age =>
    exact fun port cls s => ⟨fun h => congrArg Host.Outcome.next (doTxAgeLimit_of_none h),
      fun h hh => congrArg Host.Outcome.next (doTxAgeLimit_of_head hh)⟩
  case lost =>
    intro port s s1
    exact ⟨fun h => congrArg Host.Outcome.next (doLinkLost_of_no_link h),
      fun hl hp ho => congrArg Host.Outcome.next
        ((doLinkLost_of_link hl hp).trans (if_neg (Bool.eq_false_iff.mp ho))),
      fun hl hp ho => congrArg Host.Outcome.next ((doLinkLost_of_link hl hp).trans (if_pos ho))⟩
  case up =>
    intro port partner s w v
    exact ⟨fun h => congrArg Host.Outcome.next (doLinkUp_of_no_speed h),
      fun hp hv ho => congrArg Host.Outcome.next (doLinkUp_of_speed hp hv ho)⟩

end Sys2Proof.Proofs

namespace Sys2Proof.Proofs
open Sys2Proof Sys2Proof.Machine Sys2Proof.Laws

/-! ## Rings and books of the queues (R249, R250) -/

section
variable (s : State)

@[simp] theorem ring_setRing_same (q : Nat) (r : RingState) : (s.setRing q r).ring q = r :=
  tblRead_write_same ringReset s.net.queues q r

theorem ring_setRing_of_ne {q r : Nat} (v : RingState) (h : r ≠ q) : (s.setRing q v).ring r = s.ring r :=
  tblRead_write_other ringReset s.net.queues q r v h

theorem ring_congr {s t : State} (h : t.net = s.net) (q : Nat) : t.ring q = s.ring q := by
  rw [State.ring, State.ring, h]

@[simp] theorem moved_net (q n : Nat) : (s.moved q n).net = s.net := by simp [State.moved]

@[simp] theorem moved_ledger (q n : Nat) : (s.moved q n).ledger = s.ledger := by simp [State.moved]

@[simp] theorem moved_mem (q n : Nat) : (s.moved q n).mem = s.mem := by simp [State.moved]

@[simp] theorem moved_faults (q n : Nat) : (s.moved q n).faults = s.faults := by simp [State.moved]

end

section
variable {v posted seq : Word} {log2 : Nat}

theorem postOk_of_within (h : seqDist posted v ≤ 2 ^ log2 ∧ seqDist seq v ≤ 2 ^ log2) :
    postOk v posted seq log2 = true :=
  decide_eq_true h

theorem postOk_of_beyond (h : ¬(seqDist posted v ≤ 2 ^ log2 ∧ seqDist seq v ≤ 2 ^ log2)) :
    ¬postOk v posted seq log2 = true :=
  fun ht => h (of_decide_eq_true ht)

end

/-! ## Fetching (R249, R271) -/

section
variable {s : State} {q : Nat}

/-- The running number of the next waiting descriptor. -/
def nextNumber (s : State) (q : Nat) : Nat := (s.qSeq q + BitVec.ofNat 32 (s.ring q).active.length).toNat

/-- The read of the next waiting descriptor. -/
def nextRead (s : State) (q : Nat) : Option (List Byte) × State := s.dmaRead (s.descAddr q (nextNumber s q)) 32

/-- A fetched descriptor with the number `n`: buffer and length as the bytes `l` give them. -/
def descriptorOf (n : Nat) (l : List Byte) : ActiveDesc :=
  ⟨n, ofLeBytes (l.take 8) % 2 ^ 40, ofLeBytes ((l.drop 8).take 2), none⟩

/-- The read counted. -/
def countFetch (s : State) (q : Nat) : State := (s.bump (qPage q) 4 1).moved q 32

theorem countFetch_ring : (countFetch s q).ring q = s.ring q :=
  ring_congr (by simp [countFetch]) q

/-- A descriptor at the end of the active list. -/
def activate (s : State) (q : Nat) (d : ActiveDesc) : State :=
  s.setRing q { s.ring q with active := (s.ring q).active ++ [d] }

theorem fetchOne_of_idle (h : s.waiting q = 0) : s.fetchOne q = (none, s) := if_pos h

section
variable (hw : s.waiting q ≠ 0)
include hw

theorem fetchOne_of_refused (hr : (nextRead s q).1 = none) :
    s.fetchOne q = (none, (nextRead s q).2.queueAccessError q) := by
  refine (if_neg hw).trans ?_
  unfold nextRead nextNumber at hr ⊢
  simp only [hr]

theorem fetchOne_of_read {l : List Byte} (hr : (nextRead s q).1 = some l) :
    s.fetchOne q =
      (some (descriptorOf (nextNumber s q) l), activate (countFetch (nextRead s q).2 q) q (descriptorOf (nextNumber s q) l)) := by
  refine (if_neg hw).trans ?_
  unfold nextRead nextNumber at hr ⊢
  simp only [hr]
  rfl

end

/-- How many descriptors a queue holds fetched: 4 on receive, 8 on transmit. -/
def fetchLimit (q : Nat) : Nat := if q < 32 then 4 else 8

theorem doDescriptorFetch_of_barred (h : s.queueOn q = false ∨ ¬(s.ring q).active.length < fetchLimit q) :
    s.doDescriptorFetch q = s :=
  if_pos (by simpa [fetchLimit] using h)

section
variable (ho : s.queueOn q = true) (hroom : (s.ring q).active.length < fetchLimit q)
include ho hroom

theorem not_barred : ¬((!(s.queueOn q)) = true ∨ fetchLimit q ≤ (s.ring q).active.length) := by
  simp [ho, hroom]

theorem doDescriptorFetch_of_fetch_alone (h : (s.fetchOne q).1 = none ∨ q < 32) :
    s.doDescriptorFetch q = (s.fetchOne q).2 := by
  refine (if_neg (not_barred ho hroom)).trans ?_
  cases hd : (s.fetchOne q).1 with
  | none => simp only [hd]
  | some d =>
    have hq : q < 32 := by simpa [hd] using h
    simp only [hd, if_pos hq]

section
variable {d : ActiveDesc} (hd : (s.fetchOne q).1 = some d) (hq : 32 ≤ q)
include hd hq

theorem doDescriptorFetch_of_no_frame (hb : ((s.fetchOne q).2.dmaRead d.addr d.len).1 = none) :
    s.doDescriptorFetch q =
      (((s.fetchOne q).2.dmaRead d.addr d.len).2.queueAccessError q).txOutcome (.queue q d.n) 0 2 0 none := by
  refine (if_neg (not_barred ho hroom)).trans ?_
  simp only [hd, if_neg (Nat.not_lt.mpr hq), hb]

theorem doDescriptorFetch_of_frame {bytes : List Byte}
    (hb : ((s.fetchOne q).2.dmaRead d.addr d.len).1 = some bytes) :
    s.doDescriptorFetch q =
      (((s.fetchOne q).2.dmaRead d.addr d.len).2.moved q d.len).enterHost (parseFrame bytes).pad (.queue q d.n)
        (s.field (qPage q) Reg.queue.qConfig 6 4) (s.field (qPage q) Reg.queue.qPorts 5 0) true := by
  refine (if_neg (not_barred ho hroom)).trans ?_
  simp only [hd, if_neg (Nat.not_lt.mpr hq), hb]

end

end

/-! ## Writing back (R252, R254) -/

theorem doWriteBack_of_empty (h : (s.ring q).active = []) : s.doWriteBack q = s := by
  simp only [State.doWriteBack, h]

/-- A performed write-back of `n` bytes before it counts towards the interrupt: Q_SEQ has grown, `rest` is active. -/
def writtenBack (w : State) (q : Nat) (rest : List ActiveDesc) (n : Nat) : State :=
  let s1 := w.setRing q { w.ring q with active := rest }
  let s2 := { s1 with ledger := { s1.ledger with queueSeq := tblWrite zeroWord s1.ledger.queueSeq q (s1.qSeq q + 1) } }
  (s2.bump (qPage q) 0 1).moved q n

section
variable (w : State) (q : Nat) (rest : List ActiveDesc) (n : Nat)

theorem writtenBack_qSeq : (writtenBack w q rest n).qSeq q = w.qSeq q + 1 := by
  simp only [State.qSeq, writtenBack, moved_ledger, State.bump_ledger]
  exact tblRead_write_same zeroWord _ q _

theorem writtenBack_ring : (writtenBack w q rest n).ring q = { w.ring q with active := rest } := by
  refine (ring_congr ?_ q).trans (ring_setRing_same w q _)
  simp [writtenBack]

theorem writtenBack_mem : (writtenBack w q rest n).mem = w.mem := by
  simp [writtenBack, State.setRing]

theorem writtenBack_faults : (writtenBack w q rest n).faults = w.faults := by
  simp [writtenBack, State.setRing]

end

section
variable {d : ActiveDesc} {rest : List ActiveDesc} (ha : (s.ring q).active = d :: rest)
include ha

theorem doWriteBack_of_unfinished (h : d.outcome = none) : s.doWriteBack q = s := by
  simp only [State.doWriteBack, ha, h]

section
variable {o : FinalStatus} {w : State} (ho : d.outcome = some o)
include ho

theorem doWriteBack_of_performed (hw : s.writeDescriptor q d o = (true, w)) :
    s.doWriteBack q = (writtenBack w q rest (o.data.length + 32)).countWriteBack q := by
  simp [State.doWriteBack, ha, ho, hw, writtenBack]

theorem doWriteBack_of_refused (hw : s.writeDescriptor q d o = (false, w)) :
    s.doWriteBack q =
      if q < 32 then
        ((w.queueAccessError q).setRing q
          { (w.queueAccessError q).ring q with active := { d with outcome := none } :: rest }).rxDiscard q
      else w.queueAccessError q := by
  simp [State.doWriteBack, ha, ho, hw]

end

end

end

/-! ## Held deliveries and timeouts of the entries (R263, R264) -/

section
variable {s : State} {e : Nat}

theorem doHeldDelivery_of_none (h : (s.trdp e).held = none ∨ s.entryOn e = false) : s.doHeldDelivery e = s := by
  unfold State.doHeldDelivery
  cases hh : (s.trdp e).held with
  | none => rfl
  | some d =>
    have ho : s.entryOn e = false := by simpa [hh] using h
    simp [ho]

theorem doHeldDelivery_of_held {d : List Byte × DWord} (hh : (s.trdp e).held = some d) (ho : s.entryOn e = true) :
    s.doHeldDelivery e = s.entryBoxWrite e d.1 d.2 := by
  simp [State.doHeldDelivery, hh, ho]

theorem doTrdpTimeout_of_none
    (h : (s.trdp e).valid = false ∨ (s.trdp e).publish = true ∨ (s.trdp e).fld 4 15 0 = 0 ∨ (s.trdp e).timedOut = true
      ∨ s.entryOn e = false) : s.doTrdpTimeout e = s :=
  if_pos (by simpa using h)

/-- The entry's timeout marked and counted. -/
def markTimeout (s : State) (e : Nat) : State :=
  (s.setTrdp e { s.trdp e with timedOut := true }).bump (s.entryPage e) 9 1

/-- The substitute of an entry that has timed out: nothing, zeros, or the bytes at its address. -/
def substitute (t : State) (x : TrdpEntry) : List Byte × State :=
  if x.fld 0 27 26 = 1 then (zeros x.len, t)
  else if x.fld 0 27 26 = 2 then t.offloadRead (x.word 6).toNat x.len else ([], t)

theorem substitute_of_nothing (t : State) {x : TrdpEntry} (h : x.fld 0 27 26 = 0) : substitute t x = ([], t) := by
  simp [substitute, h]

theorem substitute_of_zeros (t : State) {x : TrdpEntry} (h : x.fld 0 27 26 = 1) : substitute t x = (zeros x.len, t) :=
  if_pos h

theorem substitute_of_memory (t : State) {x : TrdpEntry} (h : x.fld 0 27 26 = 2) :
    substitute t x = t.offloadRead (x.word 6).toNat x.len := by
  simp [substitute, h]

/-- The substitute given to the queue of entry `e` of `s`, with CODE 0x07. -/
def deliverTimeout (s : State) (e : Nat) (d : List Byte × State) : State :=
  d.2.rxDeliver ((s.trdp e).fld 0 20 16) d.1 s.time.lt 7 0 0 (at' e 16 ||| flag true 27)

theorem doTrdpTimeout_of_due (hv : (s.trdp e).valid = true) (hp : (s.trdp e).publish = false)
    (ht : (s.trdp e).fld 4 15 0 ≠ 0) (hf : (s.trdp e).timedOut = false) (ho : s.entryOn e = true) :
    s.doTrdpTimeout e = deliverTimeout s e (substitute (markTimeout s e) (s.trdp e)) :=
  if_neg (by simp [hv, hp, ht, hf, ho])

end

/-- Settles O41: a posted count lies within the ring or beyond it, a fetch finds room and a descriptor or not, a
write-back is performed or refused, and each timer and entry is due or not. -/
theorem queuesMoveDescriptorsInOrder : Obligations.QueuesMoveDescriptorsInOrder := by
  unfold Obligations.QueuesMoveDescriptorsInOrder
  refine ⟨?posted, ?fetchOne, ?fetch, ?writeBack, fun q s => ⟨fun h => congrArg Host.Outcome.next (if_pos h),
    fun h => congrArg Host.Outcome.next (if_neg h)⟩, ?held, ?timeout⟩
  case posted =>
    intro m q v s hm log2 within
    refine ⟨fun h => ?_, fun h => next_written hm (if_neg (postOk_of_beyond h))⟩
    exact ⟨_, next_written hm (if_pos (postOk_of_within h)), ring_setRing_same s q.val _,
      fun r hr => ring_setRing_of_ne s _ hr, rfl⟩
  case fetchOne =>
    refine fun q s => ⟨fetchOne_of_idle, fun hw => ⟨fetchOne_of_refused hw, fun l hr => ?_⟩⟩
    refine ⟨descriptorOf (nextNumber s q) l, ?_, rfl, rfl, rfl, rfl, ?_⟩
    · rw [fetchOne_of_read hw hr]
    · rw [fetchOne_of_read hw hr, activate, ring_setRing_same, countFetch_ring]
      rfl
  case fetch =>
    intro q s room
    exact ⟨fun h => congrArg Host.Outcome.next (doDescriptorFetch_of_barred h),
      fun ho hroom h => congrArg Host.Outcome.next (doDescriptorFetch_of_fetch_alone ho hroom h),
      fun d ho hroom hd hq => ⟨fun hb => congrArg Host.Outcome.next (doDescriptorFetch_of_no_frame ho hroom hd hq hb),
        fun bytes hb => congrArg Host.Outcome.next (doDescriptorFetch_of_frame ho hroom hd hq hb)⟩⟩
  case writeBack =>
    refine fun q s => ⟨fun h => congrArg Host.Outcome.next (doWriteBack_of_empty h), fun d rest ha =>
      ⟨fun h => congrArg Host.Outcome.next (doWriteBack_of_unfinished ha h), fun o w ho hw => ?_,
        fun o w ho hw => congrArg Host.Outcome.next (doWriteBack_of_refused ha ho hw)⟩⟩
    exact ⟨writtenBack w q.val rest (o.data.length + 32), congrArg Host.Outcome.next (doWriteBack_of_performed ha ho hw),
      writtenBack_qSeq .., writtenBack_ring .., writtenBack_mem .., writtenBack_faults ..⟩
  case held =>
    exact fun entry s => ⟨fun h => congrArg Host.Outcome.next (doHeldDelivery_of_none h),
      fun h hh ho => congrArg Host.Outcome.next (doHeldDelivery_of_held hh ho)⟩
  case timeout =>
    intro entry s x
    refine ⟨fun h => congrArg Host.Outcome.next (doTrdpTimeout_of_none h), fun hv hp ht hf ho => ?_⟩
    intro s1 info
    have hdue {d : List Byte × State} (hd : substitute (markTimeout s entry.val) (s.trdp entry.val) = d) :
        exec (.trdpTimeout entry) s = .next (deliverTimeout s entry.val d) :=
      congrArg Host.Outcome.next ((doTrdpTimeout_of_due hv hp ht hf ho).trans (congrArg _ hd))
    exact ⟨fun h => hdue (substitute_of_nothing _ h), fun h => hdue (substitute_of_zeros _ h),
      fun h => hdue (substitute_of_memory _ h)⟩

end Sys2Proof.Proofs

namespace Sys2Proof.Proofs
open Sys2Proof Sys2Proof.Machine Sys2Proof.Laws

/-! ## The state of a controller read back -/

section
variable (s : State) (c : Nat) (v : CanState)

@[simp] theorem can_setCan_same : (s.setCan c v).can c = v := tblRead_write_same canReset s.cans c v

theorem can_setCan_of_ne {c d : Nat} (v : CanState) (h : d ≠ c) : (s.setCan c v).can d = s.can d :=
  tblRead_write_other canReset s.cans c d v h

end

theorem canInvalid_iff (f : CanFrame) (fd : Bool) : canInvalid f fd = true ↔
    (f.fdf = true ∧ f.rtr = true) ∨ (f.fdf = true ∧ fd = false) ∨ (f.brs = true ∧ f.fdf = false) := by
  simp [canInvalid, or_assoc]

section
variable {s : State} {c : Nat}

/-! ## Receiving (R296, R298, R299) -/

section
variable {f : CanFrame} {n : Nat}

theorem canAccept_of_full (h : (s.can c).rx.posted = (s.can c).rxSeq) :
    s.canAccept c f n = (s.satReg (canPage c) Reg.can.rxDrops 1).bump (canPage c) 4 1 :=
  if_pos h

section
variable {w : State} (h : (s.can c).rx.posted ≠ (s.can c).rxSeq)
include h

theorem canAccept_of_written (hw : s.canWriteRx c f n = (true, w)) :
    s.canAccept c f n = (w.setCan c { w.can c with rxSeq := (s.can c).rxSeq + 1 }).canSignal c := by
  simp [State.canAccept, h, hw]

theorem canAccept_of_refused (hw : s.canWriteRx c f n = (false, w)) : s.canAccept c f n = w.canAccessError c := by
  simp [State.canAccept, h, hw]

end

theorem doCanReceive_of_deaf (h : s.canOn c = false ∨ (s.can c).busOff = true) : s.doCanReceive c f = s :=
  if_pos (by simpa using h)

/-- A frame received correctly is counted, and REC falls. -/
def countCorrect (s : State) (c : Nat) : State := (s.recDown c).bump (canPage c) 0 1

section
variable (ho : s.canOn c = true) (hb : (s.can c).busOff = false)
include ho hb

theorem doCanReceive_of_invalid (hi : canInvalid f (bitOf (s.canCfg c) 0) = true) :
    s.doCanReceive c f = (s.setCan c { s.can c with rec_ := satAdd 255 (s.can c).rec_ 1 }).bump (canPage c) 2 1 := by
  simp [State.doCanReceive, ho, hb, hi]

section
variable (hi : canInvalid f (bitOf (s.canCfg c) 0) = false)
include hi

theorem doCanReceive_of_no_filter (hn : (countCorrect s c).canFilter c f = none) :
    s.doCanReceive c f = (countCorrect s c).bump (canPage c) 6 1 := by
  unfold countCorrect at hn ⊢
  simp [State.doCanReceive, ho, hb, hi, hn]

theorem doCanReceive_of_filter (hn : (countCorrect s c).canFilter c f = some n) :
    s.doCanReceive c f = (countCorrect s c).canAccept c f n := by
  unfold countCorrect at hn ⊢
  simp [State.doCanReceive, ho, hb, hi, hn]

end

end

end

/-! ## The write-back of a fetched frame (R299) -/

section
variable {d : ActiveDesc} {rest : List ActiveDesc} {code : Nat} {lt : DWord} (ha : (s.can c).tx.active = d :: rest)
include ha

theorem canTxDone_of_refused (h : (s.dmaWrite (d.addr + 8) (leBytes 8 lt.toNat)).1 = false) :
    s.canTxDone c code lt = (s.dmaWrite (d.addr + 8) (leBytes 8 lt.toNat)).2.canAccessError c := by
  simp [State.canTxDone, ha, h]

theorem canTxDone_of_written {w : State} (h : (s.dmaWrite (d.addr + 8) (leBytes 8 lt.toNat)).1 = true)
    (hw : (s.dmaWrite (d.addr + 8) (leBytes 8 lt.toNat)).2.dmaWrite (d.addr + 0x10)
      (leBytes 4 (d.n + 1) ++ leBytes 4 (0x80000000 + code * 2 ^ 24) ++ zeros 8) = (true, w)) :
    s.canTxDone c code lt =
      (w.setCan c { w.can c with
        tx := { (s.can c).tx with active := [] }, txSeq := (s.can c).txSeq + 1 }).canSignal c := by
  simp only [State.canTxDone, ha, h, if_true, hw]
  rfl

end

/-! ## Attempts to transmit (R300) -/

/-- Nothing is sent by a controller that is not ON, is bus-off or has passed 255 errors, or listens only. -/
def canSilent (s : State) (c : Nat) : Prop :=
  s.canOn c = false ∨ (s.can c).busOff = true ∨ 256 ≤ (s.can c).tec ∨ bitOf (s.canCfg c) 1 = true

theorem canSilent_iff : canSilent s c ↔
    (!(s.canOn c)) = true ∨ (s.can c).busOff = true ∨ 256 ≤ (s.can c).tec ∨ bitOf (s.canCfg c) 1 = true := by
  simp [canSilent]

section
variable {r : CanResult}

theorem doCanTransmit_of_silent (h : canSilent s c) : s.doCanTransmit c r = s := if_pos (canSilent_iff.mp h)

section
variable (hs : ¬canSilent s c)
include hs

theorem doCanTransmit_of_none (ha : ((s.canFetch c).can c).tx.active = []) : s.doCanTransmit c r = s.canFetch c := by
  simp only [State.doCanTransmit, if_neg (mt canSilent_iff.mpr hs), ha]

section
variable {d : ActiveDesc} {rest : List ActiveDesc} (ha : ((s.canFetch c).can c).tx.active = d :: rest)
include ha

theorem doCanTransmit_of_invalid (hi : (s.canFetch c).canTxInvalid c d.addr = true) :
    s.doCanTransmit c r = (s.canFetch c).drawDword.2.canTxDone c 5 (s.canFetch c).drawDword.1 := by
  simp only [State.doCanTransmit, if_neg (mt canSilent_iff.mpr hs), ha, hi, if_true]

section
variable (hi : (s.canFetch c).canTxInvalid c d.addr = false)
include hi

theorem doCanTransmit_sent :
    let s2 := (s.canFetch c).canAttempt c
    s.doCanTransmit c .sent =
      ((s2.setCan c { s2.can c with tec := (s2.can c).tec - 1 }).bump (canPage c) 1 1).canTxDone c 0 s2.time.lt := by
  simp only [State.doCanTransmit, if_neg (mt canSilent_iff.mpr hs), ha, hi, Bool.false_eq_true, if_false]

theorem doCanTransmit_arbitrationLost :
    let s3 := ((s.canFetch c).canAttempt c).bump (canPage c) 3 1
    s.doCanTransmit c .arbitrationLost =
      if bitOf (s3.canCfg c) 3 = true then s3.canTxDone c 1 s3.time.lt else s3 := by
  simp only [State.doCanTransmit, if_neg (mt canSilent_iff.mpr hs), ha, hi, Bool.false_eq_true, if_false]

theorem doCanTransmit_error :
    let s2 := (s.canFetch c).canAttempt c
    let s3 := (s2.setCan c { s2.can c with tec := satAdd 256 (s2.can c).tec 8 }).bump (canPage c) 2 1
    s.doCanTransmit c .error =
      if bitOf (s3.canCfg c) 3 = true ∧ (s3.can c).tec < 256 then s3.canTxDone c 1 s3.time.lt else s3 := by
  simp only [State.doCanTransmit, if_neg (mt canSilent_iff.mpr hs), ha, hi, Bool.false_eq_true, if_false]

end

end

end

end

/-! ## Bus-off and recovery (R296, R300) -/

theorem doBusOff_of_none (h : (s.can c).busOff = true ∨ (s.can c).tec < 256) : s.doBusOff c = s := if_pos h

/-- The controller bus-off, recovering by itself where CAN_CONFIG says so. -/
def goBusOff (s : State) (c : Nat) : State :=
  s.setCan c { s.can c with busOff := true, recovering := bitOf (s.canCfg c) 2 }

theorem doBusOff_of_errors (hb : (s.can c).busOff = false) (ht : 256 ≤ (s.can c).tec) :
    s.doBusOff c =
      (((goBusOff s c).canTxDone c 2 (goBusOff s c).time.lt).raise (canPage c) 0 []).bump (canPage c) 5 1 :=
  if_neg (by simp [hb, ht])

theorem canRecover_of_busOff (h : (s.can c).busOff = true) :
    s.canRecover c = s.setCan c { s.can c with recovering := true } :=
  if_pos h

theorem canRecover_of_on_bus (h : (s.can c).busOff = false) : s.canRecover c = s := if_neg (Bool.eq_false_iff.mp h)

theorem doRecoveryDone_of_recovering (hb : (s.can c).busOff = true) (hr : (s.can c).recovering = true) :
    s.doRecoveryDone c = s.setCan c { s.can c with busOff := false, recovering := false, tec := 0, rec_ := 0 } :=
  if_pos ⟨hb, hr⟩

theorem doRecoveryDone_of_none (h : (s.can c).busOff = false ∨ (s.can c).recovering = false) : s.doRecoveryDone c = s := by
  refine if_neg ?_
  rintro ⟨hb, hr⟩
  simp [hb, hr] at h

end

/-- Settles O43: a frame meets the checks, the filters and its ring in turn, an attempt ends by its result, and bus-off,
recovery, posted counts and the timer each act by their condition. -/
theorem canControllersReceiveTransmitAndRecover : Obligations.CanControllersReceiveTransmitAndRecover := by
  unfold Obligations.CanControllersReceiveTransmitAndRecover
  refine ⟨?receive, canInvalid_iff, ?transmit, ?writeBack, ?busOff, ?posted,
    fun ctl s => ⟨fun h => congrArg Host.Outcome.next (if_pos h), fun h => congrArg Host.Outcome.next (if_neg h)⟩⟩
  case receive =>
    intro ctl f s c bad s1
    refine ⟨fun h => congrArg Host.Outcome.next (doCanReceive_of_deaf h), fun ho hb =>
      ⟨fun hi => congrArg Host.Outcome.next (doCanReceive_of_invalid ho hb hi),
        fun hi hn => congrArg Host.Outcome.next (doCanReceive_of_no_filter ho hb hi hn), fun n hi hn => ?_⟩⟩
    have hfilter := doCanReceive_of_filter ho hb hi hn
    exact ⟨fun h => congrArg Host.Outcome.next (hfilter.trans (canAccept_of_full h)),
      fun w h hw => congrArg Host.Outcome.next (hfilter.trans (canAccept_of_written h hw)),
      fun w h hw => congrArg Host.Outcome.next (hfilter.trans (canAccept_of_refused h hw))⟩
  case transmit =>
    intro ctl r s c silent s1 s2
    refine ⟨fun h => congrArg Host.Outcome.next (doCanTransmit_of_silent h),
      fun hs ha => congrArg Host.Outcome.next (doCanTransmit_of_none hs ha), fun d rest hs ha =>
      ⟨fun hi => congrArg Host.Outcome.next (doCanTransmit_of_invalid hs ha hi), fun hi => ⟨?_, ?_, ?_⟩⟩⟩
    · rintro rfl
      exact congrArg Host.Outcome.next (doCanTransmit_sent hs ha hi)
    · rintro rfl s3
      have hlost := doCanTransmit_arbitrationLost hs ha hi
      exact ⟨fun h => congrArg Host.Outcome.next (hlost.trans (if_pos h)),
        fun h => congrArg Host.Outcome.next (hlost.trans (if_neg (Bool.eq_false_iff.mp h)))⟩
    · rintro rfl s3
      have herror := doCanTransmit_error hs ha hi
      refine ⟨fun h ht => congrArg Host.Outcome.next (herror.trans (if_pos ⟨h, ht⟩)),
        fun h => congrArg Host.Outcome.next (herror.trans (if_neg ?_))⟩
      rintro ⟨hone, htec⟩
      exact h.elim (Bool.eq_false_iff.mp · hone) (Nat.not_le.mpr htec)
  case writeBack =>
    intro c code lt s d rest ha w1 last
    exact ⟨canTxDone_of_refused ha, fun w h hw => canTxDone_of_written ha h hw⟩
  case busOff =>
    intro ctl s c s1
    exact ⟨fun h => congrArg Host.Outcome.next (doBusOff_of_none h),
      fun hb ht => congrArg Host.Outcome.next (doBusOff_of_errors hb ht),
      fun m hm => ⟨fun h => next_written hm (canRecover_of_busOff h), fun h => next_written hm (canRecover_of_on_bus h)⟩,
      fun hb hr => ⟨_, congrArg Host.Outcome.next (doRecoveryDone_of_recovering hb hr), can_setCan_same s c _,
        fun d hd => can_setCan_of_ne s _ hd, rfl⟩,
      fun h => congrArg Host.Outcome.next (doRecoveryDone_of_none h)⟩
  case posted =>
    intro m ctl v s c x within
    exact ⟨fun hm => ⟨fun h => next_written hm (if_pos (postOk_of_within h)),
        fun h => next_written hm (if_neg (postOk_of_beyond h))⟩,
      fun hm => ⟨fun h => next_written hm (if_pos (postOk_of_within h)),
        fun h => next_written hm (if_neg (postOk_of_beyond h))⟩⟩

end Sys2Proof.Proofs

namespace Sys2Proof.Proofs
open Sys2Proof Sys2Proof.Machine Sys2Proof.Laws

/-! ## The twin-path comparator (R277 to R280) -/

theorem find?_tblErase_same {α : Type} (t : Tbl α) (k : Nat) : (tblErase t k).find? (fun e => e.1 == k) = none := by
  induction t with
  | nil => rfl
  | cons e t ih =>
    obtain ⟨i, w⟩ := e
    rw [tblErase]
    split
    · exact ih
    · next hne => simpa [hne] using ih

section
variable {s : State}

/-- Within the window neither the window nor the linger time of the slot has elapsed. -/
theorem twinCatchUp_of_within {i : Nat} {t : TwinSlot} (h : s.time.lt.toNat - t.lt.toNat < s.twinWindow) :
    s.twinCatchUp i t = s := by
  have hwindow : ¬s.twinWindow ≤ s.time.lt.toNat - t.lt.toNat := by omega
  have hlinger : ¬2 * s.twinWindow ≤ s.time.lt.toNat - t.lt.toNat := by omega
  simp only [State.twinCatchUp, if_neg hwindow, if_neg hlinger]

section
variable {h : Nat} {f : Frame} {dst : Nat × Nat} {lan : Nat} {seq : BitVec 16}

section
variable (hs : s.twinSlot dst.1 dst.2 f.src seq = none)
include hs

theorem twinArrive_of_full (hf : s.freeTwin = none) :
    s.twinArrive h f dst lan seq = ((s.dropHost h).raise 0x1b0 3 []).bump 0x1b0 14 1 := by
  simp only [State.twinArrive, hs, hf]

theorem twinArrive_of_free {i : Nat} (hf : s.freeTwin = some i) :
    s.twinArrive h f dst lan seq =
      s.setTwins (tblPut s.net.twins i ⟨dst.1, dst.2, f.src, seq, lan, s.time.lt, some h⟩) := by
  simp only [State.twinArrive, hs, hf]

end

section
variable {q : Nat × TwinSlot} (hs : s.twinSlot dst.1 dst.2 f.src seq = some q)
  (hw : s.time.lt.toNat - q.2.lt.toNat < s.twinWindow)
include hs hw

theorem twinArrive_of_lingering (hq : q.2.handle = none) :
    s.twinArrive h f dst lan seq = (s.dropHost h).bump 0x1b0 2 1 := by
  simp only [State.twinArrive, hs, twinCatchUp_of_within hw, hq]

/-- A copy that meets a held one is judged by its LAN, then by its bytes. -/
theorem twinArrive_of_held {g : Nat} (hq : q.2.handle = some g) :
    s.twinArrive h f dst lan seq =
      if q.2.lan = lan then (s.dropHost h).bump 0x1b0 1 1
      else if (s.net.frames.find? (·.handle == g)).map (·.frame.hostBytes) = some f.hostBytes then s.twinMatch q.1 g h
      else s.twinMismatch q.1 g h := by
  simp only [State.twinArrive, hs, twinCatchUp_of_within hw, hq]

end

end

section
variable {i : Nat}

theorem doTwinWindow_of_free (h : s.net.twins.find? (fun e => e.1 == i) = none) : s.doTwinWindow i = s := by
  simp only [State.doTwinWindow, h]

theorem doTwinLingerEnd_of_free (h : s.net.twins.find? (fun e => e.1 == i) = none) : s.doTwinLingerEnd i = s := by
  simp only [State.doTwinLingerEnd, h]

section
variable {q : Nat × TwinSlot} (h : s.net.twins.find? (fun e => e.1 == i) = some q)
include h

theorem doTwinWindow_of_lingering (hq : q.2.handle = none) : s.doTwinWindow i = s := by
  simp only [State.doTwinWindow, h, State.twinExpire, hq]

theorem doTwinWindow_of_held {g : Nat} (hq : q.2.handle = some g) :
    let s1 := (s.setTwins (tblPut s.net.twins i { q.2 with handle := none })).missedLan (1 - q.2.lan)
    s.doTwinWindow i = (s1.bump 0x1b0 4 1).twinDeliver g (1 + q.2.lan) (1 + s1.pathFlags) := by
  simp only [State.doTwinWindow, h, State.twinExpire, hq]

theorem doTwinLingerEnd_of_lingering (hq : q.2.handle = none) :
    s.doTwinLingerEnd i = s.setTwins (tblErase s.net.twins i) := by
  simp [State.doTwinLingerEnd, h, hq]

theorem doTwinLingerEnd_of_held {g : Nat} (hq : q.2.handle = some g) : s.doTwinLingerEnd i = s := by
  simp [State.doTwinLingerEnd, h, hq]

end

end

end

/-! ## The SDT channels (R283, R302) -/

section
variable (s : State)

@[simp] theorem sdtChannel_setChannel_same (c : Nat) (v : SdtChannel) : (s.setChannel c v).sdtChannel c = v :=
  tblRead_write_same channelReset s.net.channels c v

theorem sdtChannel_setChannel_of_ne {c d : Nat} (v : SdtChannel) (h : d ≠ c) :
    (s.setChannel c v).sdtChannel d = s.sdtChannel d :=
  tblRead_write_other channelReset s.net.channels c d v h

/-- A register written leaves every register at another offset as it was, whatever its page. -/
theorem reg_setReg_of_offset_ne {p q off o : Nat} (v : Word) (hoff : off < 0x1000) (ho : o < 0x1000) (h : o ≠ off) :
    (s.setReg p off v).reg q o = s.reg q o :=
  reg_setReg_of_ne s v hoff ho (pair_ne_of_offset_ne h)

@[simp] theorem answer_reg (r : Reply) (p off : Nat) : (s.answer r).reg p off = s.reg p off :=
  State.reg_congr (State.answer_regs s r) p off

/-- CHAN_READ fills the registers of page 0x1B0 with the selected channel's settings and counts. -/
theorem chanRead_reg (r : Reply) :
    let x := s.sdtChannel (s.field 0x1b0 Reg.safeData.chanSel 8 0)
    let t := s.chanRead.answer r
    t.reg 0x1b0 Reg.safeData.chanW0 = x.w0 ∧ t.reg 0x1b0 Reg.safeData.chanW1 = x.sid
    ∧ t.reg 0x1b0 Reg.safeData.chanW2 = x.init ∧ t.reg 0x1b0 Reg.safeData.chanTxSsc = x.next
    ∧ t.reg 0x1b0 Reg.safeData.chanRxSsc = x.rxSsc ∧ t.reg 0x1b0 Reg.safeData.chanResult = 0#32 := by
  simp (disch := decide) only [answer_reg, State.chanRead, reg_setReg_of_offset_ne, State.reg_setReg_same, and_self]

theorem chanRead_frame (r : Reply) : { s.chanRead.answer r with regs := s.regs, reply := s.reply } = s := by
  simp [State.chanRead]

theorem chanWrite_reg_chanResult (r : Reply) : (s.chanWrite.answer r).reg 0x1b0 Reg.safeData.chanResult = 0#32 := by
  simp only [answer_reg, State.chanWrite, State.reg_setReg_same]

theorem chanWrite_frame (r : Reply) :
    { s.chanWrite.answer r with net := s.net, regs := s.regs, reply := s.reply } = s := by
  simp [State.chanWrite, State.setChannel]

end

/-! ## The state of an MVB controller read back -/

section
variable (s : State) (c : Nat)

@[simp] theorem mvb_setMvb_same (v : MvbState) : (s.setMvb c v).mvb c = v := tblRead_write_same mvbReset s.mvbs c v

theorem mvb_setMvb_of_ne {d : Nat} (v : MvbState) (h : d ≠ c) : (s.setMvb c v).mvb d = s.mvb d :=
  tblRead_write_other mvbReset s.mvbs c d v h

theorem mvbResult_reg_cmdResult (n : Nat) (r : Reply) :
    ((s.mvbResult c n).answer r).reg (mvbPage c) Reg.mvb.cmdResult = BitVec.ofNat 32 n := by
  rw [answer_reg, State.mvbResult, State.reg_setReg_same]

/-- A table of a controller written and the result given change nothing outside the controllers and the registers. -/
theorem setMvb_mvbResult_frame (v : MvbState) (n : Nat) (r : Reply) :
    { ((s.setMvb c v).mvbResult c n).answer r with mvbs := s.mvbs, regs := s.regs, reply := s.reply } = s := by
  simp [State.mvbResult, State.setMvb]

/-! ## Port and poll commands (R292, R293, R302) -/

theorem mvbPortRead_reg (r : Reply) :
    let x := tblRead noPort (s.mvb c).ports (s.field (mvbPage c) Reg.mvb.portSel 7 0)
    let t := (s.mvbPortRead c).answer r
    t.reg (mvbPage c) Reg.mvb.portW0 = x.1 ∧ t.reg (mvbPage c) Reg.mvb.portW1 = x.2
    ∧ t.reg (mvbPage c) Reg.mvb.cmdResult = 0#32 := by
  simp (disch := decide) only [answer_reg, State.mvbPortRead, State.mvbResult, reg_setReg_of_offset_ne,
    State.reg_setReg_same, and_self]

theorem mvbPortRead_frame (r : Reply) :
    { (s.mvbPortRead c).answer r with regs := s.regs, reply := s.reply } = s := by
  simp [State.mvbPortRead, State.mvbResult]

theorem mvbPollRead_reg (r : Reply) :
    let t := (s.mvbPollRead c).answer r
    t.reg (mvbPage c) Reg.mvb.pollW0 = tblRead zeroWord (s.mvb c).newPolls (s.field (mvbPage c) Reg.mvb.pollSel 9 0)
    ∧ t.reg (mvbPage c) Reg.mvb.cmdResult = 0#32 := by
  simp (disch := decide) only [answer_reg, State.mvbPollRead, State.mvbResult, reg_setReg_of_offset_ne,
    State.reg_setReg_same, and_self]

theorem mvbPollRead_frame (r : Reply) :
    { (s.mvbPollRead c).answer r with regs := s.regs, reply := s.reply } = s := by
  simp [State.mvbPollRead, State.mvbResult]

/-- PORT_W0 asks for a valid port whose address another valid port has (R293). -/
def portTaken : Prop :=
  bitOf (s.reg (mvbPage c) Reg.mvb.portW0) 31 = true ∧ ((s.mvb c).ports.any fun e =>
    e.1 != s.field (mvbPage c) Reg.mvb.portSel 7 0 && bitOf e.2.1 31
      && fieldOf e.2.1 11 0 == fieldOf (s.reg (mvbPage c) Reg.mvb.portW0) 11 0) = true

/-- The selected port with the words of PORT_W0 and PORT_W1. -/
def storePort : State :=
  s.setMvb c { s.mvb c with
    ports := tblWrite noPort (s.mvb c).ports (s.field (mvbPage c) Reg.mvb.portSel 7 0)
      (s.reg (mvbPage c) Reg.mvb.portW0, s.reg (mvbPage c) Reg.mvb.portW1) }

/-- POLL_W0 has a phase outside its period, or an F_code that no master frame has (R292). -/
def pollBad : Prop :=
  let w := s.reg (mvbPage c) Reg.mvb.pollW0
  2 ^ fieldOf w 19 16 ≤ fieldOf w 29 20 ∨ (4 < fieldOf w 15 12 ∧ fieldOf w 15 12 ≠ 15)

/-- The selected entry of the coming poll list with the word of POLL_W0. -/
def storePoll : State :=
  s.setMvb c { s.mvb c with
    newPolls := tblWrite zeroWord (s.mvb c).newPolls (s.field (mvbPage c) Reg.mvb.pollSel 9 0)
      (s.reg (mvbPage c) Reg.mvb.pollW0) }

end

section
variable {s : State} {c : Nat}

theorem mvbPortWrite_of_taken (h : portTaken s c) : s.mvbPortWrite c = s.mvbResult c 2 := if_pos h

theorem mvbPortWrite_of_not_taken (h : ¬portTaken s c) : s.mvbPortWrite c = (storePort s c).mvbResult c 0 := if_neg h

theorem mvbPollWrite_of_bad (h : pollBad s c) : s.mvbPollWrite c = s.mvbResult c 2 := if_pos h

theorem mvbPollWrite_of_not_bad (h : ¬pollBad s c) : s.mvbPollWrite c = (storePoll s c).mvbResult c 0 := if_neg h

/-! ## The administrator: basic periods and reply timeouts (R292) -/

/-- The poll entries due in period `i` of controller `c`, in ascending index. -/
def duePolls (s : State) (c i : Nat) : List Nat :=
  ((s.mvb c).newPolls.filter fun e =>
    bitOf e.2 31 && i % 2 ^ fieldOf e.2 19 16 == fieldOf e.2 29 20).map (·.1)

/-- The number of the period that follows. -/
def nextPeriod (s : State) (c : Nat) : Nat := ((s.mvb c).period + 1) % 2 ^ fieldOf (s.mvbCfg c) 11 8

/-- The new period begun with the poll entries `l` to send. -/
def beginPeriod (s : State) (c : Nat) (l : List Nat) : State :=
  s.setMvb c { s.mvb c with polls := (s.mvb c).newPolls, period := nextPeriod s c, toSend := l }

theorem doBasicPeriod_of_not_on (h : s.mvbOn c = false) : s.doBasicPeriod c = s := if_pos (by simp [h])

section
variable (h : s.mvbOn c = true)
include h

theorem doBasicPeriod_of_on :
    s.doBasicPeriod c =
      (beginPeriod (s.mvbClose c) c (if bitOf ((s.mvbClose c).mvbCfg c) 0 = true then
        duePolls (s.mvbClose c) c (nextPeriod (s.mvbClose c) c) else [])).mvbSendNext c :=
  if_neg (by simp [h])

theorem doBasicPeriod_of_administrator (hm : bitOf ((s.mvbClose c).mvbCfg c) 0 = true) :
    s.doBasicPeriod c =
      (beginPeriod (s.mvbClose c) c (duePolls (s.mvbClose c) c (nextPeriod (s.mvbClose c) c))).mvbSendNext c := by
  rw [doBasicPeriod_of_on h, if_pos hm]

theorem doBasicPeriod_of_no_administrator (hm : bitOf ((s.mvbClose c).mvbCfg c) 0 = false) :
    s.doBasicPeriod c = (beginPeriod (s.mvbClose c) c []).mvbSendNext c := by
  rw [doBasicPeriod_of_on h, if_neg (Bool.eq_false_iff.mp hm)]

end

theorem doMvbReplyTimeout_of_waiting (hw : (s.mvb c).waiting.isSome = true) (hm : bitOf (s.mvbCfg c) 0 = true) :
    s.doMvbReplyTimeout c = ((s.satReg (mvbPage c) Reg.mvb.noReply 1).bump (mvbPage c) 6 1).mvbSendNext c :=
  if_pos ⟨hw, hm⟩

theorem not_polling {m : MvbState} {w : Word} (h : m.waiting = none ∨ bitOf w 0 = false) :
    ¬(m.waiting.isSome = true ∧ bitOf w 0 = true) := by
  rintro ⟨hw, hm⟩
  obtain h | h := h
  · simp [h] at hw
  · simp [h] at hm

theorem doMvbReplyTimeout_of_not_polling (h : (s.mvb c).waiting = none ∨ bitOf (s.mvbCfg c) 0 = false) :
    s.doMvbReplyTimeout c = s :=
  if_neg (not_polling h)

/-! ## The device part's answers (R293, R294) -/

theorem doMvbMasterFrame_of_not_on {fcode addr : Nat} (h : s.mvbOn c = false) : s.doMvbMasterFrame c fcode addr = s :=
  if_pos (by simp [h])

theorem doMvbMasterFrame_of_on {fcode addr : Nat} (h : s.mvbOn c = true) :
    let s1 := (s.lineHeard c 0).lineHeard c 1
    s.doMvbMasterFrame c fcode addr =
      (s1.setMvb c { s1.mvb c with waiting := some (fcode * 4096 + addr) }).mvbAnswer c fcode addr :=
  if_neg (by simp [h])

theorem mvbAnswer_of_no_device {fcode addr : Nat} (h : bitOf (s.mvbCfg c) 1 = false) : s.mvbAnswer c fcode addr = s :=
  if_pos (by simp [h])

theorem mvbAnswer_device_status {addr : Nat} (h : bitOf (s.mvbCfg c) 1 = true)
    (ha : fieldOf (s.mvbCfg c) 27 16 = addr) :
    s.mvbAnswer c 15 addr =
      (s.mvbReply c (beBytes 2 (s.field (mvbPage c) Reg.mvb.deviceStatus 15 0))).bump (mvbPage c) 9 1 := by
  simp [State.mvbAnswer, h, ha]

end

/-! ## The two lines and slave frames (R291, R293) -/

/-- The line in use keeps its place while its frame is valid. -/
theorem usedLine_of_valid (x : List Byte) (f : LineFrame) :
    usedLine 0 (some (x, true)) f = some (0, x) ∧ usedLine 1 f (some (x, true)) = some (1, x) :=
  ⟨rfl, rfl⟩

/-- Where the line in use carries no valid frame, the other line's is taken, if that is valid. -/
theorem usedLine_of_invalid (x : List Byte) {bad : LineFrame} (h : bad = none ∨ ∃ z, bad = some (z, false)) :
    usedLine 0 bad (some (x, true)) = some (1, x) ∧ usedLine 1 (some (x, true)) bad = some (0, x)
      ∧ usedLine 0 bad bad = none ∧ usedLine 1 bad bad = none := by
  obtain rfl | ⟨z, rfl⟩ := h
  · exact ⟨rfl, rfl, rfl, rfl⟩
  · exact ⟨rfl, rfl, rfl, rfl⟩

/-- The used frame taken: RX_LINE switches to its line, counted where it changes, and the sink port of the last master
frame's address takes the data. -/
def takeUsed (s : State) (c : Nat) (used : Option (Nat × List Byte)) : State :=
  match used with
  | none => s
  | some u =>
    let t := if u.1 = (s.mvb c).rxLine then s
      else (s.setMvb c { s.mvb c with rxLine := u.1 }).bump (mvbPage c) 8 1
    match (s.mvb c).waiting with
    | some k => if bitOf (t.mvbCfg c) 1 then t.mvbSink c u.1 k u.2 else t
    | none => t

section
variable {s : State} {c : Nat} {a b : LineFrame}

theorem doMvbSlaveFrame_of_deaf (h : s.mvbOn c = false ∨ (a = none ∧ b = none)) : s.doMvbSlaveFrame c a b = s :=
  if_pos (by simpa using h)

theorem doMvbSlaveFrame_of_heard (ho : s.mvbOn c = true) (hab : ¬(a = none ∧ b = none)) :
    let s1 := (s.lineFrame c 0 a).lineFrame c 1 b
    let s2 := takeUsed s1 c (usedLine (s1.mvb c).rxLine a b)
    s.doMvbSlaveFrame c a b =
      if (s1.mvb c).waiting.isSome = true ∧ bitOf (s2.mvbCfg c) 0 = true then s2.mvbSendNext c
      else s2.setMvb c { s2.mvb c with waiting := none } :=
  if_neg (by simpa [ho] using hab)

end

/-- Settles O42: an arrival meets a free, a held or a lingering slot or none, each timer of a slot acts on its own
state, and the channel, port, poll and MVB commands act by their conditions. -/
theorem twinSlotsChannelsAndMvbFollowTheirRules : Obligations.TwinSlotsChannelsAndMvbFollowTheirRules := by
  unfold Obligations.TwinSlotsChannelsAndMvbFollowTheirRules
  refine ⟨?arrive, ?timers, ?channels, ?administrator, ?device, ?lines, ?slave, ?ports, ?polls⟩
  case arrive =>
    refine fun h f dst lan seq s => ⟨fun hs => ⟨twinArrive_of_full hs, fun i hf => twinArrive_of_free hs hf⟩,
      fun q hs hw => ⟨twinArrive_of_lingering hs hw, fun g hq => ?_⟩⟩
    have hheld := twinArrive_of_held (h := h) (lan := lan) hs hw hq
    exact ⟨fun hl => hheld.trans (if_pos hl), fun hl hb => hheld.trans ((if_neg hl).trans (if_pos hb)),
      fun hl hb => hheld.trans ((if_neg hl).trans (if_neg hb))⟩
  case timers =>
    refine fun slot s => ⟨fun h => ⟨congrArg Host.Outcome.next (doTwinWindow_of_free h),
      congrArg Host.Outcome.next (doTwinLingerEnd_of_free h)⟩, fun q h => ⟨fun hq => ⟨?_, ?_⟩, fun g hq => ⟨?_, ?_⟩⟩⟩
    · exact congrArg Host.Outcome.next (doTwinWindow_of_lingering h hq)
    · exact ⟨_, congrArg Host.Outcome.next (doTwinLingerEnd_of_lingering h hq),
        find?_tblErase_same s.net.twins slot.val, rfl⟩
    · exact congrArg Host.Outcome.next (doTwinLingerEnd_of_held h hq)
    · exact congrArg Host.Outcome.next (doTwinWindow_of_held h hq)
  case channels =>
    intro m s hm c
    obtain ⟨hw0, hw1, hw2, htx, hrx, hresult⟩ := chanRead_reg s .none
    exact ⟨⟨_, next_written hm rfl, sdtChannel_setChannel_same s c _, fun d hd => sdtChannel_setChannel_of_ne s _ hd,
        chanWrite_reg_chanResult s .none, chanWrite_frame s .none⟩,
      ⟨_, next_written hm rfl, hw0, hw1, hw2, htx, hrx, hresult, chanRead_frame s .none⟩⟩
  case administrator =>
    intro ctl s c s1 i due begun
    exact ⟨fun ho => congrArg Host.Outcome.next (doBasicPeriod_of_not_on ho),
      fun ho hm => congrArg Host.Outcome.next (doBasicPeriod_of_administrator ho hm),
      fun ho hm => congrArg Host.Outcome.next (doBasicPeriod_of_no_administrator ho hm),
      fun hw hm => congrArg Host.Outcome.next (doMvbReplyTimeout_of_waiting hw hm),
      fun h => congrArg Host.Outcome.next (doMvbReplyTimeout_of_not_polling h)⟩
  case device =>
    exact fun ctl fcode addr s => ⟨fun ho => congrArg Host.Outcome.next (doMvbMasterFrame_of_not_on ho),
      fun ho => congrArg Host.Outcome.next (doMvbMasterFrame_of_on ho), mvbAnswer_of_no_device, mvbAnswer_device_status⟩
  case lines =>
    intro x y bad hbad
    obtain ⟨hswitchB, -, hnone0, hnone1⟩ := usedLine_of_invalid y hbad
    obtain ⟨-, hswitchA, -, -⟩ := usedLine_of_invalid x hbad
    exact ⟨fun b => (usedLine_of_valid x b).1, fun a => (usedLine_of_valid y a).2, hswitchB, hswitchA, hnone0, hnone1⟩
  case slave =>
    intro ctl a b s c s1 took
    refine ⟨fun h => congrArg Host.Outcome.next (doMvbSlaveFrame_of_deaf h), ?_⟩
    rintro s2 ho hab rfl
    have hheard := doMvbSlaveFrame_of_heard ho hab
    exact ⟨fun hw hm => congrArg Host.Outcome.next (hheard.trans (if_pos ⟨hw, hm⟩)), fun h =>
      congrArg Host.Outcome.next (hheard.trans (if_neg (not_polling h)))⟩
  case ports =>
    intro m ctl s hm c p sel w taken
    refine ⟨fun h => next_written hm (mvbPortWrite_of_taken h), fun h => ?_, ?_⟩
    · exact ⟨_, next_written hm (mvbPortWrite_of_not_taken h), mvbResult_reg_cmdResult (storePort s c) c 0 .none,
        mvb_setMvb_same s c _, fun d hd => mvb_setMvb_of_ne s c _ hd,
        setMvb_mvbResult_frame s c _ 0 .none⟩
    · obtain ⟨hw0, hw1, hresult⟩ := mvbPortRead_reg s c .none
      exact ⟨_, next_written hm rfl, hw0, hw1, hresult, mvbPortRead_frame s c .none⟩
  case polls =>
    intro m ctl s hm c p sel w bad
    refine ⟨fun h => next_written hm (mvbPollWrite_of_bad h), fun h => ?_, ?_⟩
    · exact ⟨_, next_written hm (mvbPollWrite_of_not_bad h), mvbResult_reg_cmdResult (storePoll s c) c 0 .none,
        mvb_setMvb_same s c _, fun d hd => mvb_setMvb_of_ne s c _ hd,
        setMvb_mvbResult_frame s c _ 0 .none⟩
    · obtain ⟨hw0, hresult⟩ := mvbPollRead_reg s c .none
      exact ⟨_, next_written hm rfl, hw0, hresult, mvbPollRead_frame s c .none⟩

end Sys2Proof.Proofs

namespace Sys2Proof.Proofs
open Sys2Proof Sys2Proof.Machine Sys2Proof.Laws

/-! ## Channels, outputs and latched causes read back -/

section
variable (s : State)

theorem ch_congr {s t : State} (h : t.meas = s.meas) (c : Nat) : t.ch c = s.ch c := by
  rw [State.ch, h, State.ch]

@[simp] theorem ch_setCh_same (c : Nat) (v : ChState) : (s.setCh c v).ch c = v :=
  tblRead_write_same chReset s.meas.chs c v

theorem ch_setCh_of_ne {c d : Nat} (v : ChState) (h : d ≠ c) : (s.setCh c v).ch d = s.ch d :=
  tblRead_write_other chReset s.meas.chs c d v h

@[simp] theorem out_setOut_same (n : Nat) (v : OutState) : (s.setOut n v).out n = v :=
  tblRead_write_same outReset s.meas.outs n v

@[simp] theorem bump_ch (p n k c : Nat) : (s.bump p n k).ch c = s.ch c := ch_congr (State.bump_meas s p n k) c

@[simp] theorem bump_op (p n k q : Nat) : (s.bump p n k).op q = s.op q := by rw [State.op, State.bump_ops, State.op]

@[simp] theorem raise_ch (p bit : Nat) (detail : List Word) (c : Nat) : (s.raise p bit detail).ch c = s.ch c :=
  ch_congr (State.raise_meas s p bit detail) c

@[simp] theorem opFail_op_phase (p : Nat) (e : Word) : ((s.opFail p e).op p).phase = .failed :=
  congrArg OpState.phase (State.op_setOp_same s p _)

/-- A report counts in FAULT_COUNT, not in FAULT_STATUS. -/
theorem post_causes (pl : Plane) (origin cls reaction : Nat) (detail : List Word) (p : Nat) :
    (s.post pl origin cls reaction detail).causes p = s.causes p := by
  have hov : (0x010 : Nat) ≠ overflowReg pl := by cases pl <;> decide
  simp only [State.causes]
  rw [post_reg_of_ne_overflow s pl origin cls reaction detail (by decide) (pair_ne_of_offset_ne hov),
    countReport_reg_other s pl origin cls (by decide) (pair_ne_of_offset_ne (by decide))
      (pair_ne_of_offset_ne (by decide))]

/-- A cause raised stays latched behind its report (R37). -/
theorem hasCause_raise_same (p : Nat) {bit : Nat} (detail : List Word) (h : bit < 32) :
    (s.raise p bit detail).hasCause p bit = true := by
  rw [State.hasCause, State.raise, post_causes]
  exact hasCause_latch_same s p h

end

/-- A write of a command register that R19 bars is an access violation, whatever the command. -/
theorem next_written_refused {s : State} {m : Master} {p off : Nat} (act : State → State)
    (h : s.mayWritePage m p off = false) :
    (Host.Outcome.next (s.written m p off act) : Result) = .next (s.violation m (0x18000000 + 0x1000 * p + off)) :=
  congrArg Host.Outcome.next (if_pos (by simp [h]))

/-! ## The bank that a load or a swap acts on (R314, R319) -/

section
variable (h : ChState) (b : Bank)

@[simp] theorem setInact_inact : (h.setInact b).inact = b := by
  cases ha : h.active <;> simp [ChState.setInact, ChState.inact, ha]

@[simp] theorem setInact_act : (h.setInact b).act = h.act := by
  cases ha : h.active <;> simp [ChState.setInact, ChState.act, ha]

end

/-! ## BANK_LOAD (R315) -/

/-- The bank's words read: counted at the bandwidth point and as progress, and in the inactive bank. -/
def readBank (s : State) (c : Nat) (ws : List Word) : State :=
  ((s.bw 84 (4 * ws.length)).setCh c ((s.ch c).setInact (bankOf ws))).setOp (chPage c)
    ((s.op (chPage c)).advance ws.length 0)

/-- The bank that a load leaves, with the CRC of its image. -/
def checkedBank (ws : List Word) : Bank :=
  { bankOf ws with checked := true, symmetric := (bankOf ws).isSymmetric, crc := (bankOf ws).imageCrc }

/-- The load done: the bank checked, the count and the operation up. -/
def loadedBank (s : State) (c : Nat) (ws : List Word) : State :=
  ((((readBank s c ws).setCh c ((s.ch c).setInact (checkedBank ws))).setOp (chPage c)
    (((readBank s c ws).op (chPage c)).advance 0 1)).bump (chPage c) 9 1).opDone (chPage c)

theorem satAdd_zero_satAdd (top n k : Nat) : satAdd top (satAdd top n k) 0 = satAdd top n k := by
  unfold satAdd
  by_cases h : top ≤ n + k
  · rw [if_pos h, if_pos (Nat.le_add_right top 0)]
  · rw [if_neg h]
    exact if_neg h

theorem advance_advance_zero (o : OpState) (k r : Nat) :
    (o.advance k 0).advance 0 r = o.advance k r := by
  simp [OpState.advance, satAdd_zero_satAdd]

section
variable (s : State) (c : Nat) (ws : List Word)

theorem loadedBank_ch_same : (loadedBank s c ws).ch c = (s.ch c).setInact (checkedBank ws) :=
  (bump_ch _ _ _ _ _).trans (ch_setCh_same _ c _)

theorem loadedBank_ch_of_ne {d : Nat} (h : d ≠ c) : (loadedBank s c ws).ch d = s.ch d := by
  refine (bump_ch _ _ _ _ _).trans ?_
  exact (ch_setCh_of_ne _ _ h).trans (ch_setCh_of_ne _ _ h)

theorem loadedBank_op :
    (loadedBank s c ws).op (chPage c) = { (s.op (chPage c)).advance ws.length 1 with phase := .done } := by
  simp [loadedBank, readBank, State.opDone, advance_advance_zero]

theorem loadedBank_frame :
    { loadedBank s c ws with meas := s.meas, ops := s.ops, counters := s.counters, obs := s.obs } = s := by
  simp [loadedBank, readBank, State.setCh]

end

/-- The channel with its banks exchanged, its windows and its trip run restarted (R319). -/
def swappedChannel (s : State) (c : Nat) : ChState :=
  (({ s.ch c with active := !(s.ch c).active, swapPending := false }).restartBand).restartWindow
    (s.reg (chPage c) Reg.ch.winCfg) (s.time.mp.toNat / 2 ^ 32)

section
variable {s : State} {c : Nat}

theorem doBankLoad_of_inactive (h : s.opActive (chPage c) 1 = false) : s.doBankLoad c = s :=
  if_pos (by simp [h])

section
variable (hop : s.opActive (chPage c) 1 = true)
include hop

theorem doBankLoad_of_swap_due (h : (s.ch c).swapPending = true ∨ (s.ch c).armed = true) :
    s.doBankLoad c = s.opFail (chPage c) 0x100#32 :=
  (if_neg (by simp [hop])).trans (if_pos h)

section
variable (hp : (s.ch c).swapPending = false) (ha : (s.ch c).armed = false)
include hp ha

theorem doBankLoad_of_no_header (hr : s.sramWords (s.op (chPage c)).arg0.toNat 4 = none) :
    s.doBankLoad c = (s.bankFail c 0x104#32).raise (chPage c) 4 [] := by
  simp [State.doBankLoad, hop, hp, ha, hr]

section
variable {head : List Word} (hr : s.sramWords (s.op (chPage c)).arg0.toNat 4 = some head)
include hr

theorem doBankLoad_of_bad_header (hk : (bankOf head).ok = false) : s.doBankLoad c = s.bankFail c 0x101#32 := by
  simp [State.doBankLoad, hop, hp, ha, hr, hk]

section
variable (hk : (bankOf head).ok = true)
include hk

theorem doBankLoad_of_no_words (hw : s.sramWords (s.op (chPage c)).arg0.toNat (4 + (bankOf head).taps) = none) :
    s.doBankLoad c = (s.bankFail c 0x104#32).raise (chPage c) 4 [] := by
  simp [State.doBankLoad, hop, hp, ha, hr, hk, hw]

section
variable {ws : List Word} (hw : s.sramWords (s.op (chPage c)).arg0.toNat (4 + (bankOf head).taps) = some ws)
include hw

theorem doBankLoad_of_bad_form (hb : (bankOf ws).ok = false) :
    s.doBankLoad c = (readBank s c ws).bankFail c 0x101#32 := by
  simp [State.doBankLoad, hop, hp, ha, hr, hk, hw, readBank, hb]

section
variable (hb : (bankOf ws).ok = true)
include hb

theorem doBankLoad_of_bad_crc (hcrc : (bankOf ws).imageCrc ≠ (s.op (chPage c)).arg1) :
    s.doBankLoad c = (readBank s c ws).bankFail c 0x102#32 := by
  simp [State.doBankLoad, hop, hp, ha, hr, hk, hw, readBank, hb, hcrc]

variable (hcrc : (bankOf ws).imageCrc = (s.op (chPage c)).arg1)
include hcrc

theorem doBankLoad_of_asymmetric (hsafe : bitOf (s.chCfg c) 24 = true) (hsym : (bankOf ws).isSymmetric = false) :
    s.doBankLoad c = (readBank s c ws).bankFail c 0x103#32 := by
  simp [State.doBankLoad, hop, hp, ha, hr, hk, hw, readBank, hb, hcrc, hsafe, hsym]

theorem doBankLoad_of_checked (hsym : bitOf (s.chCfg c) 24 = false ∨ (bankOf ws).isSymmetric = true) :
    s.doBankLoad c = loadedBank s c ws := by
  have hsafe : ¬(bitOf (s.chCfg c) 24 = true ∧ (bankOf ws).isSymmetric = false) := by
    rintro ⟨h24, hasym⟩
    obtain h | h := hsym
    · exact absurd (h24.symm.trans h) (by decide)
    · exact absurd (h.symm.trans hasym) (by decide)
  simp [State.doBankLoad, hop, hp, ha, hr, hk, hw, readBank, loadedBank, checkedBank, hb, hcrc, hsafe]

end

end

end

end

end

end

/-! ## Swaps: requested, refused and applied (R317, R318, R319) -/

theorem swapRequest_of_pending (h : (s.ch c).swapPending = true) : s.swapRequest c = s := if_pos h

section
variable (hp : (s.ch c).swapPending = false)
include hp

theorem swapRequest_of_unchecked (h : (s.ch c).inact.checked = false) : s.swapRequest c = s.swapRefused c 1 := by
  simp [State.swapRequest, hp, h]

/-- A checked bank is swapped unless its page's BANK_LOAD is queued or running. -/
theorem swapRequest_of_checked (h : (s.ch c).inact.checked = true) :
    s.swapRequest c =
      if (s.op (chPage c)).opcode.val = 1
          ∧ ((s.op (chPage c)).phase = .queued ∨ (s.op (chPage c)).phase = .running) then
        s.swapRefused c 3
      else s.setCh c { s.ch c with swapPending := true } := by
  simp [State.swapRequest, hp, h]

end

theorem doBankSwapApply_of_none (h : (s.ch c).swapPending = false) : s.doBankSwapApply c = s := if_pos (by simp [h])

section
variable (hp : (s.ch c).swapPending = true)
include hp

theorem doBankSwapApply_of_mismatch (h : (s.ch c).inact.imageCrc ≠ (s.ch c).inact.crc) :
    s.doBankSwapApply c = s.swapRefused c 2 :=
  (if_neg (by simp [hp])).trans (if_pos h)

theorem doBankSwapApply_of_match (h : (s.ch c).inact.imageCrc = (s.ch c).inact.crc) :
    s.doBankSwapApply c = ((s.setCh c (swappedChannel s c)).bump (chPage c) 3 1).settleLines :=
  (if_neg (by simp [hp])).trans (if_neg (absurd h))

end

end

section
variable (s : State) (c : Nat)

@[simp] theorem settleLines_ch (d : Nat) : s.settleLines.ch d = s.ch d := rfl

/-- A trip line settled is what the channels drive, and they drive what they drove. -/
theorem settleLines_tripLines : s.settleLines.sup.tripLines = s.settleLines.tripLinesNow := rfl

theorem swapRefused_ch_same (f : Nat) :
    (s.swapRefused c f).ch c = { s.ch c with swapFail := f, swapPending := false } := by
  simp [State.swapRefused]

theorem swapRefused_ch_of_ne (f : Nat) {d : Nat} (h : d ≠ c) : (s.swapRefused c f).ch d = s.ch d := by
  simp [State.swapRefused, ch_setCh_of_ne s _ h]

theorem swapRefused_hasCause (f : Nat) : (s.swapRefused c f).hasCause (chPage c) 1 = true :=
  hasCause_raise_same _ _ _ (by decide)

theorem swapRefused_frame (f : Nat) :
    (s.swapRefused c f).mem = s.mem ∧ (s.swapRefused c f).ops = s.ops ∧ (s.swapRefused c f).sup = s.sup := by
  simp [State.swapRefused, State.setCh]

theorem swapped_frame (v : ChState) (n : Nat) :
    { ((s.setCh c v).bump (chPage c) n 1).settleLines with
      meas := s.meas, counters := s.counters, obs := s.obs, sup := s.sup } = s := by
  simp [State.setCh, State.settleLines]

end

/-- Settles O55: each answer of a BANK_LOAD, of a swap request and of its application is one branch, and a load that is
done leaves `loadedBank`. -/
theorem banksAreLoadedAndSwapped : Obligations.BanksAreLoadedAndSwapped := by
  unfold Obligations.BanksAreLoadedAndSwapped
  refine ⟨?load, ?failure, ?request, ?refusal, ?apply⟩
  case load =>
    intro c s p h o base
    refine ⟨fun hop => congrArg Host.Outcome.next (doBankLoad_of_inactive hop),
      fun hop hsw => congrArg Host.Outcome.next (doBankLoad_of_swap_due hop hsw), fun hop hp ha =>
      ⟨fun hr => congrArg Host.Outcome.next (doBankLoad_of_no_header hop hp ha hr), fun head hr =>
        ⟨fun hk => congrArg Host.Outcome.next (doBankLoad_of_bad_header hop hp ha hr hk),
          fun hk hw => congrArg Host.Outcome.next (doBankLoad_of_no_words hop hp ha hr hk hw), fun ws hk hw =>
          ⟨fun hb => congrArg Host.Outcome.next (doBankLoad_of_bad_form hop hp ha hr hk hw hb),
            fun hb hcrc => congrArg Host.Outcome.next (doBankLoad_of_bad_crc hop hp ha hr hk hw hb hcrc),
            fun hb hcrc hsafe hsym =>
              congrArg Host.Outcome.next (doBankLoad_of_asymmetric hop hp ha hr hk hw hb hcrc hsafe hsym),
            fun hb hcrc hsym => ⟨loadedBank s c ws,
              congrArg Host.Outcome.next (doBankLoad_of_checked hop hp ha hr hk hw hb hcrc hsym), ?_,
              fun d hd => loadedBank_ch_of_ne s c ws hd, ?_, ?_, ?_, loadedBank_frame s c ws⟩⟩⟩⟩⟩
    · rw [loadedBank_ch_same, ← hcrc]
      rfl
    · rw [loadedBank_op]
    · rw [loadedBank_op]
      rfl
    · rw [loadedBank_op]
      rfl
  case failure =>
    intro c e s
    have hch : (s.bankFail c e).ch c = (s.ch c).setInact { (s.ch c).inact with checked := false } := ch_setCh_same s c _
    refine ⟨?_, ?_, opFail_op_phase _ _ _⟩
    · rw [hch, setInact_inact]
    · rw [hch, setInact_act]
  case request =>
    intro m c s p h loading refused
    exact ⟨fun hm => ⟨next_written_refused _ hm, next_written_refused _ hm, next_written_refused _ hm⟩,
      fun hm => ⟨next_written hm rfl, next_written hm rfl,
      fun hp => next_written hm (swapRequest_of_pending hp),
      fun hp hk => next_written hm (swapRequest_of_unchecked hp hk),
      fun hp hk hl => next_written hm ((swapRequest_of_checked hp hk).trans (if_pos hl)),
      fun hp hk hl => next_written hm ((swapRequest_of_checked hp hk).trans (if_neg hl))⟩⟩
  case refusal =>
    exact fun c f s => ⟨swapRefused_ch_same s c f, fun d hd => swapRefused_ch_of_ne s c f hd,
      swapRefused_hasCause s c f, swapRefused_frame s c f⟩
  case apply =>
    intro c s h
    refine ⟨fun hp => congrArg Host.Outcome.next (doBankSwapApply_of_none hp),
      fun hp hcrc => congrArg Host.Outcome.next (doBankSwapApply_of_mismatch hp hcrc), fun hp hcrc =>
      ⟨_, congrArg Host.Outcome.next (doBankSwapApply_of_match hp hcrc), ?_, fun d hd => ?_, settleLines_tripLines _,
        swapped_frame s c _ 3⟩⟩
    · rw [settleLines_ch, bump_ch, ch_setCh_same]
      rfl
    · rw [settleLines_ch, bump_ch, ch_setCh_of_ne s _ hd]

end Sys2Proof.Proofs

namespace Sys2Proof.Proofs
open Sys2Proof Sys2Proof.Machine Sys2Proof.Laws

/-! ## Free values between two bounds -/

theorem drawIn_mem (s : State) {lo hi : Int} (h : lo ≤ hi) : lo ≤ (s.drawIn lo hi).1 ∧ (s.drawIn lo hi).1 ≤ hi := by
  have hpos : 0 < hi - lo + 1 := by omega
  have hlo := Int.emod_nonneg (s.drawWord.1.toNat : Int) (Int.ne_of_gt hpos)
  have hhi := Int.emod_lt_of_pos (s.drawWord.1.toNat : Int) hpos
  simp only [State.drawIn]
  omega

theorem not_beyond48 {sum : Int} (hlo : -(2 ^ 47) ≤ sum) (hhi : sum < 2 ^ 47) : ¬(sum < -(2 ^ 47) ∨ 2 ^ 47 ≤ sum) := by
  omega

/-! ## The input of an interpolating output (R334, R335) -/

/-- The offset of the ring's next sample in shared SRAM. -/
def ringOffset (s : State) (n : Nat) : Nat :=
  (s.reg (outPage n) Reg.out.outRingBase).toNat
    + 4 * ((s.reg (outPage n) Reg.out.outSeq).toNat % 2 ^ s.field (outPage n) Reg.out.outRingCfg 4 0)

section
variable {s : State} {n : Nat}

section
variable (h0 : fieldOf (s.reg (outPage n) Reg.out.outConfig) 13 12 = 0)
include h0

theorem outInput_of_empty_ring (hs : s.reg (outPage n) Reg.out.outSeq = s.reg (outPage n) Reg.out.outPosted) :
    s.outInput n = ((s.out n).prev,
      ((s.satReg (outPage n) Reg.out.outUnderruns 1).bump (outPage n) 1 1).raise (outPage n) 0 []) := by
  simp [State.outInput, h0, hs]

section
variable (hs : s.reg (outPage n) Reg.out.outSeq ≠ s.reg (outPage n) Reg.out.outPosted)
include hs

theorem outInput_of_sample {w : Word} (hr : s.sramWords (ringOffset s n) 1 = some [w]) :
    s.outInput n = (signed24 w, (s.incReg (outPage n) Reg.out.outSeq 1).bw 84 4) := by
  simp only [ringOffset] at hr
  simp [State.outInput, h0, hs, hr]

theorem outInput_of_refused (hr : s.sramWords (ringOffset s n) 1 = none) :
    s.outInput n = (0, ((s.incReg (outPage n) Reg.out.outSeq 1).bw 84 4).raise (outPage n) 2 []) := by
  simp only [ringOffset] at hr
  simp [State.outInput, h0, hs, hr]

end

end

theorem outInput_of_channel (h1 : fieldOf (s.reg (outPage n) Reg.out.outConfig) 13 12 = 1) :
    (s.outInput n).2 = s ∧ ∀ q l, (s.ch (fieldOf (s.reg (outPage n) Reg.out.outConfig) 20 16)).outs = q :: l →
      (s.outInput n).1 = q.1 := by
  refine ⟨?_, fun q l hl => ?_⟩
  · simp [State.outInput, h1]
  · simp [State.outInput, h1, hl]

theorem outInput_of_const (h2 : fieldOf (s.reg (outPage n) Reg.out.outConfig) 13 12 = 2) :
    s.outInput n = (signed24 (s.reg (outPage n) Reg.out.outConst), s) := by
  simp [State.outInput, h2]

end

/-! ## OUTPUT_INPUT_SAMPLE (R334) -/

section
variable (s : State) (n : Nat)

/-- The input clipped to ±6,291,456. -/
def clippedInput : Int :=
  let x := (s.outInput n).1
  if x < -6291456 then -6291456 else if 6291456 < x then 6291456 else x

/-- The state that has taken the input, with the sample and its clip counted. -/
def inputTaken : State :=
  let t := (s.outInput n).2.bump (outPage n) 0 1
  if clippedInput s n = (s.outInput n).1 then t else (t.satReg (outPage n) Reg.out.outClips 1).bump (outPage n) 2 1

/-- The FIR's inputs, the clipped one the newest. -/
def outputLine : List Int := (clippedInput s n :: ((inputTaken s n).out n).line).take 128

def outputSum : Int := firSum ((inputTaken s n).out n).coefs (outputLine s n)

/-- The output fed with value `x`, in state `t`. -/
def feedOutput (t : State) (x : Int) : State :=
  t.setOut n { (inputTaken s n).out n with prev := clippedInput s n, line := outputLine s n, fed := x }

end

section
variable {s : State} {n : Nat}

theorem doOutputSample_of_not_on (h : (s.page (outPage n)).run ≠ .on) : s.doOutputSample n = s := if_pos h

section
variable (hon : (s.page (outPage n)).run = .on)
include hon

theorem doOutputSample_of_plain (hf : bitOf ((inputTaken s n).reg (outPage n) Reg.out.outConfig) 10 = false) :
    s.doOutputSample n = feedOutput s n (inputTaken s n) (clippedInput s n) :=
  (if_neg (absurd hon)).trans (if_neg (Bool.eq_false_iff.mp hf))

section
variable (hf : bitOf ((inputTaken s n).reg (outPage n) Reg.out.outConfig) 10 = true)
include hf

theorem doOutputSample_of_sum_within (hlo : -(2 ^ 47) ≤ outputSum s n) (hhi : outputSum s n < 2 ^ 47) :
    s.doOutputSample n = feedOutput s n (inputTaken s n) (sat24 (roundDiv (outputSum s n) (2 ^ 22))).1 :=
  (if_neg (absurd hon)).trans ((if_pos hf).trans (if_neg (not_beyond48 hlo hhi)))

theorem doOutputSample_of_sum_beyond (hsum : outputSum s n < -(2 ^ 47) ∨ 2 ^ 47 ≤ outputSum s n) :
    s.doOutputSample n = feedOutput s n { inputTaken s n with free := (inputTaken s n).free + 1 }
      ((inputTaken s n).drawIn (-8388608) 8388607).1 :=
  (if_neg (absurd hon)).trans ((if_pos hf).trans (if_pos hsum))

end

end

/-! ## OUT_POSTED_WRITE (R250, R334) -/

/-- Both counts are at most a ring's size behind the value (R250). -/
def postFits (s : State) (n : Nat) (v : Word) : Prop :=
  seqDist (s.reg (outPage n) Reg.out.outPosted) v ≤ 2 ^ s.field (outPage n) Reg.out.outRingCfg 4 0
    ∧ seqDist (s.reg (outPage n) Reg.out.outSeq) v ≤ 2 ^ s.field (outPage n) Reg.out.outRingCfg 4 0

theorem postOut_of_fits {v : Word} (h : postFits s n v) : s.postOut n v = s.setReg (outPage n) Reg.out.outPosted v :=
  if_pos (postOk_of_within h)

theorem postOut_of_not_fits {v : Word} (h : ¬postFits s n v) : s.postOut n v = s :=
  if_neg (postOk_of_beyond h)

/-! ## COEF_LOAD (R335) -/

theorem doCoefLoad_of_idle (h : s.opActive (outPage n) 1 = false ∨ (s.page (outPage n)).run ≠ .off) :
    s.doCoefLoad n = s :=
  if_pos (by simpa using h)

/-- The coefficients stored, with their number in OUT_TAPS. -/
def loadedCoefs (s : State) (n : Nat) (ws : List Word) : State :=
  let k := (s.op (outPage n)).arg1.toNat
  let s1 := ((s.bw 84 (4 * k)).setOut n { s.out n with coefs := ws }).setReg (outPage n) Reg.out.outTaps
    (BitVec.ofNat 32 k)
  ((s1.setOp (outPage n) ((s.op (outPage n)).advance k 1)).bump (outPage n) 3 1).opDone (outPage n)

section
variable (hop : s.opActive (outPage n) 1 = true) (hoff : (s.page (outPage n)).run = .off)
include hop hoff

theorem doCoefLoad_of_bad_number
    (h : (s.op (outPage n)).arg1.toNat = 0 ∨ 128 < (s.op (outPage n)).arg1.toNat) :
    s.doCoefLoad n = s.opFail (outPage n) 0x101#32 :=
  (if_neg (by simp [hop, hoff])).trans (if_pos h)

section
variable (h0 : 0 < (s.op (outPage n)).arg1.toNat) (h128 : (s.op (outPage n)).arg1.toNat ≤ 128)
include h0 h128

theorem doCoefLoad_of_refused
    (hr : s.sramWords (s.op (outPage n)).arg0.toNat (s.op (outPage n)).arg1.toNat = none) :
    s.doCoefLoad n = (s.opFail (outPage n) 0x104#32).raise (outPage n) 2 [] := by
  simp [State.doCoefLoad, hop, hoff, Nat.ne_of_gt h0, Nat.not_lt.mpr h128, hr]

section
variable {ws : List Word}
  (hr : s.sramWords (s.op (outPage n)).arg0.toNat (s.op (outPage n)).arg1.toNat = some ws)
include hr

omit h128 in
theorem doCoefLoad_of_bad_form (hb : ∃ w, w ∈ ws ∧ coefOk w = false) :
    s.doCoefLoad n = s.opFail (outPage n) 0x101#32 := by
  have hall : ws.all coefOk = false := by simpa using hb
  simp [State.doCoefLoad, hop, hoff, Nat.ne_of_gt h0, hr, hall]

section
variable (hg : ∀ w, w ∈ ws → coefOk w = true)
include hg

theorem doCoefLoad_of_bad_crc (hcrc : crc32 (wordBytes ws) ≠ (s.op (outPage n)).arg2) :
    s.doCoefLoad n = s.opFail (outPage n) 0x102#32 := by
  simp [State.doCoefLoad, hop, hoff, Nat.ne_of_gt h0, Nat.not_lt.mpr h128, hr, List.all_eq_true.mpr hg, hcrc]

theorem doCoefLoad_of_checked (hcrc : crc32 (wordBytes ws) = (s.op (outPage n)).arg2) :
    s.doCoefLoad n = loadedCoefs s n ws := by
  simp [State.doCoefLoad, loadedCoefs, hop, hoff, Nat.ne_of_gt h0, Nat.not_lt.mpr h128, hr, List.all_eq_true.mpr hg, hcrc]

end

end

end

end

end

section
variable (s : State) (n : Nat) (ws : List Word)

theorem loadedCoefs_out : (loadedCoefs s n ws).out n = { s.out n with coefs := ws } := by
  simp [loadedCoefs, State.out, State.setOut, tblRead_write_same]

theorem loadedCoefs_op :
    (loadedCoefs s n ws).op (outPage n)
      = { (s.op (outPage n)).advance (s.op (outPage n)).arg1.toNat 1 with phase := .done } := by
  simp [loadedCoefs, State.opDone]

theorem loadedCoefs_outTaps :
    (loadedCoefs s n ws).reg (outPage n) Reg.out.outTaps = BitVec.ofNat 32 (s.op (outPage n)).arg1.toNat := by
  rw [loadedCoefs, State.reg_congr (State.opDone_regs _ _), State.reg_congr (State.bump_regs _ _ _ _),
    State.reg_congr (State.setOp_regs _ _ _), State.reg_setReg_same]

theorem loadedCoefs_mem : (loadedCoefs s n ws).mem = s.mem := by
  simp [loadedCoefs, State.setOut]

end

/-! ## The STARTING check (R336) -/

/-- The histories of a channel restarted (R322, R336). -/
def restartedChannel (s : State) (c : Nat) : ChState :=
  let h := { s.ch c with integ := [], comb := [], cic := [], half := [], fir := [], outs := [], rsTaken := false }
  { h.restartBand.restartWindow (s.reg (chPage c) Reg.ch.winCfg) (s.time.mp.toNat / 2 ^ 32) with
    unsettled := s.unsettledCount c }

/-- A channel that passes the check: restarted, and its stream not stopped. -/
def startedChannel (s : State) (c : Nat) : State :=
  (s.restartChannel c).setCh c { (s.restartChannel c).ch c with streamStopped := false }

section
variable (s : State) (c : Nat)

theorem restartChannel_ch_same : (s.restartChannel c).ch c = restartedChannel s c := ch_setCh_same s c _

theorem restartChannel_ch_of_ne {d : Nat} (h : d ≠ c) : (s.restartChannel c).ch d = s.ch d := ch_setCh_of_ne s _ h

theorem startedChannel_ch_same :
    (startedChannel s c).ch c = { restartedChannel s c with streamStopped := false } := by
  rw [startedChannel, ch_setCh_same, restartChannel_ch_same]

theorem startedChannel_ch_of_ne {d : Nat} (h : d ≠ c) : (startedChannel s c).ch d = s.ch d :=
  (ch_setCh_of_ne _ _ h).trans (restartChannel_ch_of_ne s c h)

end

section
variable {s : State} {u : Nat}

theorem doStartCheck_of_not_starting (h : (s.page (0x108 + u)).run ≠ .starting) : s.doStartCheck u = s := if_neg h

section
variable (hs : (s.page (0x108 + u)).run = .starting)
include hs

theorem doStartCheck_of_channel (hu : u < 32) :
    s.doStartCheck u = if s.chRefused u = true then s.raiseStop (0x108 + u) 5 [] else startedChannel s u := by
  have hpage : 0x108 ≤ 0x108 + u ∧ 0x108 + u < 0x128 := by omega
  rw [State.doStartCheck, if_pos hs, State.startCheck, if_pos hpage, Nat.add_sub_cancel_left]
  rfl

theorem doStartCheck_of_output (hu : 32 ≤ u) (hu40 : u < 40) :
    s.doStartCheck u = if s.outRefused (u - 32) = true then s.raiseStop (0x108 + u) 1 []
      else s.setOut (u - 32) { s.out (u - 32) with line := [] } := by
  have hch : ¬(0x108 ≤ 0x108 + u ∧ 0x108 + u < 0x128) := by omega
  have hpage : 0x128 ≤ 0x108 + u ∧ 0x108 + u < 0x130 := by omega
  have hn : 0x108 + u - 0x128 = u - 32 := by omega
  rw [State.doStartCheck, if_pos hs, State.startCheck, if_neg hch, if_pos hpage, hn]

end

end

/-- What R336 refuses of a channel: SCS with a later stage, a FIR without a bank, a band RMS without a FIR or too slow,
a resampler too fast. -/
theorem chRefused_iff (s : State) (c : Nat) :
    let brms := bitOf (s.reg (chPage c) Reg.ch.brmsCfg) 0
    let mclk := s.clkDiv c * s.decimTotal c
    s.chRefused c = true ↔
      (s.scs c = true ∧ (s.halfBands c ≠ 0 ∨ s.firEn c = true ∨ s.rsMode c ≠ 0 ∨ brms = true))
      ∨ (s.firEn c = true ∧ (s.ch c).act.taps = 0)
      ∨ (brms = true ∧ (s.firEn c = false ∨ 400000000 < 2000 * mclk))
      ∨ (s.rsMode c = 3 ∧ 400000000 < s.field (chPage c) Reg.ch.rsRate 15 0 * mclk) := by
  simp [State.chRefused, Nat.mul_assoc, or_assoc]

/-- Settles O57: an output's input comes from its source alone, every answer of a sample, of a post, of a COEF_LOAD and
of a start check is one branch. -/
theorem outputsTakeTheirInputsAndStartsAreChecked : Obligations.OutputsTakeTheirInputsAndStartsAreChecked := by
  unfold Obligations.OutputsTakeTheirInputsAndStartsAreChecked
  refine ⟨?sample, ?input, ?posted, ?coefs, ?starts, fun c s => chRefused_iff s c.val⟩
  case sample =>
    intro n s p i v s1 s2 o line sum fir
    exact ⟨fun hon => congrArg Host.Outcome.next (doOutputSample_of_not_on hon), fun hon =>
      ⟨fun hf => congrArg Host.Outcome.next (doOutputSample_of_plain hon hf),
        fun hf hlo hhi => congrArg Host.Outcome.next (doOutputSample_of_sum_within hon hf hlo hhi),
        fun hf hsum => ⟨_, (drawIn_mem s2 (by decide)).1, (drawIn_mem s2 (by decide)).2,
          congrArg Host.Outcome.next (doOutputSample_of_sum_beyond hon hf hsum)⟩⟩⟩
  case input =>
    intro n s p source seq off i
    refine ⟨fun h0 hs => ?_, fun h0 hs => ⟨fun w hr => ?_, fun hr => ?_⟩, fun h1 => outInput_of_channel h1,
      fun h2 => outInput_of_const h2⟩
    · rw [show i = _ from outInput_of_empty_ring h0 hs]
      exact ⟨rfl, rfl, hasCause_raise_same _ _ _ (by decide)⟩
    · rw [show i = _ from outInput_of_sample h0 hs hr]
      exact ⟨rfl, rfl⟩
    · rw [show i = _ from outInput_of_refused h0 hs hr]
      exact ⟨rfl, rfl, hasCause_raise_same _ _ _ (by decide)⟩
  case posted =>
    intro m n v s p span fits
    exact ⟨fun hm => next_written_refused _ hm, fun hm =>
      ⟨fun h => next_written hm (postOut_of_fits h), fun h => next_written hm (postOut_of_not_fits h)⟩⟩
  case coefs =>
    intro n s p o k
    refine ⟨fun h => congrArg Host.Outcome.next (doCoefLoad_of_idle h), fun hop hoff =>
      ⟨fun hk => congrArg Host.Outcome.next (doCoefLoad_of_bad_number hop hoff hk), fun h0 h128 =>
        ⟨fun hr => congrArg Host.Outcome.next (doCoefLoad_of_refused hop hoff h0 h128 hr), fun ws hr =>
          ⟨fun hb => congrArg Host.Outcome.next (doCoefLoad_of_bad_form hop hoff h0 hr hb),
            fun hg hcrc => congrArg Host.Outcome.next (doCoefLoad_of_bad_crc hop hoff h0 h128 hr hg hcrc),
            fun hg hcrc => ⟨loadedCoefs s n ws,
              congrArg Host.Outcome.next (doCoefLoad_of_checked hop hoff h0 h128 hr hg hcrc),
              loadedCoefs_out s n ws, ?_, ?_, loadedCoefs_outTaps s n ws, loadedCoefs_mem s n ws⟩⟩⟩⟩⟩
    · rw [loadedCoefs_op]
    · rw [loadedCoefs_op]
      rfl
  case starts =>
    intro u s p
    refine ⟨fun h => congrArg Host.Outcome.next (doStartCheck_of_not_starting h), fun hs =>
      ⟨fun hu hr => congrArg Host.Outcome.next ((doStartCheck_of_channel hs hu).trans (if_pos hr)), fun hu hr =>
        ⟨startedChannel s u, congrArg Host.Outcome.next
          ((doStartCheck_of_channel hs hu).trans (if_neg (Bool.eq_false_iff.mp hr))), ?_⟩,
        fun hu hr => congrArg Host.Outcome.next ((doStartCheck_of_output hs hu u.isLt).trans (if_pos hr)),
        fun hu hr => congrArg Host.Outcome.next
          ((doStartCheck_of_output hs hu u.isLt).trans (if_neg (Bool.eq_false_iff.mp hr)))⟩⟩
    rw [startedChannel_ch_same]
    exact ⟨rfl, rfl, rfl, rfl, rfl, rfl, rfl, rfl, fun d hd => startedChannel_ch_of_ne s u hd⟩

end Sys2Proof.Proofs

namespace Sys2Proof.Proofs
open Sys2Proof Sys2Proof.Machine Sys2Proof.Laws

/-! ## Rounding and limiting (R310) -/

theorem natAbs_roundDiv (a : Int) (d : Nat) : (roundDiv a d).natAbs = (2 * a.natAbs + d) / (2 * d) := by
  simp only [roundDiv]
  generalize (2 * a.natAbs + d) / (2 * d) = n
  split <;> omega

/-- The rounded quotient has the sign of the dividend, so what it misses is what its magnitude misses. -/
theorem natAbs_sub_mul_roundDiv (a : Int) (d : Nat) :
    (a - d * roundDiv a d).natAbs = ((a.natAbs : Int) - (d * (roundDiv a d).natAbs : Nat)).natAbs := by
  rw [natAbs_roundDiv]
  simp only [roundDiv]
  generalize (2 * a.natAbs + d) / (2 * d) = n
  split
  · rw [Int.mul_neg, ← Int.natCast_mul]
    omega
  · rw [← Int.natCast_mul]
    omega

theorem roundDiv_nearest (a : Int) {d : Nat} (hd : 0 < d) :
    2 * (a - d * roundDiv a d).natAbs ≤ d
      ∧ (2 * (a - d * roundDiv a d).natAbs = d → a.natAbs < d * (roundDiv a d).natAbs) := by
  have hle := Nat.mul_div_le (2 * a.natAbs + d) (2 * d)
  have hlt := Nat.lt_mul_div_succ (2 * a.natAbs + d) (b := 2 * d) (by omega)
  rw [← natAbs_roundDiv, Nat.mul_add] at hlt
  rw [← natAbs_roundDiv] at hle
  rw [natAbs_sub_mul_roundDiv]
  rw [Nat.mul_assoc] at hle hlt
  generalize d * (roundDiv a d).natAbs = q at *
  omega

theorem sat24_of_within {v : Int} (hlo : -8388608 ≤ v) (hhi : v ≤ 8388607) : sat24 v = (v, false) :=
  (if_neg (by omega)).trans (if_neg (by omega))

theorem sat24_of_low {v : Int} (h : v < -8388608) : sat24 v = (-8388608, true) := if_pos h

theorem sat24_of_high {v : Int} (h : 8388607 < v) : sat24 v = (8388607, true) := (if_neg (by omega)).trans (if_pos h)

/-! ## CHAIN_OUTPUT (R306 to R311) -/

/-- The modulator bits through the decimation, as one SCS conversion or through the stages. -/
def chainRun (s : State) (c : Nat) (bits : List Bool) : ChainRun :=
  if s.scs c then (⟨s.ch c, 0, 0⟩ : ChainRun).convert (s.orderK c) (s.decim c) bits
  else (⟨s.ch c, 0, 0⟩ : ChainRun).decimate (s.orderK c) (s.decim c) (s.halfBands c) bits

/-- The FIR's inputs with the decimated value the newest. -/
def firLine (s : State) (c : Nat) (bits : List Bool) : List Int :=
  ((chainRun s c bits).value :: (chainRun s c bits).ch.fir).take 256

def firTotal (s : State) (c : Nat) (bits : List Bool) : Int :=
  firSum (chainRun s c bits).ch.act.coefs (firLine s c bits)

/-- The channel with the chain's histories and the FIR's inputs. -/
def firTaken (s : State) (c : Nat) (bits : List Bool) : State :=
  s.setCh c { (chainRun s c bits).ch with fir := firLine s c bits }

section
variable {s : State} {c : Nat} {bits : List Bool}

theorem doChainOutput_of_not_due (h : s.chOn c = false ∨ bits.length ≠ s.bitsPerOutput c) :
    s.doChainOutput c bits = s :=
  if_pos (by simpa using h)

section
variable (hon : s.chOn c = true) (hn : bits.length = s.bitsPerOutput c)
include hon hn

theorem not_not_due : ¬((!(s.chOn c)) = true ∨ bits.length ≠ s.bitsPerOutput c) := by simp [hon, hn]

theorem doChainOutput_of_no_fir (hf : s.firEn c = false) :
    s.doChainOutput c bits =
      (s.setCh c (chainRun s c bits).ch).firOut c (chainRun s c bits).value (chainRun s c bits).sats :=
  (if_neg (not_not_due hon hn)).trans (if_pos (by simp [hf]))

section
variable (hf : s.firEn c = true)
include hf

theorem doChainOutput_of_sum_within (hlo : -(2 ^ 47) ≤ firTotal s c bits) (hhi : firTotal s c bits < 2 ^ 47) :
    let v := sat24 (roundDiv (firTotal s c bits) (2 ^ 22))
    s.doChainOutput c bits = (firTaken s c bits).firOut c v.1 ((chainRun s c bits).sats + v.2.toNat) :=
  (if_neg (not_not_due hon hn)).trans ((if_neg (by simp [hf])).trans (if_neg (not_beyond48 hlo hhi)))

theorem doChainOutput_of_sum_beyond (hsum : firTotal s c bits < -(2 ^ 47) ∨ 2 ^ 47 ≤ firTotal s c bits) :
    s.doChainOutput c bits =
      { firTaken s c bits with free := (firTaken s c bits).free + 1 }.firOut c
        ((firTaken s c bits).drawIn (-8388608) 8388607).1 (chainRun s c bits).sats :=
  (if_neg (not_not_due hon hn)).trans ((if_neg (by simp [hf])).trans (if_pos hsum))

end

end

end

/-! ## What the detectors leave of a channel (R324 to R329) -/

/-- A channel without what its detectors, its window and its stream keep. -/
def undetected (h : ChState) : ChState :=
  { h with
    lastLt := 0, winCfg := 0#32, winN := 0, winMin := 0, winMax := 0, winSq := 0, winCycle := 0, cycle := 0,
    brmsBuf := [], above := false, runFrom := none, trip := false, streamStopped := false }

/-- The channel with another last output. -/
def withLastOut (h : ChState) (x : Int) : ChState := { h with lastOut := x }

section
variable (h : ChState)

theorem undetected_band (buf : List Int) (above trip : Bool) (from_ : Option Int) :
    undetected { h with brmsBuf := buf, above := above, runFrom := from_, trip := trip } = undetected h := rfl

theorem undetected_trip (b : Bool) : undetected { h with trip := b } = undetected h := rfl

theorem undetected_streamStopped (b : Bool) : undetected { h with streamStopped := b } = undetected h := rfl

theorem undetected_openWindow (cfg : Word) (cycle : Nat) : undetected (h.openWindow cfg cycle) = undetected h := rfl

theorem undetected_windowTake (x : Int) : undetected (h.windowTake x) = undetected h := rfl

theorem undetected_lastOut (x t : Int) (cycle : Nat) :
    undetected { h with lastOut := x, lastLt := t, cycle := cycle } = undetected (withLastOut h x) := rfl

theorem undetected_withLastOut (x : Int) : undetected (withLastOut h x) = withLastOut (undetected h) x := rfl

end

/-- What the detectors do not touch is read off the channels without their detectors. -/
theorem of_undetected {v w : ChState} (h : undetected v = undetected w) :
    v.outs = w.outs ∧ v.unsettled = w.unsettled ∧ v.lastUnsettled = w.lastUnsettled ∧ v.rsTaken = w.rsTaken
      ∧ v.bank0 = w.bank0 ∧ v.bank1 = w.bank1 ∧ v.active = w.active ∧ v.lastOut = w.lastOut := by
  have field {α : Type} (f : ChState → α) : f (undetected v) = f (undetected w) := congrArg f h
  exact ⟨field ChState.outs, field ChState.unsettled, field ChState.lastUnsettled, field ChState.rsTaken,
    field ChState.bank0, field ChState.bank1, field ChState.active, field ChState.lastOut⟩

/-- Between two states only the detectors of channel `c` have run. -/
structure OnlyDetected (c : Nat) (s t : State) : Prop where
  own : undetected (t.ch c) = undetected (s.ch c)
  others : ∀ d, d ≠ c → t.ch d = s.ch d

namespace OnlyDetected
variable {c : Nat} {s t u : State}

theorem trans (h : OnlyDetected c s t) (k : OnlyDetected c t u) : OnlyDetected c s u :=
  ⟨k.own.trans h.own, fun d hd => (k.others d hd).trans (h.others d hd)⟩

theorem of_chs (h : t.meas.chs = s.meas.chs) : OnlyDetected c s t := by
  have hch (d : Nat) : t.ch d = s.ch d := by rw [State.ch, h, State.ch]
  exact ⟨by rw [hch], fun d _ => hch d⟩

theorem of_meas (h : t.meas = s.meas) : OnlyDetected c s t := of_chs (congrArg MeasState.chs h)

theorem setCh {v : ChState} (h : undetected v = undetected (s.ch c)) : OnlyDetected c s (s.setCh c v) :=
  ⟨by rw [ch_setCh_same, h], fun _ hd => ch_setCh_of_ne s v hd⟩

protected theorem ite {p : Prop} [Decidable p] (h : OnlyDetected c s t) (k : OnlyDetected c s u) :
    OnlyDetected c s (if p then t else u) := by
  split
  · exact h
  · exact k

end OnlyDetected

section
variable (s : State) (c : Nat)

@[simp] theorem setCh_meas (v : ChState) :
    (s.setCh c v).meas = { s.meas with chs := tblWrite chReset s.meas.chs c v } := rfl

@[simp] theorem settleLines_meas : s.settleLines.meas = s.meas := rfl

@[simp] theorem latch_meas (p bit : Nat) : (s.latch p bit).meas = s.meas := rfl

@[simp] theorem recSet_meas (off v : Nat) : (s.recSet off v).meas = s.meas := rfl

@[simp] theorem recBand_meas (v : Nat) : (s.recBand c v).meas = s.meas := by
  unfold State.recBand
  extract_lets b
  split <;> rfl

@[simp] theorem spendInject_meas (p : Nat) : (s.spendInject p).meas = s.meas := by
  unfold State.spendInject
  extract_lets w
  split <;> rfl

@[simp] theorem sramWrite_meas (off : Nat) (bs : List Byte) : (s.sramWrite off bs).meas = s.meas := by
  unfold State.sramWrite
  extract_lets _ m res _ s1
  split
  · rw [spendInject_meas]
  · rfl

/-- A value that may have to be drawn leaves the chain as it is. -/
theorem drawn_meas {s : State} {whole : Prop} [Decidable whole] {v lo hi : Int} {d : Int × State}
    (h : d = if whole then (v, s) else s.drawIn lo hi) : d.2.meas = s.meas := by
  rw [h]
  split <;> rfl

theorem declareTrip_onlyDetected : OnlyDetected c s (s.declareTrip c) := by
  refine (OnlyDetected.setCh (undetected_trip (s.ch c) true)).trans (.of_meas ?_)
  simp [State.declareTrip]

theorem setBand_onlyDetected {s u : State} (hu : u.meas = s.meas) (buf : List Int) (above trip : Bool)
    (from_ : Option Int) :
    OnlyDetected c s (u.setCh c { s.ch c with brmsBuf := buf, above := above, runFrom := from_, trip := trip }) :=
  (OnlyDetected.of_meas hu).trans (.setCh ((undetected_band _ _ _ _ _).trans (by rw [ch_congr hu])))

theorem bandRms_onlyDetected (x t : Int) : OnlyDetected c s (s.bandRms c x t) := by
  unfold State.bandRms
  split
  · exact .of_meas rfl
  · extract_lets h b buf sum f d v above from_ due s1 s2
    have hd : d.2.meas = s.meas := drawn_meas rfl
    have h1 : OnlyDetected c s s1 := setBand_onlyDetected c hd _ _ _ _
    have h2 : OnlyDetected c s s2 := h1.trans
      (.of_meas ((settleLines_meas _).trans ((recBand_meas _ _ _).trans (State.setReg_meas _ _ _ _))))
    split
    · exact h2.trans (declareTrip_onlyDetected s2 c)
    · exact h2

theorem closeWindow_onlyDetected (cycle : Nat) : OnlyDetected c s (s.closeWindow c cycle) := by
  refine (OnlyDetected.setCh (undetected_openWindow (s.ch c) (s.reg (chPage c) Reg.ch.winCfg) cycle)).trans
    (.of_meas ?_)
  unfold State.closeWindow
  extract_lets h p s1
  have h1 : s1.meas = s.meas :=
    (State.setReg_meas _ _ _ _).trans ((State.setReg_meas _ _ _ _).trans (State.setReg_meas _ _ _ _))
  clear_value s1
  rw [State.bump_meas, State.incReg_meas, setCh_meas, setCh_meas, h1]

theorem window_onlyDetected (x : Int) (cycle : Nat) : OnlyDetected c s (s.window c x cycle) := by
  unfold State.window
  extract_lets h0 h len s1 h1
  have hh : undetected h = undetected (s.ch c) := by
    simp only [h]
    split
    · exact undetected_openWindow h0 _ _
    · rfl
  split
  · have hs1 : OnlyDetected c s s1 := by
      simp only [s1]
      split
      · exact (OnlyDetected.setCh hh).trans (closeWindow_onlyDetected _ c cycle)
      · exact .setCh hh
    exact hs1.trans (.setCh (undetected_windowTake _ x))
  · have hh1 : OnlyDetected c s (s.setCh c h1) := .setCh ((undetected_windowTake h x).trans hh)
    split
    · exact hh1.trans (closeWindow_onlyDetected _ c cycle)
    · exact hh1

theorem streamRecord_onlyDetected (x t : Int) (flags : Nat) : OnlyDetected c s (s.streamRecord c x t flags) := by
  unfold State.streamRecord
  extract_lets p cfg n off bs
  split
  · exact .of_meas rfl
  · split
    · exact (OnlyDetected.setCh (undetected_streamStopped (s.ch c) true)).trans (.of_meas (State.raise_meas _ _ _ _))
    · exact .of_meas (by simp)

/-- A chain output is the last one of its channel; what else it changes is the detectors'. -/
theorem chainOut_ch (x t : Int) (flags : Nat) :
    undetected ((s.chainOut c x t flags).ch c) = undetected (withLastOut (s.ch c) x)
      ∧ ∀ d, d ≠ c → (s.chainOut c x t flags).ch d = s.ch d := by
  unfold State.chainOut
  extract_lets k h s1
  have hk (d : Nat) : k.2.ch d = s.ch d := ch_congr rfl d
  have h1 : undetected (s1.ch c) = undetected (withLastOut (s.ch c) x) := by
    rw [bump_ch, ch_setCh_same, undetected_lastOut, show h = s.ch c from hk c]
  have h1' (d : Nat) (hd : d ≠ c) : s1.ch d = s.ch d := by
    rw [bump_ch, ch_setCh_of_ne _ _ hd, hk]
  have hend : OnlyDetected c s1 (((s1.envelope c x).window c x k.1).streamRecord c x t flags) :=
    ((OnlyDetected.of_meas (State.setReg_meas _ _ _ _)).trans (window_onlyDetected _ c x k.1)).trans
      (streamRecord_onlyDetected _ c x t flags)
  exact ⟨hend.own.trans h1, fun d hd => (hend.others d hd).trans (h1' d hd)⟩

theorem trackSample_onlyDetected (x t : Int) : OnlyDetected c s (s.trackSample x t) := by
  refine .of_chs ?_
  unfold State.trackSample
  extract_lets k k1 low
  split
  · split
    · extract_lets num lo d
      show d.2.meas.chs = s.meas.chs
      exact congrArg MeasState.chs (drawn_meas rfl)
    · rfl
  · rfl

end

/-- The channel that has taken the FIR output `x` of instant `i`: the newest of its outputs, one fewer to flag, the
resampler free. -/
def outputTaken (h : ChState) (x i : Int) : ChState :=
  { h with
    outs := ((x, i) :: h.outs).take 32, rsTaken := false, unsettled := h.unsettled - 1,
    lastUnsettled := decide (0 < h.unsettled) }

/-- Behind the FIR output taken, the detectors, the tracker and at most a chain output follow. -/
theorem firOut_ch (s : State) (c : Nat) (x : Int) (n : Nat) :
    (∃ i l, undetected ((s.firOut c x n).ch c) = undetected (withLastOut (outputTaken (s.ch c) x i) l))
      ∧ ∀ d, d ≠ c → (s.firOut c x n).ch d = s.ch d := by
  unfold State.firOut
  extract_lets p i h un h1 s1 s2 s3 s4 s5
  have hi (d : Nat) : i.2.ch d = s.ch d := ch_congr rfl d
  have hm1 : s1.meas = (i.2.setCh c h1).meas := (State.satReg_meas _ _ _ _).trans (State.bump_meas _ _ _ _)
  have htaken : s1.ch c = outputTaken (s.ch c) x i.1 := by
    rw [ch_congr hm1, ch_setCh_same, ← hi c]
    rfl
  have hothers (d : Nat) (hd : d ≠ c) : s1.ch d = s.ch d := by
    rw [ch_congr hm1, ch_setCh_of_ne _ _ hd, hi]
  have h2 : OnlyDetected c s1 s2 := .ite (.of_meas (State.bump_meas _ _ _ _)) (.of_meas rfl)
  have h3 : OnlyDetected c s1 s3 := h2.trans (.ite (.of_meas (State.bump_meas _ _ _ _)) (.of_meas rfl))
  have h4 : OnlyDetected c s1 s4 := h3.trans (bandRms_onlyDetected s3 c x i.1)
  have h5 : OnlyDetected c s1 s5 := h4.trans (.ite (trackSample_onlyDetected s4 c x i.1) (.of_meas rfl))
  have hown : undetected (s5.ch c) = undetected (outputTaken (s.ch c) x i.1) := by rw [h5.own, htaken]
  have hrest (d : Nat) (hd : d ≠ c) : s5.ch d = s.ch d := (h5.others d hd).trans (hothers d hd)
  split
  · obtain ⟨hchain, hchain'⟩ := chainOut_ch s5 c x i.1 (un.toNat + 2 * (decide (0 < n)).toNat + 4 * h.stuck.toNat)
    refine ⟨⟨i.1, x, ?_⟩, fun d hd => (hchain' d hd).trans (hrest d hd)⟩
    rw [hchain, undetected_withLastOut, hown, ← undetected_withLastOut]
  · exact ⟨⟨i.1, (s.ch c).lastOut, hown⟩, hrest⟩

end Sys2Proof.Proofs

namespace Sys2Proof.Proofs
open Sys2Proof Sys2Proof.Machine Sys2Proof.Laws

/-! ## RESAMPLER_OUTPUT (R320, R321) -/

/-- The resampled value at an instant, limited to 24 bits. -/
def resampled (s : State) (c : Nat) (t : Int) : Int × Bool :=
  sat24 (Config.resample (nearest16 (s.ch c).outs t) t)

/-- The resampler has used up the newest FIR sample. -/
def sampleUsed (s : State) (c : Nat) (t : Int) : State :=
  (s.setCh c { s.ch c with rsTaken := true, rateLimited := false }).satReg (chPage c) Reg.ch.satCount
    (resampled s c t).2.toNat

/-- UNSETTLED, SATURATED, MOD_STUCK and MP_HOLDOVER of a resampled output. -/
def resampledFlags (s : State) (c : Nat) (t : Int) : Nat :=
  (s.ch c).lastUnsettled.toNat + 2 * (resampled s c t).2.toNat + 4 * (s.ch c).stuck.toNat
    + 8 * (s.rsMode c == 1 && s.time.mpHoldover).toNat

/-- A second output for one FIR sample, dropped. -/
def rateExceeded (s : State) (c : Nat) : State :=
  (s.setCh c { s.ch c with rateLimited := true }).bump (chPage c) 7 1

section
variable {s : State} {c : Nat} {t : Int}

theorem doResampler_of_idle (h : s.chOn c = false ∨ s.rsMode c = 0) : s.doResampler c t = s :=
  if_pos (by simpa using h)

section
variable (hon : s.chOn c = true) (hrs : s.rsMode c ≠ 0)
include hon hrs

theorem not_resampler_idle : ¬((!(s.chOn c)) = true ∨ s.rsMode c = 0) := by simp [hon, hrs]

theorem doResampler_of_taken (ht : (s.ch c).rsTaken = true) :
    s.doResampler c t =
      if (s.ch c).rateLimited = true then rateExceeded s c else (rateExceeded s c).raise (chPage c) 3 [] :=
  (if_neg (not_resampler_idle hon hrs)).trans (if_pos ht)

theorem doResampler_of_free (ht : (s.ch c).rsTaken = false) :
    s.doResampler c t =
      (if (resampled s c t).2 = true then (sampleUsed s c t).bump (chPage c) 2 1 else sampleUsed s c t).chainOut c
        (resampled s c t).1 t (resampledFlags s c t) :=
  (if_neg (not_resampler_idle hon hrs)).trans (if_neg (Bool.eq_false_iff.mp ht))

end

/-! ## MOD_STUCK and the trip lines (R305, R327, R429) -/

theorem doModStuck_of_not_new (h : s.chOn c = false ∨ (s.ch c).stuck = true) : s.doModStuck c = s :=
  if_neg (by
    rintro ⟨hon, hst⟩
    obtain h | h := h
    · simp [h] at hon
    · simp [h] at hst)

theorem doModStuck_of_new (hon : s.chOn c = true) (hst : (s.ch c).stuck = false) :
    s.doModStuck c = ((s.setCh c { s.ch c with stuck := true }).bump (chPage c) 10 1).raise (chPage c) 2 [] :=
  if_pos ⟨hon, by simp [hst]⟩

theorem doMeasTripLine_of_asserted {n : Nat} (h : s.sup.tripLines.getLsbD n = true) :
    s.doMeasTripLine n = s.react (s.tripReaction n) 14 (s.classOrigin 14) := if_pos h

theorem doMeasTripLine_of_released {n : Nat} (h : s.sup.tripLines.getLsbD n = false) : s.doMeasTripLine n = s :=
  if_neg (Bool.eq_false_iff.mp h)

end

/-! ## ZERO_CROSSING (R330, R331) -/

/-- The last four periods with the newest one, between crossings at `t0` and `t`. -/
def fourPeriods (s : State) (t t0 : Int) : List Int := ((t - t0) :: s.meas.trk.periods).take 4

/-- The tracker with the crossing at `t` taken. -/
def crossingTaken (s : State) (t t0 : Int) : Tracker :=
  { s.meas.trk with crossing := none, last := some t, periods := fourPeriods s t t0 }

/-- Four periods in range, each near their mean (R331). -/
def goodPeriods (l : List Int) : Prop :=
  l.length = 4 ∧ ∀ q, q ∈ l → 250000000 ≤ 70 * q ∧ 14 * q ≤ 250000000 ∧ nearMean q (sum4 l) = true

theorem goodPeriods_iff (l : List Int) :
    goodPeriods l ↔ l.length = 4 ∧ (l.all fun q => periodOk q && nearMean q (sum4 l)) = true := by
  simp [goodPeriods, periodOk, and_assoc]

section
variable {s : State}

theorem doZeroCrossing_of_none (h : s.meas.trk.crossing = none ∨ s.trkOn = false) : s.doZeroCrossing = s := by
  obtain h | h := h
  · simp only [State.doZeroCrossing, h]
  · cases hc : s.meas.trk.crossing <;> simp [State.doZeroCrossing, hc, h]

section
variable {t : Int} (hc : s.meas.trk.crossing = some t) (hon : s.trkOn = true)
include hc hon

theorem doZeroCrossing_of_first (hl : s.meas.trk.last = none) :
    s.doZeroCrossing = (s.bump 0x106 0 1).setTrk { s.meas.trk with crossing := none, last := some t } := by
  simp [State.doZeroCrossing, hc, hon, hl]

section
variable {t0 : Int} (hl : s.meas.trk.last = some t0)
include hl

theorem doZeroCrossing_of_locked (hk : s.meas.trk.locked = true) :
    s.doZeroCrossing =
      if nearMean (t - t0) (sum4 s.meas.trk.periods) = true then
        ((s.bump 0x106 0 1).setTrk (crossingTaken s t t0)).trackFreq
      else ((s.bump 0x106 0 1).setTrk { crossingTaken s t t0 with periods := [] }).loseLock := by
  simp [State.doZeroCrossing, crossingTaken, fourPeriods, hc, hon, hl, hk]

theorem doZeroCrossing_of_unlocked (hk : s.meas.trk.locked = false) :
    s.doZeroCrossing =
      if (fourPeriods s t t0).length = 4
          ∧ ((fourPeriods s t t0).all fun q => periodOk q && nearMean q (sum4 (fourPeriods s t t0))) = true then
        (((s.bump 0x106 0 1).setTrk { crossingTaken s t t0 with locked := true }).bump 0x106 1 1).trackFreq
      else (s.bump 0x106 0 1).setTrk (crossingTaken s t t0) := by
  simp [State.doZeroCrossing, crossingTaken, fourPeriods, hc, hon, hl, hk]

theorem doZeroCrossing_of_good (hk : s.meas.trk.locked = false) (hg : goodPeriods (fourPeriods s t t0)) :
    s.doZeroCrossing =
      (((s.bump 0x106 0 1).setTrk { crossingTaken s t t0 with locked := true }).bump 0x106 1 1).trackFreq :=
  (doZeroCrossing_of_unlocked hc hon hl hk).trans (if_pos ((goodPeriods_iff _).mp hg))

theorem doZeroCrossing_of_not_good (hk : s.meas.trk.locked = false) (hg : ¬goodPeriods (fourPeriods s t t0)) :
    s.doZeroCrossing = (s.bump 0x106 0 1).setTrk (crossingTaken s t t0) :=
  (doZeroCrossing_of_unlocked hc hon hl hk).trans (if_neg fun h => hg ((goodPeriods_iff _).mpr h))

end

end

/-! ## TRACKER_UPDATE and the loss of lock (R331, R462) -/

theorem doTrackerUpdate_of_not_ready (h : ¬(s.trkOn = true ∧ s.meas.trk.locked = true)) : s.doTrackerUpdate = s := by
  refine if_pos ?_
  cases hon : s.trkOn
  · exact .inl rfl
  · exact .inr (by simpa [hon] using h)

theorem doTrackerUpdate_of_ready (h : s.trkOn = true ∧ s.meas.trk.locked = true) :
    s.doTrackerUpdate =
      if bitOf (s.pt Reg.perturb.ptMp) 0 = true then s.ptApplied
      else (s.trackFreq.bump 0x106 3 1).doMpUpdate ((s.trackFreq.bump 0x106 3 1).reg 0x106 Reg.tracker.trkFreq) :=
  if_neg (by simp [h])

@[simp] theorem enterMpHoldover_meas : s.enterMpHoldover.meas = s.meas := by
  unfold State.enterMpHoldover
  extract_lets _ s1
  have h1 : s1.meas = s.meas := State.setReg_meas _ _ _ _
  split
  · exact h1
  · rw [State.bump_meas, State.raise_meas, h1]

theorem loseLock_trk : s.loseLock.meas.trk = { s.meas.trk with locked := false, periods := [] } := by
  rw [State.loseLock, State.raise_meas, enterMpHoldover_meas, State.bump_meas, State.setReg_meas]
  rfl

theorem loseLock_hasCause : s.loseLock.hasCause 0x106 0 = true := hasCause_raise_same _ _ _ (by decide)

/-! ## DETECTION_WINDOW (R331, R332, R333) -/

/-- The window's values taken, and the lock lost where they are below TRACK_MIN. -/
def windowTaken (s : State) : State :=
  let s1 := s.windowValues.bump 0x106 4 1
  if (s1.reg 0x106 Reg.tracker.trkAcRms).toNat < s1.field 0x106 Reg.tracker.trackMin 23 0
      ∧ s1.meas.trk.locked = true then
    s1.loseLock
  else s1

/-- A window's candidate counted, SYSTEM changed at the confirm count, the recorder's fields of the entry in force. -/
def candidateTaken (u : State) (cand : Nat) : State :=
  let k := u.meas.trk
  let count := if cand = k.candidate then satAdd 255 k.count 1 else 1
  let v := u.setTrk { k with candidate := cand, count := count }
  let w := if count = v.field 0x106 Reg.tracker.trkConfig 23 16 ∧ cand ≠ k.system then v.systemIs cand else v
  if w.meas.trk.system < 8 then w.recCatenary w.meas.trk.system else w

theorem doDetectionWindow_of_not_on (h : s.trkOn = false) : s.doDetectionWindow = s := if_pos (by simp [h])

theorem doDetectionWindow_of_on (h : s.trkOn = true) :
    s.doDetectionWindow =
      candidateTaken (windowTaken s) (((List.range 8).find? fun n => (windowTaken s).systemMatches n).getD 15) := by
  simp only [State.doDetectionWindow, h, Bool.not_true, Bool.false_eq_true, if_false, decide_eq_true_eq]
  rfl

theorem firstMatch_of_match {p : Nat → Bool} {n : Nat} (hn : n < 8) (hp : p n = true)
    (hfirst : ∀ m, m < n → p m = false) :
    ((List.range 8).find? p).getD 15 = n := by
  rw [List.find?_range_eq_some.mpr ⟨hp, List.mem_range.mpr hn, fun m hm => by simp [hfirst m hm]⟩, Option.getD_some]

theorem firstMatch_of_none {p : Nat → Bool} (h : ∀ m, m < 8 → p m = false) : ((List.range 8).find? p).getD 15 = 15 := by
  rw [List.find?_eq_none.mpr fun m hm => by simp [h m (List.mem_range.mp hm)], Option.getD_none]

/-- SYSTEM set to an entry, and its change counted. -/
def systemSet (s : State) (n : Nat) : State :=
  (s.setTrk { s.meas.trk with system := n }).satReg 0x106 Reg.tracker.sysChanges 1

theorem systemSet_reg {p off : Nat} (n : Nat) (ho : off < 0x1000) (h : off ≠ Reg.tracker.sysChanges) :
    (systemSet s n).reg p off = s.reg p off :=
  (reg_setReg_of_offset_ne _ _ (by decide) ho h).trans (State.reg_congr rfl p off)

theorem systemSet_reg_sysCfg {n : Nat} (hn : n < 8) :
    (systemSet s n).reg 0x106 (Reg.tracker.sysCfg + 12 * n) = s.reg 0x106 (Reg.tracker.sysCfg + 12 * n) := by
  refine systemSet_reg n ?_ ?_ <;> simp only [Reg.tracker.sysCfg, Reg.tracker.sysChanges] <;> omega

theorem systemIs_trk (n : Nat) : (s.systemIs n).meas.trk = { s.meas.trk with system := n } := by
  unfold State.systemIs
  extract_lets _ s1 cfg
  have h1 : s1.meas.trk = { s.meas.trk with system := n } := congrArg MeasState.trk (State.satReg_meas _ _ _ _)
  split
  · exact (congrArg MeasState.trk (State.setReg_meas _ _ _ _)).trans h1
  · exact h1

theorem systemIs_of_ac {n : Nat} (hn : n < 8) (hac : bitOf (s.reg 0x106 (Reg.tracker.sysCfg + 12 * n)) 30 = true) :
    (s.systemIs n).reg 0x141 Reg.time.mpNominal =
      BitVec.ofNat 32 (fieldOf (s.reg 0x106 (Reg.tracker.sysCfg + 12 * n)) 19 0) := by
  have hcfg := systemSet_reg_sysCfg (s := s) hn
  have hset : s.systemIs n = (systemSet s n).setReg 0x141 Reg.time.mpNominal
      (BitVec.ofNat 32 (fieldOf ((systemSet s n).reg 0x106 (Reg.tracker.sysCfg + 12 * n)) 19 0)) :=
    if_pos ⟨hn, by rw [← hac, ← hcfg]; rfl⟩
  rw [hset, State.reg_setReg_same, hcfg]

theorem systemIs_of_not_ac {n : Nat} (h : 8 ≤ n ∨ bitOf (s.reg 0x106 (Reg.tracker.sysCfg + 12 * n)) 30 = false) :
    (s.systemIs n).reg 0x141 Reg.time.mpNominal = s.reg 0x141 Reg.time.mpNominal := by
  have hset : s.systemIs n = systemSet s n := by
    refine if_neg ?_
    rintro ⟨hn, hac⟩
    have hcfg := systemSet_reg_sysCfg (s := s) hn
    obtain h | h := h
    · omega
    · exact absurd (hac.symm.trans ((congrArg (bitOf · 30) hcfg).trans h)) (by decide)
  rw [hset, systemSet_reg n (by decide) (by decide)]

end

/-- Settles O56: each command is one branch of its rule, and behind a FIR output only `undetected` fields, the tracker
and the last output move. -/
theorem chainOutputsDetectorsAndTrackerFollowTheirRules :
    Obligations.ChainOutputsDetectorsAndTrackerFollowTheirRules := by
  unfold Obligations.ChainOutputsDetectorsAndTrackerFollowTheirRules
  refine ⟨fun a d hd => roundDiv_nearest a hd, fun v => ⟨sat24_of_within, sat24_of_low, sat24_of_high⟩, ?chain, ?output,
    ?resampler, ?stuck, ?line, ?crossing, ?update, ?window⟩
  case chain =>
    intro c bits s k r0 r fir sum s1
    exact ⟨fun h => congrArg Host.Outcome.next (doChainOutput_of_not_due h), fun hon hn =>
      ⟨fun hf => congrArg Host.Outcome.next (doChainOutput_of_no_fir hon hn hf),
        fun hf hlo hhi => congrArg Host.Outcome.next (doChainOutput_of_sum_within hon hn hf hlo hhi),
        fun hf hsum => ⟨_, (drawIn_mem s1 (by decide)).1, (drawIn_mem s1 (by decide)).2,
          congrArg Host.Outcome.next (doChainOutput_of_sum_beyond hon hn hf hsum)⟩⟩⟩
  case output =>
    intro c x n s h t
    obtain ⟨⟨i, l, hown⟩, hothers⟩ := firOut_ch s c x n
    obtain ⟨houts, hun, hlast, htaken, hb0, hb1, hact, -⟩ := of_undetected hown
    refine ⟨⟨i, houts⟩, hun, hlast, htaken, hb0, hb1, hact, hothers, fun i f => ?_⟩
    obtain ⟨hchain, hrest⟩ := chainOut_ch s c x i f
    obtain ⟨houts, -, -, -, -, -, -, hout⟩ := of_undetected hchain
    exact ⟨hout, houts, hrest⟩
  case resampler =>
    intro c time s h p v s1 hold above flags
    refine ⟨fun hi => congrArg Host.Outcome.next (doResampler_of_idle hi), fun hon hrs =>
      ⟨fun ht hl => congrArg Host.Outcome.next ((doResampler_of_taken hon hrs ht).trans (if_pos hl)),
        fun ht hl => congrArg Host.Outcome.next
          ((doResampler_of_taken hon hrs ht).trans (if_neg (Bool.eq_false_iff.mp hl))),
        fun ht hv => ?_, fun ht hv => ?_⟩⟩
    · exact congrArg Host.Outcome.next ((doResampler_of_free hon hrs ht).trans
        (congrArg (State.chainOut · c v.1 time.toNat flags) (if_neg (Bool.eq_false_iff.mp hv))))
    · exact congrArg Host.Outcome.next ((doResampler_of_free hon hrs ht).trans
        (congrArg (State.chainOut · c v.1 time.toNat flags) (if_pos hv)))
  case stuck =>
    exact fun c s => ⟨fun h => congrArg Host.Outcome.next (doModStuck_of_not_new h),
      fun hon hst => congrArg Host.Outcome.next (doModStuck_of_new hon hst), rfl⟩
  case line =>
    exact fun n s => ⟨fun h => congrArg Host.Outcome.next (doMeasTripLine_of_asserted h),
      fun h => congrArg Host.Outcome.next (doMeasTripLine_of_released h)⟩
  case crossing =>
    intro s k s1
    exact ⟨fun h => congrArg Host.Outcome.next (doZeroCrossing_of_none h), fun t hc hon =>
      ⟨fun hl => congrArg Host.Outcome.next (doZeroCrossing_of_first hc hon hl), fun t0 hl =>
        ⟨fun hk hnear => congrArg Host.Outcome.next ((doZeroCrossing_of_locked hc hon hl hk).trans (if_pos hnear)),
          fun hk hfar => congrArg Host.Outcome.next
            ((doZeroCrossing_of_locked hc hon hl hk).trans (if_neg (Bool.eq_false_iff.mp hfar))),
          fun hk hg => congrArg Host.Outcome.next (doZeroCrossing_of_good hc hon hl hk hg),
          fun hk hg => congrArg Host.Outcome.next (doZeroCrossing_of_not_good hc hon hl hk hg)⟩⟩⟩
  case update =>
    intro s ready s1
    exact ⟨fun h => ⟨congrArg Host.Outcome.next (doTrackerUpdate_of_not_ready h),
        congrArg Host.Outcome.next (if_neg h)⟩,
      fun h => ⟨congrArg Host.Outcome.next (if_pos h),
        fun hp => congrArg Host.Outcome.next ((doTrackerUpdate_of_ready h).trans (if_pos hp)),
        fun hp => congrArg Host.Outcome.next ((doTrackerUpdate_of_ready h).trans (if_neg (Bool.eq_false_iff.mp hp)))⟩,
      loseLock_trk, loseLock_hasCause⟩
  case window =>
    intro s s1 low after u
    refine ⟨fun h => congrArg Host.Outcome.next (doDetectionWindow_of_not_on h), fun hon => ⟨fun n hn hm hfirst => ?_,
      fun hnone => ?_⟩, fun n => ⟨systemIs_trk n, systemIs_of_ac, systemIs_of_not_ac⟩⟩
    · exact congrArg Host.Outcome.next ((doDetectionWindow_of_on hon).trans
        (congrArg (candidateTaken (windowTaken s)) (firstMatch_of_match hn hm hfirst)))
    · exact congrArg Host.Outcome.next ((doDetectionWindow_of_on hon).trans
        (congrArg (candidateTaken (windowTaken s)) (firstMatch_of_none hnone)))

end Sys2Proof.Proofs

namespace Sys2Proof.Proofs
open Sys2Proof Sys2Proof.Machine Sys2Proof.Laws

/-! ## What becomes of an outbound access (R31, R32, R342, R358, R488) -/

section
variable {s : State} {m : Master} {a size : Nat} {write : Bool}

theorem vmeDecode_of_misaligned (h : a % size ≠ 0) : s.vmeDecode m a size write = .misaligned := if_pos h

theorem vmeDecode_of_foreign (ha : a % size = 0)
    (hr : ¬(regionOf a = .vme ∧ regionAllows (columnOf m) .vme write = true)) :
    s.vmeDecode m a size write = .foreign := by
  have hforeign : regionOf a ≠ .vme ∨ (!regionAllows (columnOf m) .vme write) = true :=
    (Classical.not_and_iff_not_or_not.mp hr).imp_right fun h => by simpa using h
  exact (if_neg (not_not_intro ha)).trans (if_pos hforeign)

section
variable (ha : a % size = 0) (hr : regionOf a = .vme ∧ regionAllows (columnOf m) .vme write = true)
include ha hr

theorem vmeDecode_of_window {w : OutWin} (hon : s.vmeOn = true) (hw : s.windowOf a = some w) :
    s.vmeDecode m a size write = .window w := by
  unfold State.vmeDecode
  rw [if_neg (not_not_intro ha), if_neg (by simp [hr]), hw]
  exact if_pos hon

theorem vmeDecode_of_refused (h : s.windowOf a = none ∨ s.vmeOn = false) :
    s.vmeDecode m a size write = .refused := by
  unfold State.vmeDecode
  rw [if_neg (not_not_intro ha), if_neg (by simp [hr])]
  split
  · next hw => exact if_neg (Bool.eq_false_iff.mp (h.resolve_left (by simp [hw])))
  · rfl

end

/-- The first enabled window that contains the address decodes it. -/
theorem windowOf_of_first {n : Nat} (hn : n < 8) (hen : bitOf (s.outWin n).ctrl 0 = true) (hlo : (s.outWin n).base ≤ a)
    (hhi : a < (s.outWin n).base + (s.outWin n).size)
    (hfirst : ∀ k, k < n → bitOf (s.outWin k).ctrl 0 = false ∨ a < (s.outWin k).base
      ∨ (s.outWin k).base + (s.outWin k).size ≤ a) :
    s.windowOf a = some (s.outWin n) := by
  unfold State.windowOf
  rw [List.find?_map]
  refine (congrArg (Option.map s.outWin) (List.find?_range_eq_some.mpr
    ⟨?_, List.mem_range.mpr hn, fun k hk => ?_⟩)).trans (Option.map_some ..)
  · simp [hen, hlo, hhi]
  · obtain hoff | hlow | hhigh := hfirst k hk
    · simp [hoff]
    · simp [Nat.not_le.mpr hlow]
    · simp [Nat.not_lt.mpr hhigh]

variable {act : State → OutWin → State}

theorem outbound_of_misaligned (h : s.vmeDecode m a size write = .misaligned) :
    s.outbound m a size write act = s.answer .misaligned := by
  unfold State.outbound
  rw [h]

theorem outbound_of_foreign (h : s.vmeDecode m a size write = .foreign) :
    s.outbound m a size write act = s.violation m a := by
  unfold State.outbound
  rw [h]

theorem outbound_of_refused (h : s.vmeDecode m a size write = .refused) :
    s.outbound m a size write act = s.vmeRefuse m a := by
  unfold State.outbound
  rw [h]

theorem outbound_of_window {w : OutWin} (h : s.vmeDecode m a size write = .window w) :
    s.outbound m a size write act = act s w := by
  unfold State.outbound
  rw [h]

end

/-! ## The read buffer (R346) -/

section
variable {s : State} {m : Master} {a : BitVec 40} {size : Nat}

/-- The read buffer without the entry of a read that is claimed. -/
def readClaimed (s : State) (m : Master) (a : BitVec 40) (size : Nat) : State :=
  s.setVme { s.vme with reads := s.vme.reads.filter fun q => !(q.isFor m a size) }

/-- A new read buffered behind the posted writes. -/
def readTaken (s : State) (m : Master) (a : BitVec 40) (size : Nat) : State :=
  s.setVme { s.vme with reads := s.vme.reads ++ [⟨m, a, size, s.vme.fifo.length, none⟩] }

section
variable {r : VmeRead} (h : (s.vme.reads.find? fun q => q.isFor m a size) = some r)
include h

theorem bufferedRead_of_waiting (hf : r.filled = none) : s.bufferedRead m a size = s.retry := by
  simp only [State.bufferedRead, h, hf]

theorem bufferedRead_of_filled {v : DWord} (hf : r.filled = some (some v)) :
    s.bufferedRead m a size = (readClaimed s m a size).answer (.value v) := by
  simp only [State.bufferedRead, h, hf, readClaimed]

theorem bufferedRead_of_failed (hf : r.filled = some none) :
    s.bufferedRead m a size = (readClaimed s m a size).answer (violationReply m) := by
  simp only [State.bufferedRead, h, hf, readClaimed]

end

section
variable (h : (s.vme.reads.find? fun q => q.isFor m a size) = none)
include h

theorem bufferedRead_of_full (hn : 8 ≤ s.vme.reads.length) : s.bufferedRead m a size = s.retry := by
  simp only [State.bufferedRead, h, if_neg (Nat.not_lt.mpr hn)]

theorem bufferedRead_of_new (hn : s.vme.reads.length < 8) :
    s.bufferedRead m a size = (readTaken s m a size).retry := by
  simp only [State.bufferedRead, h, if_pos hn, readTaken]

end

/-! ## A fetch that ends (R346, R347) -/

/-- The entry whose fetch can run: no posted write ahead of it, not filled yet. -/
def dueRead (s : State) (m : Master) (a : BitVec 40) (size : Nat) : Option VmeRead :=
  s.vme.reads.find? fun q => q.isFor m a size && q.ahead == 0 && q.filled.isNone

/-- An entry of the read buffer with what its claim will get. -/
def readFilled (s : State) (q : VmeRead) (x : Option DWord) : State :=
  s.setVme { s.vme with reads := s.vme.reads.map fun y => if y = q then { q with filled := some x } else y }

theorem fetched_of_idle (r : VmeAnswer) (berr : Bool)
    (h : s.vme.owned = false ∨ dueRead s m a size = none ∨ s.windowOf a.toNat = none) :
    s.fetched m a size r berr = s := by
  unfold State.fetched
  split
  · next ho hq hw =>
    obtain h | h | h := h
    · exact absurd (ho.symm.trans h) (by decide)
    · exact absurd (hq.symm.trans h) (by simp)
    · exact absurd (hw.symm.trans h) (by simp)
  · rfl

section
variable {q : VmeRead} {w : OutWin} (ho : s.vme.owned = true) (hq : dueRead s m a size = some q)
  (hw : s.windowOf a.toNat = some w)
include ho hq hw

theorem fetched_of_data (bs : List Byte) (berr : Bool) :
    s.fetched m a size (some bs) berr =
      ((((readFilled s q (some (w.value size bs))).vmeBump 0 (w.parts size)).bw 94 size).stretched
        16).betweenCycles := by
  unfold dueRead at hq
  simp only [State.fetched, ho, hq, hw, readFilled]

theorem fetched_of_failure (berr : Bool) :
    s.fetched m a size none berr =
      ((((readFilled s q none).satReg vmePage Reg.vme.readFails 1).vmeBump 12 berr.toNat).raise vmePage 2
        []).betweenCycles := by
  unfold dueRead at hq
  simp only [State.fetched, ho, hq, hw, readFilled]

end

end

/-! ## A store into the FIFO (R348) -/

section
variable {s : State} {m : Master} {w : OutWin} {a : BitVec 40} {size : Nat} {data : DWord}

@[simp] theorem postedParts_length (a : Nat) : (s.postedParts m w a size data).length = w.parts size := by
  simp [State.postedParts]

theorem postedParts_getElem? {a i : Nat} {x : VmeWrite} (h : (s.postedParts m w a size data)[i]? = some x) :
    x.seq = s.vme.accepted + BitVec.ofNat 32 (i + 1) ∧ x.bytes = min size w.width ∧ x.window = w.n
      ∧ x.addr < 2 ^ spaceBits w.space := by
  simp only [State.postedParts, List.getElem?_map, Option.map_eq_some_iff] at h
  obtain ⟨j, hj, rfl⟩ := h
  obtain ⟨-, rfl⟩ := List.getElem?_eq_some_iff.mp hj
  exact ⟨by rw [List.getElem_range], rfl, rfl, Nat.mod_lt _ (Nat.two_pow_pos _)⟩

theorem accept_of_locked (h : s.lockedBy m a = true) : s.accept m w a size data = s.lockWait := if_pos h

section
variable (hl : s.lockedBy m a = false)
include hl

theorem accept_of_full (h : ¬s.vme.fifo.length + w.parts size ≤ 16) : s.accept m w a size data = s.retry :=
  (if_neg (Bool.eq_false_iff.mp hl)).trans (if_pos (Nat.not_le.mp h))

theorem accept_of_free (h : s.vme.fifo.length + w.parts size ≤ 16) :
    s.accept m w a size data =
      ((s.setVme
        { s.vme with
          fifo := s.vme.fifo ++ s.postedParts m w a.toNat size data,
          accepted := s.vme.accepted + BitVec.ofNat 32 (w.parts size) }).issue).answer .none := by
  unfold State.accept
  rw [if_neg (Bool.eq_false_iff.mp hl), if_neg (Nat.not_lt.mpr h)]
  simp only [postedParts_length]

end

end

/-! ## The end of a posted write's cycle (R341, R349) -/

section
variable {s : State}

theorem writeEnds_of_idle (f : Option Nat) (h : s.vme.block = 0 ∨ s.vme.fifo = []) : s.writeEnds f = s := by
  unfold State.writeEnds
  split
  · rfl
  · next hb => simp only [h.resolve_left hb]

section
variable {w : VmeWrite} {l : List VmeWrite} (hb : s.vme.block ≠ 0) (hf : s.vme.fifo = w :: l)
include hb hf

theorem writeEnds_of_dtack :
    s.writeEnds none =
      ((((s.headLeaves w).vmeBump (if isBlt w.am then 2 else 1) 1).bw 94 w.bytes).stretched 16).betweenCycles := by
  simp only [State.writeEnds, if_neg hb, hf]

theorem writeEnds_of_failure (cause : Nat) :
    s.writeEnds (some cause) = ((s.vmeBump 12 (if cause = 2 then 0 else 1)).blockFails cause).betweenCycles := by
  simp only [State.writeEnds, if_neg hb, hf]

end

theorem headFails_ledger (w : VmeWrite) (cause : Nat) :
    (s.headFails w cause).ledger = { s.ledger with vmePosted := w.seq, vmeFailed := satWord s.ledger.vmeFailed 1 } := by
  rw [State.headFails, State.raise_ledger, State.incReg_ledger]
  exact foldl_field State.ledger _ (fun t i => State.setReg_ledger t _ _ _) _ _

theorem headFails_fifo (w : VmeWrite) (cause : Nat) : (s.headFails w cause).vme.fifo = s.vme.fifo.tail := by
  rw [State.headFails, State.raise_vme, State.incReg_vme]
  exact congrArg VmeState.fifo (foldl_field State.vme _ (fun t i => State.setReg_vme t _ _ _) _ _)

theorem headFails_hasCause (w : VmeWrite) (cause : Nat) : (s.headFails w cause).hasCause 0x150 1 = true :=
  hasCause_raise_same _ _ _ (by decide)

/-! ## The fence (R350) -/

/-- Posted writes still ahead of a master's fence: all of the FIFO where none waits yet. -/
def fenceAhead (s : State) (m : Master) : Nat :=
  if tblRead noEcc s.vme.fences (masterKey m) = 0 then s.vme.fifo.length
  else tblRead noEcc s.vme.fences (masterKey m) - 1

section
variable {m : Master}

theorem doFence_of_barred (h : regionAllows (columnOf m) .localPages false = false) :
    s.doFence m = s.violation m (0x18150000 + Reg.vme.bridgeFence) := if_pos (by simp [h])

section
variable (h : regionAllows (columnOf m) .localPages false = true)
include h

theorem doFence_of_ahead (ha : fenceAhead s m ≠ 0) :
    s.doFence m =
      (s.setVme
        { s.vme with fences := tblWrite noEcc s.vme.fences (masterKey m) (fenceAhead s m + 1) }).retry :=
  (if_neg (by simp [h])).trans (if_neg ha)

theorem doFence_of_drained (ha : fenceAhead s m = 0) :
    s.doFence m =
      (s.setVme
        { s.vme with
          fences := tblWrite noEcc s.vme.fences (masterKey m) 0,
          failed := tblWrite zeroWord s.vme.failed (masterKey m) 0#32 }).answer
        (.value ((tblRead zeroWord s.vme.failed (masterKey m)).zeroExtend 64)) :=
  (if_neg (by simp [h])).trans (if_pos ha)

end

end

end

/-- Settles O58: an access is refused by its decoding or takes its own branch of the read buffer, the FIFO or the
fence. -/
theorem outboundReadsPostedWritesAndFencesComplete : Obligations.OutboundReadsPostedWritesAndFencesComplete := by
  unfold Obligations.OutboundReadsPostedWritesAndFencesComplete
  refine ⟨?decoded, ?refused, ?read, ?fetch, ?store, ?ends, ?head, ?fence⟩
  case decoded =>
    intro m a size write s d here
    exact ⟨vmeDecode_of_misaligned, vmeDecode_of_foreign, vmeDecode_of_refused,
      fun ha hr hon w hw => vmeDecode_of_window ha hr hon hw,
      fun n hn hen hlo hhi hfirst => windowOf_of_first hn hen hlo hhi hfirst⟩
  case refused =>
    intro m a size data s d refuse
    exact ⟨fun h => congrArg Host.Outcome.next (outbound_of_misaligned h),
      fun h => congrArg Host.Outcome.next (outbound_of_foreign h),
      fun h => congrArg Host.Outcome.next (outbound_of_refused h),
      fun h => congrArg Host.Outcome.next (outbound_of_misaligned h),
      fun h => congrArg Host.Outcome.next (outbound_of_foreign h),
      fun h => congrArg Host.Outcome.next (outbound_of_refused h), rfl⟩
  case read =>
    intro m a size w s hd entry rest retry
    have hread {t : State} (h : s.bufferedRead m a size = t) : exec (.vmeOutboundRead m a size) s = .next t :=
      congrArg Host.Outcome.next ((outbound_of_window hd).trans h)
    exact ⟨fun r hr => ⟨fun hf => hread (bufferedRead_of_waiting hr hf),
        fun v hf => hread (bufferedRead_of_filled hr hf),
        fun hf => hread (bufferedRead_of_failed hr hf)⟩,
      fun hn hfull => hread (bufferedRead_of_full hn hfull), fun hn hroom => hread (bufferedRead_of_new hn hroom)⟩
  case fetch =>
    intro m a size r s due fill
    exact ⟨fun h => congrArg Host.Outcome.next (fetched_of_idle r true h), fun ho q w hq hw =>
      ⟨fun bs => congrArg Host.Outcome.next (fetched_of_data ho hq hw bs true),
        congrArg Host.Outcome.next (fetched_of_failure ho hq hw true)⟩⟩
  case store =>
    intro m a size data w s hd l free
    have hstore {t : State} (h : s.accept m w a size data = t) : exec (.vmePostedWrite m a size data) s = .next t :=
      congrArg Host.Outcome.next ((outbound_of_window hd).trans h)
    exact ⟨fun hl => hstore (accept_of_locked hl), fun hl hfull => hstore (accept_of_full hl hfull),
      fun hl hfree => hstore (accept_of_free hl hfree), postedParts_length _, fun i x hx => postedParts_getElem? hx⟩
  case ends =>
    intro s idle failed
    refine ⟨fun h => ⟨?_, ?_, ?_, ?_⟩, fun h => ?_, fun c hs => congrArg Host.Outcome.next (if_neg (by simp [hs])),
      fun m a size => ⟨fun hs => congrArg Host.Outcome.next (if_pos hs), rfl⟩, rfl⟩
    · exact congrArg Host.Outcome.next (writeEnds_of_idle _ h)
    · exact congrArg Host.Outcome.next (writeEnds_of_idle _ h)
    · exact congrArg Host.Outcome.next (ite_eq_right_iff.mpr fun _ => writeEnds_of_idle (some 1) h)
    · exact congrArg Host.Outcome.next (writeEnds_of_idle (some 2) h)
    · obtain ⟨hb, hne⟩ := not_or.mp h
      obtain ⟨w, l, hf⟩ := List.exists_cons_of_ne_nil hne
      exact ⟨fun w l hf => congrArg Host.Outcome.next (writeEnds_of_dtack hb hf),
        congrArg Host.Outcome.next (writeEnds_of_failure hb hf 0),
        fun hs => congrArg Host.Outcome.next ((if_pos hs).trans (writeEnds_of_failure hb hf 1)),
        congrArg Host.Outcome.next (writeEnds_of_failure hb hf 2)⟩
  case head =>
    exact fun w cause s => ⟨rfl, rfl, rfl, rfl, rfl, headFails_ledger w cause, headFails_hasCause w cause,
      headFails_fifo w cause⟩
  case fence =>
    intro m s k n ahead may
    exact ⟨fun h => congrArg Host.Outcome.next (doFence_of_barred h),
      fun h ha => congrArg Host.Outcome.next (doFence_of_ahead h ha),
      fun h ha => congrArg Host.Outcome.next (doFence_of_drained h ha)⟩

end Sys2Proof.Proofs

namespace Sys2Proof.Proofs
open Sys2Proof Sys2Proof.Machine Sys2Proof.Laws

/-! ## AMO, LR and SC (R352) -/

section
variable {s : State} {m : Master} {w : OutWin} {a : BitVec 40} {size : Nat}

/-- The semaphore of a master's AMO in progress on a granule. -/
def amoHeld (s : State) (m : Master) (a : BitVec 40) : Option Semaphore :=
  s.vme.sems.find? fun q => q.is (granuleOf a) m && q.kind == .amo

/-- Posted writes ahead of an AMO's cycle: all of the FIFO where it is new. -/
def amoAhead (s : State) (m : Master) (a : BitVec 40) : Nat :=
  match amoHeld s m a with | some q => q.ahead | none => s.vme.fifo.length

/-- Semaphores held, a master's own of the granule aside. -/
def semsBesides (s : State) (m : Master) (a : BitVec 40) : Nat :=
  (s.vme.unlock (granuleOf a) m).length + s.vme.rmw.isSome.toNat

/-- An AMO that waits behind the posted writes. -/
def amoWaiting (s : State) (m : Master) (a : BitVec 40) : State :=
  s.setVme { s.vme with sems := s.vme.unlock (granuleOf a) m ++ [⟨granuleOf a, m, .amo, amoAhead s m a⟩] }

/-- The granule released and the cycle counted. -/
def unlocked (s : State) (m : Master) (a : BitVec 40) (event : Nat) : State :=
  (s.setVme { s.vme with sems := s.vme.unlock (granuleOf a) m }).vmeBump event 1

/-- An AMO's cycle run, and what it answers. -/
def amoDone (s : State) (m : Master) (w : OutWin) (a : BitVec 40) (size : Nat) : VmeAnswer → State
  | some bs => (((unlocked s m a 3).bw 94 (2 * size)).stretched 16).answer (.value (w.value size bs))
  | none => ((unlocked s m a 3).vmeBump 12 1).answer (violationReply m)

section
variable {r : VmeAnswer}

theorem amoCycle_of_unfit (h : ¬(size ≤ w.width ∧ size < 8)) : s.amoCycle m w a size r = s.vmeRefuse m a.toNat :=
  if_pos (by omega)

section
variable (hfit : size ≤ w.width ∧ size < 8)
include hfit

theorem amoCycle_of_fit :
    s.amoCycle m w a size r =
      if s.lockedBy m a = true then s.lockWait
      else if (amoHeld s m a).isNone = true ∧ 16 ≤ semsBesides s m a then s.retry
      else if amoAhead s m a ≠ 0 then (amoWaiting s m a).retry
      else amoDone s m w a size r := by
  cases r <;> exact if_neg (by omega)

theorem amoCycle_of_locked (hl : s.lockedBy m a = true) : s.amoCycle m w a size r = s.lockWait :=
  (amoCycle_of_fit hfit).trans (if_pos hl)

section
variable (hl : s.lockedBy m a = false)
include hl

theorem amoCycle_of_full (hn : amoHeld s m a = none) (hfull : 16 ≤ semsBesides s m a) :
    s.amoCycle m w a size r = s.retry := by
  rw [amoCycle_of_fit hfit, if_neg (Bool.eq_false_iff.mp hl), if_pos ⟨Option.isNone_iff_eq_none.mpr hn, hfull⟩]

section
variable (hroom : amoHeld s m a ≠ none ∨ ¬16 ≤ semsBesides s m a)
include hroom

theorem amoCycle_of_room :
    s.amoCycle m w a size r =
      if amoAhead s m a ≠ 0 then (amoWaiting s m a).retry else amoDone s m w a size r := by
  have hnot : ¬((amoHeld s m a).isNone = true ∧ 16 ≤ semsBesides s m a) := by
    rw [Option.isNone_iff_eq_none]
    exact Classical.not_and_iff_not_or_not.mpr hroom
  rw [amoCycle_of_fit hfit, if_neg (Bool.eq_false_iff.mp hl), if_neg hnot]

theorem amoCycle_of_ahead (ha : amoAhead s m a ≠ 0) : s.amoCycle m w a size r = (amoWaiting s m a).retry :=
  (amoCycle_of_room hfit hl hroom).trans (if_pos ha)

theorem amoCycle_of_drained (ha : amoAhead s m a = 0) : s.amoCycle m w a size r = amoDone s m w a size r :=
  (amoCycle_of_room hfit hl hroom).trans (if_neg (not_not_intro ha))

end

end

end

end

/-- The semaphores that an LR leaves: not its granule's, not its originator's earlier LR. -/
def semsUnderLr (s : State) (m : Master) (a : BitVec 40) : List Semaphore :=
  s.vme.sems.filter fun q => !(q.is (granuleOf a) m) && !(q.master == m && q.kind == .lr)

/-- The granule's semaphore taken by an LR. -/
def lrTaken (s : State) (m : Master) (a : BitVec 40) : State :=
  s.setVme { s.vme with sems := semsUnderLr s m a ++ [⟨granuleOf a, m, .lr, 0⟩] }

theorem lrTaken_holdsLr : (lrTaken s m a).holdsLr m a = true := by
  simp [State.holdsLr, lrTaken, Semaphore.is]

theorem lrRead_of_buffered (h : (s.vme.reads.any fun r => r.isFor m a size) = true) :
    s.lrRead m a size = s.bufferedRead m a size := if_pos h

section
variable (hw : (s.vme.reads.any fun r => r.isFor m a size) = false)
include hw

theorem lrRead_of_locked (hl : s.lockedBy m a = true) : s.lrRead m a size = s.lockWait :=
  (if_neg (Bool.eq_false_iff.mp hw)).trans (if_pos hl)

section
variable (hl : s.lockedBy m a = false)
include hl

theorem lrRead_of_full (hfull : 16 ≤ (semsUnderLr s m a).length + s.vme.rmw.isSome.toNat) :
    s.lrRead m a size = (s.setVme { s.vme with sems := semsUnderLr s m a }).retry :=
  (if_neg (Bool.eq_false_iff.mp hw)).trans ((if_neg (Bool.eq_false_iff.mp hl)).trans (if_pos hfull))

theorem lrRead_of_room (hroom : ¬16 ≤ (semsUnderLr s m a).length + s.vme.rmw.isSome.toNat) :
    s.lrRead m a size = (lrTaken s m a).bufferedRead m a size :=
  (if_neg (Bool.eq_false_iff.mp hw)).trans ((if_neg (Bool.eq_false_iff.mp hl)).trans (if_neg hroom))

end

end

theorem scCycle_of_not_held (ok : Bool) (h : s.holdsLr m a = false) : s.scCycle m a size ok = s.answer (.value 1#64) :=
  if_neg (Bool.eq_false_iff.mp h)

theorem scCycle_of_held (ok : Bool) (h : s.holdsLr m a = true) :
    s.scCycle m a size ok =
      if ok = true then (((unlocked s m a 1).bw 94 size).stretched 16).answer (.value 0#64)
      else ((unlocked s m a 1).vmeBump 12 1).answer (violationReply m) := if_pos h

theorem not_is_of_mem_unlock {v : VmeState} {g : Nat} {q : Semaphore} (h : q ∈ v.unlock g m) :
    ¬(q.granule = g ∧ q.master = m) := by
  rintro ⟨hg, hm⟩
  simpa [Semaphore.is, hg, hm] using (List.mem_filter.mp h).2

theorem doLrTimeout_holdsLr (a : BitVec 40) : (s.doLrTimeout m).holdsLr m a = false := by
  refine List.any_eq_false.mpr fun q hq => ?_
  have hkept := (List.mem_filter.mp hq).2
  simp only [Bool.not_eq_true', Bool.and_eq_false_iff] at hkept
  simp only [Semaphore.is, Bool.and_eq_true]
  rintro ⟨⟨-, hm⟩, hk⟩
  obtain h | h := hkept
  · exact Bool.eq_false_iff.mp h hm
  · exact Bool.eq_false_iff.mp h hk

end

/-! ## The decoding of an inbound cycle (R339, R340, R354) -/

section
variable {s : State} {c : InboundCycle}

/-- Does window `n` decode a cycle of a listed modifier? -/
def inHit (s : State) (c : InboundCycle) (sp : Nat) (blt super : Bool) (n : Nat) : Bool :=
  bitOf (s.inCtrl n) 0 && fieldOf (s.inCtrl n) 9 8 == sp && bitOf (s.inCtrl n) (if super then 3 else 2)
    && (!blt || (bitOf (s.inCtrl n) 4 && c.bytes != 1))
    && decide (s.inBase n ≤ c.addr.toNat % 2 ^ spaceBits sp
      ∧ c.addr.toNat % 2 ^ spaceBits sp < s.inBase n + s.inSize n)

theorem inDecode_of_unlisted (h : amOf c.am = none) : s.inDecode c = none := by
  unfold State.inDecode
  rw [h]

section
variable {sp : Nat} {blt super : Bool} (ham : amOf c.am = some (sp, blt, super))
include ham

theorem inDecode_of_idle (h : s.working vmePage = false ∨ c.bytes ∉ [1, 2, 4]) : s.inDecode c = none := by
  unfold State.inDecode
  rw [ham]
  exact if_pos (h.imp (fun hoff => by simp [hoff]) fun hb => by simpa using hb)

theorem inDecode_of_working (hw : s.working vmePage = true) (hb : c.bytes ∈ [1, 2, 4]) :
    s.inDecode c = ((List.range 4).find? (inHit s c sp blt super)).map fun n =>
      (s.inLocal n + laneAddr (bitOf (s.inCtrl n) 1) 4 c.bytes (c.addr.toNat % 2 ^ spaceBits sp - s.inBase n),
        blt) := by
  unfold State.inDecode
  rw [ham]
  exact if_neg (not_or.mpr ⟨by simp [hw], by rw [List.contains_iff_mem.mpr hb]; exact Bool.false_ne_true⟩)

end

theorem inDecode_of_undecoded (h : amOf c.am = none ∨ s.working vmePage = false ∨ c.bytes ∉ [1, 2, 4]) :
    s.inDecode c = none := by
  cases ham : amOf c.am with
  | none => exact inDecode_of_unlisted ham
  | some _ => exact inDecode_of_idle ham (h.resolve_left (by simp [ham]))

/-- What a cycle that is decoded met: a listed modifier, a size of D08, D16 or D32, an enabled window of its address. -/
theorem of_inDecode {off : Nat} {blt : Bool} (h : s.inDecode c = some (off, blt)) :
    c.bytes ∈ [1, 2, 4] ∧ ∃ sp super, amOf c.am = some (sp, blt, super)
      ∧ ∃ n, n < 4 ∧ bitOf (s.inCtrl n) 0 = true ∧ fieldOf (s.inCtrl n) 9 8 = sp
        ∧ s.inBase n ≤ c.addr.toNat % 2 ^ spaceBits sp ∧ c.addr.toNat % 2 ^ spaceBits sp < s.inBase n + s.inSize n := by
  have hdec := mt inDecode_of_undecoded (by simp [h] : s.inDecode c ≠ none)
  obtain ⟨ham, hw, hb⟩ : amOf c.am ≠ none ∧ s.working vmePage = true ∧ c.bytes ∈ [1, 2, 4] := by
    simpa only [not_or, Classical.not_not, ne_eq, Bool.not_eq_false] using hdec
  obtain ⟨⟨sp, blt', super⟩, ham⟩ := Option.ne_none_iff_exists'.mp ham
  rw [inDecode_of_working ham hw hb] at h
  obtain ⟨n, hn, he⟩ := Option.map_eq_some_iff.mp h
  obtain ⟨-, rfl⟩ := Prod.mk.inj he
  have hhit := List.find?_some hn
  simp only [inHit, Bool.and_eq_true, beq_iff_eq, decide_eq_true_eq] at hhit
  obtain ⟨⟨⟨⟨hen, hsp⟩, -⟩, -⟩, hlo, hhi⟩ := hhit
  exact ⟨hb, sp, super, ham, n, List.mem_range.mp (List.mem_of_find?_eq_some hn), hen, hsp, hlo, hhi⟩

variable {act : State → Nat → Bool → State}

theorem inboundCycle_of_undecoded (h : s.inDecode c = none) : s.inboundCycle c act = s.answer .none := by
  unfold State.inboundCycle
  rw [h]

section
variable {off : Nat} {blt : Bool} (hd : s.inDecode c = some (off, blt))
include hd

theorem inboundCycle_of_unaligned (ha : c.addr.toNat % c.bytes ≠ 0) : s.inboundCycle c act = s.answer .busError := by
  unfold State.inboundCycle
  rw [hd]
  exact if_pos ha

theorem inboundCycle_of_aligned (ha : c.addr.toNat % c.bytes = 0) : s.inboundCycle c act = act s off blt := by
  unfold State.inboundCycle
  rw [hd]
  exact if_neg (not_not_intro ha)

end

end

/-! ## The inbound write buffer and the RMW lock (R353) -/

section
variable {s : State}

theorem drainInbound_of_unlocked (l : List (Nat × List Byte)) (s : State) :
    (drainInbound none l s).vme.inbound = [] := by
  induction l generalizing s with
  | nil => rfl
  | cons e l ih => exact ih (s.sramWrite e.1 e.2)

theorem inboundDrain_of_unlocked (h : s.vme.rmw = none) : s.inboundDrain.vme.inbound = [] := by
  unfold State.inboundDrain
  split
  · next he => exact List.isEmpty_iff.mp he
  · rw [h, drainInbound_of_unlocked]

theorem breakLock_of_unlocked (h : s.vme.rmw = none) : s.breakLock = s := if_neg (by simp [h])

theorem breakLock_of_locked {g : Nat} (h : s.vme.rmw = some g) :
    s.breakLock = (s.setVme { s.vme with rmw := none }).raise vmePage 5 [] := if_pos (by simp [h])

end

/-! ## Inbound writes, reads and RMW cycles (R353, R355) -/

section
variable {s : State} {c : InboundCycle} {off : Nat} {act : State → Word → State}

theorem inboundData_of_uncorrectable (h : s.sramRead off c.bytes = none) :
    s.inboundData c off act = (s.raise vmePage 4 []).answer .busError := by
  unfold State.inboundData
  rw [h]

theorem inboundData_of_data {l : List Byte} (h : s.sramRead off c.bytes = some l) :
    s.inboundData c off act = act s (laneWord c.addr.toNat (laneBytes (s.inInvariant c) l)) := by
  unfold State.inboundData
  rw [h]

/-- What follows a read's data on the bus. -/
def readDone (c : InboundCycle) (blt : Bool) (s : State) (v : Word) : State :=
  ((s.vmeBump (if blt then 6 else 4) 1).bw 95 c.bytes).dtack (v.zeroExtend 64)

/-- What follows an RMW read's data on the bus: the granule's semaphore held. -/
def rmwReadDone (c : InboundCycle) (off : Nat) (s : State) (v : Word) : State :=
  ((s.setVme { s.vme with rmw := some (off / 64) }).bw 95 c.bytes).dtack (v.zeroExtend 64)

section
variable {blt : Bool} {data : List Byte} (hd : s.inDecode c = some (off, blt)) (ha : c.addr.toNat % c.bytes = 0)
include hd ha

theorem doInboundWrite_of_full (h : 8 ≤ s.vme.inbound.length) : s.doInboundWrite c data = s.answer .wait :=
  (inboundCycle_of_aligned hd ha).trans (if_neg (Nat.not_lt.mpr h))

theorem doInboundWrite_of_room (h : s.vme.inbound.length < 8) :
    s.doInboundWrite c data =
      (((s.setVme
        { s.vme with
          inbound := s.vme.inbound ++ [(off, laneBytes (s.inInvariant c) (padTo c.bytes data))] }).vmeBump
        (if blt then 6 else 5) 1).bw 95 c.bytes).dtack 0#64 :=
  (inboundCycle_of_aligned hd ha).trans (if_pos h)

theorem doInboundRmw_of_held (h : s.vme.rmw = some (off / 64)) :
    s.doInboundRmw c (some data) =
      ((((s.sramWrite off (laneBytes (s.inInvariant c) (padTo c.bytes data))).setVme
        { s.vme with rmw := none }).vmeBump 7 1).bw 95 c.bytes).dtack 0#64 :=
  (inboundCycle_of_aligned hd ha).trans (if_pos h)

theorem doInboundRmw_of_not_held (h : s.vme.rmw ≠ some (off / 64)) :
    s.doInboundRmw c (some data) = s.answer .busError :=
  (inboundCycle_of_aligned hd ha).trans (if_neg h)

theorem doInboundRead_of_waiting (h : s.inboundDrain.vme.inbound ≠ []) :
    s.doInboundRead c = s.inboundDrain.answer .wait :=
  (inboundCycle_of_aligned hd ha).trans (if_pos (by simpa using h))

theorem doInboundRmw_of_waiting (h : s.inboundDrain.vme.inbound ≠ []) :
    s.doInboundRmw c none = s.inboundDrain.answer .wait :=
  (inboundCycle_of_aligned hd ha).trans (if_pos (by simpa using h))

section
variable (hdrained : s.inboundDrain.vme.inbound = [])
include hdrained

theorem doInboundRead_of_drained :
    s.doInboundRead c = s.inboundDrain.inboundData c off (readDone c blt) :=
  (inboundCycle_of_aligned hd ha).trans (if_neg (by simp [hdrained]))

theorem doInboundRmw_of_no_room (h : s.inboundDrain.vme.rmw = none ∧ 16 ≤ s.inboundDrain.vme.sems.length) :
    s.doInboundRmw c none = (s.inboundDrain.vmeBump 11 1).answer .wait :=
  (inboundCycle_of_aligned hd ha).trans
    ((if_neg (by simp [hdrained])).trans (if_pos ⟨by simp [h.1], h.2⟩))

theorem doInboundRmw_of_room (h : ¬(s.inboundDrain.vme.rmw = none ∧ 16 ≤ s.inboundDrain.vme.sems.length)) :
    s.doInboundRmw c none = s.inboundDrain.inboundData c off (rmwReadDone c off) :=
  (inboundCycle_of_aligned hd ha).trans
    ((if_neg (by simp [hdrained])).trans (if_neg (by rw [Option.isNone_iff_eq_none]; exact h)))

end

end

end

/-- Settles O59: the semaphores decide whether an AMO, LR, SC or RMW runs, and an inbound cycle takes its branch once
the write buffer has drained. -/
theorem semaphoresAndInboundCyclesFollowTheirRules : Obligations.SemaphoresAndInboundCyclesFollowTheirRules := by
  unfold Obligations.SemaphoresAndInboundCyclesFollowTheirRules
  refine ⟨?refused, ?amo, ?lr, ?sc, ?timeout, ?undecoded, ?inbound, ?lock⟩
  case refused =>
    intro m a size f src data r ok s out
    have hout {write : Bool} (act : State → OutWin → State) :
        out (s.vmeDecode m a.toNat size write) (s.outbound m a.toNat size write act) :=
      ⟨outbound_of_misaligned, outbound_of_foreign, outbound_of_refused⟩
    exact ⟨_, _, _, rfl, rfl, rfl, hout _, hout _, hout _⟩
  case amo =>
    intro m a size f src r w s hd g amo fits mine rest full ahead done
    have hamo {t : State} (h : s.amoCycle m w a size r = t) : amo = .next t :=
      congrArg Host.Outcome.next ((outbound_of_window hd).trans h)
    refine ⟨fun h => hamo (amoCycle_of_unfit h), fun hf hl => hamo (amoCycle_of_locked hf hl),
      fun hf hl hn hfull => hamo (amoCycle_of_full hf hl hn hfull), fun hf hl hroom =>
      ⟨fun ha => hamo (amoCycle_of_ahead hf hl hroom ha), fun ha => ⟨?_, ?_⟩⟩⟩
    · rintro bs rfl
      exact hamo (amoCycle_of_drained hf hl hroom ha)
    · rintro rfl
      exact hamo (amoCycle_of_drained hf hl hroom ha)
  case lr =>
    intro m a size w s hd g waits rest full taken
    have hlr {t : State} (h : s.lrRead m a size = t) : exec (.vmeLr m a size) s = .next t :=
      congrArg Host.Outcome.next ((outbound_of_window hd).trans h)
    exact ⟨fun hw => hlr (lrRead_of_buffered hw), fun hw hl => hlr (lrRead_of_locked hw hl),
      fun hw hl hfull => hlr (lrRead_of_full hw hl hfull),
      fun hw hl hroom => ⟨hlr (lrRead_of_room hw hl hroom), lrTaken_holdsLr⟩⟩
  case sc =>
    intro m a size data w s hd left done
    have hsc {ok : Bool} {t : State} (h : s.scCycle m a size ok = t) : exec (.vmeSc m a size data ok) s = .next t :=
      congrArg Host.Outcome.next ((outbound_of_window hd).trans h)
    exact ⟨fun h ok => hsc (scCycle_of_not_held ok h),
      fun h => ⟨hsc (scCycle_of_held true h), hsc (scCycle_of_held false h)⟩, fun q hq => not_is_of_mem_unlock hq⟩
  case timeout => exact fun m s => ⟨s.doLrTimeout m, rfl, rfl, doLrTimeout_holdsLr, rfl⟩
  case undecoded =>
    intro c data rw s
    exact ⟨fun h => ⟨congrArg Host.Outcome.next (inboundCycle_of_undecoded h),
        congrArg Host.Outcome.next (inboundCycle_of_undecoded h),
        congrArg Host.Outcome.next (inboundCycle_of_undecoded h)⟩,
      fun d hd ha => ⟨congrArg Host.Outcome.next (inboundCycle_of_unaligned hd ha),
        congrArg Host.Outcome.next (inboundCycle_of_unaligned hd ha),
        congrArg Host.Outcome.next (inboundCycle_of_unaligned hd ha)⟩,
      inDecode_of_undecoded, fun off blt hd => of_inDecode hd⟩
  case inbound =>
    intro c off blt data s hd ha bytes held t word answered noRoom
    refine ⟨fun h => congrArg Host.Outcome.next (doInboundWrite_of_full hd ha h),
      fun h => congrArg Host.Outcome.next (doInboundWrite_of_room hd ha h),
      fun h => ⟨congrArg Host.Outcome.next (doInboundRead_of_waiting hd ha h),
        congrArg Host.Outcome.next (doInboundRmw_of_waiting hd ha h)⟩,
      fun he => ⟨fun hbad => ⟨?_, fun hroom => ?_⟩, fun l hl => ⟨?_, fun hroom => ?_⟩, fun h =>
        congrArg Host.Outcome.next (doInboundRmw_of_no_room hd ha he h)⟩,
      fun h => congrArg Host.Outcome.next (doInboundRmw_of_held hd ha h),
      fun h => congrArg Host.Outcome.next (doInboundRmw_of_not_held hd ha h)⟩
    · exact congrArg Host.Outcome.next ((doInboundRead_of_drained hd ha he).trans (inboundData_of_uncorrectable hbad))
    · exact congrArg Host.Outcome.next
        ((doInboundRmw_of_room hd ha he hroom).trans (inboundData_of_uncorrectable hbad))
    · exact congrArg Host.Outcome.next ((doInboundRead_of_drained hd ha he).trans (inboundData_of_data hl))
    · exact congrArg Host.Outcome.next ((doInboundRmw_of_room hd ha he hroom).trans (inboundData_of_data hl))
  case lock =>
    intro s
    refine ⟨fun _ he => inboundDrain_of_empty he, inboundDrain_of_unlocked,
      fun h => congrArg Host.Outcome.next (breakLock_of_unlocked h), fun g h =>
        ⟨_, congrArg Host.Outcome.next (breakLock_of_locked h), State.raise_vme _ _ _ _,
          hasCause_raise_same _ _ _ (by decide), State.raise_mem _ _ _ _⟩⟩

end Sys2Proof.Proofs

namespace Sys2Proof.Proofs
open Sys2Proof Sys2Proof.Machine Sys2Proof.Laws

/-! ## The arbiter's choice (R341) -/

section
variable (last : Fin 4) (br : BitVec 4)

theorem arbitrate_pri_eq_some (l : Fin 4) :
    arbitrate false last br = some l ↔ br.getLsbD l.val = true ∧ ∀ k : Fin 4, l < k → br.getLsbD k.val = false := by
  revert last br l
  decide

theorem arbitrate_rrs_eq_some (l : Fin 4) :
    arbitrate true last br = some l ↔ br.getLsbD l.val = true
      ∧ ∀ k : Fin 4, (last.val + 3 - k.val) % 4 < (last.val + 3 - l.val) % 4 → br.getLsbD k.val = false := by
  revert last br l
  decide

theorem arbitrate_eq_none (rrs : Bool) : arbitrate rrs last br = none ↔ br = 0#4 := by
  revert rrs last br
  decide

end

/-! ## Events of the bridge count, nothing else -/

section
variable (s : State) (n amt : Nat)

theorem vmeBump_field {β : Type} (get : State → β) (h : get (s.bump vmePage n amt) = get s) :
    get (s.vmeBump n amt) = get s := by
  unfold State.vmeBump
  split
  · rfl
  · exact h

@[simp] theorem vmeBump_vme : (s.vmeBump n amt).vme = s.vme := vmeBump_field s n amt State.vme (State.bump_vme _ _ _ _)
@[simp] theorem vmeBump_mem : (s.vmeBump n amt).mem = s.mem := vmeBump_field s n amt State.mem (State.bump_mem _ _ _ _)

end

/-! ## The cycle or block at the head of the FIFO (R339, R348) -/

section
variable {win bytes next : Nat} {l : List VmeWrite}

theorem runFrom_le_length : runFrom win bytes next l ≤ l.length := by
  induction l generalizing next with
  | nil => exact Nat.le_refl 0
  | cons x l ih =>
    unfold runFrom
    split
    · exact Nat.succ_le_succ ih
    · exact Nat.zero_le _

/-- The entries of a run continue each other in one window and one 256-byte block. -/
theorem of_lt_runFrom {i : Nat} {x : VmeWrite} (hi : i < runFrom win bytes next l) (hx : l[i]? = some x) :
    x.window = win ∧ x.bytes = bytes ∧ x.addr = next + i * bytes ∧ x.addr % 256 ≠ 0 := by
  induction l generalizing next i with
  | nil => simp at hx
  | cons y l ih =>
    unfold runFrom at hi
    split at hi
    · next hy =>
      obtain ⟨hw, hb, ha, hne⟩ := hy
      cases i with
      | zero =>
        obtain rfl : y = x := by simpa using hx
        exact ⟨hw, hb, by omega, hne⟩
      | succ i =>
        obtain ⟨hw, hb, ha, hne⟩ := ih (Nat.lt_of_succ_lt_succ hi) (by simpa using hx)
        exact ⟨hw, hb, by rw [ha, Nat.succ_mul]; omega, hne⟩
    · exact absurd hi (Nat.not_lt_zero i)

end

section
variable {s : State}

section
variable (s) (w : VmeWrite) (l : List VmeWrite)

theorem runLength_of_single (h : bitOf (s.outWin w.window).ctrl 2 = false ∨ w.bytes < 2) :
    s.runLength (w :: l) = 1 := by
  refine if_neg ?_
  rintro ⟨hblt, hb⟩
  obtain h | h := h
  · exact Bool.eq_false_iff.mp h hblt
  · omega

/-- A head that opens no block is a run of one. -/
theorem runLength_cases :
    s.runLength (w :: l) = 1 ∨ s.runLength (w :: l) = runFrom w.window w.bytes (w.addr + w.bytes) l + 1 := by
  by_cases h : bitOf (s.outWin w.window).ctrl 2 = true ∧ 2 ≤ w.bytes
  · exact .inr (if_pos h)
  · exact .inl (if_neg h)

theorem runLength_pos : 1 ≤ s.runLength (w :: l) := by
  obtain h | h := runLength_cases s w l <;> omega

theorem runLength_le_length : s.runLength (w :: l) ≤ (w :: l).length := by
  have hrun := runFrom_le_length (win := w.window) (bytes := w.bytes) (next := w.addr + w.bytes) (l := l)
  rw [List.length_cons]
  obtain h | h := runLength_cases s w l <;> omega

variable {w l}

/-- The entries of one cycle or block continue its head. -/
theorem of_lt_runLength {i : Nat} {x : VmeWrite} (hi : i < s.runLength (w :: l)) (hx : (w :: l)[i]? = some x) :
    x.window = w.window ∧ x.bytes = w.bytes ∧ x.addr = w.addr + i * w.bytes ∧ (0 < i → x.addr % 256 ≠ 0) := by
  cases i with
  | zero =>
    obtain rfl : w = x := by simpa using hx
    exact ⟨rfl, rfl, by omega, fun h => absurd h (Nat.lt_irrefl 0)⟩
  | succ i =>
    obtain ⟨hw, hb, ha, hne⟩ := of_lt_runFrom (i := i) (x := x) (l := l) (win := w.window) (bytes := w.bytes)
      (next := w.addr + w.bytes) (by obtain h | h := runLength_cases s w l <;> omega) (by simpa using hx)
    exact ⟨hw, hb, by rw [ha, Nat.succ_mul]; omega, fun _ => hne⟩

end

/-- The bridge owns the bus, issues nothing yet, has a posted write and is not frozen. -/
def canIssue (s : State) : Prop :=
  s.vme.owned = true ∧ s.vme.block = 0 ∧ s.vme.fifo ≠ [] ∧ s.frozen vmePage = false

/-- The FIFO with its first `n` entries going out in a BLT. -/
def fifoAsBlt (n : Nat) (l : List VmeWrite) : List VmeWrite := (l.take n).map asBlt ++ l.drop n

theorem canIssue_iff :
    canIssue s ↔
      s.vme.owned = true ∧ s.vme.block = 0 ∧ (!s.vme.fifo.isEmpty) = true ∧ (!(s.frozen vmePage)) = true := by
  simp [canIssue]

theorem issue_of_not_canIssue (h : ¬canIssue s) : s.issue = s := if_neg (mt canIssue_iff.mpr h)

section
variable (h : canIssue s)
include h

theorem issue_of_canIssue :
    s.issue =
      if 1 < s.runLength s.vme.fifo then
        (s.setVme { s.vme with
          block := s.runLength s.vme.fifo, fifo := fifoAsBlt (s.runLength s.vme.fifo) s.vme.fifo }).vmeBump 9
            (s.runLength s.vme.fifo)
      else s.setVme { s.vme with block := s.runLength s.vme.fifo } := if_pos (canIssue_iff.mp h)

theorem issue_vme_of_single (hn : ¬1 < s.runLength s.vme.fifo) :
    s.issue.vme = { s.vme with block := s.runLength s.vme.fifo } := by
  rw [issue_of_canIssue h, if_neg hn, State.setVme_vme]

theorem issue_vme_of_block (hn : 1 < s.runLength s.vme.fifo) :
    s.issue.vme =
      { s.vme with block := s.runLength s.vme.fifo, fifo := fifoAsBlt (s.runLength s.vme.fifo) s.vme.fifo } := by
  rw [issue_of_canIssue h, if_pos hn, vmeBump_vme, State.setVme_vme]

theorem issue_block : s.issue.vme.block = s.runLength s.vme.fifo := by
  by_cases hn : 1 < s.runLength s.vme.fifo
  · rw [issue_vme_of_block h hn]
  · rw [issue_vme_of_single h hn]

end

/-- Issuing marks a block and its modifiers, nothing else of the bridge. -/
theorem issue_vme (s : State) : ∃ b n, s.issue.vme = { s.vme with block := b, fifo := fifoAsBlt n s.vme.fifo } := by
  by_cases h : canIssue s
  · by_cases hn : 1 < s.runLength s.vme.fifo
    · exact ⟨_, _, issue_vme_of_block h hn⟩
    · exact ⟨_, 0, issue_vme_of_single h hn⟩
  · exact ⟨s.vme.block, 0, by rw [issue_of_not_canIssue h]; rfl⟩

theorem issue_mem (s : State) : s.issue.mem = s.mem := by
  by_cases h : canIssue s
  · rw [issue_of_canIssue h]
    split
    · exact vmeBump_mem _ _ _
    · rfl
  · rw [issue_of_not_canIssue h]

/-- A field that the modifier does not touch stays in order over a BLT. -/
theorem map_fifoAsBlt {β : Type} (f : VmeWrite → β) (hf : ∀ w, f (asBlt w) = f w) (n : Nat) (l : List VmeWrite) :
    (fifoAsBlt n l).map f = l.map f := by
  rw [fifoAsBlt, List.map_append, List.map_map, funext hf (f := f ∘ asBlt), ← List.map_append, List.take_append_drop]

/-! ## The bus taken, requested and released (R341, R356) -/

theorem wants_iff (v : VmeState) : v.wants = true ↔ v.owned = false ∧ v.work = true := by simp [VmeState.wants]

/-- The bridge with the bus, before its cycles start. -/
def busTaken (s : State) : State :=
  (s.setVme { s.vme with owned := true, granted := none, lastLevel := s.reqLevel }).vmeBump 13 1

theorem busTaken_vme : (busTaken s).vme = { s.vme with owned := true, granted := none, lastLevel := s.reqLevel } :=
  vmeBump_vme _ _ _

theorem doBusGrant_of_wants (h : s.vme.wants = true) : s.doBusGrant = (busTaken s).issue := if_pos h

theorem doBusGrant_of_not_wants (h : s.vme.wants = false) : s.doBusGrant = s := if_neg (Bool.eq_false_iff.mp h)

/-- The bus is taken at the bridge's level, its cycles keep their order, numbers, addresses and data. -/
theorem doBusGrant_vme (h : s.vme.wants = true) :
    ∃ b n, s.doBusGrant.vme =
      { s.vme with
        owned := true, granted := none, lastLevel := s.reqLevel, block := b, fifo := fifoAsBlt n s.vme.fifo } := by
  obtain ⟨b, n, hv⟩ := issue_vme (busTaken s)
  exact ⟨b, n, by rw [doBusGrant_of_wants h, hv, busTaken_vme]⟩

theorem doBusGrant_mem (h : s.vme.wants = true) : s.doBusGrant.mem = s.mem := by
  rw [doBusGrant_of_wants h, issue_mem]
  exact vmeBump_mem _ _ _

theorem arbiter_of_not_free (h : s.vme.syscon = false ∨ s.vme.owned = true ∨ s.vme.granted ≠ none) : s.arbiter = s :=
  if_pos (h.imp (fun hs => by simp [hs]) (Or.imp id Option.isSome_iff_ne_none.mpr))

/-- A free bus that the bridge does not want goes to the level that ARB_MODE picks among the others'. -/
theorem arbiter_of_free (hs : s.vme.syscon = true) (ho : s.vme.owned = false) (hg : s.vme.granted = none)
    (hw : s.vme.wants = false) {k : Fin 4}
    (hk : arbitrate (s.field vmePage Reg.vme.vmeCtrl 3 3 == 1) s.vme.lastLevel s.vme.brOthers = some k) :
    s.arbiter = s.setVme { s.vme with
      granted := some k, lastLevel := k, brOthers := s.vme.brOthers &&& ~~~(1#4 <<< k.val) } := by
  unfold State.arbiter
  rw [if_neg (by simp [hs, ho, hg])]
  simp [hw, hk]

theorem betweenCycles_of_busy (h : s.vme.owned = false ∨ s.vme.block ≠ 0) : s.betweenCycles = s :=
  if_pos (h.imp_left fun ho => by simp [ho])

/-- Does the bridge give up the bus between cycles: ROR on another's request, RWD when done? -/
def busLeaves (s : State) : Prop :=
  (s.field vmePage Reg.vme.vmeCtrl 2 2 = 1 ∧ s.vme.brOthers ≠ 0#4)
    ∨ (¬s.field vmePage Reg.vme.vmeCtrl 2 2 = 1 ∧ s.vme.work = false)

section
variable (ho : s.vme.owned = true) (hb : s.vme.block = 0)
include ho hb

theorem betweenCycles_of_idle :
    s.betweenCycles =
      if ((s.field vmePage Reg.vme.vmeCtrl 2 2 == 1 && s.vme.brOthers != 0#4)
          || (!(s.field vmePage Reg.vme.vmeCtrl 2 2 == 1) && !s.vme.work)) = true then
        (s.setVme { s.vme with owned := false }).arbiter
      else s.issue := if_neg (by simp [ho, hb])

theorem betweenCycles_of_leaves (h : busLeaves s) :
    s.betweenCycles = (s.setVme { s.vme with owned := false }).arbiter :=
  (betweenCycles_of_idle ho hb).trans (if_pos (by simpa [busLeaves] using h))

theorem betweenCycles_of_stays (h : ¬busLeaves s) : s.betweenCycles = s.issue :=
  (betweenCycles_of_idle ho hb).trans (if_neg (by simpa [busLeaves] using h))

end

/-- Another master's request recorded. -/
def requested (s : State) (l : Fin 4) : State :=
  s.setVme { s.vme with brOthers := s.vme.brOthers ||| (1#4 <<< l.val) }

/-- Without the bus and without the arbiter the bridge only records a request. -/
theorem doBusRequest_of_not_syscon (l : Fin 4) (hs : s.vme.syscon = false) (ho : s.vme.owned = false) :
    s.doBusRequest l = requested s l := by
  have hbusy : (requested s l).betweenCycles = requested s l := betweenCycles_of_busy (.inl ho)
  exact (congrArg State.arbiter hbusy).trans (arbiter_of_not_free (.inl hs))

/-! ## Interrupts (R357) -/

theorem doIrqPoll_of_idle (asserted : BitVec 8) (acks : List (Option Word)) (h : s.working vmePage = false) :
    s.doIrqPoll asserted acks = s := if_pos (by simp [h])

theorem doIrqPoll_of_working (asserted : BitVec 8) (acks : List (Option Word)) (h : s.working vmePage = true) :
    s.doIrqPoll asserted acks =
      [7, 6, 5, 4, 3, 2, 1].foldl (fun t l =>
        if asserted.getLsbD l ∧ bitOf (t.reg vmePage Reg.vme.irqEnable) l ∧ !(t.irqOff l) then
          t.iack l (acks.getD l none)
        else t)
        (s.setReg vmePage Reg.vme.irqState
          (setField (s.reg vmePage Reg.vme.irqState) 15 9 (asserted.toNat / 2))) := if_neg (by simp [h])

/-- An IACK cycle counted, with the level's failures in a row. -/
def iackCounted (s : State) (l n : Nat) : State :=
  (s.bump vmePage 10 1).setVme { s.vme with irqFails := tblWrite noEcc s.vme.irqFails l n }

/-- A level disabled after its third failure in a row. -/
def levelDisabled (s : State) (l : Nat) : State :=
  (iackCounted s l 0).setReg vmePage Reg.vme.irqState
    (setBit ((s.bump vmePage 10 1).reg vmePage Reg.vme.irqState) l true)

theorem iackCounted_eq (s : State) (l n : Nat) :
    iackCounted s l n =
      (s.bump vmePage 10 1).setVme
        { (s.bump vmePage 10 1).vme with irqFails := tblWrite noEcc (s.bump vmePage 10 1).vme.irqFails l n } := by
  rw [State.bump_vme, iackCounted]

theorem irqFailsOf_iackCounted (s : State) (l n : Nat) : irqFailsOf (iackCounted s l n) l = n :=
  tblRead_write_same noEcc s.vme.irqFails l n

variable {l : Nat}

theorem iack_of_status (id : Word) :
    s.iack l (some id) =
      (iackCounted s l 0).messageTo (fieldOf (s.reg vmePage (Reg.vme.irqCfg + 4 * (l - 1))) 10 8)
        (BitVec.ofNat 16 (fieldOf (s.reg vmePage (Reg.vme.irqCfg + 4 * (l - 1))) 31 16 + id.toNat % 256)) := by
  rw [iackCounted_eq]
  rfl

theorem iack_of_few_failures (h : irqFailsOf s l < 2) : s.iack l none = iackCounted s l (irqFailsOf s l + 1) :=
  (if_pos (Nat.succ_lt_succ h)).trans (iackCounted_eq s l _).symm

theorem iack_of_third_failure (h : 2 ≤ irqFailsOf s l) : s.iack l none = (levelDisabled s l).raise vmePage 6 [] := by
  rw [levelDisabled, iackCounted_eq]
  exact if_neg (by omega)

/-- A cause latched and reported leaves IRQ_STATE as it was. -/
theorem raise_reg_irqState (s : State) (bit : Nat) (detail : List Word) :
    (s.raise vmePage bit detail).reg vmePage Reg.vme.irqState = s.reg vmePage Reg.vme.irqState := by
  have hov (pl : Plane) : Reg.vme.irqState ≠ overflowReg pl := by cases pl <;> decide
  rw [State.raise, post_reg_of_ne_overflow _ _ _ _ _ _ (by decide) (pair_ne_of_offset_ne (hov _)),
    countReport_reg_other _ _ _ _ (by decide) (pair_ne_of_offset_ne (by decide)) (pair_ne_of_offset_ne (by decide)),
    State.latch, reg_setReg_of_offset_ne _ _ (by decide) (by decide) (by decide)]

theorem levelDisabled_irqOff (hl : l < 8) : (levelDisabled s l).irqOff l = true := by
  rw [State.irqOff, levelDisabled, State.reg_setReg_same]
  exact bitOf_setBit_true _ (by omega)

theorem levelDisabled_raised (hl : l < 8) :
    ((levelDisabled s l).raise vmePage 6 []).irqOff l = true
      ∧ irqFailsOf ((levelDisabled s l).raise vmePage 6 []) l = 0 := by
  constructor
  · rw [State.irqOff, raise_reg_irqState]
    exact levelDisabled_irqOff hl
  · rw [irqFailsOf, State.raise_vme]
    exact irqFailsOf_iackCounted s l 0

/-- The failure counts of the levels below `n` that are written 1, cleared. -/
def failsCleared (v : Word) (n : Nat) (t : Tbl Nat) : Tbl Nat :=
  (List.range n).foldl (fun t l => if bitOf v l then tblWrite noEcc t l 0 else t) t

theorem tblRead_failsCleared (v : Word) (n : Nat) (t : Tbl Nat) (l : Nat) :
    tblRead noEcc (failsCleared v n t) l = if l < n ∧ bitOf v l = true then 0 else tblRead noEcc t l := by
  induction n with
  | zero => exact (if_neg (by simp)).symm
  | succ n ih =>
    have hstep : failsCleared v (n + 1) t =
        if bitOf v n = true then tblWrite noEcc (failsCleared v n t) n 0 else failsCleared v n t := by
      simp only [failsCleared, List.range_succ, List.foldl_append, List.foldl_cons, List.foldl_nil]
    rw [hstep]
    by_cases hne : l = n
    · subst hne
      by_cases hv : bitOf v l = true
      · rw [if_pos hv, tblRead_write_same, if_pos ⟨Nat.lt_succ_self l, hv⟩]
      · rw [if_neg hv, ih, if_neg (by simp [hv]), if_neg (by simp [hv])]
    · have hread : tblRead noEcc
          (if bitOf v n = true then tblWrite noEcc (failsCleared v n t) n 0 else failsCleared v n t) l =
          tblRead noEcc (failsCleared v n t) l := by
        split
        · exact tblRead_write_other noEcc _ n l 0 hne
        · rfl
      rw [hread, ih]
      simp only [show l < n + 1 ↔ l < n by omega]

theorem storeReg_frame (s : State) (p off : Nat) (v : Word) : { s.storeReg p off v with regs := s.regs } = s := by
  unfold State.storeReg
  split <;> rfl

theorem storeReg_reg_of_offset_ne (s : State) {p q off o : Nat} (v : Word) (hoff : off < 0x1000) (ho : o < 0x1000)
    (h : o ≠ off) : (s.storeReg p off v).reg q o = s.reg q o := by
  unfold State.storeReg
  split
  · exact reg_setReg_of_offset_ne s _ hoff ho h
  · rfl

section
variable (v : Word)

theorem doIrqEnable_reg_irqEnable :
    (s.doIrqEnable v).reg vmePage Reg.vme.irqEnable =
      (s.storeReg vmePage Reg.vme.irqEnable v).reg vmePage Reg.vme.irqEnable :=
  reg_setReg_of_offset_ne _ _ (by decide) (by decide) (by decide)

theorem doIrqEnable_reg_irqState :
    (s.doIrqEnable v).reg vmePage Reg.vme.irqState = s.reg vmePage Reg.vme.irqState &&& ~~~(v &&& 0xfe#32) := by
  rw [← storeReg_reg_of_offset_ne s (p := vmePage) (off := Reg.vme.irqEnable) v (by decide) (by decide) (by decide)]
  exact State.reg_setReg_same _ _ _ _

theorem doIrqEnable_vme :
    (s.doIrqEnable v).vme = { s.vme with irqFails := failsCleared v 8 s.vme.irqFails } := by
  have hvme : (s.storeReg vmePage Reg.vme.irqEnable v).vme = s.vme :=
    (congrArg State.vme (storeReg_frame s vmePage Reg.vme.irqEnable v) :)
  rw [State.doIrqEnable, State.setVme_vme, State.setReg_vme, hvme]
  rfl

theorem doIrqEnable_mem : (s.doIrqEnable v).mem = s.mem :=
  (congrArg State.mem (storeReg_frame s vmePage Reg.vme.irqEnable v) :)

theorem doIrqEnable_irqFails {l : Nat} (hl : l < 8) :
    irqFailsOf (s.doIrqEnable v) l = if bitOf v l = true then 0 else irqFailsOf s l := by
  rw [irqFailsOf, doIrqEnable_vme, tblRead_failsCleared]
  simp only [hl, true_and]
  rfl

end

end

/-- Settles O60: a run of the FIFO continues its head, issuing keeps order and numbers, and each command is one branch
of the bus or of an interrupt level. -/
theorem theBusIsArbitratedAndInterruptsForwarded : Obligations.TheBusIsArbitratedAndInterruptsForwarded := by
  unfold Obligations.TheBusIsArbitratedAndInterruptsForwarded
  refine ⟨?arbiter, ?grant, ?issued, ?between, ?request, fun i b s => rfl, ?poll, ?iack, ?enable⟩
  case arbiter => exact fun last br => ⟨arbitrate_pri_eq_some last br, arbitrate_rrs_eq_some last br,
    arbitrate_eq_none last br⟩
  case grant =>
    intro s
    refine ⟨wants_iff s.vme, fun h => congrArg Host.Outcome.next (doBusGrant_of_not_wants h), fun h => ?_⟩
    obtain ⟨b, n, hv⟩ := doBusGrant_vme h
    refine ⟨s.doBusGrant, rfl, ?_⟩
    rw [hv, doBusGrant_mem h]
    exact ⟨rfl, rfl, rfl, rfl, rfl, rfl, map_fifoAsBlt _ (fun _ => rfl) n _, map_fifoAsBlt _ (fun _ => rfl) n _,
      map_fifoAsBlt _ (fun _ => rfl) n _⟩
  case issued =>
    intro s idle n
    refine ⟨issue_of_not_canIssue, fun h => ?_⟩
    have ⟨_, _, hne, _⟩ := h
    obtain ⟨w, l, hf⟩ := List.exists_cons_of_ne_nil hne
    have hn : n = s.runLength (w :: l) := congrArg s.runLength hf
    refine ⟨issue_block h, hn ▸ runLength_pos s w l, by rw [hn, hf]; exact runLength_le_length s w l,
      fun h1 => (congrArg VmeState.fifo (issue_vme_of_single h (Nat.not_lt.mpr (Nat.le_of_eq h1))) :),
      fun h1 => congrArg VmeState.fifo (issue_vme_of_block h h1), fun w' l' hf' => ?_⟩
    obtain ⟨rfl, rfl⟩ := List.cons.inj (hf.symm.trans hf')
    exact ⟨fun h => hn.trans (runLength_of_single s w l h),
      fun i x hi hx => of_lt_runLength s (hn ▸ hi) (hf ▸ hx)⟩
  case between => exact fun s => ⟨betweenCycles_of_busy, betweenCycles_of_leaves, betweenCycles_of_stays⟩
  case request =>
    exact fun l s => ⟨rfl, arbiter_of_not_free, fun hs ho =>
      congrArg Host.Outcome.next (doBusRequest_of_not_syscon l hs ho),
      fun hs ho hg hw k hk => arbiter_of_free hs ho hg hw hk⟩
  case poll =>
    exact fun asserted acks s => ⟨fun h => congrArg Host.Outcome.next (doIrqPoll_of_idle asserted acks h),
      fun h => congrArg Host.Outcome.next (doIrqPoll_of_working asserted acks h)⟩
  case iack =>
    intro l s fails cfg
    refine ⟨iack_of_status, iack_of_few_failures, fun h hl => ?_⟩
    obtain ⟨hoff, hzero⟩ := levelDisabled_raised (s := s) hl
    rw [iack_of_third_failure h]
    exact ⟨hoff, hasCause_raise_same _ _ _ (by decide), hzero⟩
  case enable =>
    intro m v s
    refine ⟨next_written_refused _, fun h => ⟨_, next_written h rfl, doIrqEnable_reg_irqEnable v,
      doIrqEnable_reg_irqState v, fun l hl => doIrqEnable_irqFails v hl, rfl, doIrqEnable_mem v,
      (congrArg VmeState.fifo (doIrqEnable_vme v) :)⟩⟩

end Sys2Proof.Proofs

namespace Sys2Proof.Proofs
open Sys2Proof Sys2Proof.Machine Sys2Proof.Laws

/-! ## One step, the queue and the outputs (R430 to R435) -/

/-- Equal states are equal answers. -/
theorem next_congr {s t : State} (h : s = t) : (Host.Outcome.next s : Result) = .next t := congrArg _ h

/-- Settles O1: with a command waiting, a step is that command's meaning on the state without it. -/
theorem stepRunsFrontCommand : Obligations.StepRunsFrontCommand := by
  unfold Obligations.StepRunsFrontCommand
  intro c rest s
  rfl

/-- Settles O8: what every command keeps includes the queue. -/
theorem commandsLeaveTheQueueAlone : Obligations.CommandsLeaveTheQueueAlone := by
  unfold Obligations.CommandsLeaveTheQueueAlone
  intro c s t h
  obtain ⟨u, hu, hk⟩ := exec_answersKept c s
  obtain rfl := Host.Outcome.next.inj (hu.symm.trans h)
  exact hk.queue

/-- Settles O7: the conditions of R430 do not read the queue, and every command and the idle cycle keep the outputs
within them. -/
theorem stepKeepsOutputsSafe : Obligations.StepKeepsOutputsSafe := by
  unfold Obligations.StepKeepsOutputsSafe
  intro s t hs h
  obtain ⟨rest, hk⟩ := kept_of_step h
  exact hk.outs hs

end Sys2Proof.Proofs

namespace Sys2Proof.Proofs
open Sys2Proof Sys2Proof.Machine Sys2Proof.Laws

/-! ## The review of the outputs (R430) -/

section
variable {s : State}

/-- ENABLE_BLOCK is 0 exactly while the eight conditions that a review checks hold. -/
theorem enableBlock_eq_zero_iff :
    s.enableBlock = 0 ↔ s.sup.startMode = 0 ∧ s.clu.mode ≠ .simplexThree ∧ s.sup.safeState = none
      ∧ s.sup.latch.locked = false ∧ s.obs.wsOpened = false
      ∧ bitOf (s.reg 0x180 Reg.supervisor.safeRequest) 0 = true ∧ s.claimOk = true ∧ s.sup.pfwLow = false := by
  have bit : ∀ (ok : Bool) (k : Nat), (if ok then 0 else 2 ^ k) = 0 ↔ ok = true := by
    intro ok k
    cases ok <;> simp
  rw [State.enableBlock]
  simp only [Nat.add_eq_zero_iff, bit, and_assoc]
  simp

theorem review_of_blocked (h : s.enableBlock ≠ 0) : s.review = s.setSup { s.sup with live := false, grant := false } :=
  if_neg h

theorem review_of_live (h : s.enableBlock = 0) (hl : s.sup.live = true) : s.review = s := (if_pos h).trans (if_pos hl)

theorem review_of_off (h : s.enableBlock = 0) (hl : s.sup.live = false) :
    s.review = (s.setSup { s.sup with live := true, grant := true }).bump 0x180 1 1 :=
  (if_pos h).trans (if_neg (by simp [hl]))

/-- A review makes the outputs live exactly when nothing blocks them. -/
theorem review_live_iff : s.review.sup.live = true ↔ s.enableBlock = 0 := by
  by_cases h : s.enableBlock = 0
  · cases hl : s.sup.live
    · simp [review_of_off h hl, h, State.setSup]
    · simp [review_of_live h hl, h, hl]
  · simp [review_of_blocked h, h, State.setSup]

/-- A review that leaves the outputs off clears the grant. -/
theorem review_grant_of_off (h : s.review.sup.live = false) : s.review.sup.grant = false := by
  have hb : s.enableBlock ≠ 0 := fun e => by simp [review_live_iff.mpr e] at h
  rw [review_of_blocked hb]
  rfl

/-- Outputs that were off follow the review together with the grant. -/
theorem review_grant_of_was_off (hl : s.sup.live = false) : s.review.sup.grant = s.review.sup.live := by
  by_cases h : s.enableBlock = 0
  · simp [review_of_off h hl, State.setSup]
  · rw [review_of_blocked h]
    rfl

end

/-! ## Safe state and lock-out (R432, R433) -/

/-- Every OUTPUT_PERMIT of a list of programs cleared. -/
def clearPermits (l : List Nat) (s : State) : State :=
  l.foldl (fun t p => t.setReg (0x048 + p) Reg.program.outputPermit 0#32) s

/-- The supervisor in the safe state, which keeps the class and the origin that set it. -/
def safeSup (s : State) (cls origin : Nat) : Supervisor :=
  { s.sup with
    live := false, grant := false, safeState := s.sup.safeState.or (some cls),
    safeOrigin := if s.sup.safeState.isNone then origin else s.sup.safeOrigin }

theorem safeOff_eq (s : State) (cls origin : Nat) :
    s.safeOff cls origin = clearPermits (List.range 8) (s.setSup (safeSup s cls origin)) := rfl

theorem clearPermits_sup (l : List Nat) (s : State) : (clearPermits l s).sup = s.sup := by
  unfold clearPermits
  refine foldl_field State.sup _ (fun _ _ => ?_) l s
  rfl

theorem clearPermits_frame (l : List Nat) (s : State) (regs : Tbl Word) :
    { clearPermits l s with regs := regs } = { s with regs := regs } := by
  unfold clearPermits
  refine foldl_field (fun t : State => { t with regs := regs }) _ (fun _ _ => ?_) l s
  rfl

theorem clearPermits_reg (l : List Nat) (s : State) (p : Nat) :
    (clearPermits l s).reg (0x048 + p) Reg.program.outputPermit
      = if p ∈ l then 0#32 else s.reg (0x048 + p) Reg.program.outputPermit := by
  induction l generalizing s with
  | nil => rfl
  | cons q l ih =>
    refine (ih _).trans ?_
    by_cases hpl : p ∈ l
    · simp [hpl]
    by_cases hpq : p = q
    · subst hpq
      simp [hpl]
    · have hne : (0x048 + p, Reg.program.outputPermit) ≠ (0x048 + q, Reg.program.outputPermit) :=
        fun e => hpq (Nat.add_left_cancel (congrArg Prod.fst e))
      simpa [hpl, hpq] using reg_setReg_of_ne s 0#32 (by decide) (by decide) hne

theorem enterLockout_of_unlocked {s : State} (cls origin : Nat) (h : s.sup.latch.locked = false) :
    s.enterLockout cls origin =
      (((s.setSup { s.sup with latch := ⟨true, cls, origin, false, 0#32, true⟩, lockPosted := false }).enterSafe cls
        origin).markLockout.abandonReseed).lockReport :=
  if_neg (by simp [h])

/-! ## Monitors, samples and the missing verdict (R425 to R427, R431, R438) -/

theorem doRailTrip_of_unarmed {s : State} (rail : Nat) (h : s.sup.released = false ∨ s.sup.pfwSeen = true) :
    s.doRailTrip rail = s :=
  if_pos (by simpa using h)

theorem doRailTrip_of_armed {s : State} (rail : Nat) (hr : s.sup.released = true) (hp : s.sup.pfwSeen = false) :
    let s1 := s.setReg 0x180 Reg.supervisor.railTripped (setBit (s.reg 0x180 Reg.supervisor.railTripped) rail true)
    s.doRailTrip rail = (s1.setSup { s1.sup with railsIn := s1.sup.railsIn &&& ~~~(1#8 <<< rail) }).supervisorFault 2 12 :=
  if_neg (by simp [hr, hp])

theorem clockTripped_of_unreleased {s : State} (bit cause : Nat) (h : s.sup.released = false) :
    s.clockTripped bit cause = s :=
  if_pos (by simp [h])

theorem clockTripped_of_released {s : State} (bit cause : Nat) (h : s.sup.released = true) :
    s.clockTripped bit cause =
      (s.setReg 0x180 Reg.supervisor.clkTripped (setBit (s.reg 0x180 Reg.supervisor.clkTripped) bit true)).supervisorFault
        cause 13 :=
  if_neg (by simp [h])

/-! ## Summary bits (R428, R429) -/

/-- Is a summary bit set that the supervisor has not taken? -/
def summaryDue (s : State) (c : Nat) : Bool := bitOf (s.reg 0x004 Reg.faultMgr.classSummary) c && !(bitOf s.sup.taken c)

theorem doSummaryTake_of_lowest {s : State} {c : Nat} (hc : c < 32) (hd : summaryDue s c = true)
    (hlow : ∀ d, d < c → summaryDue s d = false) :
    s.doSummaryTake = ((s.setSup { s.sup with taken := setBit s.sup.taken c true }).bump 0x180 4 1).react
      (s.classReaction c) c (s.classOrigin c) := by
  have hf : (List.range 32).find? (summaryDue s) = some c :=
    List.find?_range_eq_some.mpr ⟨hd, List.mem_range.mpr hc, fun d h => by simp [hlow d h]⟩
  unfold State.doSummaryTake
  split
  next d h =>
    obtain rfl : c = d := Option.some.inj (hf.symm.trans h)
    rfl
  next h => exact absurd (hf.symm.trans h) (by simp)

theorem doSummaryTake_of_none {s : State} (h : ∀ d, d < 32 → summaryDue s d = false) :
    s.doSummaryTake =
      if s.red.lockout ∧ !s.sup.latch.locked ∧ bitOf s.sup.taken 9 then s.enterLockout 9 0x016 else s := by
  have hf : (List.range 32).find? (summaryDue s) = none :=
    List.find?_range_eq_none.mpr fun d hd => by simp [h d hd]
  unfold State.doSummaryTake
  split
  next d hs => exact absurd (hf.symm.trans hs) (by simp)
  next => rfl

/-- Settles O44, rule by rule: the review by what blocks it, the safe state by its fold over the programs, each finding by
the condition under which it counts. -/
theorem outputsFollowR430AndFindingsReact : Obligations.OutputsFollowR430AndFindingsReact := by
  unfold Obligations.OutputsFollowR430AndFindingsReact
  refine ⟨?review, ?safe, ?trips, fun s => ⟨rfl, rfl⟩, ?samples, ?noVerdict, ?summary, ?reactions, ?retry, ?request⟩
  case review =>
    exact fun s => ⟨review_live_iff.trans enableBlock_eq_zero_iff, review_grant_of_off, review_grant_of_was_off⟩
  case safe =>
    intro cls origin s t
    have hsup : t.sup = safeSup s cls origin := clearPermits_sup _ _
    refine ⟨congrArg Supervisor.live hsup, congrArg Supervisor.grant hsup, congrArg Supervisor.safeState hsup,
      fun p hp => ?_, ?_, fun h => if_pos h, fun h => if_pos h, enterLockout_of_unlocked cls origin⟩
    · exact (clearPermits_reg _ _ p).trans (if_pos (List.mem_range.mpr hp))
    · have hframe := clearPermits_frame (List.range 8) (s.setSup (safeSup s cls origin)) s.regs
      exact congrArg (fun u : State => { u with sup := s.sup }) hframe
  case trips =>
    intro rail domain s s1 clk
    exact ⟨fun h => next_congr (doRailTrip_of_unarmed _ h),
      fun h => ⟨next_congr (clockTripped_of_unreleased _ _ h),
        next_congr (clockTripped_of_unreleased _ _ h)⟩,
      fun h => ⟨fun hp => next_congr (doRailTrip_of_armed _ h hp),
        next_congr (clockTripped_of_released _ _ h),
        next_congr (clockTripped_of_released _ _ h)⟩⟩
  case samples =>
    intro a b s x y s1 third
    exact ⟨fun h => next_congr (if_pos h), fun h => next_congr (if_neg h)⟩
  case noVerdict =>
    intro s waits
    refine ⟨fun hs hw => next_congr (if_pos ⟨by simp [hs], hw⟩),
      fun h => next_congr (if_neg ?_)⟩
    rintro ⟨hs, hw⟩
    rcases h with h | h
    · simp [h] at hs
    · exact absurd (h.symm.trans hw) (by decide)
  case summary =>
    intro s due
    refine ⟨fun c hc hd hlow => next_congr (doSummaryTake_of_lowest hc hd hlow), fun hnone => ?_⟩
    have hstep := next_congr (doSummaryTake_of_none hnone)
    refine ⟨fun hl hk ht => hstep.trans (next_congr (if_pos ?_)),
      fun h => hstep.trans (next_congr (if_neg ?_))⟩
    · simp [hl, hk, ht]
    · rcases h with h | h | h <;> simp [h]
  case reactions =>
    intro cls origin s
    refine ⟨fun r hr => ?_, rfl, rfl, ?_, fun h => ?_, fun h => ?_⟩
    · rw [State.react, if_neg (by omega), if_neg (by omega)]
    · and_intros <;> rfl
    · simp [State.classReaction, h]
    · simp [State.classReaction, h]
  case retry =>
    intro s
    refine ⟨fun hl hc hp => next_congr (if_pos ?_), fun h => next_congr (if_neg ?_)⟩
    · simp [hl, hc, hp]
    · rcases h with h | h | h <;> simp [h]
  case request =>
    exact fun m v s hm => next_written hm rfl

end Sys2Proof.Proofs

namespace Sys2Proof.Proofs
open Sys2Proof Sys2Proof.Machine Sys2Proof.Laws

/-! ## Claiming, contest and freeze of the causeway (R441 to R445, R448) -/

section
variable {s : State}

theorem giveUpClaim_of_claiming (h : s.fail.role = .claiming ∨ s.fail.role = .active) :
    s.giveUpClaim = s.setFail { s.fail with role := .standby, stopping := true } := if_pos h

theorem giveUpClaim_of_not_claiming (h : s.fail.role = .standby ∨ s.fail.role = .disabled) : s.giveUpClaim = s :=
  if_neg (by rcases h with h | h <;> simp [h])

/-- The conditions of R442, R444 and R448 for a claim to start. -/
theorem mayClaim_iff :
    s.mayClaim = true ↔ s.cwayEn = true ∧ s.fail.role = .standby ∧ s.fail.lineOn = false
      ∧ bitOf (s.reg 0x181 Reg.causeway.claimCtrl) 0 = true ∧ s.fail.faulty = false ∧ s.fail.frozen = false
      ∧ s.sup.safeState = none ∧ s.fail.toggling = false ∧ s.fail.noWithdraw = false := by
  simp [State.mayClaim, and_assoc]

theorem doClaimActive_of_quiet (he : s.cwayEn = true) (hr : s.fail.role = .claiming) (ht : s.fail.toggling = false) :
    s.doClaimActive = ((s.setFail { s.fail with role := .active, withdrawReq := false }).bump 0x181 1 1).review :=
  if_pos ⟨he, hr, by simp [ht]⟩

theorem doClaimActive_of_not_quiet (h : s.cwayEn = false ∨ s.fail.role ≠ .claiming ∨ s.fail.toggling = true) :
    s.doClaimActive = s :=
  if_neg (by rcases h with h | h | h <;> simp [h])

theorem doLineRelease_of_due (hs : s.fail.stopping = true) (hl : s.fail.lineOn = true) (ho : s.sup.live = false) :
    s.doLineRelease = (s.setFail { s.fail with stopping := false, lineOn := false }).incReg 0x181 Reg.causeway.claimEnds 1 :=
  if_pos ⟨hs, hl, by simp [ho]⟩

theorem doLineRelease_of_not_due (h : s.fail.stopping = false ∨ s.fail.lineOn = false ∨ s.sup.live = true) :
    s.doLineRelease = s :=
  if_neg (by rcases h with h | h | h <;> simp [h])

/-- An edge that ends an interval within the bounds counts on to the second one, any other starts the count again. -/
theorem doClaimInEdge_of_gaps {ns n : Nat}
    (h : (if (s.fail.everEdge && decide (40000 ≤ ns ∧ ns ≤ 60000)) = true then min (s.fail.goodGaps + 1) 2 else 0) = n) :
    s.doClaimInEdge ns =
      State.judgeContest s (s.setFail { s.fail with everEdge := true, goodGaps := n, toggling := n == 2 }) := by
  subst h
  rfl

/-- No contest begins: the outputs alone are reviewed. -/
theorem judgeContest_of_no_new {b : State} (h : s.contest = false ∨ b.contest = true) :
    State.judgeContest b s = s.review :=
  congrArg State.review (if_neg (by rcases h with h | h <;> simp [h]))

theorem judgeContest_of_new {b : State} (hs : s.contest = true) (hb : b.contest = false) :
    State.judgeContest b s =
      (if s.fail.unitSide = true then (s.bump 0x181 2 1).giveUpClaim.raise 0x181 1 [] else s.bump 0x181 2 1).review := by
  refine congrArg State.review ((if_pos ⟨hs, by simp [hb]⟩).trans ?_)
  simp only [State.bump_fail]

theorem cwayFreeze_role : (((s.setFail { s.fail with frozen := true }).raise 0x181 0 []).bump 0x181 3 1).fail.role = s.fail.role := by
  rw [State.bump_fail, State.raise_fail]
  rfl

theorem doCwayDisagree_of_differs (he : s.cwayEn = true) (hd : s.fail.toggling ≠ s.fail.hbClaiming)
    (hf : s.fail.frozen = false) :
    let f := ((s.setFail { s.fail with frozen := true }).raise 0x181 0 []).bump 0x181 3 1
    s.doCwayDisagree = (if s.fail.role = .claiming then f.giveUpClaim else f).review := by
  refine (if_pos ⟨he, hd, by simp [hf]⟩).trans (congrArg State.review ?_)
  simp only [cwayFreeze_role]

theorem doCwayDisagree_of_not_differs
    (h : ¬(s.cwayEn = true ∧ s.fail.toggling ≠ s.fail.hbClaiming ∧ s.fail.frozen = false)) : s.doCwayDisagree = s :=
  if_neg (by simpa using h)

end

/-! ## Heartbeats, membership and mastership (R449, R450) -/

section
variable {s : State}

theorem setMaster_fail (s : State) (id : Fin 8) : (s.setMaster id).fail = { s.fail with master := id } := by
  simp [State.setMaster, State.satReg, State.setFail]

theorem doHeartbeatSend_of_straps (h : s.fail.strapsValid = true) :
    let s1 := s.bump 0x1c0 0 1
    s.doHeartbeatSend =
      if s.fail.present.contains s.fail.master.val = false ∧ s.fail.present.head? = some s.fail.stackId.val then
        (s1.setMaster s1.fail.stackId).raise 0x1c0 2 []
      else s1 := by
  simp [State.doHeartbeatSend, h]

theorem doHeartbeatReceived_of_other {hb : Heartbeat} (h : s.fail.strapsValid = true) (hid : hb.id ≠ s.fail.stackId) :
    let s1 := (((s.bump 0x1c0 1 1).followMaster hb).admitMember hb.id.val).hearPeer hb
    s.doHeartbeatReceived hb =
      if s1.isMaster = false ∧ hb.id = s1.fail.master ∧ s1.fail.present.contains hb.id.val = true then
        s1.ntMeasure hb.nt 2
      else s1 := by
  simp [State.doHeartbeatReceived, h, hid]

theorem admitMember_of_few {id : Nat} (hp : s.fail.present.contains id = false)
    (hn : tblRead zeroNat s.fail.seen id + 1 < 3) :
    s.admitMember id =
      s.setFail { s.fail with seen := tblWrite zeroNat s.fail.seen id (tblRead zeroNat s.fail.seen id + 1) } :=
  (if_neg (Bool.eq_false_iff.mp hp)).trans (if_pos hn)

theorem admitMember_of_third {id : Nat} (hp : s.fail.present.contains id = false)
    (hn : 3 ≤ tblRead zeroNat s.fail.seen id + 1) :
    s.admitMember id =
      (s.setFail { s.fail with seen := tblErase s.fail.seen id }).setPresent (insertId id s.fail.present) :=
  (if_neg (Bool.eq_false_iff.mp hp)).trans (if_neg (by omega))

theorem doMemberLost_of_present {id : Nat} (hp : s.fail.present.contains id = true) (hid : id ≠ s.fail.stackId.val) :
    let s1 := (((s.setPresent (s.fail.present.filter (· != id))).satReg 0x1c0 Reg.stackLink.hbMissed 3).bump 0x1c0 2 3).raise
      0x1c0 1 []
    s.doMemberLost id =
      if id = s1.peerId then (s1.setFail { s1.fail with hbClaiming := false, hbActive := false }).review else s1 :=
  if_neg (by rw [hp]; simpa using hid)

theorem doTakeover_fail (h : s.fail.returning = some s.fail.stackId.val ∧ s.time.ntValid = true
    ∧ s.fail.present.head? = some s.fail.stackId.val) :
    s.doTakeover.fail = { s.fail with master := s.fail.stackId, returning := none } := by
  rw [State.doTakeover, if_pos h]
  exact congrArg (fun f : Failover => { f with returning := none }) (setMaster_fail s s.fail.stackId)

/-! ## The ring's ports (R452) -/

theorem vaoskadUp_setVaoskad_same (s : State) (port : Fin 2) (b : Bool) : (s.setVaoskad port b).vaoskadUp port = b := by
  by_cases h : port = 0 <;> simp [State.vaoskadUp, State.setVaoskad, State.setFail, h]

theorem vaoskadUp_setVaoskad_of_ne (s : State) {port q : Fin 2} (b : Bool) (h : q ≠ port) :
    (s.setVaoskad port b).vaoskadUp q = s.vaoskadUp q := by
  by_cases hp : port = 0
  · have hq : q ≠ 0 := hp ▸ h
    simp [State.vaoskadUp, State.setVaoskad, State.setFail, hp, hq]
  · have hq : q = 0 := by omega
    simp [State.vaoskadUp, State.setVaoskad, State.setFail, hp, hq]

theorem doRingOpen_of_up {port : Fin 2} (h : s.vaoskadUp port = true) :
    let s1 := s.setVaoskad port false
    s.doRingOpen port =
      if s.fail.ringClosed then (s1.setFail { s1.fail with ringClosed := false }).raise 0x1c0 0 [] else s1 :=
  if_neg (by simp [h])

end

/-- Settles O45, rule by rule: each command by the condition of its branch. -/
theorem claimsAndStackMembershipFollowTheirRules : Obligations.ClaimsAndStackMembershipFollowTheirRules := by
  unfold Obligations.ClaimsAndStackMembershipFollowTheirRules
  refine ⟨?enable, ?claim, ?edges, ?contest, ?freeze, ?send, ?receive, ?lost, ?takeover, ?ring⟩
  case enable =>
    intro m v s hm s1
    refine ⟨fun h => next_written hm (congrArg State.review (if_pos h)),
      fun h => next_written hm (congrArg State.review (if_neg ?_))⟩
    simp [h]
  case claim =>
    intro s may s1
    refine ⟨fun h => next_congr (if_pos (mayClaim_iff.mpr h)), fun h => next_congr (if_neg (mt mayClaim_iff.mp h)),
      fun he hr ht => next_congr (doClaimActive_of_quiet he hr ht), fun h => next_congr (doClaimActive_of_not_quiet h),
      fun h => congrArg State.fail (giveUpClaim_of_claiming h), giveUpClaim_of_not_claiming,
      fun hs hl ho => ⟨_, next_congr (doLineRelease_of_due hs hl ho), rfl, ?_, rfl⟩,
      fun h => next_congr (doLineRelease_of_not_due h)⟩
    exact State.reg_setReg_same _ _ _ _
  case edges =>
    intro ns s good after
    refine ⟨fun h => next_congr (doClaimInEdge_of_gaps (if_pos ?_)),
      fun h => next_congr (doClaimInEdge_of_gaps (if_neg ?_)), rfl⟩
    · simpa [good] using h
    · simpa [good] using h
  case contest =>
    intro b s
    refine ⟨judgeContest_of_no_new, fun hs hb => ⟨fun hside => ?_, fun hside => ?_⟩⟩
    · rw [judgeContest_of_new hs hb, if_neg (by simp [hside])]
    · rw [judgeContest_of_new hs hb, if_pos hside]
  case freeze =>
    intro s f differs
    refine ⟨fun ⟨he, hd, hf⟩ hr => ?_, fun ⟨he, hd, hf⟩ hr => ?_, fun h => next_congr (doCwayDisagree_of_not_differs h),
      fun h => next_congr (if_pos h), fun h => next_congr (if_neg h),
      fun hw ht hn => next_congr (if_pos ⟨hw, ht, by simp [hn]⟩), fun h => next_congr (if_neg ?_)⟩
    · exact next_congr ((doCwayDisagree_of_differs he hd hf).trans (congrArg State.review (if_pos hr)))
    · exact next_congr ((doCwayDisagree_of_differs he hd hf).trans (congrArg State.review (if_neg hr)))
    · rcases h with h | h | h <;> simp [h]
  case send =>
    intro s s1 takes
    exact ⟨fun h => next_congr (if_pos (by simp [h])),
      fun h ht => next_congr ((doHeartbeatSend_of_straps h).trans (if_pos ht)),
      fun h ht => next_congr ((doHeartbeatSend_of_straps h).trans (if_neg ht)), setMaster_fail s⟩
  case receive =>
    intro hb s s1 measures
    refine ⟨fun h => next_congr (if_pos (by simp [h])),
      fun h hid => next_congr ((if_neg (by simp [h])).trans (if_pos hid)),
      fun h hid => ⟨fun hm => next_congr ((doHeartbeatReceived_of_other h hid).trans (if_pos hm)),
        fun hm => next_congr ((doHeartbeatReceived_of_other h hid).trans (if_neg hm))⟩,
      fun id hp => ⟨fun hn => ?_, fun hn => ?_⟩⟩
    · rw [admitMember_of_few hp hn]
      exact ⟨rfl, tblRead_write_same zeroNat s.fail.seen id (tblRead zeroNat s.fail.seen id + 1)⟩
    · rw [admitMember_of_third hp hn]
      exact ⟨rfl, State.reg_setReg_same _ _ _ _⟩
  case lost =>
    intro id s s1
    refine ⟨fun h => next_congr (if_pos ?_), fun hp hid => ?_⟩
    · exact h.imp (fun h => by rw [h]; rfl) (congrArg Fin.val)
    · have hval : id.val ≠ s.fail.stackId.val := fun e => hid (Fin.ext e)
      exact ⟨fun h => next_congr ((doMemberLost_of_present hp hval).trans (if_pos h)),
        fun h => next_congr ((doMemberLost_of_present hp hval).trans (if_neg h))⟩
  case takeover =>
    intro s comes
    exact ⟨fun h => ⟨_, rfl, doTakeover_fail h⟩, fun h => next_congr (if_neg h)⟩
  case ring =>
    intro port s s1 s2
    refine ⟨fun h => next_congr (if_pos (by simp [h])),
      fun h hc => next_congr ((doRingOpen_of_up h).trans (if_pos hc)),
      fun h hc => next_congr ((doRingOpen_of_up h).trans (if_neg (by simp [hc]))), rfl,
      vaoskadUp_setVaoskad_same s port true, vaoskadUp_setVaoskad_same s port false,
      fun q hq => ⟨vaoskadUp_setVaoskad_of_ne s true hq, vaoskadUp_setVaoskad_of_ne s false hq⟩⟩

end Sys2Proof.Proofs

namespace Sys2Proof.Proofs
open Sys2Proof Sys2Proof.Machine Sys2Proof.Laws

/-! ## Programmable counters and samplers (R455, R457) -/

/-- The programmable counter `k` restarted with the selection that its register holds. -/
def pmcRestarted (s : State) (k : Nat) : State :=
  s.setObs
    { s.obs with
      pmc := tblWrite zeroDword s.obs.pmc k 0#64,
      pmcOn := if bitOf (s.pmcSel k) 31 then k :: s.obs.pmcOn.filter (· != k) else s.obs.pmcOn.filter (· != k) }

theorem doPmcSel_eq (s : State) (k : Nat) (v : Word) :
    s.doPmcSel k v = pmcRestarted (s.storeReg 0x191 (Reg.pmc.pmcSel + 4 * k) v) k := rfl

theorem pmcRestarted_count_same (s : State) (k : Nat) : tblRead zeroDword (pmcRestarted s k).obs.pmc k = 0#64 :=
  tblRead_write_same zeroDword s.obs.pmc k 0#64

theorem pmcRestarted_count_of_ne (s : State) {k n : Nat} (h : n ≠ k) :
    tblRead zeroDword (pmcRestarted s k).obs.pmc n = tblRead zeroDword s.obs.pmc n :=
  tblRead_write_other zeroDword s.obs.pmc k n 0#64 h

theorem mem_pmcRestarted_on (s : State) (k n : Nat) :
    n ∈ (pmcRestarted s k).obs.pmcOn ↔ if n = k then bitOf (s.pmcSel k) 31 = true else n ∈ s.obs.pmcOn := by
  by_cases hb : bitOf (s.pmcSel k) 31 = true <;> by_cases hn : n = k <;> simp [pmcRestarted, State.setObs, hb, hn]

theorem pmcRestarted_frame (s : State) (k : Nat) (r : Reply) :
    { (pmcRestarted s k).answer r with obs := s.obs, reply := s.reply } = s := rfl

/-! ## Fault injection while access is open (R36, R463) -/

section
variable {s : State} (hopen : s.obs.wsOpen = true) (p : Nat) {v : Word}
include hopen

omit hopen in
theorem doInject_of_reserved (h : 4 ≤ fieldOf v 30 28) : s.doInject p v = s := if_pos (.inr h)

theorem doInject_of_ecc (h : fieldOf v 30 28 = 1 ∨ fieldOf v 30 28 = 2) :
    s.doInject p v = if fieldOf v 23 16 < injectMemories p then s.setReg p 0x018 (v &&& 0xf0ffffff#32) else s :=
  (if_neg (by simp [hopen]; omega)).trans (if_pos h)

theorem doInject_of_synthetic (h : fieldOf v 30 28 = 3) (hv : bitOf v 31 = true) :
    s.doInject p v = (s.setReg p 0x018 (setBit (v &&& 0xf0ffffff#32) 31 false)).synthetic p (fieldOf v 23 16) :=
  (if_neg (by simp [hopen]; omega)).trans ((if_neg (by omega)).trans (if_pos ⟨h, hv⟩))

theorem doInject_of_stored (h : fieldOf v 30 28 = 0 ∨ fieldOf v 30 28 = 3 ∧ bitOf v 31 = false) :
    s.doInject p v = s.setReg p 0x018 (v &&& 0xf0ffffff#32) := by
  refine (if_neg (by simp [hopen]; omega)).trans ((if_neg (by omega)).trans (if_neg ?_))
  rcases h with h | ⟨-, h⟩ <;> simp [h]

end

/-! ## Perturbation controls (R462) -/

theorem ptWrite_of_refused {s : State} {m : Master} {off : Nat} (v : Word) (h : s.mayWritePage m 0x1a0 off = false) :
    s.ptWrite m off v = s.violation m (0x18000000 + 0x1000 * 0x1a0 + off) :=
  if_pos (by simp [h])

theorem mayWritePage_perturb_of_closed {s : State} (m : Master) (off : Nat) (h : s.obs.wsOpen = false) :
    s.mayWritePage m 0x1a0 off = false := by
  simp [State.mayWritePage, h]

theorem ptWrite_of_taken {s : State} {m : Master} {off : Nat} {v : Word} {d : RegDesc}
    (hm : s.mayWritePage m 0x1a0 off = true) (hok : ptOk off v = true) (hd : regDesc 0x1a0 off = some d) :
    s.ptWrite m off v = (s.setReg 0x1a0 off (d.written (s.locked 0x1a0) (s.reg 0x1a0 off) v)).answer .none :=
  (written_of_mayWrite _ hm).trans (congrArg (State.answer · .none) ((if_pos hok).trans (storeReg_of_row s v hd)))

theorem ptWrite_of_ignored {s : State} {m : Master} {off : Nat} {v : Word} (hm : s.mayWritePage m 0x1a0 off = true)
    (hok : ptOk off v = false) : s.ptWrite m off v = s.answer .none :=
  (written_of_mayWrite _ hm).trans (congrArg (State.answer · .none) (if_neg (Bool.eq_false_iff.mp hok)))

/-- A control ignores a value only where that value names a fourth copy or a fourth engine. -/
theorem ptOk_eq_false_iff (off : Nat) (v : Word) :
    ptOk off v = false ↔ ((off = Reg.perturb.ptCkpt ∨ off = Reg.perturb.ptSig ∨ off = Reg.perturb.ptVote)
      ∧ fieldOf v 29 28 = 3) ∨ (off = Reg.perturb.ptCle ∧ fieldOf v 1 0 = 3) := by
  unfold ptOk
  split
  next h =>
    have hcle : off ≠ Reg.perturb.ptCle := by rcases h with rfl | rfl | rfl <;> decide
    simp [h, hcle]
  next h =>
    split
    next hcle => simp [hcle]
    next hcle => simp [h, hcle]

/-! ## Delayed reports (R462) -/

/-- The reports in flight once those of copy `k` are released: a participant's go on, another's are discarded. -/
def releasedReports (s : State) (k : Copy) : List FlyingReport :=
  if (s.cp k).participant then
    s.clu.flying.map fun f => if f.report.copy = k then { f with delayed := false } else f
  else s.clu.flying.filter fun f => !(f.delayed && f.report.copy == k)

theorem doReportRelease_eq (s : State) (k : Copy) :
    s.doReportRelease k = { s with clu := { s.clu with flying := releasedReports s k } } := rfl

theorem releasedReports_not_delayed {s : State} {k : Copy} {f : FlyingReport} (hf : f ∈ releasedReports s k)
    (hk : f.report.copy = k) : f.delayed = false := by
  unfold releasedReports at hf
  split at hf
  · obtain ⟨g, -, rfl⟩ := List.mem_map.mp hf
    by_cases hg : g.report.copy = k
    · rw [if_pos hg]
    · rw [if_neg hg] at hk
      exact absurd hk hg
  · simpa [hk] using (List.mem_filter.mp hf).2

theorem releasedReports_length {s : State} {k : Copy} (h : (s.cp k).participant = true) :
    (releasedReports s k).length = s.clu.flying.length := by
  rw [releasedReports, if_pos h, List.length_map]

theorem mem_releasedReports {s : State} {k : Copy} (h : (s.cp k).participant = false) {f : FlyingReport}
    (hf : f ∈ s.clu.flying) (hk : f.report.copy ≠ k ∨ f.delayed = false) : f ∈ releasedReports s k := by
  rw [releasedReports, if_neg (Bool.eq_false_iff.mp h)]
  refine List.mem_filter.mpr ⟨hf, ?_⟩
  rcases hk with hk | hk <;> simp [hk]

/-- Settles O48, control by control. -/
theorem countersSamplersInjectionAndPerturbation : Obligations.CountersSamplersInjectionAndPerturbation := by
  unfold Obligations.CountersSamplersInjectionAndPerturbation
  refine ⟨?counters, ?windows, ?samplers, ?inject, fun m v s => ?names, ?controls, ?reports⟩
  case counters =>
    intro m k v s hm s1
    refine ⟨_, next_written hm (doPmcSel_eq s k.val v), pmcRestarted_count_same s1 k.val,
      fun n hn => ⟨pmcRestarted_count_of_ne s1 hn, ?_⟩, ?_, pmcRestarted_frame s1 k.val .none⟩
    · exact (mem_pmcRestarted_on s1 k.val n).trans (by rw [if_neg hn])
    · exact (mem_pmcRestarted_on s1 k.val k.val).trans (by rw [if_pos rfl])
  case windows =>
    intro s
    exact ⟨fun h => next_congr (if_pos h), fun h => next_congr (if_neg (Bool.eq_false_iff.mp h)),
      fun m v hm => next_written hm rfl⟩
  case samplers =>
    intro m n v s hm off s1 starts
    refine ⟨fun h => next_written hm (if_pos ?_), fun h => next_written hm (if_neg ?_)⟩
    · simpa [starts] using h
    · simpa [starts] using h
  case inject =>
    intro m page v s hm hopen w kind target
    refine ⟨fun h => next_written hm (doInject_of_reserved page h),
      fun h => next_written hm (doInject_of_stored hopen page (.inl h)),
      fun h => ⟨fun ht => next_written hm ((doInject_of_ecc hopen page h).trans (if_pos ht)),
        fun ht => next_written hm ((doInject_of_ecc hopen page h).trans (if_neg (Nat.not_lt.mpr ht)))⟩,
      fun h => ⟨fun hv => next_written hm (doInject_of_synthetic hopen page h hv),
        fun hv => next_written hm (doInject_of_stored hopen page (.inr ⟨h, hv⟩))⟩⟩
  case names =>
    and_intros <;> rfl
  case controls =>
    intro m off v s
    refine ⟨fun h => ptWrite_of_refused v (mayWritePage_perturb_of_closed m off h),
      fun hm hok d hd => ⟨_, ptWrite_of_taken hm hok hd, ?_, fun p o hp => ?_, rfl⟩,
      ptWrite_of_ignored, ptOk_eq_false_iff off v⟩
    · exact State.reg_setReg_same _ _ _ _
    · exact State.reg_setReg_other s 0x1a0 off p o _ hp
  case reports =>
    intro cp s
    exact ⟨_, next_congr (doReportRelease_eq s cp), rfl, fun f hf => releasedReports_not_delayed hf,
      releasedReports_length, fun h f hf => mem_releasedReports h hf⟩

end Sys2Proof.Proofs

namespace Sys2Proof.Proofs
open Sys2Proof Sys2Proof.Machine Sys2Proof.Laws

/-! ## The TAP (R458) -/

/-- VERSION of DTMCS is 1, whatever the implementation's other fields hold. -/
theorem dtmcs_version (info : Word) : (((1#32 ||| (info &&& 0x73f0#32)).zeroExtend 64 : DWord)) &&& 0xf#64 = 1#64 := by
  have hlow : (0x73f0#32).setWidth 64 &&& 0xf#64 = 0#64 := by decide
  rw [BitVec.zeroExtend, BitVec.setWidth_or, BitVec.setWidth_and, BitVec.and_comm, BitVec.and_or_distrib_left,
    BitVec.and_comm _ (_ &&& _), BitVec.and_assoc, hlow]
  simp

/-! ## What the counting of events and the posting of reports leave of the observation state -/

section
variable (s : State) (pmc : Tbl DWord)

theorem pmcEvent_obs_besides_pmc (e i n : Nat) : { (s.pmcEvent e i n).obs with pmc := pmc } = { s.obs with pmc := pmc } := by
  refine foldl_field (fun t => { t.obs with pmc := pmc }) _ (fun t k => ?_) _ s
  dsimp only
  split <;> rfl

theorem bump_obs_besides_pmc (p n k : Nat) : { (s.bump p n k).obs with pmc := pmc } = { s.obs with pmc := pmc } :=
  pmcEvent_obs_besides_pmc _ pmc _ _ _

theorem post_obs_besides_pmc (pl : Plane) (origin cls reaction : Nat) (detail : List Word) :
    { (s.post pl origin cls reaction detail).obs with pmc := pmc } = { s.obs with pmc := pmc } := by
  have hobs : (s.post pl origin cls reaction detail).obs = (countReport s pl origin cls).obs := by
    rcases Nat.lt_or_ge (s.faults.fifo pl).length 32 with h | h
    · obtain ⟨r, hr, -⟩ := post_of_room s pl origin cls reaction detail h
      rw [hr]
    · rw [post_of_full s pl origin cls reaction detail h]
      rfl
  rw [hobs]
  exact bump_obs_besides_pmc _ pmc _ _ _

theorem raise_obs_besides_pmc (p bit : Nat) (detail : List Word) :
    { (s.raise p bit detail).obs with pmc := pmc } = { s.obs with pmc := pmc } :=
  post_obs_besides_pmc _ pmc _ _ _ _ _

end

/-! ## The unlock sequence (R460) -/

section
variable {s : State}

/-- The sequence restarted and its failure counted. -/
def unlockRestarted (s : State) : State :=
  (s.setObs { s.obs with unlockStep := 0, unlockFails := s.obs.unlockFails + 1 }).bump 0x19f 1 1

theorem unlockRestarted_obs_besides_pmc (s : State) :
    { (unlockRestarted s).obs with pmc := s.obs.pmc }
      = { s.obs with unlockStep := 0, unlockFails := s.obs.unlockFails + 1 } :=
  bump_obs_besides_pmc _ _ _ _ _

theorem unlockRestarted_fails (s : State) : (unlockRestarted s).obs.unlockFails = s.obs.unlockFails + 1 :=
  (congrArg Observe.unlockFails (unlockRestarted_obs_besides_pmc s) :)

/-- The eighth failure latches UNLOCK_REFUSED. -/
theorem unlockFailed_eq (s : State) :
    s.unlockFailed = if s.obs.unlockFails = 7 then (unlockRestarted s).raise 0x19f 1 [] else unlockRestarted s := by
  have hiff : (unlockRestarted s).obs.unlockFails = 8 ↔ s.obs.unlockFails = 7 := by
    rw [unlockRestarted_fails]
    omega
  exact if_congr hiff rfl rfl

theorem unlockFailed_obs_besides_pmc (s : State) :
    { s.unlockFailed.obs with pmc := s.obs.pmc }
      = { s.obs with unlockStep := 0, unlockFails := s.obs.unlockFails + 1 } := by
  rw [unlockFailed_eq]
  split
  · exact (raise_obs_besides_pmc _ _ _ _ _).trans (unlockRestarted_obs_besides_pmc s)
  · exact unlockRestarted_obs_besides_pmc s

theorem unlockWrite_of_open (route : Nat) (v : Word) (h : s.obs.wsOpen = true) : s.unlockWrite route v = s := if_pos h

section
variable (h : s.obs.wsOpen = false) (route : Nat) {v : Word}
include h

theorem unlockWrite_of_wrong (hv : v ≠ s.unlockWord s.obs.unlockStep) : s.unlockWrite route v = s.unlockFailed :=
  (if_neg (Bool.eq_false_iff.mp h)).trans (if_pos hv)

theorem unlockWrite_of_right (hv : v = s.unlockWord s.obs.unlockStep) :
    s.unlockWrite route v =
      if s.obs.unlockStep < 3 then s.setObs { s.obs with unlockStep := s.obs.unlockStep + 1 }
      else if s.mayUnlock then s.workshopOpens route else s.unlockFailed :=
  (if_neg (Bool.eq_false_iff.mp h)).trans (if_neg (not_not_intro hv))

end

theorem mayUnlock_iff :
    s.mayUnlock = true ↔ s.obs.testEnPowerUp = true ∧ s.obs.testEnLow = true
      ∧ (s.time.standstill = true ∨ s.field 0x142 Reg.axles.axConfig 3 0 = 0) ∧ s.obs.unlockFails < 8 := by
  simp [State.mayUnlock, and_assoc]

/-- Workshop access opened and its report posted, before the outputs are reviewed. -/
def opened (s : State) (route : Nat) : State :=
  ((s.setObs { s.obs with unlockStep := 0, wsOpen := true, wsOpened := true }).bump 0x19f 0 1).raise 0x19f 0
    [BitVec.ofNat 32 route]

theorem opened_wsOpen (s : State) (route : Nat) : (opened s route).obs.wsOpen = true := by
  simp [opened]

theorem opened_wsOpened (s : State) (route : Nat) : (opened s route).obs.wsOpened = true := by
  simp [opened]

/-- Opening blocks the outputs (R461). -/
theorem workshopOpens_eq (s : State) (route : Nat) :
    s.workshopOpens route = (opened s route).setSup { (opened s route).sup with live := false, grant := false } := by
  refine review_of_blocked fun h => ?_
  obtain ⟨-, -, -, -, hw, -⟩ := enableBlock_eq_zero_iff.mp h
  exact absurd ((opened_wsOpened s route).symm.trans hw) (by decide)

end

/-! ## Closing (R461) -/

theorem pageReset_freeze (p : Nat) : (pageReset p).freeze = false := by
  unfold pageReset
  split <;> rfl

/-- A key that a table does not list reads as its default. -/
theorem tblRead_of_unlisted {α : Type} (d : Nat → α) {t : Tbl α} {k : Nat} (h : k ∉ t.map Prod.fst) :
    tblRead d t k = d k := by
  induction t with
  | nil => rfl
  | cons e t ih =>
    obtain ⟨he, ht⟩ := not_or.mp (mt List.mem_cons.mpr h)
    exact (if_neg (Ne.symm he)).trans (ih ht)

/-- FREEZE cleared on a list of pages is cleared on those, and elsewhere as before. -/
theorem foldl_thaw_freeze (l : Tbl PageState) (s : State) (p : Nat) :
    ((l.foldl (fun t e => t.setPage e.1 { t.page e.1 with freeze := false }) s).page p).freeze
      = if p ∈ l.map Prod.fst then false else (s.page p).freeze := by
  induction l generalizing s with
  | nil => rfl
  | cons e l ih =>
    refine (ih _).trans ?_
    by_cases hl : p ∈ l.map Prod.fst
    · simp [hl]
    by_cases he : p = e.1
    · subst he
      simp [hl]
    · simp [hl, he, State.page_setPage_other s e.1 p _ he]

theorem thawAll_freeze (s : State) (p : Nat) : (s.thawAll.page p).freeze = false := by
  refine (foldl_thaw_freeze s.pages s p).trans ?_
  split
  next => rfl
  next h => exact (congrArg PageState.freeze (tblRead_of_unlisted pageReset h)).trans (pageReset_freeze p)

theorem thawAll_frame (s : State) (pages : Tbl PageState) : { s.thawAll with pages := pages } = { s with pages := pages } := by
  unfold State.thawAll
  refine foldl_field (fun t : State => { t with pages := pages }) _ (fun _ _ => ?_) _ s
  rfl

/-- A copy that the debugger no longer holds. -/
def resumedCopy (c : CopyState) : CopyState := { c with halted := false, stall := if c.stall = 7 then 0 else c.stall }

theorem unhalt_eq (s : State) : s.unhalt = s.participants.foldl (fun t k => t.setCp k (resumedCopy (t.cp k))) s := rfl

theorem foldl_resumed_halted {l : List Copy} {k : Copy} (h : k ∈ l) (s : State) :
    ((l.foldl (fun t k => t.setCp k (resumedCopy (t.cp k))) s).cp k).halted = false := by
  induction l generalizing s with
  | nil => cases h
  | cons j l ih =>
    by_cases hl : k ∈ l
    · exact ih hl _
    · obtain rfl : k = j := (List.mem_cons.mp h).resolve_right hl
      refine (congrArg CopyState.halted (foldl_setCp_cp_of_notMem resumedCopy hl _)).trans ?_
      simp [resumedCopy]

theorem unhalt_halted {s : State} {k : Copy} (h : (s.cp k).participant = true) : (s.unhalt.cp k).halted = false := by
  have hk : k ∈ s.participants := List.mem_filter.mpr ⟨by cases k <;> simp, h⟩
  exact foldl_resumed_halted hk s

theorem unhalt_frame (s : State) (clu : Cluster) : { s.unhalt with clu := clu } = { s with clu := clu } :=
  foldl_field (fun t : State => { t with clu := clu }) (fun t k => t.setCp k (resumedCopy (t.cp k))) (fun _ _ => rfl) _ s

theorem unhalt_pages (s : State) : s.unhalt.pages = s.pages := (congrArg State.pages (unhalt_frame s s.clu) :)

/-- The state that closing leaves, before the participants run on. -/
def accessClosed (s : State) : State :=
  let s1 := { s with regs := tblDrop clearedAtClosing s.regs }.thawAll
  s1.setObs { s1.obs with wsOpen := false }

theorem accessClosed_frame (s : State) :
    { accessClosed s with regs := s.regs, pages := s.pages, obs := s.obs } = s := by
  have hframe := thawAll_frame { s with regs := tblDrop clearedAtClosing s.regs } s.pages
  exact (congrArg (fun t : State => { t with regs := s.regs, obs := s.obs }) hframe :)

theorem accessClosed_clu (s : State) : (accessClosed s).clu = s.clu := (congrArg State.clu (accessClosed_frame s) :)

section
variable {s : State} (h : s.obs.wsOpen = true)
include h

theorem workshopCloses_eq : s.workshopCloses = (accessClosed s).unhalt := if_neg (by simp [h])

theorem workshopCloses_freeze (p : Nat) : (s.workshopCloses.page p).freeze = false := by
  rw [workshopCloses_eq h, State.page, unhalt_pages]
  exact thawAll_freeze _ p

/-- The controls of page 0x1A0 read as after reset once access is closed. -/
theorem workshopCloses_reg_perturb {off : Nat} (hl : 0x100 ≤ off) (hh : off < Reg.perturb.ptApplied) :
    s.workshopCloses.reg 0x1a0 off = regReset (regKey 0x1a0 off) := by
  have hcleared : clearedAtClosing (regKey 0x1a0 off) = true := by
    refine Bool.or_eq_true_iff.mpr (.inr (decide_eq_true ?_))
    exact ⟨Nat.add_le_add_left hl _, Nat.add_lt_add_left hh _⟩
  rw [State.reg, workshopCloses_regs h, tblRead_drop _ _ _ hcleared]

theorem workshopCloses_halted {k : Copy} (hk : (s.cp k).participant = true) : (s.workshopCloses.cp k).halted = false := by
  rw [workshopCloses_eq h]
  refine unhalt_halted ?_
  rw [State.cp, accessClosed_clu]
  exact hk

theorem workshopCloses_frame :
    { s.workshopCloses with regs := s.regs, pages := s.pages, obs := s.obs, clu := s.clu } = s := by
  rw [workshopCloses_eq h]
  have hun := unhalt_frame (accessClosed s) s.clu
  have hother := congrArg (fun t : State => { t with regs := s.regs, pages := s.pages, obs := s.obs }) hun
  exact hother.trans (congrArg (fun t : State => { t with clu := s.clu }) (accessClosed_frame s))

end

/-- Settles O49, instruction by instruction and step by step of the unlock sequence. -/
theorem tapAndWorkshopAccessFollowTheUnlockSequence : Obligations.TapAndWorkshopAccessFollowTheUnlockSequence := by
  unfold Obligations.TapAndWorkshopAccessFollowTheUnlockSequence
  refine ⟨?tap, ?dmi, fun m v s => ⟨fun hm => next_written hm rfl, rfl, rfl⟩, ?writes, ?sequence, ?closing⟩
  case tap =>
    intro scan s
    exact ⟨fun ir => rfl,
      fun h => ⟨next_congr (if_neg (Bool.eq_false_iff.mp h)), next_congr (if_neg (Bool.eq_false_iff.mp h))⟩,
      fun h => ⟨next_congr (if_pos h), next_congr (if_pos h)⟩, rfl, fun v => ⟨_, rfl, dtmcs_version _⟩⟩
  case dmi =>
    intro a v s
    refine ⟨fun h op => next_congr (if_pos ?_),
      fun h => ⟨next_congr (if_neg ?_), next_congr (if_neg ?_), next_congr (if_neg ?_)⟩⟩ <;>
      simp [State.tap, h]
  case writes =>
    intro route v s
    refine ⟨unlockWrite_of_open route v, fun h => ⟨unlockWrite_of_wrong h route, fun hv => ⟨fun h3 => ?_,
      fun h3 => ⟨fun hm => ?_, fun hm => ?_⟩⟩⟩⟩
    · exact (unlockWrite_of_right h route hv).trans (if_pos h3)
    · exact (unlockWrite_of_right h route hv).trans ((if_neg (Nat.not_lt.mpr h3)).trans (if_pos hm))
    · exact (unlockWrite_of_right h route hv).trans
        ((if_neg (Nat.not_lt.mpr h3)).trans (if_neg (Bool.eq_false_iff.mp hm)))
  case sequence =>
    intro s
    have hfailed := unlockFailed_obs_besides_pmc s
    refine ⟨⟨rfl, rfl, rfl, rfl⟩, mayUnlock_iff,
      ⟨(congrArg Observe.unlockStep hfailed :), (congrArg Observe.unlockFails hfailed :),
        (congrArg Observe.wsOpen hfailed :)⟩, fun h7 => ?_, fun route => ?_⟩
    · rw [unlockFailed_eq, if_pos h7, unlockRestarted, h7]
    · rw [workshopOpens_eq]
      exact ⟨opened_wsOpen s route, opened_wsOpened s route, rfl, rfl⟩
  case closing =>
    intro s
    exact ⟨fun m v hm => next_written hm rfl, rfl, fun h => if_pos (by simp [h]),
      fun h => ⟨_, rfl, workshopCloses_obs h, workshopCloses_freeze h, workshopCloses_reg_faultInject h,
        fun off hl hh => workshopCloses_reg_perturb h hl hh, fun k hk => workshopCloses_halted h hk,
        workshopCloses_frame h⟩⟩

end Sys2Proof.Proofs

namespace Sys2Proof.Proofs
open Sys2Proof Sys2Proof.Machine Sys2Proof.Laws

/-! ## Byte strings and register pairs -/

@[simp] theorem leBytes_length (n v : Nat) : (leBytes n v).length = n := by
  induction n generalizing v with
  | zero => rfl
  | succ n ih => exact congrArg (· + 1) (ih _)

@[simp] theorem memBytes_length (m : Tbl Byte) (a n : Nat) : (memBytes m a n).length = n := by
  induction n generalizing a with
  | zero => rfl
  | succ n ih => exact congrArg (· + 1) (ih _)

/-- Two strings stored one behind the other are their concatenation stored at once. -/
theorem memStore_append (m : Tbl Byte) (a : Nat) (l k : List Byte) :
    memStore m a (l ++ k) = memStore (memStore m a l) (a + l.length) k := by
  induction l generalizing m a with
  | nil => rfl
  | cons b l ih => simpa [memStore, Nat.add_assoc, Nat.add_comm 1] using ih (memSet m a b) (a + 1)

/-- Bytes that agree one by one are equal strings. -/
theorem memBytes_congr {m k : Tbl Byte} {a n : Nat} (h : ∀ x, a ≤ x → x < a + n → memByte m x = memByte k x) :
    memBytes m a n = memBytes k a n := by
  induction n generalizing a with
  | zero => rfl
  | succ n ih =>
    simp only [memBytes]
    rw [h a (Nat.le_refl a) (by omega), ih fun x hl hh => h x (by omega) (by omega)]

theorem dword_hiWord_loWord (v : DWord) : dword (hiWord v) (loWord v) = v := by
  refine BitVec.eq_of_getLsbD_eq fun i hi => ?_
  simp only [dword, hiWord, loWord, BitVec.getLsbD_append, BitVec.truncate_eq_setWidth, BitVec.getLsbD_setWidth,
    BitVec.getLsbD_ushiftRight]
  by_cases h : i < 32
  · simp [h]
  · simp [h, Nat.add_sub_cancel' (Nat.not_lt.mp h), Nat.sub_lt_iff_lt_add (Nat.not_lt.mp h), hi]

/-- A _LO and _HI pair is read back as written. -/
theorem reg64_setReg64_same (s : State) (p off : Nat) (v : DWord) : (s.setReg64 p off v).reg64 p off = v := by
  have hne : regKey p off ≠ regKey p (off + 4) := by simp [regKey]
  rw [State.reg64, State.setReg64, State.reg_setReg_same, State.reg_setReg_other _ _ _ _ _ _ hne, State.reg_setReg_same,
    dword_hiWord_loWord]

/-! ## Lines written into MRAM (R364, R382, R456, R463) -/

/-- From `s` to `t` lines were written into MRAM: the engine's state keeps all but the counts of written lines, the
memories all but MRAM, and the ledger and the long operations stay. -/
structure LinesWritten (s t : State) : Prop where
  ps : { t.ps with budgets := s.ps.budgets } = s.ps
  mem : { t.mem with mram := s.mem.mram, mramEcc := s.mem.mramEcc } = s.mem
  ledger : t.ledger = s.ledger
  ops : t.ops = s.ops
  sup : t.sup = s.sup

namespace LinesWritten

variable {s t u : State}

theorem refl (s : State) : LinesWritten s s := ⟨rfl, rfl, rfl, rfl, rfl⟩

theorem trans (h : LinesWritten s t) (k : LinesWritten t u) : LinesWritten s u where
  ps := (congrArg (fun p : PState => { p with budgets := s.ps.budgets }) k.ps :).trans h.ps
  mem := (congrArg (fun m : Memories => { m with mram := s.mem.mram, mramEcc := s.mem.mramEcc }) k.mem :).trans h.mem
  ledger := k.ledger.trans h.ledger
  ops := k.ops.trans h.ops
  sup := k.sup.trans h.sup

theorem of_eq (hps : t.ps = s.ps) (hmem : t.mem = s.mem) (hl : t.ledger = s.ledger) (ho : t.ops = s.ops)
    (hsup : t.sup = s.sup) : LinesWritten s t :=
  ⟨by rw [hps], by rw [hmem], hl, ho, hsup⟩

theorem nv (h : LinesWritten s t) : t.ps.nv = s.ps.nv := (congrArg PState.nv h.ps :)
theorem sram (h : LinesWritten s t) : t.mem.sram = s.mem.sram := (congrArg Memories.sram h.mem :)
theorem portQueue (h : LinesWritten s t) (mgmt : Bool) : t.portQueue mgmt = s.portQueue mgmt := by
  cases mgmt
  · exact (congrArg PState.ports h.ps :)
  · exact (congrArg PState.portsMgmt h.ps :)

/-- A fold of steps that each write lines. -/
theorem foldl {α : Type} {f : State → α → State} (hf : ∀ t x, LinesWritten t (f t x)) (l : List α) (s : State) :
    LinesWritten s (l.foldl f s) := by
  induction l generalizing s with
  | nil => exact refl s
  | cons x l ih => exact (hf s x).trans (ih (f s x))

/-- The same, where the fold counts its steps. -/
theorem foldl_counted {α : Type} {f : State × Nat → α → State × Nat} (hf : ∀ q x, LinesWritten q.1 (f q x).1) (l : List α)
    (q : State × Nat) : LinesWritten q.1 (l.foldl f q).1 := by
  induction l generalizing q with
  | nil => exact refl q.1
  | cons x l ih => exact (hf q x).trans (ih (f q x))

end LinesWritten

section
variable (s : State)

theorem spendInject_linesWritten (p : Nat) : LinesWritten s (s.spendInject p) := by
  unfold State.spendInject
  dsimp only
  split <;> exact .of_eq rfl rfl rfl rfl rfl

theorem bump_linesWritten (p n amt : Nat) : LinesWritten s (s.bump p n amt) :=
  .of_eq (State.bump_ps _ _ _ _) (State.bump_mem _ _ _ _) (State.bump_ledger _ _ _ _) (State.bump_ops _ _ _ _)
    (State.bump_sup _ _ _ _)

/-- The counts of written lines after `n` lines more into the block of an offset. -/
def writesAfter (off n : Nat) : Tbl Nat :=
  tblWrite zeroNat s.ps.budgets.writes (off / 0x100000) (tblRead zeroNat s.ps.budgets.writes (off / 0x100000) + n)

theorem countWrites_cases (off n : Nat) :
    let s1 := s.setPs { s.ps with budgets := { s.ps.budgets with writes := writesAfter s off n } }
    s.countWrites off n = s1 ∨ s.countWrites off n = s1.raise 0x160 3 [] := by
  unfold State.countWrites
  dsimp only
  split
  · exact .inr rfl
  · exact .inl rfl

theorem countWrites_ps (off n : Nat) :
    (s.countWrites off n).ps = { s.ps with budgets := { s.ps.budgets with writes := writesAfter s off n } } := by
  rcases countWrites_cases s off n with h | h <;> rw [h]
  · rfl
  · exact State.raise_ps _ _ _ _

@[simp] theorem countWrites_mem (off n : Nat) : (s.countWrites off n).mem = s.mem := by
  rcases countWrites_cases s off n with h | h <;> rw [h]
  · rfl
  · exact State.raise_mem _ _ _ _

theorem countWrites_linesWritten (off n : Nat) : LinesWritten s (s.countWrites off n) := by
  refine ⟨by rw [countWrites_ps], by rw [countWrites_mem], ?_, ?_, ?_⟩ <;>
    rcases countWrites_cases s off n with h | h <;> rw [h] <;> simp

/-- One line written, before an armed injection befalls it. -/
def lineStored (off : Nat) (bs : List Byte) : State :=
  ({ s with
    mem := { s.mem with mram := memStore s.mem.mram off bs, mramEcc := eccWrite s.mem.mramEcc 8 off bs.length }
    }.countWrites off 1).bw (86 + mramDie off) bs.length

theorem lineStored_linesWritten (off : Nat) (bs : List Byte) : LinesWritten s (lineStored s off bs) := by
  refine LinesWritten.trans (t := { s with
    mem := { s.mem with mram := memStore s.mem.mram off bs, mramEcc := eccWrite s.mem.mramEcc 8 off bs.length } }) ?_ ?_
  · exact ⟨rfl, rfl, rfl, rfl, rfl⟩
  · exact (countWrites_linesWritten _ off 1).trans (.of_eq rfl rfl rfl rfl rfl)

theorem lineStored_mram (off : Nat) (bs : List Byte) : (lineStored s off bs).mem.mram = memStore s.mem.mram off bs := by
  unfold lineStored
  exact congrArg Memories.mram (countWrites_mem _ off 1)

/-- The ECC state of one word of MRAM replaced. -/
def mramEccSet (w d : Nat) : State := { s with mem := { s.mem with mramEcc := tblWrite noEcc s.mem.mramEcc w d } }

theorem mramEccSet_linesWritten (w d : Nat) : LinesWritten s (mramEccSet s w d) := ⟨rfl, rfl, rfl, rfl, rfl⟩

theorem mramLine_cases (off : Nat) (bs : List Byte) :
    s.mramLine off bs = lineStored s off bs
      ∨ ∃ d, s.mramLine off bs = (mramEccSet (lineStored s off bs) (off / 8) d).spendInject 0x160 := by
  unfold State.mramLine
  extract_lets m s1
  split
  next d _ => exact .inr ⟨d, rfl⟩
  next => exact .inl rfl

theorem mramLine_linesWritten (off : Nat) (bs : List Byte) : LinesWritten s (s.mramLine off bs) := by
  have hline := lineStored_linesWritten s off bs
  rcases mramLine_cases s off bs with h | ⟨d, h⟩ <;> rw [h]
  · exact hline
  · exact (hline.trans (mramEccSet_linesWritten _ _ d)).trans (spendInject_linesWritten _ _)

theorem spendInject_mem (p : Nat) : (s.spendInject p).mem = s.mem := by
  unfold State.spendInject
  dsimp only
  split <;> rfl

theorem mramLine_mram (off : Nat) (bs : List Byte) : (s.mramLine off bs).mem.mram = memStore s.mem.mram off bs := by
  rcases mramLine_cases s off bs with h | ⟨d, h⟩ <;> rw [h]
  · exact lineStored_mram s off bs
  · rw [spendInject_mem]
    exact lineStored_mram s off bs

/-- Lines written one behind the other. -/
def mramLines (ls : List (List Byte)) (q : State × Nat) : State × Nat :=
  ls.foldl (fun (t : State × Nat) l => (t.1.mramLine t.2 l, t.2 + 64)) q

/-- The lines of a string, written one behind the other, leave the string in MRAM. -/
theorem mramLines_mram (k : Nat) (bs : List Byte) (q : State × Nat) (h : bs.length ≤ 64 * k) :
    (mramLines (linesOf k bs) q).1.mem.mram = memStore q.1.mem.mram q.2 bs := by
  induction k generalizing bs q with
  | zero =>
    obtain rfl : bs = [] := List.eq_nil_of_length_eq_zero (by omega)
    rfl
  | succ k ih =>
    cases bs with
    | nil => rfl
    | cons b bs =>
      have hcut : (b :: bs) = (b :: bs).take 64 ++ (b :: bs).drop 64 := (List.take_append_drop 64 _).symm
      have hrest : ((b :: bs).drop 64).length ≤ 64 * k := by simp only [List.length_drop]; omega
      refine (ih ((b :: bs).drop 64) (q.1.mramLine q.2 ((b :: bs).take 64), q.2 + 64) hrest).trans ?_
      rw [mramLine_mram]
      conv_rhs => rw [hcut, memStore_append]
      by_cases hlen : 64 ≤ (b :: bs).length
      · rw [List.length_take_of_le hlen]
      · rw [List.drop_of_length_le (Nat.le_of_not_le hlen)]
        rfl

theorem mramWrite_eq (cls off : Nat) (bs : List Byte) :
    s.mramWrite cls off bs =
      (mramLines (linesOf (bs.length / 64 + 1) bs) (s, off)).1.bump 0x160
        (if cls = 1 then 0 else if cls = 2 then 1 else 2) (linesOf (bs.length / 64 + 1) bs).length := rfl

/-- A string written into MRAM stands there, and every other byte is as it was. -/
theorem mramWrite_mram (cls off : Nat) (bs : List Byte) :
    (s.mramWrite cls off bs).mem.mram = memStore s.mem.mram off bs := by
  rw [mramWrite_eq, State.bump_mem]
  exact mramLines_mram _ bs (s, off) (by omega)

theorem mramWrite_linesWritten (cls off : Nat) (bs : List Byte) : LinesWritten s (s.mramWrite cls off bs) := by
  rw [mramWrite_eq]
  refine LinesWritten.trans ?_ (bump_linesWritten _ _ _ _)
  exact LinesWritten.foldl_counted (fun q l => mramLine_linesWritten q.1 q.2 l) _ (s, off)

theorem writePlace_linesWritten (cls : Nat) (pl : NvPlace) (bs : List Byte) : LinesWritten s (s.writePlace cls pl bs) := by
  cases pl with
  | offset a => exact mramWrite_linesWritten s cls a bs
  | chain p line =>
    refine LinesWritten.foldl_counted (fun q l => ?_) _ (s, line)
    dsimp only
    split
    next a _ => exact mramWrite_linesWritten q.1 cls a l
    next => exact .refl q.1

end

end Sys2Proof.Proofs

namespace Sys2Proof.Proofs
open Sys2Proof Sys2Proof.Machine Sys2Proof.Laws

/-! ## Marks (R365, R366) -/

section
variable {s : State}

theorem issueNext_of_waiting {r : NvRecord} {l : List NvRecord} (hf : s.ps.inFlight = none) (hw : s.ps.waiting = r :: l) :
    s.issueNext =
      (s.setPs
        { s.ps with
          waiting := l, inFlight := some (r, s.ps.nv.nextJseq), issued := s.ps.issued + 1,
          nv := { s.ps.nv with nextJseq := s.ps.nv.nextJseq + 1 } }).bump 0x160 4 1 := by
  unfold State.issueNext
  rw [hf, hw]

theorem issueNext_of_inFlight {q : NvRecord × DWord} (hf : s.ps.inFlight = some q) : s.issueNext = s := by
  unfold State.issueNext
  rw [hf]

theorem issueNext_of_idle (hw : s.ps.waiting = []) : s.issueNext = s := by
  unfold State.issueNext
  rw [hw]
  split
  next heq => cases heq
  next => rfl

theorem completeMark_of_idle (h : s.ps.inFlight = none) : s.completeMark = s := by
  unfold State.completeMark
  rw [h]

/-- A record whose mark completes: its bytes stand at its place and JOURNAL_SEQ has its JSEQ. -/
def recordLanded (s : State) (r : NvRecord) (j : DWord) : State :=
  let u := s.writePlace r.cls r.place (recordWith r.body j)
  (u.setPs { u.ps with inFlight := none, marked := u.ps.marked + 1, nv := { u.ps.nv with lastRecord := j } }).journalSeqIs j

theorem completeMark_of_inFlight {r : NvRecord} {j : DWord} (h : s.ps.inFlight = some (r, j)) :
    s.completeMark = ((recordLanded s r j).markEffect r.effect j).issueNext := by
  unfold State.completeMark
  rw [h]
  rfl

end

/-- The trailer of a record: its JSEQ, the CRC over what stands before it, and the MARK (R365). -/
theorem recordWith_trailer (body : List Byte) (j : DWord) :
    let b := recordWith body j
    b.length = body.length + 16 ∧ b.take body.length = body ∧ (b.drop body.length).take 8 = leBytes 8 j.toNat
      ∧ (b.drop (body.length + 8)).take 4 = leBytes 4 (crc32 (b.take (body.length + 8))).toNat
      ∧ b.drop (body.length + 12) = leBytes 4 (loWord j ^^^ 0xa5a5a5a5#32).toNat := by
  have hhead : (recordWith body j).take (body.length + 8) = body ++ leBytes 8 j.toNat := by
    rw [recordWith, List.append_assoc, List.take_left' (by simp)]
  have hparts : recordWith body j = body ++ (leBytes 8 j.toNat ++ (leBytes 4 (crc32 (body ++ leBytes 8 j.toNat)).toNat
      ++ leBytes 4 (loWord j ^^^ 0xa5a5a5a5#32).toNat)) := by
    simp only [recordWith, List.append_assoc]
  have hdrop : ∀ n, (recordWith body j).drop (body.length + n) =
      (leBytes 8 j.toNat ++ (leBytes 4 (crc32 (body ++ leBytes 8 j.toNat)).toNat
        ++ leBytes 4 (loWord j ^^^ 0xa5a5a5a5#32).toNat)).drop n := fun n => by
    rw [hparts, List.drop_append, List.drop_of_length_le (by omega), List.nil_append, Nat.add_sub_cancel_left]
  refine ⟨by simp [hparts], by rw [hparts, List.take_left' rfl], ?_, ?_, ?_⟩
  · rw [show body.length = body.length + 0 from rfl, hdrop 0]
    exact List.take_left' (leBytes_length 8 _)
  · rw [hdrop 8, hhead, List.drop_left' (leBytes_length 8 _)]
    exact List.take_left' (leBytes_length 4 _)
  · rw [hdrop 12, List.drop_append, List.drop_of_length_le (by simp), List.nil_append, leBytes_length,
      List.drop_left' (leBytes_length 4 _)]

/-! ## Commit ports (R369, R370) -/

section
variable {s : State} {mgmt : Bool}

@[simp] theorem portQueue_setPort (s : State) (mgmt : Bool) (l : List CpReq) : (s.setPort mgmt l).portQueue mgmt = l := by
  cases mgmt <;> rfl

@[simp] theorem setPort_nv (s : State) (mgmt : Bool) (l : List CpReq) : (s.setPort mgmt l).ps.nv = s.ps.nv := by
  cases mgmt <;> rfl

@[simp] theorem setPort_mem (s : State) (mgmt : Bool) (l : List CpReq) : (s.setPort mgmt l).mem = s.mem := by
  cases mgmt <;> rfl

@[simp] theorem setPort_ledger (s : State) (mgmt : Bool) (l : List CpReq) : (s.setPort mgmt l).ledger = s.ledger := by
  cases mgmt <;> rfl

theorem portQueue_congr {s t : State} (h : t.ps = s.ps) (mgmt : Bool) : t.portQueue mgmt = s.portQueue mgmt := by
  simp only [State.portQueue, h]

/-- A refused request leaves its port, and nothing of it but its code. -/
theorem cpRefused_eq (s : State) (mgmt : Bool) (code : Nat) :
    ∃ u : State, s.cpRefused mgmt code = u.raise 0x161 0 [] ∧ u.ps = (s.setPort mgmt (s.portQueue mgmt).tail).ps
      ∧ u.mem = s.mem := by
  unfold State.cpRefused
  extract_lets done num s1
  refine ⟨_, rfl, ?_, ?_⟩ <;> split <;> simp [s1, State.incReg, State.latch]

theorem cpRefused_portQueue (s : State) (mgmt : Bool) (code : Nat) :
    (s.cpRefused mgmt code).portQueue mgmt = (s.portQueue mgmt).tail := by
  obtain ⟨u, hu, hps, -⟩ := cpRefused_eq s mgmt code
  rw [hu, portQueue_congr ((State.raise_ps _ _ _ _).trans hps), portQueue_setPort]

theorem cpRefused_nv (s : State) (mgmt : Bool) (code : Nat) : (s.cpRefused mgmt code).ps.nv = s.ps.nv := by
  obtain ⟨u, hu, hps, -⟩ := cpRefused_eq s mgmt code
  rw [hu, State.raise_ps, hps, setPort_nv]

theorem cpRefused_mem (s : State) (mgmt : Bool) (code : Nat) : (s.cpRefused mgmt code).mem = s.mem := by
  obtain ⟨u, hu, -, hmem⟩ := cpRefused_eq s mgmt code
  rw [hu, State.raise_mem, hmem]

theorem cpCommand_of_full (cmd : Nat) (h : 8 ≤ (s.portQueue mgmt).length) :
    s.cpCommand mgmt cmd = (s.satReg 0x161 (cpReg mgmt Reg.commitPorts.cpRefused) 1).raise 0x161 0 [] := if_pos h

theorem servePort_of_quiet (h : s.portQueue mgmt = [] ∨ s.ps.startDone = false ∨ s.ps.stopped = true) :
    s.servePort mgmt = s := by
  unfold State.servePort State.servePortN
  split
  next => rfl
  next r l hq => exact if_pos (by simpa [hq] using h)

section
variable {r : CpReq} {l : List CpReq} (hq : s.portQueue mgmt = r :: l) (hd : s.ps.startDone = true)
  (hs : s.ps.stopped = false)
include hq hd hs

/-- The request at the head of a port that serves: refused with its code, handed over, or left to wait. -/
theorem servePort_of_head :
    s.servePort mgmt =
      if s.cpCode r ≠ 0 then (s.cpRefused mgmt (s.cpCode r)).servePortN mgmt 8
      else if r.cmd = 2 ∧ !r.submitted then
        let s1 := s.setPort mgmt ({ r with submitted := true } :: l)
        ((s1.setNv { s1.ps.nv with journalPos := s1.ps.nv.journalPos + 1 }).submit
          { cls := if mgmt then 4 else 2, place := .offset (mramJournal s1.ps.nv.journalPos),
            body := (memBytes s.mem.sram r.src 64).take 48, effect := .journalPort mgmt }).bw 85 64
      else s := by
  rw [State.servePort, State.servePortN, hq]
  exact if_neg (by simp [hd, hs])

end

end

/-! ### COMMIT_REQUEST_DONE (R370, R386) -/

section
variable {s : State} {mgmt : Bool}

theorem doCommitRequestDone_of_quiet
    (h : s.portQueue mgmt = [] ∨ s.ps.startDone = false ∨ (s.ps.stopped = true ∧ s.begunBefore mgmt = false)) :
    s.doCommitRequestDone mgmt = s := by
  unfold State.doCommitRequestDone
  split
  next => rfl
  next r l hq => exact if_pos (by simpa [hq] using h)

/-- The request at the head of a port that may complete: its journal entry's mark, or its lines. -/
theorem doCommitRequestDone_of_head {r : CpReq} {l : List CpReq} (hq : s.portQueue mgmt = r :: l)
    (hd : s.ps.startDone = true) (hb : s.ps.stopped = false ∨ s.begunBefore mgmt = true) :
    s.doCommitRequestDone mgmt =
      if r.cmd = 2 then
        (match s.ps.inFlight with
          | some (q, _) => if q.effect = .journalPort mgmt then s.doRecordMark else s
          | none => s)
      else
        let s1 := if s.cpCode r = 0 then s.userCommit mgmt r else s.cpRefused mgmt (s.cpCode r)
        let begun := if mgmt then (s1.ps.portBegun.1, false) else (false, s1.ps.portBegun.2)
        ((s1.setPs { s1.ps with portBegun := begun }).servePort mgmt).pfNext := by
  rw [State.doCommitRequestDone, hq]
  exact if_neg (by rcases hb with hb | hb <;> simp [hd, hb])

end

/-! ### The codes of R369 -/

/-- Can the bytes of a request be read from shared SRAM? -/
def srcReadable (s : State) (r : CpReq) (n : Nat) : Bool :=
  decide (r.src + n ≤ 0x2000000) && !(eccBad s.mem.sramEcc 16 r.src n)

theorem srcReadable_eq_false_iff (s : State) (r : CpReq) (n : Nat) :
    srcReadable s r n = false ↔ 0x2000000 < r.src + n ∨ eccBad s.mem.sramEcc 16 r.src n = true := by
  simp [srcReadable, imp_iff_not_or]

section
variable (s : State) {r : CpReq}

theorem cpCode_commit (h : r.cmd = 1) :
    s.cpCode r =
      if userLines < r.dst + r.lines then 1
      else if r.lines = 0 ∨ 1024 < r.lines then 2 else if srcReadable s r (64 * r.lines) then 0 else 3 := if_pos h

theorem cpCode_journal (h : r.cmd = 2) :
    s.cpCode r =
      if !(srcReadable s r 64) then 3
      else if (memByte s.mem.sram r.src).toNat = 0 ∨ 0x1f < (memByte s.mem.sram r.src).toNat then 4 else 0 :=
  if_neg (by omega)

theorem cpCode_commit_iff (h : r.cmd = 1) :
    (s.cpCode r = 1 ↔ userLines < r.dst + r.lines)
      ∧ (r.dst + r.lines ≤ userLines → (s.cpCode r = 2 ↔ r.lines = 0 ∨ 1024 < r.lines)
        ∧ (1 ≤ r.lines → r.lines ≤ 1024 → (s.cpCode r = 3 ↔ 0x2000000 < r.src + 64 * r.lines
          ∨ eccBad s.mem.sramEcc 16 r.src (64 * r.lines) = true))) := by
  rw [cpCode_commit s h, ← srcReadable_eq_false_iff]
  by_cases hu : userLines < r.dst + r.lines
  · simp [hu, Nat.not_le.mpr hu]
  by_cases hl : r.lines = 0 ∨ 1024 < r.lines
  · rw [if_neg hu, if_pos hl]
    exact ⟨by simp [hu], fun _ => ⟨by simp [hl], fun _ _ => by omega⟩⟩
  · cases hr : srcReadable s r (64 * r.lines) <;> simp [hu, hl]

theorem cpCode_journal_iff (h : r.cmd = 2) :
    (s.cpCode r = 3 ↔ 0x2000000 < r.src + 64 ∨ eccBad s.mem.sramEcc 16 r.src 64 = true)
      ∧ (r.src + 64 ≤ 0x2000000 → eccBad s.mem.sramEcc 16 r.src 64 = false →
        (s.cpCode r = 4 ↔ (memByte s.mem.sram r.src).toNat = 0 ∨ 0x1f < (memByte s.mem.sram r.src).toNat)) := by
  rw [cpCode_journal s h]
  cases hr : srcReadable s r 64 with
  | false =>
    have hbad := (srcReadable_eq_false_iff s r 64).mp hr
    refine ⟨by simp [hbad], fun hl he => ?_⟩
    simp [he] at hbad
    omega
  | true =>
    have hgood := mt (srcReadable_eq_false_iff s r 64).mpr (by simp [hr])
    by_cases hk : (memByte s.mem.sram r.src).toNat = 0 ∨ 0x1f < (memByte s.mem.sram r.src).toNat <;> simp [hk, hgood]

end

/-! ### The COMMIT written (R370) -/

section
variable (s : State)

theorem userLine_cases (cls src line : Nat) :
    s.userLine cls src line = (s.bw 85 64).bump 0x160 3 1 ∧ memBytes s.mem.mram (mramUser line) 64 = memBytes s.mem.sram src 64
      ∨ s.userLine cls src line = (s.bw 85 64).mramWrite cls (mramUser line) (memBytes s.mem.sram src 64) := by
  unfold State.userLine
  extract_lets bs off s1
  split
  next h => exact .inl ⟨rfl, h.1⟩
  next => exact .inr rfl

theorem userLine_linesWritten (cls src line : Nat) : LinesWritten s (s.userLine cls src line) := by
  have hbw : LinesWritten s (s.bw 85 64) := .of_eq rfl rfl rfl rfl rfl
  rcases userLine_cases s cls src line with ⟨h, -⟩ | h <;> rw [h]
  · exact hbw.trans (bump_linesWritten _ _ _ _)
  · exact hbw.trans (mramWrite_linesWritten _ _ _ _)

/-- A line of the user area holds its source line afterwards. -/
theorem userLine_same (cls src line : Nat) :
    memBytes (s.userLine cls src line).mem.mram (mramUser line) 64 = memBytes s.mem.sram src 64 := by
  rcases userLine_cases s cls src line with ⟨h, heq⟩ | h <;> rw [h]
  · rw [State.bump_mem]
    exact heq
  · have hsame := memBytes_store_same s.mem.mram (mramUser line) (memBytes s.mem.sram src 64)
    rw [memBytes_length] at hsame
    rw [mramWrite_mram]
    exact hsame

theorem userLine_other (cls src line : Nat) {x : Nat} (hx : x < mramUser line ∨ mramUser line + 64 ≤ x) :
    memByte (s.userLine cls src line).mem.mram x = memByte s.mem.mram x := by
  rcases userLine_cases s cls src line with ⟨h, -⟩ | h <;> rw [h]
  · rw [State.bump_mem]
    rfl
  · rw [mramWrite_mram]
    exact memByte_store_outside s.mem.mram _ x _ (by simpa using hx)

/-- The first `n` lines of a COMMIT written. -/
def commitLines (cls : Nat) (r : CpReq) (n : Nat) : State :=
  (List.range n).foldl (fun t i => t.userLine cls (r.src + 64 * i) (r.dst + i)) s

theorem commitLines_succ (cls : Nat) (r : CpReq) (n : Nat) :
    commitLines s cls r (n + 1) = (commitLines s cls r n).userLine cls (r.src + 64 * n) (r.dst + n) := by
  simp only [commitLines, List.range_succ, List.foldl_append, List.foldl_cons, List.foldl_nil]

theorem commitLines_linesWritten (cls : Nat) (r : CpReq) (n : Nat) : LinesWritten s (commitLines s cls r n) :=
  LinesWritten.foldl (fun t _ => userLine_linesWritten t cls _ _) _ s

theorem commitLines_outside (cls : Nat) (r : CpReq) (n : Nat) {x : Nat}
    (hx : x < mramUser r.dst ∨ mramUser (r.dst + n) ≤ x) :
    memByte (commitLines s cls r n).mem.mram x = memByte s.mem.mram x := by
  induction n with
  | zero => rfl
  | succ n ih =>
    simp only [mramUser] at hx ih
    rw [commitLines_succ, userLine_other _ _ _ _ (by simp only [mramUser]; omega), ih (by omega)]

theorem commitLines_inside (cls : Nat) (r : CpReq) {n i : Nat} (hi : i < n) :
    memBytes (commitLines s cls r n).mem.mram (mramUser (r.dst + i)) 64 = memBytes s.mem.sram (r.src + 64 * i) 64 := by
  induction n with
  | zero => omega
  | succ n ih =>
    rw [commitLines_succ]
    by_cases h : i < n
    · refine (memBytes_congr fun x hl hh => ?_).trans (ih h)
      exact userLine_other _ _ _ _ (by simp only [mramUser] at hh ⊢; omega)
    · obtain rfl : i = n := by omega
      rw [userLine_same, (commitLines_linesWritten s cls r i).sram]

/-- A COMMIT completed: its lines written, then its JSEQ given and its port served of it. -/
theorem userCommit_eq (mgmt : Bool) (r : CpReq) :
    let u := commitLines s (if mgmt then 4 else 2) r r.lines
    s.userCommit mgmt r =
      ((u.setNv { u.ps.nv with nextJseq := u.ps.nv.nextJseq + 1 }).journalSeqIs u.ps.nv.nextJseq).cpDone mgmt
        u.ps.nv.nextJseq := rfl

theorem cpDone_lastJseq (mgmt : Bool) (j : DWord) :
    (s.cpDone mgmt j).reg64 0x161 (cpReg mgmt Reg.commitPorts.cpLastJseqLo) = j := reg64_setReg64_same _ _ _ _

theorem cpDone_ps (mgmt : Bool) (j : DWord) : (s.cpDone mgmt j).ps = (s.setPort mgmt (s.portQueue mgmt).tail).ps := rfl

theorem cpDone_mem (mgmt : Bool) (j : DWord) : (s.cpDone mgmt j).mem = s.mem := setPort_mem s mgmt _

theorem cpDone_ledger (mgmt : Bool) (j : DWord) : (s.cpDone mgmt j).ledger = s.ledger := setPort_ledger s mgmt _

end

/-- Settles O50: the mark by the record in flight, the ports by the request at the head, the COMMIT by its lines. -/
theorem marksComeInOrderAndPortsServeTheirRequests : Obligations.MarksComeInOrderAndPortsServeTheirRequests := by
  unfold Obligations.MarksComeInOrderAndPortsServeTheirRequests
  refine ⟨?marks, recordWith_trailer, ?writes, ?accepts, ?serves, ?codes, ?done, ?commits⟩
  case marks =>
    intro s
    refine ⟨fun h => ?_, fun r j h => ⟨rfl, ?_⟩, fun r l hf hw => issueNext_of_waiting hf hw,
      fun q hf => issueNext_of_inFlight hf⟩
    · exact next_congr (congrArg (fun t : State => ((t.servePort false).servePort true).pfNext) (completeMark_of_idle h))
    · exact next_congr
        (congrArg (fun t : State => ((t.servePort false).servePort true).pfNext) (completeMark_of_inFlight h))
  case writes =>
    intro s cls a bs
    rw [mramWrite_mram]
    exact ⟨memBytes_store_same _ a bs, fun x hx => memByte_store_outside _ a x bs hx⟩
  case accepts =>
    intro m mgmt s hm r taken
    refine ⟨fun h => ⟨next_written hm (if_neg (Nat.not_le.mpr h)), next_written hm (if_neg (Nat.not_le.mpr h))⟩,
      fun h => ⟨next_written hm (cpCommand_of_full 1 h), next_written hm (cpCommand_of_full 2 h)⟩⟩
  case serves =>
    intro mgmt s
    refine ⟨servePort_of_quiet, fun r l hq hd hs => ⟨fun h0 h1 => ?_, fun h => ⟨?_, ?_, cpRefused_nv s mgmt _,
      cpRefused_mem s mgmt _⟩, fun h0 h2 hsub => ?_⟩⟩
    · rw [servePort_of_head hq hd hs, if_neg (not_not_intro h0), if_neg (by simp [h1])]
    · rw [servePort_of_head hq hd hs, if_pos h]
    · rw [cpRefused_portQueue, hq]
      rfl
    · rw [servePort_of_head hq hd hs, if_neg (not_not_intro h0), if_pos ⟨h2, by simp [hsub]⟩]
  case codes =>
    exact fun r s => ⟨cpCode_commit_iff s, cpCode_journal_iff s⟩
  case done =>
    intro mgmt s
    refine ⟨fun h => next_congr (doCommitRequestDone_of_quiet h), fun r l hq hd hb => ⟨fun h2 => ⟨fun q j hf he => ?_,
      fun hf => ?_⟩, fun h1 => ?_⟩⟩
    · refine next_congr ((doCommitRequestDone_of_head hq hd hb).trans ((if_pos h2).trans ?_))
      rw [hf]
      exact if_pos he
    · refine next_congr ((doCommitRequestDone_of_head hq hd hb).trans ((if_pos h2).trans ?_))
      rw [hf]
    · exact next_congr ((doCommitRequestDone_of_head hq hd hb).trans (if_neg (by omega)))
  case commits =>
    intro mgmt r s t
    have hlines := commitLines_linesWritten s (if mgmt then 4 else 2) r r.lines
    have hnv := hlines.nv
    have ht : t = _ := userCommit_eq s mgmt r
    refine ⟨?_, ?_, ?_, ?_, ?_, fun i hi => ?_, fun x hx => ?_⟩ <;> rw [ht]
    · rw [cpDone_ledger, hnv]
      rfl
    · rw [cpDone_lastJseq, hnv]
    · rw [cpDone_ps, setPort_nv]
      exact congrArg (fun n : Nv => { n with nextJseq := n.nextJseq + 1 }) hnv
    · rw [portQueue_congr (cpDone_ps _ _ _), portQueue_setPort]
      exact congrArg List.tail (hlines.portQueue mgmt)
    · rw [cpDone_mem]
      exact hlines.sram
    · rw [cpDone_mem]
      exact commitLines_inside s _ r hi
    · rw [cpDone_mem]
      exact commitLines_outside s _ r r.lines hx

end Sys2Proof.Proofs

namespace Sys2Proof.Proofs
open Sys2Proof Sys2Proof.Machine Sys2Proof.Laws

/-! ## Tables changed entry by entry -/

section
variable {α : Type} [DecidableEq α]

/-- The keys of a canonical table lie at or above its bound. -/
theorem le_key_of_tblWfFrom (d : Nat → α) {t : Tbl α} {lo k : Nat} (h : tblWfFrom d lo t = true)
    (hk : k ∈ t.map Prod.fst) : lo ≤ k := by
  induction t generalizing lo with
  | nil => cases hk
  | cons e t ih =>
    obtain ⟨j, v⟩ := e
    simp only [tblWfFrom, Bool.and_eq_true, decide_eq_true_eq] at h
    rcases List.mem_cons.mp hk with rfl | hk
    · exact h.1.1
    · have := ih h.2 hk
      omega

/-- Every value of a table changed by a function, on top of another table. -/
def tblOver (d : Nat → α) (f : α → α) (t u : Tbl α) : Tbl α := t.foldl (fun u e => tblWrite d u e.1 (f e.2)) u

theorem tblRead_over_unlisted (d : Nat → α) (f : α → α) {t : Tbl α} {k : Nat} (hk : k ∉ t.map Prod.fst) (u : Tbl α) :
    tblRead d (tblOver d f t u) k = tblRead d u k := by
  induction t generalizing u with
  | nil => rfl
  | cons e t ih =>
    obtain ⟨he, ht⟩ := not_or.mp (mt List.mem_cons.mpr hk)
    exact (ih ht _).trans (tblRead_write_other d u e.1 k _ he)

theorem tblRead_over_listed (d d' : Nat → α) (f : α → α) {t : Tbl α} {lo k : Nat} (h : tblWfFrom d lo t = true)
    (hk : k ∈ t.map Prod.fst) (u : Tbl α) : tblRead d' (tblOver d' f t u) k = f (tblRead d t k) := by
  induction t generalizing u lo with
  | nil => cases hk
  | cons e t ih =>
    obtain ⟨j, v⟩ := e
    simp only [tblWfFrom, Bool.and_eq_true] at h
    by_cases hj : j = k
    · subst hj
      have hrest : j ∉ t.map Prod.fst := fun hm => by
        have := le_key_of_tblWfFrom d h.2 hm
        omega
      refine (tblRead_over_unlisted d' f hrest _).trans ((tblRead_write_same d' u j _).trans ?_)
      simp [tblRead]
    · have hrest : k ∈ t.map Prod.fst := (List.mem_cons.mp hk).resolve_left fun e => hj e.symm
      refine (ih h.2 hrest _).trans ?_
      simp [tblRead, hj]

end

/-- A word that is not dropped from an ECC map for a single error reads uncorrectable as before. -/
theorem tblRead_filter_uncorrectable (p : Nat × Nat → Bool) (hp : ∀ e : Nat × Nat, e.2 ≠ 1 → p e = true) (t : EccMap)
    {w : Nat} (h : tblRead noEcc t w = 2) : tblRead noEcc (t.filter p) w = 2 := by
  induction t with
  | nil => exact h
  | cons e t ih =>
    obtain ⟨k, v⟩ := e
    by_cases hk : k = w
    · obtain rfl : v = 2 := by simpa [tblRead, hk] using h
      rw [List.filter_cons_of_pos (hp _ (by simp))]
      simp [tblRead, hk]
    · have ht : tblRead noEcc t w = 2 := by simpa [tblRead, hk] using h
      cases hpe : p (k, v) with
      | true =>
        rw [List.filter_cons_of_pos hpe]
        simpa [tblRead, hk] using ih ht
      | false =>
        rw [List.filter_cons_of_neg (by simp [hpe])]
        exact ih ht

/-! ## Charges (R377, R378, R380) -/

/-- The budgets of a canonical table are changed one by one. -/
theorem mapAll_of (b : Budgets) (f : Nat → Nat) (h : tblWf (fun _ => b.common) b.own = true) (n : Nat) :
    (b.mapAll f).of n = f (b.of n) := by
  by_cases hn : n ∈ b.own.map Prod.fst
  · exact tblRead_over_listed _ (fun _ => f b.common) f h hn []
  · refine (tblRead_over_unlisted (fun _ => f b.common) f hn []).trans ?_
    exact congrArg f (tblRead_of_unlisted (fun _ => b.common) hn).symm

/-- The budgets that a charge by `f` leaves. -/
def chargedBudgets (s : State) (f : Nat → Nat) : Budgets := s.ps.budgets.mapAll fun n => min (f n) fullBudget

/-- Does a charge by `f` use up the retention of a block? -/
def chargeFills (s : State) (f : Nat → Nat) : Bool :=
  (List.range 496).any fun n => decide (s.ps.budgets.of n < fullBudget) && (chargedBudgets s f).of n == fullBudget

theorem setBudgets_eq (s : State) (f : Nat → Nat) :
    s.setBudgets f =
      if chargeFills s f then (s.setPs { s.ps with budgets := chargedBudgets s f }).raise 0x160 2 []
      else s.setPs { s.ps with budgets := chargedBudgets s f } := rfl

theorem setBudgets_ps (s : State) (f : Nat → Nat) : (s.setBudgets f).ps = { s.ps with budgets := chargedBudgets s f } := by
  rw [setBudgets_eq]
  split
  · exact State.raise_ps _ _ _ _
  · rfl

theorem setBudgets_mem (s : State) (f : Nat → Nat) : (s.setBudgets f).mem = s.mem := by
  rw [setBudgets_eq]
  split
  · exact State.raise_mem _ _ _ _
  · rfl

section
variable {s : State} (hwf : tblWf (fun _ => s.ps.budgets.common) s.ps.budgets.own = true) (f : Nat → Nat)
include hwf

theorem setBudgets_of (n : Nat) : (s.setBudgets f).ps.budgets.of n = min (f (s.ps.budgets.of n)) fullBudget := by
  rw [setBudgets_ps]
  exact mapAll_of s.ps.budgets _ hwf n

theorem chargeFills_iff :
    chargeFills s f = true ↔ ∃ n, n < 496 ∧ s.ps.budgets.of n < fullBudget ∧ fullBudget ≤ f (s.ps.budgets.of n) := by
  simp only [chargeFills, List.any_eq_true, List.mem_range, Bool.and_eq_true, decide_eq_true_eq, beq_iff_eq, chargedBudgets,
    mapAll_of s.ps.budgets _ hwf, min_eq_right_iff]

end

/-! ## The off interval (R378) -/

section
variable {s : State}

/-- The newest power-fail record was written periodically, not at a warning. -/
def powerFailMissed (s : State) : Bool := match s.ps.nv.powerFail with | some (_, c) => c == 1 | none => false

/-- The seconds that OFF_TIME_ASSUMED names; its largest value is the worst case. -/
def assumedSeconds (s : State) : Option Nat :=
  if s.ps.offAssumed = 0xffffffff#32 then none else some s.ps.offAssumed.toNat

theorem assumeOff_eq (s : State) :
    s.assumeOff =
      ((if powerFailMissed s then s.raise 0x160 5 [] else s).raise 0x160 4 []).offCharge
        (if powerFailMissed s then 3 else 2) (assumedSeconds s) := by
  have hsecs : assumedSeconds s =
      if s.ps.offAssumed.toNat = 0xffffffff then none else some s.ps.offAssumed.toNat :=
    if_congr (BitVec.toNat_inj (y := 0xffffffff#32)).symm rfl rfl
  rw [hsecs]
  rfl

theorem powerFailMissed_of_periodic (h : ∃ ntOff, s.ps.nv.powerFail = some (ntOff, 1)) : powerFailMissed s = true := by
  obtain ⟨ntOff, h⟩ := h
  simp [powerFailMissed, h]

theorem powerFailMissed_of_not_periodic (h : ∀ ntOff, s.ps.nv.powerFail ≠ some (ntOff, 1)) : powerFailMissed s = false := by
  unfold powerFailMissed
  split
  next ntOff c hpf =>
    refine beq_eq_false_iff_ne.mpr ?_
    rintro rfl
    exact h ntOff hpf
  next => rfl

/-- The time off power, by NT now and at the power-fail record, less the time since power good. -/
def offNanoseconds (s : State) (ntOff : DWord) : Int := s.time.nt.toNat - ntOff.toNat - 4 * s.time.lt.toNat

theorem doOffTimeCharge_of_not_due (h : s.ps.offSource ≠ 0 ∨ s.time.ntValid = false) : s.doOffTimeCharge = s :=
  if_pos (by simpa using h)

section
variable (ho : s.ps.offSource = 0) (hv : s.time.ntValid = true)
include ho hv

theorem doOffTimeCharge_of_no_record (h : s.ps.nv.powerFail = none) : s.doOffTimeCharge = s.assumeOff := by
  refine (if_neg (by simp [ho, hv])).trans ?_
  rw [h]

theorem doOffTimeCharge_of_record {ntOff : DWord} {cause : Nat} (h : s.ps.nv.powerFail = some (ntOff, cause)) :
    s.doOffTimeCharge =
      if cause = 1 ∨ ntOff = 0#64 ∨ offNanoseconds s ntOff < 0 then s.assumeOff
      else s.offCharge 1 (some ((offNanoseconds s ntOff).toNat / 10 ^ 9)) := by
  refine (if_neg (by simp [ho, hv])).trans ?_
  rw [h]
  rfl

end

/-- The off interval entered in its register and its source kept, before the budgets are charged. -/
def offEntered (s : State) (source : Nat) (w : Word) : State :=
  (s.setPs { s.ps with offSource := source }).setReg 0x160 Reg.pstate.offInterval w

theorem offCharge_some (s : State) (source n : Nat) :
    s.offCharge source (some n) =
      (offEntered s source (BitVec.ofNat 32 (min n 0xffffffff))).setBudgets fun b => b + Config.retentionCharge s.offTemp n :=
  rfl

theorem offCharge_none (s : State) (source : Nat) :
    s.offCharge source none = (offEntered s source 0xffffffff#32).setBudgets fun b => max b (2 ^ 63) := rfl

end

/-! ## Refreshes (R380) -/

/-- The block that a fold over blocks finds: as high as the one that it starts from and as all it visits. -/
theorem foldl_highest (b : Budgets) (l : List Nat) (m : Nat) :
    let r := l.foldl (fun m n => if b.of m < b.of n then n else m) m
    b.of m ≤ b.of r ∧ (∀ n ∈ l, b.of n ≤ b.of r) ∧ (r = m ∨ r ∈ l) := by
  induction l generalizing m with
  | nil => simp
  | cons k l ih =>
    simp only [List.foldl_cons, List.mem_cons, forall_eq_or_imp]
    by_cases h : b.of m < b.of k
    · obtain ⟨hk, hl, hr⟩ := ih k
      rw [if_pos h]
      exact ⟨h.le.trans hk, ⟨hk, hl⟩, .inr hr⟩
    · obtain ⟨hm, hl, hr⟩ := ih m
      rw [if_neg h]
      exact ⟨hm, ⟨(Nat.not_lt.mp h).trans hm, hl⟩, hr.imp_right .inr⟩

/-- The highest budget is that of a block, and none is higher. -/
theorem highest_spec (b : Budgets) : b.highest < 496 ∧ ∀ n, n < 496 → b.of n ≤ b.of b.highest := by
  obtain ⟨-, hl, hr⟩ := foldl_highest b (List.range 496) 0
  refine ⟨?_, fun n hn => hl n (List.mem_range.mpr hn)⟩
  rcases hr with hr | hr
  · exact (congrArg (· < 496) hr).mpr (by decide)
  · exact List.mem_range.mp hr

/-- The single errors of block `n` corrected by its refresh. -/
def refreshEcc (s : State) (n : Nat) : EccMap := s.mem.mramEcc.filter fun e => !(e.2 == 1 && e.1 / 0x20000 == n)

/-- The lines of block `n` counted as written by its refresh. -/
def refreshWritten (s : State) (n : Nat) : State :=
  ({ s with mem := { s.mem with mramEcc := refreshEcc s n } }.countWrites (n * 0x100000) 16384).bump 0x160 5 16384

/-- The budgets that a refresh of block `n` leaves. -/
def refreshedBudgets (s : State) (n : Nat) : Budgets :=
  { s.ps.budgets with
    own := tblWrite (fun _ => s.ps.budgets.common) s.ps.budgets.own n 0,
    refreshes := bumpBlock s.ps.budgets.refreshes n 1,
    refreshNt := tblWrite zeroDword s.ps.budgets.refreshNt n (BitVec.ofNat 64 s.ntStamp) }

theorem doRefresh_of_not_due {s : State}
    (h : s.ps.stopped = true ∨ s.ps.budgets.of s.ps.budgets.highest < 2 ^ 63) : s.doRefresh = s := if_pos h

theorem refreshWritten_ps (s : State) (n : Nat) :
    (refreshWritten s n).ps =
      { s.ps with budgets := { s.ps.budgets with writes := bumpBlock s.ps.budgets.writes n 16384 } } := by
  have hblock : n * 0x100000 / 0x100000 = n := Nat.mul_div_cancel n (by decide)
  rw [refreshWritten, State.bump_ps, countWrites_ps, writesAfter, hblock]
  rfl

theorem refreshWritten_mem (s : State) (n : Nat) :
    (refreshWritten s n).mem = { s.mem with mramEcc := refreshEcc s n } := by
  rw [refreshWritten, State.bump_mem, countWrites_mem]

/-- The state after the refresh of block `n`. -/
def refreshed (s : State) (n : Nat) : State :=
  ((refreshWritten s n).setPs
    { (refreshWritten s n).ps with
      budgets := { refreshedBudgets s n with writes := (refreshWritten s n).ps.budgets.writes } }).satReg 0x160
    Reg.pstate.refreshes 1

theorem doRefresh_of_due {s : State} (hs : s.ps.stopped = false) (hb : 2 ^ 63 ≤ s.ps.budgets.of s.ps.budgets.highest) :
    s.doRefresh = refreshed s s.ps.budgets.highest :=
  if_neg (by simp only [hs, Bool.false_eq_true, false_or]; exact Nat.not_lt.mpr hb)

theorem refreshed_ps (s : State) (n : Nat) :
    (refreshed s n).ps =
      { s.ps with budgets := { refreshedBudgets s n with writes := bumpBlock s.ps.budgets.writes n 16384 } } := by
  have h : (refreshed s n).ps =
      { (refreshWritten s n).ps with
        budgets := { refreshedBudgets s n with writes := (refreshWritten s n).ps.budgets.writes } } := rfl
  rw [h, refreshWritten_ps]

theorem refreshed_mem (s : State) (n : Nat) : (refreshed s n).mem = { s.mem with mramEcc := refreshEcc s n } := by
  rw [refreshed, State.satReg_mem, State.setPs_mem, refreshWritten_mem]

/-! ## Scrubs (R364, R381) -/

/-- From `s` to `t` a scrub went on: the bytes of MRAM and the budgets stay. -/
structure Scrubbed (s t : State) : Prop where
  mram : t.mem.mram = s.mem.mram
  common : t.ps.budgets.common = s.ps.budgets.common
  own : t.ps.budgets.own = s.ps.budgets.own

namespace Scrubbed

variable {s t u : State}

theorem refl (s : State) : Scrubbed s s := ⟨rfl, rfl, rfl⟩

theorem trans (h : Scrubbed s t) (k : Scrubbed t u) : Scrubbed s u :=
  ⟨k.mram.trans h.mram, k.common.trans h.common, k.own.trans h.own⟩

theorem of_eq (hb : t.ps.budgets = s.ps.budgets) (hm : t.mem.mram = s.mem.mram) : Scrubbed s t :=
  ⟨hm, by rw [hb], by rw [hb]⟩

theorem bump (s : State) (p n k : Nat) : Scrubbed s (s.bump p n k) :=
  .of_eq (by rw [State.bump_ps]) (by rw [State.bump_mem])

theorem raise (s : State) (p bit : Nat) (detail : List Word) : Scrubbed s (s.raise p bit detail) :=
  .of_eq (by rw [State.raise_ps]) (by rw [State.raise_mem])

theorem countWrites (s : State) (off n : Nat) : Scrubbed s (s.countWrites off n) :=
  ⟨by rw [countWrites_mem], by rw [countWrites_ps], by rw [countWrites_ps]⟩

theorem setNv (s : State) (nv : Nv) : Scrubbed s (s.setNv nv) := .of_eq rfl rfl

theorem satReg (s : State) (p r k : Nat) : Scrubbed s (s.satReg p r k) := .of_eq rfl rfl

theorem recAdd (s : State) (off k : Nat) : Scrubbed s (s.recAdd off k) := .of_eq rfl rfl

theorem foldl {α : Type} {f : State → α → State} (hf : ∀ t x, Scrubbed t (f t x)) (l : List α) (s : State) :
    Scrubbed s (l.foldl f s) := by
  induction l generalizing s with
  | nil => exact refl s
  | cons x l ih => exact (hf s x).trans (ih (f s x))

end Scrubbed

section
variable (s : State)

/-- A line remapped to the next spare line of its die, and counted. -/
def remapped (off : Nat) : State :=
  ((s.setNv { s.ps.nv with spareUsed := bumpBlock s.ps.nv.spareUsed (mramDie off) 1 }).countWrites off 1).bump 0x160 7 1

theorem remap_of_none_free {off : Nat} (h : s.spareFree (mramDie off) = 0) : s.remap off = s := if_pos h

theorem remap_cases {off : Nat} (h : s.spareFree (mramDie off) ≠ 0) :
    s.remap off = remapped s off ∨ s.remap off = (remapped s off).raise 0x160 1 [] := by
  refine (em ((remapped s off).spareFree (mramDie off) < 1024 ∧ 1024 ≤ s.spareFree (mramDie off))).symm.imp
    (fun hw => ?_) (fun hw => ?_)
  · exact (if_neg h).trans (if_neg hw)
  · exact (if_neg h).trans (if_pos hw)

theorem remap_scrubbed (off : Nat) : Scrubbed s (s.remap off) := by
  by_cases h : s.spareFree (mramDie off) = 0
  · rw [remap_of_none_free s h]
    exact .refl s
  · have hstep : Scrubbed s (remapped s off) :=
      ((Scrubbed.setNv s _).trans (.countWrites _ off 1)).trans (.bump _ _ _ _)
    rcases remap_cases s h with e | e <;> rw [e]
    · exact hstep
    · exact hstep.trans (.raise _ _ _ _)

theorem remapped_spareUsed (off : Nat) :
    (remapped s off).ps.nv.spareUsed = bumpBlock s.ps.nv.spareUsed (mramDie off) 1 := by
  rw [remapped, State.bump_ps, countWrites_ps]
  rfl

theorem remap_spareUsed {off : Nat} (h : s.spareFree (mramDie off) ≠ 0) :
    (s.remap off).ps.nv.spareUsed = bumpBlock s.ps.nv.spareUsed (mramDie off) 1 := by
  rcases remap_cases s h with e | e <;> rw [e]
  · exact remapped_spareUsed s off
  · rw [State.raise_ps]
    exact remapped_spareUsed s off

theorem mramCorrected_scrubbed (w : Nat) : Scrubbed s (s.mramCorrected w) :=
  ((Scrubbed.satReg s 0x160 Reg.pstate.corrected 1).trans (.bump _ 0x160 8 1)).trans (.recAdd _ _ _)

theorem mramBad_scrubbed : Scrubbed s s.mramBad :=
  ((Scrubbed.satReg s 0x160 Reg.pstate.uncorrectable 1).trans (.bump _ 0x160 9 1)).trans (.raise _ 0x160 0 [])

/-- The line of a corrected word rewritten. -/
def singleRewritten (w : Nat) : State :=
  ({ s.mramCorrected w with mem := { s.mem with mramEcc := tblErase s.mem.mramEcc w } }).countWrites (w / 8 * 64) 1

theorem singleRewritten_scrubbed (w : Nat) : Scrubbed s (singleRewritten s w) := by
  have hcorrected := mramCorrected_scrubbed s w
  have hmid : Scrubbed s { s.mramCorrected w with mem := { s.mem with mramEcc := tblErase s.mem.mramEcc w } } :=
    ⟨rfl, hcorrected.common, hcorrected.own⟩
  exact hmid.trans (.countWrites _ _ _)

theorem scrubSingle_scrubbed (again : Bool) (w : Nat) : Scrubbed s (s.scrubSingle again w) := by
  cases again
  · exact singleRewritten_scrubbed s w
  · exact (singleRewritten_scrubbed s w).trans (remap_scrubbed _ _)

/-- A pass over an ECC map begun: all lines of the addressable blocks are counted as read. -/
def scrubBegun (ecc : EccMap) : State := { s with mem := { s.mem with mramEcc := ecc } }.bump 0x160 6 (496 * 0x100000 / 64)

theorem scrubBegun_scrubbed (ecc : EccMap) : Scrubbed s (scrubBegun s ecc) := by
  unfold scrubBegun
  exact .of_eq (by rw [State.bump_ps]) (by rw [State.bump_mem])

/-- The pass over the words of an ECC map: single errors are rewritten, then uncorrectable words remapped. -/
def scrubPass (ecc : EccMap) (again : Bool) : State :=
  (ecc.filter fun e => e.2 == 2).foldl (fun t e => (t.mramBad).remap (e.1 / 8 * 64))
    ((ecc.filter fun e => e.2 == 1).foldl (fun t e => t.scrubSingle again e.1) s)

theorem scrubPass_scrubbed (ecc : EccMap) (again : Bool) : Scrubbed s (scrubPass s ecc again) := by
  have hsingles := Scrubbed.foldl (fun t (e : Nat × Nat) => scrubSingle_scrubbed t again e.1) (ecc.filter fun e => e.2 == 1) s
  refine hsingles.trans (Scrubbed.foldl (f := fun t (e : Nat × Nat) => t.mramBad.remap (e.1 / 8 * 64)) (fun t e => ?_) _ _)
  exact (mramBad_scrubbed t).trans (remap_scrubbed _ _)

theorem doMramScrub_of_running (u : Option Upset) (again : Bool) (h : s.ps.stopped = false) :
    s.doMramScrub u again = scrubPass (scrubBegun s (eccUpset s.mem.mramEcc u)) (eccUpset s.mem.mramEcc u) again := by
  unfold State.doMramScrub scrubPass scrubBegun
  rw [if_neg (by rw [h]; exact Bool.false_ne_true)]

end

/-- Settles O51: the charges by the table of budgets, the refresh by the highest one, the scrub word by word. -/
theorem retentionChargesRefreshesAndScrubs : Obligations.RetentionChargesRefreshesAndScrubs := by
  unfold Obligations.RetentionChargesRefreshesAndScrubs
  refine ⟨?charge, ?second, ?offTime, ?assumed, ?offCharged, ?table, ?refresh, ?scrub, ?spares⟩
  case charge =>
    intro f s hwf
    dsimp only
    refine ⟨setBudgets_of hwf f, setBudgets_mem s f, ?_, ?_, fun h => ?_, fun h => ?_⟩
    · exact (congrArg (fun p : PState => p.budgets.writes) (setBudgets_ps s f) :)
    · exact (congrArg PState.nv (setBudgets_ps s f) :)
    · exact (setBudgets_eq s f).trans (if_pos ((chargeFills_iff hwf f).mpr h))
    · refine (setBudgets_eq s f).trans (if_neg fun hf => ?_)
      obtain ⟨n, hn, hlt, hle⟩ := (chargeFills_iff hwf f).mp hf
      exact absurd (h n hn hlt) (Nat.not_lt.mpr hle)
  case second =>
    exact fun milliC s hwf => ⟨_, rfl, rfl, setBudgets_of hwf _⟩
  case offTime =>
    intro s
    refine ⟨fun h => next_congr (doOffTimeCharge_of_not_due h), fun h => next_congr (if_neg h), fun h => next_congr (if_pos h),
      fun ho hv => ⟨fun h => next_congr (doOffTimeCharge_of_no_record ho hv h), fun ntOff cause h => ⟨fun hc => ?_,
        fun hc hn hns => ?_⟩⟩⟩
    · exact next_congr ((doOffTimeCharge_of_record ho hv h).trans (if_pos hc))
    · exact next_congr ((doOffTimeCharge_of_record ho hv h).trans
        (if_neg fun hor => hor.elim hc fun hor => hor.elim hn (Int.not_lt.mpr hns)))
  case assumed =>
    intro s secs
    refine ⟨fun h => (assumeOff_eq s).trans ?_, fun h => (assumeOff_eq s).trans ?_⟩
    · rw [powerFailMissed_of_periodic h]
      rfl
    · rw [powerFailMissed_of_not_periodic h]
      rfl
  case offCharged =>
    intro src s hwf
    refine ⟨fun n => ⟨?_, fun b => ?_⟩, ?_, fun b => ?_⟩
    · rw [offCharge_some, setBudgets_ps]
      rfl
    · rw [offCharge_some]
      exact setBudgets_of (s := offEntered s src _) hwf _ b
    · rw [offCharge_none, setBudgets_ps]
      rfl
    · rw [offCharge_none, setBudgets_of (s := offEntered s src _) hwf]
      have hsame : (offEntered s src 0xffffffff#32).ps.budgets.of b = s.ps.budgets.of b := rfl
      rw [hsame, fullBudget]
      omega
  case table =>
    exact fun s => ⟨fun h => next_congr (if_pos h), fun h => next_congr (if_neg (Bool.eq_false_iff.mp h))⟩
  case refresh =>
    intro s
    dsimp only
    generalize hn : s.ps.budgets.highest = n
    obtain ⟨hlt, hhigh⟩ := highest_spec s.ps.budgets
    rw [hn] at hlt hhigh
    refine ⟨hhigh, hlt, fun h => next_congr (doRefresh_of_not_due (hn ▸ h)),
      fun hs hb => ⟨refreshed s n, next_congr ((doRefresh_of_due hs (hn ▸ hb)).trans (congrArg _ hn)), ?_⟩⟩
    rw [refreshed_ps, refreshed_mem]
    refine ⟨?_, fun b hbn => ?_, ?_, ?_, ?_, rfl, rfl, fun w hw _ => ?_⟩
    · exact tblRead_write_same (fun _ => s.ps.budgets.common) s.ps.budgets.own n 0
    · exact tblRead_write_other (fun _ => s.ps.budgets.common) s.ps.budgets.own n b 0 hbn
    · exact tblRead_write_same zeroNat s.ps.budgets.refreshes n (tblRead zeroNat s.ps.budgets.refreshes n + 1)
    · exact tblRead_write_same zeroDword s.ps.budgets.refreshNt n (BitVec.ofNat 64 s.ntStamp)
    · exact tblRead_write_same zeroNat s.ps.budgets.writes n (tblRead zeroNat s.ps.budgets.writes n + 16384)
    · exact tblRead_filter_uncorrectable _ (fun e he => by simp [he]) s.mem.mramEcc hw
  case scrub =>
    intro u again s
    refine ⟨fun h => next_congr (if_pos h), fun h => ?_⟩
    have hpass := (scrubBegun_scrubbed s (eccUpset s.mem.mramEcc u)).trans (scrubPass_scrubbed _ (eccUpset s.mem.mramEcc u) again)
    refine ⟨_, next_congr (doMramScrub_of_running s u again h), hpass.mram, hpass.common, hpass.own, fun he => ?_,
      fun w he => ?_, fun w he => ?_⟩ <;>
      · rw [he]
        rfl
  case spares =>
    intro off s
    refine ⟨remap_of_none_free s, fun h => ⟨?_, fun d hd => ?_⟩⟩
    · have hused : tblRead zeroNat (bumpBlock s.ps.nv.spareUsed (mramDie off) 1) (mramDie off)
          = tblRead zeroNat s.ps.nv.spareUsed (mramDie off) + 1 := tblRead_write_same zeroNat _ _ _
      simp only [State.spareFree] at h
      simp only [State.spareFree, remap_spareUsed s h, hused]
      omega
    · rw [State.spareFree, State.spareFree, remap_spareUsed s h]
      exact congrArg (65536 - ·) (tblRead_write_other zeroNat s.ps.nv.spareUsed (mramDie off) d _ hd)

end Sys2Proof.Proofs

namespace Sys2Proof.Proofs
open Sys2Proof Sys2Proof.Machine Sys2Proof.Laws

/-! ## Records handed to the engine (R366, R386) -/

/-- From `s` to `t` records were handed to the engine: only its queues, the trailer in flight and the next JSEQ
change in it, and the registers, the memories, the long operations and the supervisor stay. -/
structure Handed (s t : State) : Prop where
  regs : t.regs = s.regs
  mem : t.mem = s.mem
  ops : t.ops = s.ops
  sup : t.sup = s.sup
  nv : { t.ps.nv with nextJseq := s.ps.nv.nextJseq } = s.ps.nv
  ps : { t.ps with
    nv := s.ps.nv, waiting := s.ps.waiting, held := s.ps.held, inFlight := s.ps.inFlight, issued := s.ps.issued } = s.ps

namespace Handed

variable {s t : State} (h : Handed s t)
include h

theorem recorder : t.ps.nv.recorder = s.ps.nv.recorder := (congrArg Nv.recorder h.nv :)
theorem stopped : t.ps.stopped = s.ps.stopped := (congrArg PState.stopped h.ps :)
theorem final : t.ps.final = s.ps.final := (congrArg PState.final h.ps :)
theorem pfDone : t.ps.pfDone = s.ps.pfDone := (congrArg PState.pfDone h.ps :)
theorem reg (p off : Nat) : t.reg p off = s.reg p off := by simp only [State.reg, h.regs]
theorem op (p : Nat) : t.op p = s.op p := by simp only [State.op, h.ops]

end Handed

section
variable (s : State)

theorem issueNext_cases :
    s.issueNext = s ∨ ∃ r l, s.issueNext = (s.setPs
      { s.ps with
        waiting := l, inFlight := some (r, s.ps.nv.nextJseq), issued := s.ps.issued + 1,
        nv := { s.ps.nv with nextJseq := s.ps.nv.nextJseq + 1 } }).bump 0x160 4 1 := by
  unfold State.issueNext
  split
  next r l _ _ => exact .inr ⟨r, l, rfl⟩
  next => exact .inl rfl

theorem issueNext_held : s.issueNext.ps.held = s.ps.held := by
  rcases issueNext_cases s with h | ⟨r, l, h⟩ <;> rw [h]
  rw [State.bump_ps]
  rfl

theorem issueNext_handed : Handed s s.issueNext := by
  rcases issueNext_cases s with h | ⟨r, l, h⟩ <;> rw [h]
  · exact ⟨rfl, rfl, rfl, rfl, rfl, rfl⟩
  · exact ⟨State.bump_regs _ _ _ _, State.bump_mem _ _ _ _, State.bump_ops _ _ _ _, State.bump_sup _ _ _ _,
      by rw [State.bump_ps]; rfl, by rw [State.bump_ps]; rfl⟩

variable (r : NvRecord)

theorem submit_of_open (h : s.ps.stopped = false ∨ s.ps.final = true) :
    s.submit r = (s.setPs { s.ps with waiting := enqueue r s.ps.waiting }).issueNext :=
  if_neg (by simpa [imp_iff_not_or] using h)

theorem submit_handed : Handed s (s.submit r) := by
  by_cases h : s.ps.stopped = false ∨ s.ps.final = true
  · rw [submit_of_open s r h]
    obtain ⟨hregs, hmem, hops, hsup, hnv, hps⟩ := issueNext_handed (s.setPs { s.ps with waiting := enqueue r s.ps.waiting })
    exact ⟨hregs, hmem, hops, hsup, hnv, (congrArg (fun p : PState => { p with waiting := s.ps.waiting }) hps :)⟩
  · have hheld : s.submit r = s.setPs { s.ps with held := enqueue r s.ps.held } := if_pos (by simpa using h)
    rw [hheld]
    exact ⟨rfl, rfl, rfl, rfl, rfl, rfl⟩

end

/-! ## The power-fail warning (R386, R387) -/

/-- An engine that a warning has stopped: what waited is held, and PF_DONE is not yet set. `final` says whether it
still takes the records of step 3. -/
structure Warned (waiting : List NvRecord) (sup : Supervisor) (final : Bool) (t : State) : Prop where
  stopped : t.ps.stopped = true
  held : t.ps.held = waiting
  pfDone : t.ps.pfDone = false
  final : t.ps.final = final
  sup : t.sup = sup

namespace Warned

variable {l : List NvRecord} {sup : Supervisor} {t : State} {b : Bool}

theorem submit (h : Warned l sup true t) (r : NvRecord) : Warned l sup true (t.submit r) := by
  have hs := submit_handed t r
  refine ⟨hs.stopped.trans h.stopped, ?_, hs.pfDone.trans h.pfDone, hs.final.trans h.final, hs.sup.trans h.sup⟩
  rw [submit_of_open t r (.inr h.final), issueNext_held]
  exact h.held

theorem setNv (h : Warned l sup b t) (nv : Nv) : Warned l sup b (t.setNv nv) :=
  ⟨h.stopped, h.held, h.pfDone, h.final, h.sup⟩

theorem setFinal (h : Warned l sup b t) (c : Bool) : Warned l sup c (t.setPs { t.ps with final := c }) :=
  ⟨h.stopped, h.held, h.pfDone, rfl, h.sup⟩

theorem commitRunning (h : Warned l sup true t) : Warned l sup true t.commitRunning := (h.setNv _).submit _

theorem commitTable (h : Warned l sup true t) : Warned l sup true t.commitTable :=
  Warned.submit (t := t.setPs { t.ps with tableB := !t.ps.tableB }) ⟨h.stopped, h.held, h.pfDone, h.final, h.sup⟩ _

theorem pfNext (h : Warned l sup false t) : Warned l sup false t.pfNext := by
  unfold State.pfNext
  split
  · have hissued : Warned l sup true (t.setPs { t.ps with final := true, pfIssued := true }) :=
      ⟨h.stopped, h.held, h.pfDone, rfl, h.sup⟩
    exact ((hissued.setNv _).submit _).setFinal false
  · exact h

end Warned

section
variable (s : State)

theorem pfWarn_of_stopped (h : s.ps.stopped = true) : s.pfWarn = s := if_pos h

/-- The engine stopped by a warning, before the records of step 3. -/
def warnStopped : State :=
  s.setPs
    { s.ps with
      stopped := true, pfDone := false, pfIssued := false, held := s.ps.waiting, waiting := [], final := true,
      portBegun := (s.portBusy false, s.portBusy true) }

/-- The retirement record of duckboard operation handed over, where a copy is retired. -/
def warnRetired : State :=
  match (warnStopped s).red.retired with
  | some k =>
    (warnStopped s).commitRetirement (some (k, ((warnStopped s).reg 0x016 Reg.redundancy.duckboardElapsed).toNat))
  | none => warnStopped s

theorem pfWarn_of_running (h : s.ps.stopped = false) :
    let t := (warnRetired s).commitRunning.commitTable
    s.pfWarn = (t.setPs { t.ps with final := false }).pfNext := if_neg (Bool.eq_false_iff.mp h)

theorem warnRetired_warned : Warned s.ps.waiting s.sup true (warnRetired s) := by
  have hstopped : Warned s.ps.waiting s.sup true (warnStopped s) := ⟨rfl, rfl, rfl, rfl, rfl⟩
  unfold warnRetired
  split
  · exact (hstopped.setNv _).submit _
  · exact hstopped

theorem pfWarn_warned (h : s.ps.stopped = false) : Warned s.ps.waiting s.sup false s.pfWarn := by
  rw [pfWarn_of_running s h]
  exact ((warnRetired_warned s).commitRunning.commitTable.setFinal false).pfNext

theorem pfWarn_sup : s.pfWarn.sup = s.sup := by
  cases h : s.ps.stopped with
  | true => rw [pfWarn_of_stopped s h]
  | false => exact (pfWarn_warned s h).sup

/-- PFW_N has gone low, before engine and outputs follow. -/
def warningSeen : State := s.setSup { s.sup with pfwLow := true, pfwSeen := true, pgCount := false }

/-- The engine has followed a warning, where its part is not in reset. -/
def warningTaken : State := if (warningSeen s).sup.socReset then warningSeen s else (warningSeen s).pfWarn

theorem warningTaken_sup : (warningTaken s).sup = (warningSeen s).sup := by
  unfold warningTaken
  split
  · rfl
  · exact pfWarn_sup _

theorem doPowerFailWarning_eq :
    s.doPowerFailWarning = (warningTaken s).setSup { (warningTaken s).sup with live := false, grant := false } := by
  have hlow : (warningTaken s).sup.pfwLow = true := congrArg Supervisor.pfwLow (warningTaken_sup s)
  have hblock : (warningTaken s).enableBlock ≠ 0 := fun h => by
    obtain ⟨-, -, -, -, -, -, -, hhigh⟩ := enableBlock_eq_zero_iff.mp h
    exact Bool.false_ne_true (hhigh.symm.trans hlow)
  exact review_of_blocked hblock

theorem warningTaken_of_running (h : s.sup.socReset = false) : warningTaken s = (warningSeen s).pfWarn :=
  if_neg (Bool.eq_false_iff.mp h)

theorem warningTaken_ps (h : s.sup.socReset = true ∨ s.ps.stopped = true) : (warningTaken s).ps = s.ps := by
  unfold warningTaken
  split
  · rfl
  next hr => rw [pfWarn_of_stopped (warningSeen s) (h.resolve_left hr)]; rfl

theorem stepsDone_iff :
    s.stepsDone = true ↔ s.ps.inFlight = none ∧ s.ps.waiting = [] ∧ s.ps.portBegun = (false, false)
      ∧ s.faults.control = [] ∧ s.faults.data = [] ∧ s.faults.management = [] := by
  simp [State.stepsDone, Prod.ext_iff, and_assoc]

/-! ## Epochs (R389, R391) -/

/-- The epoch's record handed over and the next epoch opened, before the LIFETIME record. -/
def epochOpened : State :=
  let r := s.ps.nv.recorder
  let s1 := s.submit
    { cls := 4, place := .offset (mramEpoch r.epoch), body := recordBody 1 r.epoch r.fields, effect := .epoch }
  let s2 := s1.setNv
    { s1.ps.nv with
      recorder :=
        { s1.ps.nv.recorder with
          epoch := r.epoch + 1, seconds := 0, fields := [], life := lifeMerge (r.epoch == 0) r.life r.fields } }
  (s2.setPs { s2.ps with distFrom := s2.distMetres, distBase := 0 }).setReg 0x162 Reg.recorder.curEpoch
    (BitVec.ofNat 32 (r.epoch + 1))

theorem closeEpoch_eq : s.closeEpoch = (epochOpened s).commitLifetime := rfl

theorem epochOpened_mem : (epochOpened s).mem = s.mem := (submit_handed s _).mem

theorem commitLifetime_recorder :
    s.commitLifetime.ps.nv.recorder = { s.ps.nv.recorder with pos := s.ps.nv.recorder.pos + 1 } :=
  (submit_handed _ _).recorder

theorem commitLifetime_mem : s.commitLifetime.mem = s.mem := (submit_handed _ _).mem

theorem commitLifetime_reg (p off : Nat) : s.commitLifetime.reg p off = s.reg p off := (submit_handed _ _).reg p off

theorem doEpochClose_of_due (h : 3600 ≤ s.ps.nv.recorder.seconds) : s.doEpochClose = s.closeEpoch := if_pos h

theorem doEpochClose_of_not_due (h : s.ps.nv.recorder.seconds < 3600) : s.doEpochClose = s := if_neg (Nat.not_le.mpr h)

/-- An epoch that is open has not yet its 3,600 seconds. -/
theorem doEpochClose_seconds_lt : s.doEpochClose.ps.nv.recorder.seconds < 3600 := by
  by_cases h : 3600 ≤ s.ps.nv.recorder.seconds
  · rw [doEpochClose_of_due s h, closeEpoch_eq, commitLifetime_recorder]
    exact Nat.zero_lt_succ _
  · rw [doEpochClose_of_not_due s (Nat.not_le.mp h)]
    exact Nat.not_le.mp h

theorem doRecorderSecond_ps (milliC : Int) (rails : List Nat) :
    (s.doRecorderSecond milliC rails).ps =
      { (s.doEpochClose.recordSecond milliC rails).ps with
        poweredSince := (s.doEpochClose.recordSecond milliC rails).ps.poweredSince + 1 } := by
  unfold State.doRecorderSecond
  extract_lets s1 s2
  split
  · exact State.bump_ps _ _ _ _
  · rfl

end

/-- A second of powered time is the next one of the open epoch. -/
theorem doRecorderSecond_seconds (s : State) (milliC : Int) (rails : List Nat) :
    (s.doRecorderSecond milliC rails).ps.nv.recorder.seconds = s.doEpochClose.ps.nv.recorder.seconds + 1 := by
  rw [doRecorderSecond_ps]
  rfl

/-! ## Bytes written into shared SRAM -/

section
variable (s : State) (off : Nat) (bs : List Byte)

theorem spendInject_ps (p : Nat) : (s.spendInject p).ps = s.ps := by
  unfold State.spendInject
  dsimp only
  split <;> rfl

/-- A reservation of the cluster, lost where `n` bytes written touch its granule (R75). -/
def reservationAfter (n : Nat) : Option Nat :=
  match s.clu.reservation with
  | some g => if (spanWords 64 off n).contains g then none else some g
  | none => none

/-- The bytes stored, before an armed injection befalls them. -/
def sramStored : State :=
  { s with
    mem := { s.mem with sram := memStore s.mem.sram off bs, sramEcc := eccWrite s.mem.sramEcc 16 off bs.length },
    clu := { s.clu with reservation := reservationAfter s off bs.length } }

/-- The ECC state of one word of shared SRAM replaced. -/
def sramEccSet (w d : Nat) : State := { s with mem := { s.mem with sramEcc := tblWrite noEcc s.mem.sramEcc w d } }

theorem sramWrite_cases :
    s.sramWrite off bs = sramStored s off bs
      ∨ ∃ d, s.sramWrite off bs = (sramEccSet (sramStored s off bs) (off / 16) d).spendInject 0x010 := by
  unfold State.sramWrite
  dsimp only
  split
  next d _ => exact .inr ⟨d, rfl⟩
  next => exact .inl rfl

theorem sramWrite_mem_besides_ecc :
    { (s.sramWrite off bs).mem with sramEcc := s.mem.sramEcc } = { s.mem with sram := memStore s.mem.sram off bs } := by
  rcases sramWrite_cases s off bs with h | ⟨d, h⟩ <;> rw [h]
  · rfl
  · rw [spendInject_mem]
    rfl

theorem sramWrite_sram : (s.sramWrite off bs).mem.sram = memStore s.mem.sram off bs :=
  (congrArg Memories.sram (sramWrite_mem_besides_ecc s off bs) :)

theorem sramWrite_mram : (s.sramWrite off bs).mem.mram = s.mem.mram :=
  (congrArg Memories.mram (sramWrite_mem_besides_ecc s off bs) :)

theorem sramWrite_mramEcc : (s.sramWrite off bs).mem.mramEcc = s.mem.mramEcc :=
  (congrArg Memories.mramEcc (sramWrite_mem_besides_ecc s off bs) :)

theorem sramWrite_ps : (s.sramWrite off bs).ps = s.ps := by
  rcases sramWrite_cases s off bs with h | ⟨d, h⟩ <;> rw [h]
  · rfl
  · exact spendInject_ps _ _

theorem sramWrite_op (p : Nat) : (s.sramWrite off bs).op p = s.op p := by
  rcases sramWrite_cases s off bs with h | ⟨d, h⟩ <;> rw [h]
  · rfl
  · exact congrArg (tblRead opReset · p) (spendInject_linesWritten _ _).ops

end

/-! ## EXPORT and EXPORT_LIFETIME (R394) -/

section
variable (s : State)

/-- The bytes that an EXPORT writes for an epoch. -/
def exportBytes (e : Nat) : List Byte :=
  if s.epochHeld e then memBytes s.mem.mram (mramEpoch e) 0x1000 else zeros 0x1000

theorem zeros_length (n : Nat) : (zeros n).length = n := List.length_replicate

theorem exportBytes_length (e : Nat) : (exportBytes s e).length = 0x1000 := by
  unfold exportBytes
  split
  · exact memBytes_length _ _ _
  · exact zeros_length _

section
variable (dst : Nat) (bs : List Byte)

theorem exportOne_op : (s.exportOne dst bs).op 0x162 = (s.op 0x162).advance 1 1 := by
  have hop : (((s.sramWrite dst bs).bw 85 0x1000).bump 0x162 3 1).op 0x162 = s.op 0x162 := by
    rw [State.op, State.bump_ops, State.bw_ops]
    exact sramWrite_op s dst bs 0x162
  rw [State.exportOne, State.op_setOp_same, hop]

theorem exportOne_mem : (s.exportOne dst bs).mem = (s.sramWrite dst bs).mem := by
  rw [State.exportOne, State.setOp_mem, State.bump_mem, State.bw_mem]

theorem exportOne_ps : (s.exportOne dst bs).ps = s.ps := by
  rw [State.exportOne, State.setOp_ps, State.bump_ps, State.bw_ps, sramWrite_ps]

end

/-- One epoch of an EXPORT written to its place; one that is not held is noted. -/
def epochExported (e dst : Nat) : State :=
  let t := s.exportOne dst (exportBytes s e)
  if s.epochHeld e then t else t.setOp 0x162 ((t.op 0x162).note 0x100#32)

section
variable (e dst : Nat)

theorem epochExported_mem : (epochExported s e dst).mem = (s.sramWrite dst (exportBytes s e)).mem := by
  unfold epochExported
  dsimp only
  split <;> exact exportOne_mem s dst _

theorem epochExported_ps : (epochExported s e dst).ps = s.ps := by
  unfold epochExported
  dsimp only
  split <;> exact exportOne_ps s dst _

theorem epochExported_op :
    (epochExported s e dst).op 0x162 =
      if s.epochHeld e then (s.op 0x162).advance 1 1 else ((s.op 0x162).advance 1 1).note 0x100#32 := by
  unfold epochExported
  dsimp only
  split
  · exact exportOne_op s dst _
  · rw [State.op_setOp_same, exportOne_op]

theorem epochExported_sram : (epochExported s e dst).mem.sram = memStore s.mem.sram dst (exportBytes s e) := by
  rw [epochExported_mem, sramWrite_sram]

theorem epochExported_mram : (epochExported s e dst).mem.mram = s.mem.mram := by
  rw [epochExported_mem, sramWrite_mram]

theorem epochExported_epochHeld (k : Nat) : (epochExported s e dst).epochHeld k = s.epochHeld k := by
  simp only [State.epochHeld, State.recordExists, epochExported_ps, epochExported_mem, sramWrite_mram, sramWrite_mramEcc]

theorem epochExported_bytes (k : Nat) : exportBytes (epochExported s e dst) k = exportBytes s k := by
  simp only [exportBytes, epochExported_epochHeld, epochExported_mram]

theorem exportEpochs_succ {n : Nat} (h : dst + 0x1000 ≤ 0x2000000) :
    s.exportEpochs e dst (n + 1) = (epochExported s e dst).exportEpochs (e + 1) (dst + 0x1000) n := by
  rw [State.exportEpochs, if_neg (Nat.not_lt.mpr h)]
  unfold epochExported exportBytes
  split <;> rfl

end

/-- What `n` epochs exported from epoch `first` to `dst` leave. -/
structure Exported (first dst n : Nat) (t : State) : Prop where
  done : (t.op 0x162).phase = .done
  result : (t.op 0x162).result = (s.op 0x162).result + BitVec.ofNat 32 n
  places : ∀ i, i < n → memBytes t.mem.sram (dst + 0x1000 * i) 0x1000 = exportBytes s (first + i)
  outside : ∀ x, x < dst ∨ dst + 0x1000 * n ≤ x → memByte t.mem.sram x = memByte s.mem.sram x
  noted : (∃ i, i < n ∧ s.epochHeld (first + i) = false) → (s.op 0x162).error = 0#32 → (t.op 0x162).error = 0x100#32
  kept : (s.op 0x162).error ≠ 0#32 ∨ (∀ i, i < n → s.epochHeld (first + i) = true) →
    (t.op 0x162).error = (s.op 0x162).error
  mram : t.mem.mram = s.mem.mram

end

theorem exportEpochs_exported (n : Nat) (s : State) (first dst : Nat) (h : dst + 0x1000 * n ≤ 0x2000000) :
    Exported s first dst n (s.exportEpochs first dst n) := by
  induction n generalizing s first dst with
  | zero =>
    have hop : (s.opDone 0x162).op 0x162 = { s.op 0x162 with phase := .done } := State.op_setOp_same _ _ _
    refine ⟨?_, ?_, fun i hi => absurd hi (Nat.not_lt_zero i), fun x _ => rfl, fun ⟨i, hi, _⟩ => absurd hi (Nat.not_lt_zero i),
      fun _ => ?_, rfl⟩ <;> rw [State.exportEpochs, hop]
    exact (BitVec.add_zero _).symm
  | succ n ih =>
    have hrest : dst + 0x1000 + 0x1000 * n ≤ 0x2000000 := by omega
    rw [exportEpochs_succ s first dst ((Nat.le_add_right _ _).trans hrest)]
    have ihn := ih (epochExported s first dst) (first + 1) (dst + 0x1000) hrest
    generalize (epochExported s first dst).exportEpochs (first + 1) (dst + 0x1000) n = t at ihn
    obtain ⟨hdone, hresult, hplaces, houtside, hnoted, hkept, hmram⟩ := ihn
    have hheld : ∀ i, (epochExported s first dst).epochHeld (first + 1 + i) = s.epochHeld (first + (i + 1)) := fun i => by
      rw [epochExported_epochHeld, Nat.add_assoc, Nat.add_comm 1 i]
    refine ⟨hdone, ?_, fun i hi => ?_, fun x hx => ?_, fun hex h0 => ?_, fun hor => ?_, ?_⟩
    · rw [hresult, epochExported_op]
      split <;> simp only [OpState.advance, OpState.note, BitVec.ofNat_add, BitVec.add_assoc, BitVec.add_comm 1#32]
    · cases i with
      | zero =>
        rw [Nat.mul_zero, Nat.add_zero, Nat.add_zero]
        have hkeep : memBytes t.mem.sram dst 0x1000 = memBytes (memStore s.mem.sram dst (exportBytes s first)) dst 0x1000 :=
          memBytes_congr fun x hl hh => by
            rw [houtside x (.inl hh), epochExported_sram]
        rw [hkeep]
        have hsame := memBytes_store_same s.mem.sram dst (exportBytes s first)
        rwa [exportBytes_length] at hsame
      | succ i =>
        have hplace := hplaces i (by omega)
        rw [epochExported_bytes] at hplace
        rw [show dst + 0x1000 * (i + 1) = dst + 0x1000 + 0x1000 * i by omega, hplace, Nat.add_assoc, Nat.add_comm 1 i]
    · have hfirst : dst + 0x1000 ≤ dst + 0x1000 * (n + 1) :=
        Nat.add_le_add_left (Nat.le_mul_of_pos_right 0x1000 (Nat.zero_lt_succ n)) dst
      have hout : x < dst ∨ dst + 0x1000 ≤ x := hx.imp_right hfirst.trans
      rw [← exportBytes_length s first] at hout
      rw [houtside x (by omega), epochExported_sram]
      exact memByte_store_outside s.mem.sram dst x (exportBytes s first) hout
    · obtain ⟨i, hi, hlost⟩ := hex
      cases hf : s.epochHeld first with
      | false =>
        have herr : ((epochExported s first dst).op 0x162).error = 0x100#32 := by
          simp [epochExported_op, hf, OpState.note, OpState.advance, h0]
        exact (hkept (.inl (by simp [herr]))).trans herr
      | true =>
        cases i with
        | zero => exact absurd (hf.symm.trans hlost) (by simp)
        | succ i => exact hnoted ⟨i, by omega, (hheld i).trans hlost⟩ (by simp [epochExported_op, hf, OpState.advance, h0])
    · have herr : ((epochExported s first dst).op 0x162).error = (s.op 0x162).error := by
        rw [epochExported_op]
        rcases hor with h0 | hall
        · split <;> simp [OpState.note, OpState.advance, h0]
        · have hfirst : s.epochHeld first = true := hall 0 (Nat.zero_lt_succ n)
          rw [if_pos hfirst]
          rfl
      refine (hkept (hor.imp (herr ▸ ·) fun hall i hi => ?_)).trans herr
      exact (hheld i).trans (hall (i + 1) (by omega))
    · rw [hmram, epochExported_mram]

section
variable {s : State}

theorem doExport_of_active (h : s.opActive 0x162 1 = true) :
    s.doExport =
      if (s.op 0x162).arg1.toNat = 0 ∨ 4096 < (s.op 0x162).arg1.toNat ∨ (s.op 0x162).arg2.toNat % 0x1000 ≠ 0 then
        s.opFail 0x162 2#32
      else s.exportEpochs (s.op 0x162).arg0.toNat (s.op 0x162).arg2.toNat (s.op 0x162).arg1.toNat :=
  (if_neg (by simp [h])).trans (if_congr (or_congr (BitVec.toNat_eq (y := 0#32)) Iff.rfl) rfl rfl)

theorem exportEpochs_of_refused {dst n : Nat} (hn : 1 ≤ n) (h : 0x2000000 < dst + 0x1000) (first : Nat) :
    s.exportEpochs first dst n = s.exportRefused := by
  cases n with
  | zero => omega
  | succ n => rw [State.exportEpochs, if_pos h]

/-- The bytes that EXPORT_LIFETIME writes. -/
def lifetimeBytes (s : State) : List Byte :=
  match s.ps.nv.recorder.lifeAt with
  | some a => memBytes s.mem.mram a 0x1000
  | none => zeros 0x1000

theorem lifetimeBytes_length (s : State) : (lifetimeBytes s).length = 0x1000 := by
  unfold lifetimeBytes
  split
  · exact memBytes_length _ _ _
  · exact zeros_length _

/-- The newest LIFETIME record written to its place; one that was never written is noted. -/
def lifetimeExported (s : State) (dst : Nat) : State :=
  let t := s.exportOne dst (lifetimeBytes s)
  match s.ps.nv.recorder.lifeAt with
  | some _ => t
  | none => t.setOp 0x162 ((t.op 0x162).note 0x100#32)

theorem lifetimeExported_sram (s : State) (dst : Nat) :
    (lifetimeExported s dst).mem.sram = memStore s.mem.sram dst (lifetimeBytes s) := by
  have hone : (s.exportOne dst (lifetimeBytes s)).mem.sram = memStore s.mem.sram dst (lifetimeBytes s) := by
    rw [exportOne_mem, sramWrite_sram]
  unfold lifetimeExported
  dsimp only
  split <;> exact hone

section
variable (h : s.opActive 0x162 2 = true)
include h

theorem doExportLifetime_of_active :
    s.doExportLifetime =
      if (s.op 0x162).arg2.toNat % 0x1000 ≠ 0 then s.opFail 0x162 2#32
      else if 0x2000000 < (s.op 0x162).arg2.toNat + 0x1000 then s.exportRefused
      else (lifetimeExported s (s.op 0x162).arg2.toNat).opDone 0x162 := by
  unfold State.doExportLifetime lifetimeExported lifetimeBytes
  rw [if_neg (by simp [h])]
  dsimp only
  split
  · rfl
  split
  · rfl
  · cases s.ps.nv.recorder.lifeAt <;> rfl

end

end

/-- Settles O52: the warning by what each of its records leaves, the epochs by the recorder, EXPORT epoch by epoch. -/
theorem warningHoldsTheEngineAndTheRecorderKeepsEpochs : Obligations.WarningHoldsTheEngineAndTheRecorderKeepsEpochs := by
  unfold Obligations.WarningHoldsTheEngineAndTheRecorderKeepsEpochs
  refine ⟨?records, ?warning, ?pfDone, ?release, ?epochs, ?places, ?exports, ?lifetime, ?inactive⟩
  case records =>
    exact fun s => ⟨fun h => ⟨next_congr (if_pos h), next_congr (if_pos h)⟩,
      fun h => ⟨next_congr (if_neg (Bool.eq_false_iff.mp h)), next_congr (if_neg (Bool.eq_false_iff.mp h))⟩⟩
  case warning =>
    intro s
    refine ⟨_, next_congr (doPowerFailWarning_eq s), congrArg Supervisor.pfwLow (warningTaken_sup s), rfl, rfl,
      fun hr => ?_, fun hr hs => ?_, fun h => warningTaken_ps s h⟩
    · rw [State.setSup_ps, warningTaken_of_running s hr]
      cases hs : s.ps.stopped with
      | true =>
        rw [pfWarn_of_stopped (warningSeen s) hs]
        exact hs
      | false => exact (pfWarn_warned (warningSeen s) hs).stopped
    · have hw := pfWarn_warned (warningSeen s) hs
      rw [State.setSup_ps, warningTaken_of_running s hr]
      exact ⟨hw.held, hw.pfDone⟩
  case pfDone =>
    intro s
    refine ⟨fun hs hi hd => next_congr (if_pos ⟨hs, hi, hd⟩), fun h => next_congr (if_neg fun ⟨hs, hi, hd⟩ => ?_),
      stepsDone_iff s⟩
    simp [hs, hi, hd] at h
  case release =>
    intro s
    refine ⟨fun hs hr => ?_, fun h => ?_⟩
    · exact next_congr (congrArg State.review (if_pos ⟨hs, by simp [State.setSup, hr]⟩))
    · exact next_congr (congrArg State.review (if_neg (by simpa [State.setSup, imp_iff_not_or] using h)))
  case epochs =>
    intro s
    refine ⟨fun h => next_congr (doEpochClose_of_not_due s h), fun h => ⟨s.closeEpoch, next_congr (doEpochClose_of_due s h),
      rfl, ?_⟩, fun milliC rails => ⟨_, rfl, ?_, ?_, ?_⟩⟩
    · rw [closeEpoch_eq, commitLifetime_recorder, commitLifetime_reg, commitLifetime_mem, epochOpened_mem]
      exact ⟨rfl, rfl, rfl, rfl, State.reg_setReg_same _ _ _ _, rfl⟩
    · exact doRecorderSecond_seconds s milliC rails
    · rw [doRecorderSecond_seconds]
      exact doEpochClose_seconds_lt s
    · rw [doRecorderSecond_ps]
  case places =>
    refine ⟨fun n h => if_pos h, fun n h => if_neg (Nat.not_lt.mpr h), fun n k hlt hle => ?_⟩
    unfold mramEpoch
    split <;> split <;> omega
  case exports =>
    intro s ha
    dsimp only
    have hrun := doExport_of_active ha
    generalize (s.op 0x162).arg0.toNat = first at hrun ⊢
    generalize (s.op 0x162).arg1.toNat = cnt at hrun ⊢
    generalize (s.op 0x162).arg2.toNat = dst at hrun ⊢
    refine ⟨fun h => next_congr (hrun.trans (if_pos h)), fun hlo hhi hal => ?_⟩
    rw [if_neg (by omega)] at hrun
    refine ⟨fun hfit => ⟨s.exportEpochs first dst cnt, next_congr hrun, ?_⟩,
      fun href => next_congr (hrun.trans (exportEpochs_of_refused hlo href first))⟩
    obtain ⟨hdone, hresult, hplaces, houtside, hnoted, hkept, hmram⟩ := exportEpochs_exported cnt s first dst hfit
    exact ⟨hdone, hresult, hplaces, houtside, hnoted, fun hall => hkept (.inr hall), hmram⟩
  case lifetime =>
    intro s ha
    dsimp only
    generalize hdst : (s.op 0x162).arg2.toNat = dst
    have hrun := doExportLifetime_of_active ha
    rw [hdst] at hrun
    refine ⟨fun h => next_congr (hrun.trans (if_pos h)), fun h hf => next_congr (hrun.trans ?_), fun h hf =>
      ⟨(lifetimeExported s dst).opDone 0x162, next_congr (hrun.trans ?_), ?_⟩⟩
    · rw [if_neg (not_not_intro h), if_pos hf]
      rfl
    · rw [if_neg (not_not_intro h), if_neg (Nat.not_lt.mpr hf)]
    · have hlen := lifetimeBytes_length s
      refine ⟨?_, ?_, fun x hx => ?_⟩
      · rw [State.opDone, State.op_setOp_same]
      · rw [State.opDone, State.setOp_mem, lifetimeExported_sram]
        have hsame := memBytes_store_same s.mem.sram dst (lifetimeBytes s)
        rw [hlen] at hsame
        exact hsame
      · rw [← hlen] at hx
        rw [State.opDone, State.setOp_mem, lifetimeExported_sram]
        exact memByte_store_outside s.mem.sram dst x (lifetimeBytes s) hx
  case inactive =>
    exact fun s => ⟨fun h => next_congr (if_pos (by simp [h])), fun h => next_congr (if_pos (by simp [h]))⟩

end Sys2Proof.Proofs

namespace Sys2Proof.Proofs
open Sys2Proof Sys2Proof.Machine Sys2Proof.Laws

/-! ## Records committed at once (R404) -/

section
variable {s t : State}

theorem Handed.boot (h : Handed s t) : t.ps.nv.boot = s.ps.nv.boot := (congrArg Nv.boot h.nv :)
theorem Handed.otp (h : Handed s t) : t.ps.nv.otp = s.ps.nv.otp := (congrArg Nv.otp h.nv :)
theorem Handed.huskReceived (h : Handed s t) : t.ps.huskReceived = s.ps.huskReceived :=
  (congrArg PState.huskReceived h.ps :)
theorem LinesWritten.huskReceived (h : LinesWritten s t) : t.ps.huskReceived = s.ps.huskReceived :=
  (congrArg PState.huskReceived h.ps :)

end

section
variable (s : State) (r : NvRecord)

/-- The record in flight, if any, completed before a record that takes its turn. -/
def turnTaken : State :=
  match s.ps.inFlight with
  | none => s
  | some (q, j) =>
    let t := s.writePlace q.cls q.place (recordWith q.body j)
    ((t.setPs { t.ps with inFlight := none, marked := t.ps.marked + 1 }).journalSeqIs j).markEffect q.effect j

/-- A record issued and marked at once, before its effect. -/
def landedNow : State :=
  let s1 := (s.setPs
    { s.ps with
      issued := s.ps.issued + 1, marked := s.ps.marked + 1,
      nv := { s.ps.nv with nextJseq := s.ps.nv.nextJseq + 1, lastRecord := s.ps.nv.nextJseq } }).bump 0x160 4 1
  (s1.writePlace r.cls r.place (recordWith r.body s.ps.nv.nextJseq)).journalSeqIs s.ps.nv.nextJseq

theorem commitNow_of_running (h : s.ps.stopped = false) :
    s.commitNow r =
      ((landedNow (turnTaken s) r).markEffect r.effect (turnTaken s).ps.nv.nextJseq).issueNext :=
  if_neg (Bool.eq_false_iff.mp h)

theorem landedNow_nv :
    (landedNow s r).ps.nv = { s.ps.nv with nextJseq := s.ps.nv.nextJseq + 1, lastRecord := s.ps.nv.nextJseq } := by
  refine (writePlace_linesWritten _ r.cls r.place _).nv.trans ?_
  rw [State.bump_ps]
  rfl

theorem landedNow_huskReceived : (landedNow s r).ps.huskReceived = s.ps.huskReceived := by
  refine (writePlace_linesWritten _ r.cls r.place _).huskReceived.trans ?_
  rw [State.bump_ps]
  rfl

theorem setSlotEntry_huskReceived (n : Nat) (e : SlotEntry) :
    (s.setSlotEntry n e).ps.huskReceived = s.ps.huskReceived := by
  rw [State.setSlotEntry, State.bump_ps]
  exact (submit_handed _ _).huskReceived

theorem freeBefore_huskReceived (p line : Nat) : (s.freeBefore p line).ps.huskReceived = s.ps.huskReceived :=
  foldl_field (fun t : State => t.ps.huskReceived) _ (fun t _ => setSlotEntry_huskReceived t _ _) _ s

/-- No effect of a mark touches the count of the husk's bytes. -/
theorem markEffect_huskReceived (e : NvEffect) (j : DWord) : (s.markEffect e j).ps.huskReceived = s.ps.huskReceived := by
  cases e with
  | plain => rfl
  | retentive p c => exact freeBefore_huskReceived _ p c.setLine
  | slot n e =>
    unfold State.markEffect
    dsimp only
    split <;> rfl
  | retirement r => rfl
  | journalPort mgmt =>
    refine (congrArg PState.huskReceived (State.bump_ps _ _ _ _)).trans ?_
    cases mgmt <;> rfl
  | journalOwn step => exact (congrArg PState.huskReceived (State.bump_ps _ _ _ _)).trans rfl
  | table b t => cases b <;> rfl
  | powerFail ntOff cause => rfl
  | epoch => exact congrArg PState.huskReceived (State.bump_ps _ _ _ _)
  | running epoch seconds fields pos => exact (congrArg PState.huskReceived (State.bump_ps _ _ _ _)).trans rfl
  | lifetime pos => exact (congrArg PState.huskReceived (State.bump_ps _ _ _ _)).trans rfl
  | boot r => rfl
  | gen g r =>
    unfold State.markEffect
    dsimp only
    split <;> rfl

theorem turnTaken_huskReceived : (turnTaken s).ps.huskReceived = s.ps.huskReceived := by
  unfold turnTaken
  split
  · rfl
  next q j _ =>
    exact (markEffect_huskReceived _ q.effect j).trans (writePlace_linesWritten s q.cls q.place _).huskReceived

end

/-! ## Boot control records and journal entries (R404, R421) -/

section
variable {s : State}

theorem commitNow_huskReceived (r : NvRecord) (h : s.ps.stopped = false) :
    (s.commitNow r).ps.huskReceived = s.ps.huskReceived := by
  rw [commitNow_of_running s r h, (issueNext_handed _).huskReceived, markEffect_huskReceived, landedNow_huskReceived,
    turnTaken_huskReceived]

/-- A boot control record is in force once it is committed, whatever was in flight. -/
theorem commitNow_boot {r : NvRecord} {b : BootRec} (he : r.effect = .boot b) (h : s.ps.stopped = false) :
    (s.commitNow r).ps.nv.boot = b := by
  rw [commitNow_of_running s r h, (issueNext_handed _).boot, he]
  rfl

theorem commitBoot_boot (b : BootRec) (h : s.ps.stopped = false) : (s.commitBoot b).ps.nv.boot = b :=
  commitNow_boot (s := s.setNv _) rfl h

theorem journal_boot (s : State) (body : List Byte) (step : Option (DWord × Nat)) :
    (s.journal body step).ps.nv.boot = s.ps.nv.boot := (submit_handed _ _).boot

theorem journal_otp (s : State) (body : List Byte) (step : Option (DWord × Nat)) :
    (s.journal body step).ps.nv.otp = s.ps.nv.otp := (submit_handed _ _).otp

section
variable (b : BootRec) (h : s.ps.stopped = false)
include h

theorem huskTo_boot : (s.huskTo b).ps.nv.boot = b := (journal_boot _ _ _).trans (commitBoot_boot b h)

theorem huskTo_huskReceived : (s.huskTo b).ps.huskReceived = s.ps.huskReceived :=
  ((submit_handed _ _).huskReceived).trans (commitNow_huskReceived (s := s.setNv _) _ h)

end

/-! ## The operations of page 0x170 (R405) -/

theorem updateRuns_stopped {n : Nat} (h : s.updateRuns n = true) : s.ps.stopped = false := by
  simp only [State.updateRuns, Bool.and_eq_true, Bool.not_eq_true'] at h
  exact h.2

theorem opDone_phase (s : State) (p : Nat) : ((s.opDone p).op p).phase = .done := by
  rw [State.opDone, State.op_setOp_same]

theorem opFail_phase (s : State) (p : Nat) (e : Word) : ((s.opFail p e).op p).phase = .failed := by
  rw [State.opFail, State.op_setOp_same]

theorem updateDone_phase (s : State) : (s.updateDone.op 0x170).phase = .done := opDone_phase _ _

theorem updateDone_boot (s : State) : s.updateDone.ps.nv.boot = s.ps.nv.boot := rfl

end

/-! ### OTP (R411) -/

section
variable (s : State)

/-- OTP as a fleet bundle in a slot has it: its security counter, its revoked keys. -/
def otpOf (slot : Nat) : Otp :=
  { s.ps.nv.otp with
    counter := max s.ps.nv.otp.counter (min 64 (s.bundleLe slot 0x020 4)),
    revoked := s.ps.nv.otp.revoked ||| BitVec.ofNat 4 (s.bundleLe slot 0x015 1) }

theorem agreeOtp_eq :
    s.agreeOtp =
      if s.bundleLe s.ps.nv.boot.active 0x018 8 ≠ 0 ∨ otpOf s s.ps.nv.boot.active = s.ps.nv.otp then s
      else (s.setNv { s.ps.nv with otp := otpOf s s.ps.nv.boot.active }).journal
        (journalBody 6 (otpOf s s.ps.nv.boot.active).counter (otpOf s s.ps.nv.boot.active).revoked.toNat 0 0 0) none := rfl

theorem agreeOtp_boot : s.agreeOtp.ps.nv.boot = s.ps.nv.boot := by
  rw [agreeOtp_eq]
  split
  · rfl
  · exact journal_boot _ _ _

theorem agreeOtp_otp (h : s.bundleLe s.ps.nv.boot.active 0x018 8 = 0) :
    s.agreeOtp.ps.nv.otp = otpOf s s.ps.nv.boot.active := by
  rw [agreeOtp_eq]
  split
  next hor => exact (hor.resolve_left (not_not_intro h)).symm
  next => exact journal_otp _ _ _

/-! ### WRITE (R406) -/

/-- The husk's bytes written, before the last of them make it RECEIVED. -/
def huskStored (dst : Nat) (bs : List Byte) : State :=
  let s1 := ((s.mramWrite 4 (mramImage s.ps.nv.boot.husk + dst) bs).bw 85 bs.length).bump 0x170 0 ((bs.length + 63) / 64)
  let s2 := s1.setPs { s1.ps with huskReceived := dst + bs.length }
  s2.setOp 0x170 ((s2.op 0x170).advance bs.length 0)

variable (dst : Nat) (bs : List Byte)

theorem huskTake_eq :
    s.huskTake dst bs =
      (if dst + bs.length = (huskStored s dst bs).ps.nv.boot.huskLen then
        (huskStored s dst bs).huskTo { (huskStored s dst bs).ps.nv.boot with huskState := 2 }
      else huskStored s dst bs).opDone 0x170 := rfl

theorem huskStored_huskReceived : (huskStored s dst bs).ps.huskReceived = dst + bs.length := rfl

theorem huskStored_ps :
    (huskStored s dst bs).ps =
      { (s.mramWrite 4 (mramImage s.ps.nv.boot.husk + dst) bs).ps with huskReceived := dst + bs.length } := by
  rw [huskStored, State.setOp_ps, State.setPs_ps, State.bump_ps, State.bw_ps]

theorem huskStored_boot : (huskStored s dst bs).ps.nv.boot = s.ps.nv.boot := by
  rw [huskStored_ps]
  exact congrArg Nv.boot (mramWrite_linesWritten s 4 _ bs).nv

theorem huskStored_stopped : (huskStored s dst bs).ps.stopped = s.ps.stopped := by
  rw [huskStored_ps]
  exact (congrArg PState.stopped (mramWrite_linesWritten s 4 (mramImage s.ps.nv.boot.husk + dst) bs).ps :)

theorem huskStored_mram :
    (huskStored s dst bs).mem.mram = memStore s.mem.mram (mramImage s.ps.nv.boot.husk + dst) bs := by
  rw [huskStored, State.setOp_mem, State.setPs_mem, State.bump_mem, State.bw_mem, mramWrite_mram]

end

/-! ### The rows of R405 -/

theorem ite_not_of_false {α : Type} {b : Bool} {x y : α} (h : b = false) : (if !b then x else y) = x := if_pos (by simp [h])

theorem ite_not_of_true {α : Type} {b : Bool} {x y : α} (h : b = true) : (if !b then x else y) = y := if_neg (by simp [h])

section
variable {s : State}

/-- A step of the husk that counts 1: its boot control record is in force, and the operation is DONE. -/
theorem huskTo_updateDone {b : BootRec} (h : s.ps.stopped = false) :
    ((s.huskTo b).updateDone).ps.nv.boot = b ∧ ((s.huskTo b).updateDone.op 0x170).phase = .done :=
  ⟨(updateDone_boot _).trans (huskTo_boot b h), updateDone_phase _⟩

theorem doVerify_of_run (h : s.updateRuns 4 = true) (h3 : s.huskState ≠ 3) :
    s.doVerify =
      if s.huskState ≠ 2 then s.opFail 0x170 0x100#32
      else s.startVerify.setOp 0x170 { s.startVerify.op 0x170 with phase := .running } := if_neg (by simp [h, h3])

theorem doVerifyDone_of_run (h : s.updateRuns 4 = true) (h3 : s.huskState = 3) :
    s.doVerifyDone = s.verified (s.verifyBundle s.ps.nv.boot.husk (some s.ps.nv.boot.huskLen)) := if_neg (by simp [h, h3])

/-- A verification counted, before its outcome. -/
def verifyCounted (s : State) : State :=
  (s.setOp 0x170 ((s.op 0x170).advance s.ps.nv.boot.huskLen 0)).bump 0x170 1 1

theorem verifyCounted_stopped {n : Nat} (h : s.updateRuns n = true) : (verifyCounted s).ps.stopped = false := by
  rw [verifyCounted, State.bump_ps, State.setOp_ps]
  exact updateRuns_stopped h

theorem verified_failed (s : State) (e : Word) :
    s.verified (some e) =
      (((verifyCounted s).huskTo { s.ps.nv.boot with huskState := 0, huskId := 0#64 }).raise 0x170 0 []).opFail 0x170 e := rfl

/-- The findings of R402 on compatibility: the mode, the schema and the origin. -/
def compatFinding (s : State) : Bool :=
  s.modeFinding s.ps.nv.boot.husk && s.schemaFinding s.ps.nv.boot.husk s.workGen && s.originFinding s.ps.nv.boot.husk

theorem verified_passed (s : State) :
    let t := (verifyCounted s).huskTo { s.ps.nv.boot with huskState := 4 }
    s.verified none =
      (t.setPs
        { t.ps with steppingOk := s.steppingFinding s.ps.nv.boot.husk, compatOk := compatFinding s }).opDone 0x170 := rfl

theorem startVerify_boot (h : s.ps.stopped = false) :
    s.startVerify.ps.nv.boot =
      { s.ps.nv.boot with huskState := 3, huskId := BitVec.ofNat 64 (s.bundleLe s.ps.nv.boot.husk 0x008 8) } :=
  huskTo_boot _ h

theorem fallBack_boot (reason : Nat) (h : s.ps.stopped = false) :
    (s.fallBack reason).ps.nv.boot =
      { s.ps.nv.boot with
        active := s.ps.nv.boot.previous.getD s.ps.nv.boot.active, activeId := s.ps.nv.boot.previousId, previous := none,
        previousId := 0#64, huskState := 0, workGen := s.ps.nv.boot.prevGen.getD s.ps.nv.boot.workGen, prevGen := none,
        lastFallback := reason } := by
  rw [State.fallBack, State.raise_ps, State.bump_ps, journal_boot, huskTo_boot _ h]

theorem huskTake_huskReceived (dst : Nat) (bs : List Byte) (h : s.ps.stopped = false) :
    (s.huskTake dst bs).ps.huskReceived = dst + bs.length := by
  rw [huskTake_eq, State.opDone, State.setOp_ps]
  split
  · rw [huskTo_huskReceived _ ((huskStored_stopped s dst bs).trans h), huskStored_huskReceived]
  · rfl

theorem huskTake_of_last {dst : Nat} {bs : List Byte} (h : dst + bs.length = s.ps.nv.boot.huskLen) :
    s.huskTake dst bs = ((huskStored s dst bs).huskTo { s.ps.nv.boot with huskState := 2 }).opDone 0x170 := by
  rw [huskTake_eq, huskStored_boot, if_pos h]

theorem huskTake_of_more {dst : Nat} {bs : List Byte} (h : dst + bs.length ≠ s.ps.nv.boot.huskLen) :
    s.huskTake dst bs = (huskStored s dst bs).opDone 0x170 := by
  rw [huskTake_eq, huskStored_boot, if_neg h]

end

/-- Settles O53: each operation by its row of R405, the boot control record by its commit. -/
theorem theHuskMovesAsItsTableSays : Obligations.TheHuskMovesAsItsTableSays := by
  unfold Obligations.TheHuskMovesAsItsTableSays
  refine ⟨?idle, ?refused, ?begins, ?writes, ?verifies, ?arms, ?otp⟩
  case idle =>
    intro s
    exact ⟨fun h => next_congr (ite_not_of_false h), fun h => next_congr (ite_not_of_false h),
      fun h => next_congr (ite_not_of_false h), fun h => next_congr (if_pos (by simpa using h)),
      fun h => next_congr (if_pos (by simpa using h)), fun h => next_congr (ite_not_of_false h),
      fun h => next_congr (ite_not_of_false h), fun h => next_congr (ite_not_of_false h),
      fun h => next_congr (ite_not_of_false h)⟩
  case refused =>
    intro s
    refine ⟨fun h hs => next_congr ((ite_not_of_true h).trans (if_pos (by simpa using hs))),
      fun h hs => next_congr ((ite_not_of_true h).trans (if_pos hs)),
      fun h hs => next_congr ((ite_not_of_true h).trans (if_pos (by simpa using hs))), fun h hs => next_congr ?_,
      fun h hs => next_congr ((ite_not_of_true h).trans (if_pos hs)),
      fun h hs => next_congr ((ite_not_of_true h).trans (if_pos hs)),
      fun h hs => next_congr ((ite_not_of_true h).trans (if_pos hs)),
      fun h hs => next_congr ((ite_not_of_true h).trans (if_pos hs))⟩
    have hs : s.huskState ≠ 2 ∧ s.huskState ≠ 3 := by simpa using hs
    exact (doVerify_of_run h hs.2).trans (if_pos hs.1)
  case begins =>
    intro s h hs
    dsimp only
    have hstate : ¬(s.huskState ≠ 0 ∧ s.huskState ≠ 2 ∧ s.huskState ≠ 4 ∧ s.huskState ≠ 8) := by
      simp only [List.mem_cons, List.not_mem_nil, or_false] at hs
      omega
    refine ⟨fun hn => next_congr ((ite_not_of_true h).trans ((if_neg hstate).trans (if_pos hn))), fun hlo hhi => ⟨_,
      next_congr ((ite_not_of_true h).trans ((if_neg hstate).trans (if_neg (by omega)))), ?_, rfl, updateDone_phase _⟩⟩
    exact huskTo_boot _ (updateRuns_stopped h)
  case writes =>
    intro s h hs
    dsimp only
    have hrun := ((ite_not_of_true h).trans (if_neg (not_not_intro hs)) : s.doHuskWrite = _)
    refine ⟨fun hb => next_congr (hrun.trans (if_pos hb)), fun hb hd => next_congr (hrun.trans ((if_neg hb).trans (if_pos hd))),
      fun hb hd => ⟨_, next_congr (hrun.trans ((if_neg hb).trans (if_neg hd))), ?_⟩⟩
    generalize (s.op 0x170).arg1.toNat = dst
    generalize (s.op 0x170).arg2.toNat = n
    have hlen : (memBytes s.mem.sram (s.op 0x170).arg0.toNat n).length = n := memBytes_length _ _ _
    generalize memBytes s.mem.sram (s.op 0x170).arg0.toNat n = bs at hlen
    subst hlen
    refine ⟨huskTake_huskReceived dst bs (updateRuns_stopped h), opDone_phase _ _, fun hl => ?_, fun hm => ?_⟩
    · rw [huskTake_of_last hl]
      exact huskTo_boot _ ((huskStored_stopped s dst bs).trans (updateRuns_stopped h))
    · rw [huskTake_of_more hm, State.opDone, State.setOp_ps, State.setOp_mem, huskStored_boot, huskStored_mram]
      exact ⟨rfl, memBytes_store_same _ _ bs, fun x hx => memByte_store_outside _ _ x bs hx⟩
  case verifies =>
    intro s
    refine ⟨fun h hs => ⟨_, next_congr ((ite_not_of_true h).trans (if_neg ?_)), huskTo_updateDone (updateRuns_stopped h)⟩,
      fun h hs => ⟨_, next_congr ((doVerify_of_run h (by omega)).trans (if_neg (not_not_intro hs))), ?_, ?_⟩,
      fun h hs => ⟨fun e he => ⟨_, next_congr ((doVerifyDone_of_run h hs).trans (congrArg s.verified he)), ?_⟩,
        fun he => ⟨_, next_congr ((doVerifyDone_of_run h hs).trans (congrArg s.verified he)), ?_⟩⟩⟩
    · simp only [List.mem_cons, List.not_mem_nil, or_false] at hs
      omega
    · rw [State.setOp_ps, startVerify_boot (updateRuns_stopped h)]
    · rw [State.op_setOp_same]
    · refine ⟨?_, opFail_phase _ _ _, verified_failed s e⟩
      rw [verified_failed, State.opFail, State.setOp_ps, State.raise_ps, huskTo_boot _ (verifyCounted_stopped h)]
    · rw [verified_passed, State.opDone, State.op_setOp_same, State.setOp_ps, State.setPs_ps]
      exact ⟨huskTo_boot _ (verifyCounted_stopped h), rfl, rfl, rfl⟩
  case arms =>
    intro s
    dsimp only
    refine ⟨fun h hs => ⟨fun ha => next_congr ?_, fun ha => ⟨_, next_congr ?_, huskTo_updateDone (updateRuns_stopped h)⟩⟩,
      fun h hs => ⟨_, next_congr ((ite_not_of_true h).trans (if_neg (not_not_intro hs))),
        huskTo_updateDone (updateRuns_stopped h)⟩,
      fun h hs => ⟨fun hc => next_congr ?_, fun hm hc => ⟨fun hg => next_congr ?_, fun hg => ⟨_, next_congr ?_, rfl, ?_,
        updateDone_phase _⟩⟩⟩,
      fun h hs => ⟨_, next_congr ((ite_not_of_true h).trans (if_neg (not_not_intro hs))), ?_, updateDone_phase _⟩⟩
    · exact (ite_not_of_true h).trans ((if_neg (not_not_intro hs)).trans (ite_not_of_false ha))
    · exact (ite_not_of_true h).trans ((if_neg (not_not_intro hs)).trans (ite_not_of_true ha))
    · exact (ite_not_of_true h).trans ((if_neg (not_not_intro hs)).trans (if_pos hc))
    · exact (ite_not_of_true h).trans ((if_neg (not_not_intro hs)).trans ((if_neg (by simp [hm, hc])).trans
        (ite_not_of_false hg)))
    · exact (ite_not_of_true h).trans ((if_neg (not_not_intro hs)).trans ((if_neg (by simp [hm, hc])).trans
        (ite_not_of_true hg)))
    · rw [updateDone_boot, agreeOtp_boot, huskTo_boot _ (updateRuns_stopped h)]
    · rw [updateDone_boot, fallBack_boot 2 (updateRuns_stopped h)]
  case otp =>
    intro s
    refine ⟨fun h => if_pos (.inl h), fun h => ?_⟩
    rw [agreeOtp_otp s h]
    exact ⟨rfl, rfl, rfl, rfl⟩

end Sys2Proof.Proofs

namespace Sys2Proof.Proofs
open Sys2Proof Sys2Proof.Machine Sys2Proof.Laws

/-! ## What a review leaves (R430) -/

section
variable (s : State)

theorem review_cases :
    s.review = s ∨ s.review = (s.setSup { s.sup with live := true, grant := true }).bump 0x180 1 1
      ∨ s.review = s.setSup { s.sup with live := false, grant := false } := by
  by_cases h : s.enableBlock = 0
  · cases hl : s.sup.live with
    | true => exact .inl (review_of_live h hl)
    | false => exact .inr (.inl (review_of_off h hl))
  · exact .inr (.inr (review_of_blocked h))

theorem review_ps : s.review.ps = s.ps := by
  rcases review_cases s with h | h | h <;> rw [h]
  · rw [State.bump_ps]
    rfl
  · rfl

theorem review_startMode : s.review.sup.startMode = s.sup.startMode := by
  rcases review_cases s with h | h | h <;> rw [h]
  · rw [State.bump_sup]
    rfl
  · rfl

theorem review_reg (p off : Nat) : s.review.reg p off = s.reg p off := by
  rcases review_cases s with h | h | h <;> rw [h]
  · rw [State.reg, State.bump_regs]
    rfl
  · rfl

end

/-- A field set to 0 reads 0. -/
theorem fieldOf_setField_zero (w : Word) : fieldOf (setField w 1 0 0) 1 0 = 0 := by
  have hmask : (~~~(maskOf 1 0)).toNat = 0xfffffffc := by decide
  simp only [fieldOf, setField, Nat.zero_mod, Nat.zero_mul, BitVec.or_zero, BitVec.toNat_and, hmask,
    pow_zero, Nat.div_one]
  rw [Nat.and_mod_two_pow]
  simp

/-! ## Generations committed by an idle engine (R414, R416) -/

/-- An engine that runs with no record in flight and none waiting. -/
structure Idle (s : State) : Prop where
  stopped : s.ps.stopped = false
  inFlight : s.ps.inFlight = none
  waiting : s.ps.waiting = []

section
variable {s : State}

theorem turnTaken_of_idle (h : s.ps.inFlight = none) : turnTaken s = s := by
  unfold turnTaken
  rw [h]

theorem LinesWritten.idle {s t : State} (h : LinesWritten s t) (hi : Idle s) : Idle t :=
  ⟨(congrArg PState.stopped h.ps :).trans hi.stopped, (congrArg PState.inFlight h.ps :).trans hi.inFlight,
    (congrArg PState.waiting h.ps :).trans hi.waiting⟩

theorem Idle.congr {s t : State} (h : Idle s) (hs : t.ps.stopped = s.ps.stopped) (hf : t.ps.inFlight = s.ps.inFlight)
    (hw : t.ps.waiting = s.ps.waiting) : Idle t :=
  ⟨hs.trans h.stopped, hf.trans h.inFlight, hw.trans h.waiting⟩

theorem landedNow_idle (r : NvRecord) (h : Idle s) : Idle (landedNow s r) := by
  refine ((writePlace_linesWritten _ r.cls r.place _).idle (h.congr ?_ ?_ ?_)).congr rfl rfl rfl <;> rw [State.bump_ps] <;> rfl

theorem landedNow_gen (s : State) (r : NvRecord) (k : Nat) : (landedNow s r).gen k = s.gen k := by
  simp only [State.gen, landedNow_nv]

theorem landedNow_boot (s : State) (r : NvRecord) : (landedNow s r).ps.nv.boot = s.ps.nv.boot := by rw [landedNow_nv]

/-- A record committed at once by an idle engine: its effect follows its landing, and the engine stays idle. -/
theorem commitNow_of_idle {r : NvRecord} (h : Idle s) (hm : Idle ((landedNow s r).markEffect r.effect s.ps.nv.nextJseq)) :
    s.commitNow r = (landedNow s r).markEffect r.effect s.ps.nv.nextJseq := by
  rw [commitNow_of_running s r h.stopped, turnTaken_of_idle h.inFlight, issueNext_of_idle hm.waiting]

/-- A generation's record replaced. -/
def withGen (nv : Nv) (g : Nat) (q : GenRec) : Nv :=
  if g = 0 then { nv with gen0 := some q } else { nv with gen1 := some q }

theorem markEffect_gen (g : Nat) (q : GenRec) (j : DWord) : s.markEffect (.gen g q) j = s.setNv (withGen s.ps.nv g q) := by
  unfold State.markEffect withGen
  dsimp only
  split <;> rfl

theorem withGen_boot (nv : Nv) (g : Nat) (q : GenRec) : (withGen nv g q).boot = nv.boot := by
  unfold withGen
  split <;> rfl

theorem gen_withGen_same (s : State) (g : Nat) (q : GenRec) : (s.setNv (withGen s.ps.nv g q)).gen g = some q := by
  by_cases h : g = 0 <;> simp [State.gen, State.setNv, withGen, h]

theorem gen_withGen_other (s : State) {g k : Nat} (q : GenRec) (h : k = 0 ↔ ¬g = 0) :
    (s.setNv (withGen s.ps.nv g q)).gen k = s.gen k := by
  by_cases hg : g = 0 <;> simp [State.gen, State.setNv, withGen, h, hg]

end

/-- What a write of generation `g` leaves: that generation and no other, WORK_GEN as given. -/
structure GenWritten (s : State) (g : Nat) (q : GenRec) (work : Nat) (t : State) : Prop where
  boot : t.ps.nv.boot = { s.ps.nv.boot with workGen := work }
  written : t.gen g = some q
  other : ∀ k, (k = 0 ↔ ¬g = 0) → t.gen k = s.gen k

theorem GenWritten.congr {s t u : State} {g work : Nat} {q : GenRec} (h : GenWritten s g q work t)
    (hb : u.ps.nv.boot = t.ps.nv.boot) (hg : ∀ k, u.gen k = t.gen k) : GenWritten s g q work u :=
  ⟨hb.trans h.boot, (hg g).trans h.written, fun k hk => (hg k).trans (h.other k hk)⟩

theorem commitNow_gen_of_idle {s : State} {r : NvRecord} {g : Nat} {q : GenRec} (he : r.effect = .gen g q) (h : Idle s) :
    Idle (s.commitNow r) ∧ GenWritten s g q s.ps.nv.boot.workGen (s.commitNow r) := by
  have heffect : (landedNow s r).markEffect r.effect s.ps.nv.nextJseq =
      (landedNow s r).setNv (withGen (landedNow s r).ps.nv g q) := by rw [he, markEffect_gen]
  have hidle : Idle ((landedNow s r).markEffect r.effect s.ps.nv.nextJseq) := by
    rw [heffect]
    exact (landedNow_idle r h).congr rfl rfl rfl
  rw [commitNow_of_idle h hidle]
  refine ⟨hidle, ?_, ?_, fun k hk => ?_⟩ <;> rw [heffect]
  · exact (withGen_boot _ g q).trans (landedNow_boot s r)
  · exact gen_withGen_same _ g q
  · exact (gen_withGen_other _ q hk).trans (landedNow_gen s r k)

theorem commitNow_boot_of_idle {s : State} {r : NvRecord} {b : BootRec} (he : r.effect = .boot b) (h : Idle s) :
    Idle (s.commitNow r) ∧ ∀ k, (s.commitNow r).gen k = s.gen k := by
  have heffect : (landedNow s r).markEffect r.effect s.ps.nv.nextJseq =
      (landedNow s r).setNv { (landedNow s r).ps.nv with boot := b } := by rw [he]; rfl
  have hidle : Idle ((landedNow s r).markEffect r.effect s.ps.nv.nextJseq) := by
    rw [heffect]
    exact (landedNow_idle r h).congr rfl rfl rfl
  rw [commitNow_of_idle h hidle]
  refine ⟨hidle, fun k => ?_⟩
  rw [heffect]
  exact landedNow_gen s r k

theorem commitBoot_of_idle {s : State} (b : BootRec) (h : Idle s) :
    Idle (s.commitBoot b) ∧ ∀ k, (s.commitBoot b).gen k = s.gen k :=
  commitNow_boot_of_idle (s := s.setNv { s.ps.nv with bootPos := s.ps.nv.bootPos + 1 }) rfl (h.congr rfl rfl rfl)

section
variable {s : State}

theorem genTarget_of_trial (h : s.huskState = 7) : s.genTarget = s.ps.nv.boot.workGen := if_pos h

theorem genTarget_of_no_trial (h : s.huskState ≠ 7) : s.genTarget = 1 - s.ps.nv.boot.workGen := if_neg h

/-- The record of generation `g` written from an image (R414). -/
def genRecord (g : Nat) (img : List Byte) (q : GenRec) : NvRecord :=
  let head := padTo 64
    (leBytes 2 1 ++ zeros 2 ++ leBytes 4 q.len ++ leBytes 8 q.seq.toNat ++ leBytes 8 q.writer.toNat
      ++ leBytes 4 q.schema.toNat ++ (img.drop 0x1c).take 8 ++ leBytes 4 q.pcv.toNat ++ leBytes 4 q.pcvConfirmed.toNat
      ++ leBytes 1 q.pcvOk.toNat)
  { cls := 4, place := .offset (mramGen g), body := padTo (q.len - 16) (head ++ img.drop 64), effect := .gen g q }

theorem putGen_of_trial (img : List Byte) (q : GenRec) (h : s.huskState = 7) :
    s.putGen img q = s.commitNow (genRecord s.genTarget img q) := if_pos h

theorem putGen_of_no_trial (img : List Byte) (q : GenRec) (h : s.huskState ≠ 7) :
    let s1 := s.commitNow (genRecord s.genTarget img q)
    s.putGen img q = s1.commitBoot { s1.ps.nv.boot with workGen := s.genTarget } := if_neg h

/-- A generation put down by an idle engine is WORK_GEN, in TRIAL and outside. -/
theorem putGen_written (img : List Byte) (q : GenRec) (h : Idle s) :
    GenWritten s s.genTarget q s.genTarget (s.putGen img q) := by
  obtain ⟨hrest, hgen⟩ := commitNow_gen_of_idle (r := genRecord s.genTarget img q) rfl h
  by_cases h7 : s.huskState = 7
  · rw [putGen_of_trial img q h7]
    exact ⟨hgen.boot.trans (by rw [genTarget_of_trial h7]), hgen.written, hgen.other⟩
  · rw [putGen_of_no_trial img q h7]
    generalize s.commitNow (genRecord s.genTarget img q) = u at hrest hgen
    obtain ⟨-, hkept⟩ := commitBoot_of_idle { u.ps.nv.boot with workGen := s.genTarget } hrest
    refine ⟨?_, (hkept _).trans hgen.written, fun k hk => (hkept k).trans (hgen.other k hk)⟩
    rw [commitBoot_boot _ hrest.stopped, hgen.boot]

theorem Handed.gen {s t : State} (h : Handed s t) (k : Nat) : t.gen k = s.gen k := by
  have h0 : t.ps.nv.gen0 = s.ps.nv.gen0 := (congrArg Nv.gen0 h.nv :)
  have h1 : t.ps.nv.gen1 = s.ps.nv.gen1 := (congrArg Nv.gen1 h.nv :)
  simp only [State.gen, h0, h1]

theorem journal_gen (s : State) (body : List Byte) (step : Option (DWord × Nat)) (k : Nat) :
    (s.journal body step).gen k = s.gen k := (submit_handed _ _).gen k

end

/-! ## WRITE_GEN (R414 to R416) -/

section
variable (s : State)

/-- GEN_SEQ of a generation, 0 where it was never written. -/
def seqOf (q : Option GenRec) : DWord := match q with | some r => r.seq | none => 0#64

theorem nextGenSeq_eq :
    s.nextGenSeq =
      (if seqOf s.ps.nv.gen0 < seqOf s.ps.nv.gen1 then seqOf s.ps.nv.gen1 else seqOf s.ps.nv.gen0) + 1 := rfl

theorem seqOf_lt {q : Option GenRec} (h : ∀ r, q = some r → r.seq.toNat < 2 ^ 64 - 1) : (seqOf q).toNat < 2 ^ 64 - 1 := by
  cases q with
  | none => decide
  | some r => exact h r rfl

/-- The next GEN_SEQ lies above both, while neither is the largest. -/
theorem seqOf_lt_nextGenSeq (h0 : (seqOf s.ps.nv.gen0).toNat < 2 ^ 64 - 1) (h1 : (seqOf s.ps.nv.gen1).toNat < 2 ^ 64 - 1) :
    (seqOf s.ps.nv.gen0).toNat < s.nextGenSeq.toNat ∧ (seqOf s.ps.nv.gen1).toNat < s.nextGenSeq.toNat := by
  rw [nextGenSeq_eq]
  generalize seqOf s.ps.nv.gen0 = a at h0
  generalize seqOf s.ps.nv.gen1 = b at h1
  split <;> bv_omega

theorem gen_seq_lt_nextGenSeq {g : Nat} {q : GenRec} (hg : s.gen g = some q)
    (h : ∀ k p, s.gen k = some p → p.seq.toNat < 2 ^ 64 - 1) : q.seq.toNat < s.nextGenSeq.toNat := by
  obtain ⟨h0, h1⟩ := seqOf_lt_nextGenSeq s (seqOf_lt fun r hr => h 0 r hr) (seqOf_lt fun r hr => h 1 r hr)
  by_cases hz : g = 0
  · have hgen : s.ps.nv.gen0 = some q := by simpa [State.gen, hz] using hg
    rwa [hgen] at h0
  · have hgen : s.ps.nv.gen1 = some q := by simpa [State.gen, hz] using hg
    rwa [hgen] at h1

/-- Are the length, the alignment and the version of an image those of R414? -/
def ImageShaped (img : List Byte) (len : Nat) : Prop :=
  len = ofLeBytes ((img.drop 4).take 4) ∧ len % 64 = 0 ∧ 128 ≤ len ∧ len ≤ 8388608 ∧ ofLeBytes (img.take 2) = 1

/-- Does the parameter set of an image lie inside it? -/
def ImageFits (img : List Byte) (len : Nat) : Prop :=
  0x40 + 8 * (psetOf img).1 + ((psetOf img).2.1 + 7) / 8 * 8 + 64 ≤ len

/-- Are the register entries of an image well-formed and allowed (R415)? -/
def entriesOk (img : List Byte) : Bool :=
  (regEntries (psetOf img).1 (psetOf img).2.2.1).all fun e => e.ok && s.entryAllowed e

section
variable {s} {img : List Byte} {len : Nat}

theorem genError_of_not_shaped (h : ¬ImageShaped img len) : s.genError img len = 0x100 :=
  if_pos (by unfold ImageShaped at h; omega)

section
variable (hs : ImageShaped img len)
include hs

theorem not_misshapen : ¬(len ≠ ofLeBytes ((img.drop 4).take 4) ∨ len % 64 ≠ 0 ∨ len < 128 ∨ 8388608 < len
    ∨ ofLeBytes (img.take 2) ≠ 1) := by
  unfold ImageShaped at hs
  omega

theorem genError_of_not_fitting (hf : ¬ImageFits img len) : s.genError img len = 0x101 :=
  (if_neg (not_misshapen hs)).trans (if_pos (Nat.not_le.mp hf))

theorem genError_of_fitting (hf : ImageFits img len) :
    s.genError img len = if !(entriesOk s img) then 0x102 else 0 :=
  (if_neg (not_misshapen hs)).trans (if_neg (Nat.not_lt.mpr hf))

end

theorem genError_eq_zero_iff :
    s.genError img len = 0 ↔ ImageShaped img len ∧ ImageFits img len ∧ entriesOk s img = true := by
  by_cases hs : ImageShaped img len
  · by_cases hf : ImageFits img len
    · rw [genError_of_fitting hs hf]
      cases entriesOk s img <;> simp [hs, hf]
    · simp [genError_of_not_fitting hs hf, hf]
  · simp [genError_of_not_shaped hs, hs]

theorem doWriteGen_of_idle (h : s.opActive 0x171 1 = false ∨ s.ps.stopped = true) : s.doWriteGen = s :=
  if_pos (by simpa using h)

theorem doWriteGen_of_active (ha : s.opActive 0x171 1 = true) (hs : s.ps.stopped = false) :
    s.doWriteGen =
      let src := (s.op 0x171).arg0.toNat
      let len := (s.op 0x171).arg1.toNat
      let img := memBytes s.mem.sram src len
      if src % 64 ≠ 0 then s.opFail 0x171 2#32
      else if 0x2000000 < src + len ∨ eccBad s.mem.sramEcc 16 src len then (s.opFail 0x171 0x103#32).raise 0x171 0 []
      else if s.genError img len ≠ 0 then s.opFail 0x171 (BitVec.ofNat 32 (s.genError img len))
      else s.takeGen img (s.newGen len (imagePcv img)) := if_neg (by simp [ha, hs])

variable (img) in
/-- WRITE_GEN by an idle engine: its generation and WORK_GEN. -/
theorem takeGen_written (q : GenRec) (h : Idle s) : GenWritten s s.genTarget q s.genTarget (s.takeGen img q) := by
  obtain ⟨hboot, hwritten, hother⟩ := putGen_written (s := s.bw 85 q.len) img q (h.congr rfl rfl rfl)
  refine GenWritten.congr (t := (s.bw 85 q.len).putGen img q) ⟨hboot, hwritten, hother⟩ ?_ fun k => ?_
  · exact journal_boot _ _ _
  · exact journal_gen _ _ _ k

/-- The two generations are 0 and 1: what is not the one is the other. -/
theorem GenWritten.other_one_sub {s t : State} {g work : Nat} {q : GenRec} (h : GenWritten s g q work t) (hg : g ≤ 1) :
    t.gen (1 - g) = s.gen (1 - g) := h.other _ (by omega)

end

end

/-! ## PCV_CONFIRM (R417, R418) -/

section
variable {s : State} (v : Word)

theorem doPcvConfirm_of_not_commissioning (h : s.ps.commissioning = false) : s.doPcvConfirm v = s.bump 0x172 0 1 :=
  if_pos (by rw [State.bump_ps, h]; rfl)

theorem doPcvConfirm_of_commissioning (h : s.ps.commissioning = true) :
    let u := s.bump 0x172 0 1
    s.doPcvConfirm v = if u.genBusy then u.setPs { u.ps with confirmHeld := some v } else u.judgePcv v :=
  if_neg (by rw [State.bump_ps, h]; exact Bool.false_ne_true)

theorem doPcvDeferred_of_held (h : s.ps.confirmHeld = some v) (hb : s.genBusy = false) :
    s.doPcvDeferred = (s.setPs { s.ps with confirmHeld := none }).judgePcv v := by
  unfold State.doPcvDeferred
  rw [h]
  exact if_neg (Bool.eq_false_iff.mp hb)

theorem doPcvDeferred_of_quiet (h : s.ps.confirmHeld = none ∨ s.genBusy = true) : s.doPcvDeferred = s := by
  unfold State.doPcvDeferred
  split
  next v hv => exact if_pos (h.resolve_left (by simp [hv]))
  next => rfl

theorem judgePcv_of_none (hc : s.ps.commissioning = true) (hw : s.workGen = none) :
    s.judgePcv v = s.setPs { s.ps with stale := true } := by
  refine (if_neg (by simp [hc])).trans ?_
  rw [hw]

theorem judgePcv_of_some {r : GenRec} (hc : s.ps.commissioning = true) (hw : s.workGen = some r) :
    s.judgePcv v =
      if r.pcv ≠ s.reg 0x172 Reg.commissioning.pcvComputed then s.setPs { s.ps with stale := true }
      else if v ≠ s.reg 0x172 Reg.commissioning.pcvComputed then
        ((s.satReg 0x172 Reg.commissioning.pcvMismatches 1).bump 0x172 1 1).raise 0x172 0 []
      else s.confirmPset r v := by
  refine (if_neg (by simp [hc])).trans ?_
  rw [hw]

/-- The generation that a confirmation writes: the working one with its confirmation. -/
def confirmedGen (s : State) (r : GenRec) (v : Word) : GenRec :=
  { r with seq := s.nextGenSeq, pcvConfirmed := v, pcvOk := true }

/-- The confirmed generation written, with its journal entry of kind 0x05. -/
def confirmWritten (s : State) (r : GenRec) (v : Word) : State :=
  (s.putGen (s.mramBytes (mramGen s.ps.nv.boot.workGen) r.len) (confirmedGen s r v)).journal
    (journalBody 5 0 0 0 v.toNat s.nextGenSeq.toNat) none

/-- Commissioning ended after a confirmation. -/
def confirmEnded (s : State) (r : GenRec) (v : Word) : State :=
  (confirmWritten s r v).setPs { (confirmWritten s r v).ps with commissioning := false, appliedConfirmed := some v }

theorem confirmPset_eq (s : State) (r : GenRec) (v : Word) :
    s.confirmPset r v =
      (((confirmEnded s r v).setSup { (confirmEnded s r v).sup with startMode := 0 }).setReg 0x001 Reg.ident.startStatus
        (setField ((confirmEnded s r v).reg 0x001 Reg.ident.startStatus) 1 0 0)).review := rfl

theorem confirmPset_ps (s : State) (r : GenRec) (v : Word) :
    (s.confirmPset r v).ps =
      { (confirmWritten s r v).ps with commissioning := false, appliedConfirmed := some v } := by
  rw [confirmPset_eq, review_ps]
  rfl

theorem confirmPset_written (r : GenRec) (h : Idle s) :
    GenWritten s s.genTarget (confirmedGen s r v) s.genTarget (s.confirmPset r v) := by
  refine (putGen_written (s.mramBytes (mramGen s.ps.nv.boot.workGen) r.len) (confirmedGen s r v) h).congr ?_ fun k => ?_
  · rw [confirmPset_ps]
    exact journal_boot _ _ _
  · rw [State.gen, confirmPset_ps]
    exact journal_gen _ _ _ k

theorem psetConfirmed_of_workGen {r : GenRec} (hw : s.workGen = some r) (hr : r.pcvOk = true) : s.psetConfirmed = true := by
  unfold State.psetConfirmed
  rw [hw]
  exact hr

/-- A generation that WORK_GEN names is the working one. -/
theorem GenWritten.workGen {s t : State} {g : Nat} {q : GenRec} (h : GenWritten s g q g t) : t.workGen = some q := by
  have hname : t.ps.nv.boot.workGen = g := congrArg BootRec.workGen h.boot
  rw [State.workGen, hname, h.written]

end

/-- Settles O54: WRITE_GEN by its target, the check value by the branches of its judgement. -/
theorem generationsAreWrittenAndTheCheckValueConfirmed :
    Obligations.GenerationsAreWrittenAndTheCheckValueConfirmed := by
  unfold Obligations.GenerationsAreWrittenAndTheCheckValueConfirmed
  refine ⟨?writeGen, ?errors, ?newGen, ?takes, ?confirms, ?judges⟩
  case writeGen =>
    intro s
    refine ⟨fun h => next_congr (doWriteGen_of_idle h), fun ha hs => ?_⟩
    have hrun := doWriteGen_of_active ha hs
    dsimp only at hrun ⊢
    refine ⟨fun h => next_congr (hrun.trans (if_pos h)), fun h hd => next_congr (hrun.trans ?_), fun h hd img hi => ?_⟩
    · rw [if_neg (not_not_intro h), if_pos hd]
    · rw [if_neg (not_not_intro h), if_neg hd, hi] at hrun
      refine ⟨fun e he h0 => next_congr (hrun.trans ?_), fun h0 => next_congr (hrun.trans (if_neg (not_not_intro h0)))⟩
      rw [he, if_pos h0]
  case errors =>
    intro s img len
    refine ⟨fun h => genError_of_not_shaped h, fun hs hf => genError_of_not_fitting hs hf, fun hs hf he => ?_,
      genError_eq_zero_iff⟩
    exact (genError_of_fitting hs hf).trans (ite_not_of_false he)
  case newGen =>
    intro s len pcv
    refine ⟨beq_iff_eq, rfl, rfl, rfl, rfl, rfl, fun h0 h1 => ?_, fun g q hg h => gen_seq_lt_nextGenSeq s hg h⟩
    rw [nextGenSeq_eq, h0, h1]
    rfl
  case takes =>
    intro s img r hs hf hw hle
    have h := takeGen_written img r ⟨hs, hf, hw⟩
    dsimp only
    refine ⟨opDone_phase _ _, fun h7 => ?_, fun h7 => ?_⟩
    · rw [genTarget_of_trial h7] at h
      exact ⟨h.written, h.boot, h.other_one_sub hle⟩
    · rw [genTarget_of_no_trial h7] at h
      exact ⟨h.written, h.boot, h.other _ (by omega)⟩
  case confirms =>
    intro m v s
    refine ⟨fun hm => ⟨fun hc => next_written hm (doPcvConfirm_of_not_commissioning v hc), fun hc => ⟨fun hb => ?_,
      fun hb => ?_⟩⟩, fun h => next_congr (doPcvDeferred_of_quiet h), fun h hb => next_congr (doPcvDeferred_of_held v h hb)⟩
    · exact next_written hm ((doPcvConfirm_of_commissioning v hc).trans (if_pos hb))
    · exact next_written hm ((doPcvConfirm_of_commissioning v hc).trans (if_neg (Bool.eq_false_iff.mp hb)))
  case judges =>
    intro v s
    dsimp only
    refine ⟨fun hc => if_pos (by rw [hc]; rfl), fun hc => ⟨judgePcv_of_none v hc, fun r hw => ⟨fun hp => ?_, fun hp hv => ?_,
      fun hp hv => ⟨_, judgePcv_of_some v hc hw, ?_⟩⟩⟩⟩
    · rw [judgePcv_of_some v hc hw, if_pos hp]
    · rw [judgePcv_of_some v hc hw, if_neg (not_not_intro hp), if_pos hv]
    · rw [if_neg (not_not_intro hp), if_neg (not_not_intro hv)]
      refine ⟨?_, ?_, ?_, ?_, fun hs hf hwt _ => ?_⟩
      · rw [confirmPset_ps]
      · rw [confirmPset_ps]
      · rw [confirmPset_eq, review_startMode]
        rfl
      · rw [confirmPset_eq, review_reg, State.reg_setReg_same, fieldOf_setField_zero]
      · exact psetConfirmed_of_workGen (confirmPset_written v r ⟨hs, hf, hwt⟩).workGen rfl

end Sys2Proof.Proofs
